-- ==== Sys2Proof/Word.lean ====
section
/-! DEFINITION. The words of the engine's interfaces, sparse maps, and little-endian byte strings (R8). -/

namespace Sys2Proof

/-- One byte. -/
abbrev Byte := BitVec 8
/-- A register or record field of 32 bits. -/
abbrev W32 := BitVec 32
/-- A register or record field of 64 bits. -/
abbrev W64 := BitVec 64

/-- Bits `[lo + n - 1 : lo]` of a number (R8; log 3, DESIGN CHOICE). -/
def field (v lo n : Nat) : Nat := v / 2 ^ lo % 2 ^ n

/-- Bit `i` of a number (R8). -/
def bit (v i : Nat) : Bool := v / 2 ^ i % 2 == 1

/-- `v` with bits `[lo + n - 1 : lo]` replaced by the low `n` bits of `x`. -/
def setField (v lo n x : Nat) : Nat :=
  v - field v lo n * 2 ^ lo + x % 2 ^ n * 2 ^ lo

/-- `v` with bit `i` set or cleared. -/
def setBit (v i : Nat) (b : Bool) : Nat := setField v i 1 b.toNat

/-- Counters of `n` bits that stop at their largest value. -/
def satAdd (n v k : Nat) : Nat := min (v + k) (2 ^ n - 1)

/-- `v` taken as an `n`-bit two's complement number. -/
def toSigned (n v : Nat) : Int := if v % 2 ^ n < 2 ^ (n - 1) then (v % 2 ^ n : Nat) else (v % 2 ^ n : Nat) - (2 ^ n : Nat)

/-- The `n`-bit pattern of an integer. -/
def ofSigned (n : Nat) (v : Int) : Nat := (v % (2 ^ n : Nat)).toNat

/-- Number of set bits among the low `n` bits. -/
def popcount : Nat → Nat → Nat
  | 0, _ => 0
  | n + 1, v => v % 2 + popcount n (v / 2)

/-- The indices below `n` whose bit is set, ascending. -/
def bitsOf (n v : Nat) : List Nat := (List.range n).filter (bit v)

/-- The word whose set bits are the listed indices. -/
def ofBits (l : List Nat) : Nat := l.foldl (fun v i => setBit v i true) 0

/-- Rounded-up division. -/
def ceilDiv (a b : Nat) : Nat := (a + b - 1) / b

/-- A number as `n` bytes, least significant first (R8). -/
def leBytes : Nat → Nat → List Byte
  | 0, _ => []
  | n + 1, v => BitVec.ofNat 8 v :: leBytes n (v / 256)

/-- The number that bytes spell, least significant first (R8). -/
def leNat : List Byte → Nat
  | [] => 0
  | b :: t => b.toNat + 256 * leNat t

/-- The number that bytes spell, most significant first. -/
def beNat (l : List Byte) : Nat := l.foldl (fun a b => a * 256 + b.toNat) 0

/-- A number as `n` bytes, most significant first. -/
def beBytes (n v : Nat) : List Byte := (leBytes n v).reverse

/-- `n` zero bytes. -/
def zeros (n : Nat) : List Byte := List.replicate n 0

/-- The first `n` bytes, padded with zeros to length `n`. -/
def fitTo (n : Nat) (l : List Byte) : List Byte := l.take n ++ zeros (n - l.length)

/-- Bytes `[off, off + n)` of a record as a number (R8). -/
def rdLE (l : List Byte) (off n : Nat) : Nat := leNat ((l.drop off).take n)

/-- Whether every byte is zero. -/
def allZero (l : List Byte) : Bool := l.all (· == 0)

/-- Consecutive groups of `n` elements, at most `fuel` of them. -/
def groups {α : Type} (n : Nat) : Nat → List α → List (List α)
  | 0, _ => []
  | fuel + 1, l => if l.isEmpty then [] else l.take n :: groups n fuel (l.drop n)

/-- A sparse map: pairs of a key and a value, keys strictly rising. -/
abbrev KV (α : Type) := List (Nat × α)

/-- The value held under a key. -/
def KV.find {α : Type} : KV α → Nat → Option α
  | [], _ => none
  | (k, v) :: t, q => if k = q then some v else KV.find t q

/-- The value held under a key, or a default. -/
def KV.get {α : Type} (d : α) (m : KV α) (k : Nat) : α := (KV.find m k).getD d

/-- Stores a value under a key, keeping the keys in order. -/
def KV.put {α : Type} : KV α → Nat → α → KV α
  | [], q, x => [(q, x)]
  | (k, v) :: t, q, x =>
    if q < k then (q, x) :: (k, v) :: t
    else if q = k then (q, x) :: t
    else (k, v) :: KV.put t q x

/-- Removes a key. -/
def KV.del {α : Type} (m : KV α) (q : Nat) : KV α := m.filter (fun p => p.1 != q)

/-- Replaces the value under a key by a function of it (`d` where there is none). -/
def KV.upd {α : Type} (d : α) (m : KV α) (k : Nat) (f : α → α) : KV α := KV.put m k (f (KV.get d m k))

/-- Keys of a map. -/
def KV.keys {α : Type} (m : KV α) : List Nat := m.map (·.1)

/-- Replaces the first element that satisfies `p`. -/
def updFirst {α : Type} (p : α → Bool) (f : α → α) : List α → List α
  | [] => []
  | x :: t => if p x then f x :: t else x :: updFirst p f t

/-- Replaces the element at an index, if there is one. -/
def updAt {α : Type} (l : List α) (i : Nat) (f : α → α) : List α := l.modify i f

/-- Insertion of an element into a list ordered by `le`; equal elements keep their order of arrival. -/
def insertBy {α : Type} (le : α → α → Bool) (x : α) : List α → List α
  | [] => [x]
  | y :: t => if le y x then y :: insertBy le x t else x :: y :: t

/-- Stable sort by `le`. -/
def sortBy {α : Type} (le : α → α → Bool) (l : List α) : List α :=
  l.foldl (fun acc x => insertBy le x acc) []

/-- Bytes of one HBM, as cells with strictly rising addresses and no zero byte; an address not listed reads 0. -/
abbrev Mem := List Host.Cell

end Sys2Proof
end

