-- ==== Sys2Proof/Frames.lean ====
section
/-! DEFINITION. What crosses the Sluice ports: chunk headers (Table 8-2, Table 12-2), fitting frames (Tables 7-1 to 7-3)
and Pattern frame headers (Table 2-16), as records with the manual's field names. -/

namespace Sys2Proof

/-- Chunk header (Table 8-2); the last six fields are bytes 37 to 51 of KIND 6 (Table 12-2), zero in the other kinds;
PLEAT_LEN is OP_LEN there. -/
structure ChunkHdr where
  kind : Nat
  wfmt : Nat := 0
  epoch : Nat := 0
  step : Nat := 0
  src : Nat
  dst : Nat
  slot : Nat := 0
  cflags : Nat := 0
  chunkId : Nat := 0
  plen : Nat := 0
  offset : Nat := 0
  pleatLen : Nat := 0
  polder : Nat := 0
  op : Nat := 0
  place : Nat := 0
  dtype : Nat := 0
  root : Nat := 0
  pos : Nat := 0
  chunkIdx : Nat := 0
  pcrc : Nat := 0
  hcrc : Nat := 0
deriving DecidableEq, Repr

/-- Bytes 0 to 59 of a chunk header (Table 8-2, Table 12-2). -/
def ChunkHdr.bytes60 (h : ChunkHdr) : List Byte :=
  leBytes 1 h.kind ++ leBytes 1 h.wfmt ++ leBytes 2 h.epoch ++ leBytes 4 h.step ++ leBytes 4 h.src ++ leBytes 4 h.dst ++
  leBytes 1 h.slot ++ leBytes 1 h.cflags ++ leBytes 2 h.chunkId ++ leBytes 4 h.plen ++ leBytes 8 h.offset ++
  leBytes 4 h.pleatLen ++ leBytes 1 h.polder ++ leBytes 1 h.op ++ leBytes 1 h.place ++ leBytes 1 h.dtype ++
  leBytes 4 h.root ++ leBytes 4 h.pos ++ leBytes 4 h.chunkIdx ++ leBytes 4 0 ++ leBytes 4 h.pcrc

/-- Fitting frame header (Table 7-1). -/
structure FitHdr where
  kind : Nat
  slot : Nat
  epoch : Nat
  step : Nat
  src : Nat
  dst : Nat
  round : Nat
  fflags : Nat
  count : Nat
  crc : Nat := 0
deriving DecidableEq, Repr

/-- Bytes 0 to 59 of a fitting frame header (Table 7-1). -/
def FitHdr.bytes60 (h : FitHdr) : List Byte :=
  leBytes 1 h.kind ++ leBytes 1 h.slot ++ leBytes 2 h.epoch ++ leBytes 4 h.step ++ leBytes 4 h.src ++ leBytes 4 h.dst ++
  leBytes 1 h.round ++ leBytes 1 h.fflags ++ leBytes 2 h.count ++ zeros 40

/-- Bid record (Table 7-2), in claim frames with its answer. -/
structure BidRec where
  token : Nat
  expert : Nat
  rank : Nat
  bflags : Nat := 0
  prio : Nat
  answer : Nat := 0
deriving DecidableEq, Repr

def BidRec.bytes (b : BidRec) : List Byte :=
  leBytes 4 b.token ++ leBytes 2 b.expert ++ leBytes 1 b.rank ++ leBytes 1 b.bflags ++ leBytes 4 b.prio ++ leBytes 4 b.answer

/-- Grant record (Table 7-3). -/
structure GrantRec where
  token : Nat
  rank : Nat
  result : Nat
deriving DecidableEq, Repr

def GrantRec.bytes (g : GrantRec) : List Byte := leBytes 4 (g.token % 2 ^ 20 + g.rank * 2 ^ 20) ++ leBytes 4 g.result

/-- Pattern frame header (Table 2-16). -/
structure PatHdr where
  patternId : Nat
  seq : Nat
  total : Nat
  plen : Nat
  fflags : Nat
  crc : Nat := 0
deriving DecidableEq, Repr

/-- Bytes 0 to 27 of a Pattern frame header (Table 2-16). -/
def PatHdr.bytes28 (h : PatHdr) : List Byte :=
  leBytes 8 h.patternId ++ leBytes 4 h.seq ++ leBytes 4 h.total ++ leBytes 2 h.plen ++ leBytes 2 h.fflags ++ zeros 8

/-- A SYNC message (R332): the timestamps and the switches' correction, in ps, the unit of TWK_DET_TIME_OFS (log 28, DEDUCED). -/
structure SyncMsg where
  peer : Nat
  reply : Bool
  t1 : Nat := 0
  t2 : Nat := 0
  t3 : Nat := 0
  corr : Nat := 0
deriving DecidableEq, Repr

/-- Variant record (R371): the variant and revision its body states, and its signature under a key slot. -/
structure VariantRec where
  variant : Nat
  rev : Nat
  body : List Byte
  sig : List Byte
  keySlot : Nat
deriving DecidableEq, Repr

/-- A trusted key slot (R32). -/
structure KeySlot where
  key : List Byte := []
  occupied : Bool := false
  revoked : Bool := false
deriving DecidableEq, Repr

/-- What the management controller supplies at bring-up (Table 16-1 phase 1, R16, R113, R347). -/
structure BootRecords where
  variant : Option VariantRec
  keys : List KeySlot
  qmapLo : List Nat
  qmapHi : List Nat
  failed : List Nat
  colmap0 : Nat
  colmap1 : Nat
  lost : List Nat
deriving DecidableEq, Repr

/-- How the Spool words of an arriving packet read (R244, R246, R247): as written; corrected, `again` where the same symbol
of the cell has been before; from a word on, counted from 0, the data or the metadata uncorrectable. And, of a packet whose
end has not come, how many of its words have been written so far (R235; log 19, DEDUCED). -/
inductive SpoolRead where
  | good
  | corrected (again : Bool)
  | badData (word : Nat)
  | badMeta (word : Nat)
  | sofar (words : Nat)
deriving DecidableEq, Repr

/-- MEM_RSTAT of a returned line (R415). -/
inductive LineStat where
  | ok | corrected | uncorrectable
deriving DecidableEq, Repr

/-- A frame or message as it came: its payload, and how the Spool words of it read. -/
structure Received where
  bytes : List Byte
  read : SpoolRead := .good
deriving DecidableEq, Repr

/-- What the engine read a line for (Table 15-10), with the ring and index, layer slot or step concerned. -/
inductive ReadPurpose where
  | descriptor (ring : Nat)
  | weight (slot : Nat)
  | rowScoring (ring idx token : Nat)
  | rowSending (ring idx token : Nat)
  | area (slot step token : Nat)
  | returned (slot step token : Nat)
  | collective (ring idx : Nat)
  | bobbin (buffer : Nat)
  | deepSave
deriving DecidableEq, Repr

end Sys2Proof
end

