-- ==== Sys2Proof/Syntax.lean ====
section
/-! DEFINITION. The commands of the engine, one constructor per row of the opcode table, in the table's order. A command
of a ring names the ring and the descriptor's index; a command that reports the end of engine work names that work. -/

namespace Sys2Proof

/-- One command. -/
inductive Instr where
  | powerGood (r : BootRecords)
  | spinePhaseDone
  | waveRelease (wave : Nat)
  | waveSelftestDone (wave : Nat) (failedBays : List Nat)
  | linkTrained (port : Nat) (up : Bool) (peerMin peerMax : Nat) (swred fixedOrder : Bool) (ownChip peerChip : Nat)
  | peerVersionLearned (chip version : Nat)
  | linkStateChange (port : Nat) (up : Bool)
  | clockMissing (island : Nat)
  | engPorstN
  | engCrstN
  | tapePorstN (pufOk : Bool)
  | load (bcast : Bool)
  | abort
  | localReadComplete
  | verifyDone
  | applyDone
  | patternFrame (src : Nat) (h : PatHdr) (payload : Received)
  | frameTimeout
  | repairBitmap (src : Nat) (missing : List Nat)
  | repairRequest (src : Nat) (seqs : List Nat)
  | repairRoundTimeout
  | stateReport (chip st : Nat)
  | hallStatusTimeout
  | stepBoundary (slot : Nat)
  | doorbell (queue byteOff : Nat) (wide : Bool) (value : Nat)
  | descriptorFetch (ring : Nat)
  | waitPoll (ring idx : Nat)
  | dependencyReleased (ring idx : Nat)
  | completionStall (ring : Nat)
  | cplHead (slot value : Nat)
  | attach (slot : Nat)
  | detach (slot : Nat)
  | clearStop (slot : Nat)
  | memoryWriteAck
  | memoryReadReturn (line : Nat) (stat : LineStat) (retry : LineStat) (what : ReadPurpose)
  | nop (ring idx : Nat)
  | fence (ring idx : Nat)
  | cancel (ring idx : Nat)
  | score (ring idx : Nat)
  | route (ring idx : Nat)
  | tileSelected (ring idx tile : Nat)
  | tablePass (table : Nat) (band : Option Nat) (mismatch checker : Bool) (wc : LineStat) (line : Nat)
  | bidFrame (port : Option Nat) (chunkId : Nat) (h : FitHdr) (recs : List BidRec) (rd : SpoolRead)
  | grantFrame (port : Option Nat) (chunkId : Nat) (h : FitHdr) (recs : List GrantRec) (rd : SpoolRead)
  | claimFrame (port : Option Nat) (chunkId : Nat) (h : FitHdr) (recs : List BidRec) (rd : SpoolRead)
  | reserveRetry (slot step : Nat)
  | reserveTimeout (slot step : Nat)
  | pleatSortDone (ring idx : Nat)
  | burstGrant
  | dispatchChunk (port : Option Nat) (h : ChunkHdr) (payload : List Byte) (rd : SpoolRead)
  | voidList (port : Option Nat) (h : ChunkHdr) (payload : List Byte) (rd : SpoolRead)
  | returnChunk (port : Option Nat) (h : ChunkHdr) (payload : List Byte) (rd : SpoolRead)
  | backwardDispatchChunk (port : Option Nat) (h : ChunkHdr) (payload : List Byte) (rd : SpoolRead)
  | backwardReturnChunk (port : Option Nat) (h : ChunkHdr) (payload : List Byte) (rd : SpoolRead)
  | copyChunk (port : Option Nat) (h : ChunkHdr) (payload : List Byte) (rd : SpoolRead)
  | ack (chip : Nat) (ids : List Nat)
  | nak (chip id : Nat)
  | ackTimeout (entry : Nat)
  | pathExclusionExpiry (chip port : Nat)
  | ackCoalesceTimeout (chip : Nat)
  | combine (ring idx : Nat)
  | ret (ring idx : Nat)
  | routeBwd (ring idx : Nat)
  | returnBwd (ring idx : Nat)
  | combineBwd (ring idx : Nat)
  | copy (ring idx : Nat)
  | stepEnd (ring idx : Nat)
  | tack (ring idx : Nat)
  | barrier (ring idx : Nat)
  | admitSeq (ring idx : Nat)
  | retire (ring idx : Nat)
  | release (ring idx : Nat)
  | bcast (ring idx : Nat)
  | reduce (ring idx : Nat)
  | groupForm (ring idx : Nat)
  | groupReform (ring idx : Nat)
  | formUp (port : Option Nat) (h : ChunkHdr) (payload : Received)
  | formDown (port : Option Nat) (h : ChunkHdr) (payload : Received)
  | formTimeout (group : Nat)
  | countUp (port : Option Nat) (h : ChunkHdr) (payload : Received)
  | countDown (port : Option Nat) (h : ChunkHdr) (payload : Received)
  | bcastData (port : Option Nat) (h : ChunkHdr) (payload : List Byte) (rd : SpoolRead)
  | reduceData (port : Option Nat) (h : ChunkHdr) (payload : List Byte) (rd : SpoolRead) (sumBad : Bool)
  | factorData (port : Option Nat) (h : ChunkHdr) (payload : List Byte) (rd : SpoolRead)
  | swRefused (port : Option Nat) (h : ChunkHdr) (payload : Received)
  | collectiveAbort (port : Option Nat) (h : ChunkHdr) (payload : Received)
  | barrierUp (port : Option Nat) (h : ChunkHdr) (payload : Received)
  | barrierDown (port : Option Nat) (h : ChunkHdr) (payload : Received)
  | barrierRelease (group bseq : Nat)
  | tackNotice (port : Option Nat) (h : ChunkHdr) (payload : Received)
  | tackLatch
  | syncTimer
  | syncMessage (m : SyncMsg) (at_ : Nat)
  | syncTimeout
  | create (slot id : Nat)
  | createDone (slot : Nat)
  | destroy (slot : Nat)
  | destroyDone (slot : Nat)
  | schDestroyId (id : Nat)
  | park (slot : Nat)
  | parkDone (slot : Nat)
  | unpark (slot : Nat)
  | unparkDone (slot : Nat)
  | evict (slot : Nat)
  | evictDone (slot : Nat)
  | quarantineEnd (template : Nat)
  | restore (slot id : Nat)
  | restoreDone (slot : Nat)
  | consent (slot byteOff : Nat) (wide : Bool) (value : Nat)
  | consentTimeout (slot : Nat)
  | tideWindowStart
  | tideWindowEnd (overrunNs : Nat)
  | slowdownUpdate
  | engMode (value : Nat)
  | detSeed (byteOff : Nat) (wide : Bool) (value : Nat)
  | bind
  | unbind
  | invalidate
  | bindFillDone (slot : Nat)
  | wcmdPendExecute (slot : Nat)
  | selBiasAddr (byteOff : Nat) (wide : Bool) (value : Nat)
  | biasZeroingDone (slot : Nat)
  | biasPendExecute (slot : Nat)
  | hemDiagCmd (value : Nat)
  | diagDone
  | tblScrub (repaired differ half : Nat)
  | scrub (cell : Nat) (stat : LineStat) (again : Bool)
  | sweepDone (queue : Nat)
  | backpressureTimeout (queue : Nat)
  | mxRel (handle count : Nat)
  | releaseMessage
  | bobInit
  | poolConfigWrite (off : Nat) (wide : Bool) (value : Nat)
  | initDone
  | poolEmptyTimeout (pool : Nat)
  | laneMismatch (quarter logical lane cycle : Nat)
  | halfMismatch (unit half : Nat)
  | gussetSubstitution
  | bayReset (bay : Nat)
  | bayResetDone (bay : Nat) (passed : Bool)
  | dikeReset (dike : Nat)
  | dikeResetDone (dike : Nat) (passed : Bool)
  | computeReset
  | computeResetDone (passed : Bool)
  | computeResetRequest
  | bayResetRequest (bay : Nat)
  | hold (nseq chip : Nat)
  | resume (nseq chip : Nat)
  | lost (nseq chip : Nat)
  | clearNotice (nseq chip : Nat)
  | suspect (nseq chip : Nat)
  | probe (src : Nat)
  | probeAnswer (chip : Nat)
  | probeTimeout (chip : Nat)
  | wakeTol (value : Nat)
  | idleTimeout
  | tideWake
  | powerEntryDone
  | powerExitDone (saveReadable : Bool)
  | engFunc (value : Nat)
  | funcTransitionDone (fn : Nat)
  | gauBind (byteOff : Nat) (wide : Bool) (value : Nat)
  | gauClear
  | gauClearAll
  | levelSample (us : Nat)
  | evtHead (value : Nat)
  | evtBase (off : Nat) (wide : Bool) (value : Nat)
  | managementAddress (addr : Nat)
  | registerWrite (mgmt : Bool) (off : Nat) (wide : Bool) (value : Nat)
  | senseFrame (bits : Nat)
  | periodClose
  | handshakeAnswer
  | handshakeTimeout
  | tapePfwN
  | getIdentity
  | getStatus
  | readRecord (seq : Nat)
  | challenge (nonce : List Byte)
  | readChallenge
  | getClient (client : Nat)
  | calibrate (vOfs vGain iOfs iGain : Nat)
  | seal
  | mmioRead (mgmt : Bool) (off : Nat) (wide : Bool)
  | keySlotRevoked (keySlot : Nat)
  | containmentCleared (bay : Option Nat) (dike : Option Nat)
  | timeRootDesignated
deriving DecidableEq, Repr

end Sys2Proof
end

