-- ==== Sys2Proof/Config.lean ====
section
/-! DEFINITION. Free values: what the spec leaves open is an opaque constant here, applied to the state's counter of
free values or to the operands it depends on (log 4, DESIGN CHOICE). No proof can see one. -/

namespace Sys2Proof.Config

/-- A fresh 64-bit value for each count. -/
opaque free64 : Nat → W64
/-- A fresh byte for each count. -/
opaque freeByte : Nat → Byte
/-- Which of the three positive NaN patterns E5M2 conversions of NaN give; R91 names no pattern. -/
opaque e5m2Nan : BitVec 8
/-- Byte i of the private key that Tape derives from its PUF response (R405). -/
opaque pufKeyByte : Nat → Byte
/-- Byte i of the public key that Tape reports while its key could not be reconstructed (R405). -/
opaque tapeNoKeyByte : Nat → Byte
/-- ROM_VER of Tape (R408). -/
opaque tapeRomVersion : W32
/-- Whether a time in ns, given as a numerator and a denominator, is rounded up in a solo estimate (Table 13-12). -/
opaque nsRoundsUp : Nat → Nat → Bool
/-- Core cycles of a tile, or of a token on the bypass, for the forms that Tables 4-4 and 4-5 and R111 give no sum for. -/
opaque tileCyclesOther : List Nat → Nat
/-- SLOWDOWN for a change of ACC_ACTUAL where that of ACC_SOLO is 0 (R319). -/
opaque slowdownOfNoSolo : Nat → BitVec 16
/-- A mean reading (0 V, 1 I, 2 power) that is negative or past its field (Table 18-5). -/
opaque tapeMeanOut : Nat → Int → W32

/-- CHECK of a cell's metadata bits [103:0]; the spec names the code, not its generator (R227, R228). -/
opaque metaCheck : Nat → BitVec 24

/-- Chip ID of the hall's time root as the other chips know it; the spec names no register that tells it (R332). -/
opaque timeRootChip : BitVec 17

end Sys2Proof.Config
end

