-- ==== Sys2Proof/Machine/Regs.lean ====
section
/-! DEFINITION. Offsets of the registers in the MMIO window (the register tables of chapters 2 to 20), by register name;
a register of a polder slot by its offset within the slot (Tables 3-3, 13-1). -/

namespace Sys2Proof.Machine.Reg

/-- TWK_PAT_CTRL. -/
def patCtrl : Nat := 0x10000
/-- TWK_PAT_STATUS. -/
def patStatus : Nat := 0x10004
/-- TWK_PAT_SRC. -/
def patSrc : Nat := 0x10008
/-- TWK_PAT_LEN. -/
def patLen : Nat := 0x10010
/-- TWK_PAT_VERSION. -/
def patVersion : Nat := 0x10014
/-- TWK_PAT_ID. -/
def patId : Nat := 0x10018
/-- TWK_PAT_FRAMES. -/
def patFrames : Nat := 0x10020
/-- TWK_PAT_FRAME_ERR. -/
def patFrameErr : Nat := 0x10024
/-- TWK_PAT_DROPPED_DB. -/
def patDroppedDb : Nat := 0x10028
/-- TWK_PAT_KEEP. -/
def patKeep : Nat := 0x10030
/-- TWK_PAT_BAYS_UNCFG. -/
def patBaysUncfg : Nat := 0x10040
/-- TWK_PAT_HALL_STATUS. -/
def patHallStatus : Nat := 0x10048
/-- TWK_PAT_KEYSTAT. -/
def patKeystat : Nat := 0x10050
/-- TWK_PLD_RING_SEL (offset within the slot). -/
def pldRingSel : Nat := 0x100
/-- TWK_PLD_RING_BASE (offset within the slot). -/
def pldRingBase : Nat := 0x108
/-- TWK_PLD_RING_CFG (offset within the slot). -/
def pldRingCfg : Nat := 0x110
/-- TWK_PLD_RING_QUEUE (offset within the slot). -/
def pldRingQueue : Nat := 0x114
/-- TWK_PLD_CPL_BASE (offset within the slot). -/
def pldCplBase : Nat := 0x118
/-- TWK_PLD_RING_HEADWB (offset within the slot). -/
def pldRingHeadwb : Nat := 0x120
/-- TWK_PLD_RING_CMD (offset within the slot). -/
def pldRingCmd : Nat := 0x128
/-- TWK_PLD_RING_STATUS (offset within the slot). -/
def pldRingStatus : Nat := 0x12C
/-- TWK_PLD_RING_HEAD (offset within the slot). -/
def pldRingHead : Nat := 0x130
/-- TWK_PLD_RING_TAIL (offset within the slot). -/
def pldRingTail : Nat := 0x134
/-- TWK_PLD_CPL_HEAD (offset within the slot). -/
def pldCplHead : Nat := 0x138
/-- TWK_PLD_CPL_TAIL (offset within the slot). -/
def pldCplTail : Nat := 0x13C
/-- TWK_CT_CTRL. -/
def ctCtrl : Nat := 0x40000
/-- TWK_CT_STATUS. -/
def ctStatus : Nat := 0x40004
/-- TWK_CT_COLMAP0. -/
def ctColmap0 : Nat := 0x40008
/-- TWK_CT_COLMAP1. -/
def ctColmap1 : Nat := 0x4000C
/-- TWK_CT_SLOT_SEL. -/
def ctSlotSel : Nat := 0x40010
/-- TWK_CT_WIMG. -/
def ctWimg : Nat := 0x40018
/-- TWK_CT_WCMD. -/
def ctWcmd : Nat := 0x40020
/-- TWK_CT_WSTAT. -/
def ctWstat : Nat := 0x40024
/-- TWK_CT_WGEN. -/
def ctWgen : Nat := 0x40028
/-- TWK_WC_ERR. -/
def wcErr : Nat := 0x40030
/-- TWK_CT_CHECKS. -/
def ctChecks : Nat := 0x40038
/-- TWK_CT_MISMATCH. -/
def ctMismatch : Nat := 0x40040
/-- TWK_HEM_CTRL. -/
def hemCtrl : Nat := 0x50000
/-- TWK_HEM_STATUS. -/
def hemStatus : Nat := 0x50004
/-- TWK_HEM_TBLREV. -/
def hemTblrev : Nat := 0x50008
/-- TWK_HEM_SLOT_SEL. -/
def hemSlotSel : Nat := 0x5000C
/-- TWK_HEM_SLOTCFG. -/
def hemSlotcfg : Nat := 0x50010
/-- TWK_HEM_CLAMPED. -/
def hemClamped : Nat := 0x50018
/-- TWK_HEM_NONFINITE. -/
def hemNonfinite : Nat := 0x5001C
/-- TWK_HEM_LAYERMODE0. -/
def hemLayermode0 : Nat := 0x50020
/-- TWK_HEM_DIAG_CMD. -/
def hemDiagCmd : Nat := 0x50040
/-- TWK_HEM_DIAG_STATUS. -/
def hemDiagStatus : Nat := 0x50044
/-- TWK_HEM_DIAG_A. -/
def hemDiagA : Nat := 0x50048
/-- TWK_HEM_DIAG_B. -/
def hemDiagB : Nat := 0x5004C
/-- TWK_HEM_DIAG_OUT. -/
def hemDiagOut : Nat := 0x50050
/-- TWK_HEM_TBL_ERR. -/
def hemTblErr : Nat := 0x50054
/-- TWK_SEL_SLOT_SEL. -/
def selSlotSel : Nat := 0x60000
/-- TWK_SEL_STATUS. -/
def selStatus : Nat := 0x60004
/-- TWK_SEL_BIASADDR. -/
def selBiasaddr : Nat := 0x60008
/-- TWK_SEL_ROT. -/
def selRot : Nat := 0x60010
/-- TWK_SEL_NUMERIC_ROW. -/
def selNumericRow : Nat := 0x60014
/-- TWK_SEL_MASKED_ROW. -/
def selMaskedRow : Nat := 0x60018
/-- TWK_SEL_INF_ROW. -/
def selInfRow : Nat := 0x6001C
/-- TWK_SEL_ZERO_WEIGHT. -/
def selZeroWeight : Nat := 0x60020
/-- TWK_SEL_BIAS_SKIPPED. -/
def selBiasSkipped : Nat := 0x60024
/-- TWK_FIT_TLAYER. -/
def fitTlayer : Nat := 0x60100
/-- TWK_FIT_CAP. -/
def fitCap : Nat := 0x60104
/-- TWK_FIT_STATUS. -/
def fitStatus : Nat := 0x60108
/-- TWK_FIT_REFUSED. -/
def fitRefused : Nat := 0x6010C
/-- TWK_FIT_DROPPED. -/
def fitDropped : Nat := 0x60110
/-- TWK_FIT_UNREACHABLE. -/
def fitUnreachable : Nat := 0x60114
/-- TWK_FIT_EARLY_BIDS. -/
def fitEarlyBids : Nat := 0x60118
/-- TWK_FIT_VOIDED. -/
def fitVoided : Nat := 0x6011C
/-- TWK_PLT_SLOT_SEL. -/
def pltSlotSel : Nat := 0x70000
/-- TWK_PLT_SHAPE_ADDR. -/
def pltShapeAddr : Nat := 0x70008
/-- TWK_PLT_STATUS. -/
def pltStatus : Nat := 0x70010
/-- TWK_PLT_RT_SEL. -/
def pltRtSel : Nat := 0x70014
/-- TWK_PLT_RT_DATA. -/
def pltRtData : Nat := 0x70018
/-- TWK_SHU_CH_STATUS. -/
def shuChStatus (i : Nat) : Nat := 0x80000 + 256 * i
/-- TWK_SHU_CH_BYTES. -/
def shuChBytes (i : Nat) : Nat := 0x80008 + 256 * i
/-- TWK_SHU_CH_WAIT. -/
def shuChWait (i : Nat) : Nat := 0x80010 + 256 * i
/-- TWK_SHU_TT_STATUS. -/
def shuTtStatus : Nat := 0x84000
/-- TWK_SHU_ERR_ADDR. -/
def shuErrAddr : Nat := 0x84008
/-- TWK_SHU_ERR. -/
def shuErr : Nat := 0x84010
/-- TWK_SLC_PORT_STATUS. -/
def slcPortStatus (i : Nat) : Nat := 0x90000 + 1024 * i
/-- TWK_SLC_VC_WEIGHT. -/
def slcVcWeight (i : Nat) : Nat := 0x90008 + 1024 * i
/-- TWK_SLC_TX_CHUNKS. -/
def slcTxChunks (i : Nat) : Nat := 0x90010 + 1024 * i
/-- TWK_SLC_RX_CHUNKS. -/
def slcRxChunks (i : Nat) : Nat := 0x90018 + 1024 * i
/-- TWK_SLC_CRC_FAIL. -/
def slcCrcFail (i : Nat) : Nat := 0x90020 + 1024 * i
/-- TWK_SLC_NAK_TX. -/
def slcNakTx (i : Nat) : Nat := 0x90024 + 1024 * i
/-- TWK_SLC_REPLAY. -/
def slcReplay (i : Nat) : Nat := 0x90028 + 1024 * i
/-- TWK_SLC_DUP_CHUNK. -/
def slcDupChunk (i : Nat) : Nat := 0x9002C + 1024 * i
/-- TWK_SLC_ACK_TO. -/
def slcAckTo : Nat := 0x94000
/-- TWK_SLC_PEERVER_SEL. -/
def slcPeerverSel : Nat := 0x94004
/-- TWK_SLC_PEERVER. -/
def slcPeerver : Nat := 0x94008
/-- TWK_SLC_EXCLUDED. -/
def slcExcluded : Nat := 0x9400C
/-- TWK_SEM_SLOT_SEL. -/
def semSlotSel : Nat := 0xA0000
/-- TWK_SEM_STATUS. -/
def semStatus : Nat := 0xA0004
/-- TWK_SEM_LV_ADDR. -/
def semLvAddr : Nat := 0xA0008
/-- TWK_SEM_AREA_BYTES. -/
def semAreaBytes : Nat := 0xA0010
/-- TWK_SEM_STALE. -/
def semStale : Nat := 0xA0018
/-- TWK_SEM_TAG_MISMATCH. -/
def semTagMismatch : Nat := 0xA001C
/-- TWK_SEM_UNREADABLE. -/
def semUnreadable : Nat := 0xA0020
/-- TWK_SEM_NODOT. -/
def semNodot : Nat := 0xA0024
/-- TWK_SEM_LOWVIS. -/
def semLowvis : Nat := 0xA0028
/-- TWK_SPL_QSEL. -/
def splQsel : Nat := 0xB0000
/-- TWK_SPL_QCFG. -/
def splQcfg : Nat := 0xB0008
/-- TWK_SPL_QSTAT. -/
def splQstat : Nat := 0xB0010
/-- TWK_SPL_QPKT. -/
def splQpkt : Nat := 0xB0018
/-- TWK_SPL_POOL. -/
def splPool : Nat := 0xB0020
/-- TWK_SPL_BANKS. -/
def splBanks : Nat := 0xB0028
/-- TWK_SPL_ECC. -/
def splEcc : Nat := 0xB0030
/-- TWK_SPL_RETIRED. -/
def splRetired : Nat := 0xB0034
/-- TWK_SPL_FLUSHED. -/
def splFlushed : Nat := 0xB0038
/-- TWK_SPL_BP_STALL. -/
def splBpStall : Nat := 0xB003C
/-- TWK_SPL_CELL_SEL. -/
def splCellSel : Nat := 0xB0040
/-- TWK_SPL_CELL_META0. -/
def splCellMeta0 : Nat := 0xB0048
/-- TWK_SPL_CELL_META1. -/
def splCellMeta1 : Nat := 0xB0050
/-- TWK_SPL_SCRUB. -/
def splScrub : Nat := 0xB0058
/-- TWK_BOB_CTRL. -/
def bobCtrl : Nat := 0xC0000
/-- TWK_BOB_STATUS. -/
def bobStatus : Nat := 0xC0004
/-- TWK_BOB_TABLE. -/
def bobTable : Nat := 0xC0008
/-- TWK_BOB_POLDER_SEL. -/
def bobPolderSel : Nat := 0xC0010
/-- TWK_BOB_POOL_SEL. -/
def bobPoolSel : Nat := 0xC0014
/-- TWK_BOB_HELD. -/
def bobHeld : Nat := 0xC0018
/-- TWK_BOB_RESV. -/
def bobResv : Nat := 0xC0020
/-- TWK_BOB_SEQS. -/
def bobSeqs : Nat := 0xC0028
/-- TWK_BOB_DF. -/
def bobDf : Nat := 0xC002C
/-- TWK_BOB_ORPHAN. -/
def bobOrphan : Nat := 0xC0030
/-- TWK_BOB_RESV_SHORT. -/
def bobResvShort : Nat := 0xC0034
/-- TWK_BOB_QUERY. -/
def bobQuery : Nat := 0xC0038
/-- TWK_BOB_ENTRY. -/
def bobEntry : Nat := 0xC0040
/-- TWK_BOB_POOL_BASE. -/
def bobPoolBase (i : Nat) : Nat := 0xC0100 + 16 * i
/-- TWK_BOB_POOL_COUNT. -/
def bobPoolCount (i : Nat) : Nat := 0xC0108 + 16 * i
/-- TWK_BOB_POOL_FREE. -/
def bobPoolFree (i : Nat) : Nat := 0xC010C + 16 * i
/-- TWK_COL_CTRL. -/
def colCtrl : Nat := 0xD0000
/-- TWK_COL_STATUS. -/
def colStatus : Nat := 0xD0004
/-- TWK_COL_GROUP_SEL. -/
def colGroupSel : Nat := 0xD0008
/-- TWK_COL_GSTAT. -/
def colGstat : Nat := 0xD0010
/-- TWK_COL_GMEMBERS. -/
def colGmembers : Nat := 0xD0018
/-- TWK_COL_GEXCLUDE. -/
def colGexclude : Nat := 0xD0020
/-- TWK_COL_GSEQ. -/
def colGseq : Nat := 0xD0028
/-- TWK_COL_GFLAGS. -/
def colGflags : Nat := 0xD002C
/-- TWK_COL_FORM_TO. -/
def colFormTo : Nat := 0xD0030
/-- TWK_COL_SW. -/
def colSw : Nat := 0xD0034
/-- TWK_COL_REBUILT. -/
def colRebuilt : Nat := 0xD0038
/-- TWK_COL_ABORTS. -/
def colAborts : Nat := 0xD003C
/-- TWK_PLD_CMD (offset within the slot). -/
def pldCmd : Nat := 0x0
/-- TWK_PLD_STATUS (offset within the slot). -/
def pldStatus : Nat := 0x4
/-- TWK_PLD_SAVE (offset within the slot). -/
def pldSave : Nat := 0x8
/-- TWK_PLD_STAGE_SAVE (offset within the slot). -/
def pldStageSave : Nat := 0x10
/-- TWK_PLD_STAGE_PIECE (offset within the slot). -/
def pldStagePiece : Nat := 0x18
/-- TWK_PLD_STAGE_PLEN (offset within the slot). -/
def pldStagePlen : Nat := 0x20
/-- TWK_PLD_STAGE_CLIENT (offset within the slot). -/
def pldStageClient : Nat := 0x24
/-- TWK_PLD_CLIENT (offset within the slot). -/
def pldClient : Nat := 0x28
/-- TWK_PLD_SAVE_NEED (offset within the slot). -/
def pldSaveNeed : Nat := 0x2C
/-- TWK_PLD_CONSENT (offset within the slot). -/
def pldConsent : Nat := 0x30
/-- TWK_PLD_CONSENT_ERR (offset within the slot). -/
def pldConsentErr : Nat := 0x38
/-- TWK_PLD_FAULT (offset within the slot). -/
def pldFault : Nat := 0x3C
/-- TWK_PLD_FAULT_TAG (offset within the slot). -/
def pldFaultTag : Nat := 0x40
/-- TWK_SCH_CTRL. -/
def schCtrl : Nat := 0x30000
/-- TWK_SCH_TIDE. -/
def schTide : Nat := 0x30004
/-- TWK_SCH_DESTROY_ID. -/
def schDestroyId : Nat := 0x30008
/-- TWK_SCH_QUARANTINE. -/
def schQuarantine : Nat := 0x3000C
/-- TWK_SCH_LIVE0. -/
def schLive0 : Nat := 0x30010
/-- TWK_SCH_OFFHOME. -/
def schOffhome : Nat := 0x30030
/-- TWK_DET_STATUS. -/
def detStatus : Nat := 0xE0000
/-- TWK_DET_HALLTIME. -/
def detHalltime : Nat := 0xE0008
/-- TWK_DET_SEED_SEL. -/
def detSeedSel : Nat := 0xE0010
/-- TWK_DET_SEED. -/
def detSeed : Nat := 0xE0018
/-- TWK_DET_TIME_OFS. -/
def detTimeOfs : Nat := 0xE0020
/-- TWK_DET_TIME_PARENT. -/
def detTimeParent : Nat := 0xE0024
/-- TWK_DET_BARRIER. -/
def detBarrier : Nat := 0xE0028
/-- TWK_DET_VOIDS. -/
def detVoids : Nat := 0xE002C
/-- TWK_ENG_REPLACE. -/
def engReplace : Nat := 0x40
/-- TWK_FLT_STATUS. -/
def fltStatus : Nat := 0xF0000
/-- TWK_FLT_CTRL. -/
def fltCtrl : Nat := 0xF0004
/-- TWK_FLT_BAYS. -/
def fltBays : Nat := 0xF0010
/-- TWK_FLT_DIKES. -/
def fltDikes : Nat := 0xF0018
/-- TWK_FLT_FAILED. -/
def fltFailed (i : Nat) : Nat := 0xF0020 + 4 * i
/-- TWK_FLT_QMAP_LO. -/
def fltQmapLo (i : Nat) : Nat := 0xF0040 + 16 * i
/-- TWK_FLT_QMAP_HI. -/
def fltQmapHi (i : Nat) : Nat := 0xF0048 + 16 * i
/-- TWK_FLT_NOTICE. -/
def fltNotice : Nat := 0xF0080
/-- TWK_FLT_NOTICE_SEQ. -/
def fltNoticeSeq : Nat := 0xF0088
/-- TWK_FLT_LOST_SEL. -/
def fltLostSel : Nat := 0xF0090
/-- TWK_FLT_LOST. -/
def fltLost : Nat := 0xF0094
/-- TWK_FLT_HOLD. -/
def fltHold : Nat := 0xF0098
/-- TWK_FLT_COUNT. -/
def fltCount : Nat := 0xF00A0
/-- TWK_FLT_LAST. -/
def fltLast : Nat := 0xF00A8
/-- TWK_ENG_VERSION. -/
def engVersion : Nat := 0x0
/-- TWK_ENG_VARIANT. -/
def engVariant : Nat := 0x4
/-- TWK_ENG_MODE. -/
def engMode : Nat := 0x8
/-- TWK_ENG_STATUS. -/
def engStatus : Nat := 0xC
/-- TWK_ENG_RESET. -/
def engReset : Nat := 0x10
/-- TWK_ENG_CHIPID. -/
def engChipid : Nat := 0x14
/-- TWK_ENG_FUNC. -/
def engFunc : Nat := 0x18
/-- TWK_ENG_FUNC_STATUS. -/
def engFuncStatus : Nat := 0x1C
/-- TWK_WAKE_TOL. -/
def wakeTol : Nat := 0x20
/-- TWK_PWR_STATUS. -/
def pwrStatus : Nat := 0x24
/-- TWK_PWR_DEEP_SAVE. -/
def pwrDeepSave : Nat := 0x28
/-- TWK_ENG_BOOT_NS. -/
def engBootNs : Nat := 0x30
/-- TWK_GAU_SEL. -/
def gauSel : Nat := 0x100000
/-- TWK_GAU_BIND. -/
def gauBind : Nat := 0x100008
/-- TWK_GAU_CMD. -/
def gauCmd : Nat := 0x100010
/-- TWK_GAU_STATUS. -/
def gauStatus : Nat := 0x100014
/-- TWK_GAU_VIEW. -/
def gauView : Nat := 0x100018
/-- TWK_GAU_TACK_T0. -/
def gauTackT0 : Nat := 0x100020
/-- TWK_GAU_TACK_T1. -/
def gauTackT1 : Nat := 0x100028
/-- TWK_GAU_TACK_INFO0. -/
def gauTackInfo0 : Nat := 0x100030
/-- TWK_GAU_TACK_INFO1. -/
def gauTackInfo1 : Nat := 0x100034
/-- TWK_GAU_TACK_PEND. -/
def gauTackPend : Nat := 0x100038
/-- TWK_GAU_TACK_DROP. -/
def gauTackDrop : Nat := 0x10003C
/-- TWK_GAU_RESETS. -/
def gauResets : Nat := 0x100040
/-- TWK_GAU_EXP_SEL. -/
def gauExpSel : Nat := 0x100050
/-- TWK_GAU_EXP_DEMAND. -/
def gauExpDemand : Nat := 0x100058
/-- TWK_GAU_EXP_GRANTED. -/
def gauExpGranted : Nat := 0x100060
/-- TWK_GAU_EXP_REFUSED. -/
def gauExpRefused : Nat := 0x100068
/-- TWK_GAU_EXP_SPILLED_IN. -/
def gauExpSpilledIn : Nat := 0x100070
/-- TWK_GAU_EXP_VOIDED. -/
def gauExpVoided : Nat := 0x100078
/-- TWK_GAU_EXP_LAST. -/
def gauExpLast : Nat := 0x100080
/-- TWK_GAU_SRC_PLACED. -/
def gauSrcPlaced : Nat := 0x100088
/-- TWK_GAU_SRC_SPILLED. -/
def gauSrcSpilled : Nat := 0x100090
/-- TWK_GAU_SRC_DROPPED. -/
def gauSrcDropped : Nat := 0x100098
/-- TWK_TAPE_STATUS. -/
def tapeStatus : Nat := 0x400000
/-- TWK_TAPE_VI. -/
def tapeVi : Nat := 0x400004
/-- TWK_TAPE_LEGAL. -/
def tapeLegal : Nat := 0x400008
/-- TWK_TAPE_POWER. -/
def tapePower : Nat := 0x400010
/-- TWK_TAPE_SEQ. -/
def tapeSeq : Nat := 0x400018
/-- TWK_TAPE_KEYID. -/
def tapeKeyid : Nat := 0x400020
/-- TWK_TAPE_LASTREC. -/
def tapeLastrec : Nat := 0x400100
/-- TWK_EVT_BASE. -/
def evtBase : Nat := 0x80
/-- TWK_EVT_CFG. -/
def evtCfg : Nat := 0x88
/-- TWK_EVT_MASK. -/
def evtMask : Nat := 0x8C
/-- TWK_EVT_TAIL. -/
def evtTail : Nat := 0x90
/-- TWK_EVT_HEAD. -/
def evtHead : Nat := 0x94
/-- TWK_EVT_LOST. -/
def evtLost : Nat := 0x98
/-- TWK_EVT_LAST. -/
def evtLast : Nat := 0xA0
/-- TWK_EVT_CNT. -/
def evtCnt (i : Nat) : Nat := 0xC0 + 4 * i
/-- TWK_GAU_VIEW_MGT. -/
def gauViewMgt : Nat := 0x10001C

end Sys2Proof.Machine.Reg
end

