-- ==== Sys2Proof/Machine/Float.lean ====
section
/-! DEFINITION. IEEE 754 binary32 with round to nearest even, subnormals kept (R92, R120), over exact dyadic numbers. -/

namespace Sys2Proof.Machine

/-- What a floating-point datum stands for: a NaN, a signed infinity, or the signed dyadic number `m · 2^e`. -/
inductive FVal where
  | nan
  | inf (neg : Bool)
  | fin (neg : Bool) (m : Nat) (e : Int)
deriving DecidableEq, Repr

/-- A binary format: significand bits with the hidden one, least normal exponent, total bits, largest finite pattern
without sign, the patterns of infinity and NaN where it has them. -/
structure FloatFmt where
  prec : Nat
  emin : Int
  width : Nat
  maxBits : Nat
  infBits : Option Nat
  nanBits : Option Nat
deriving DecidableEq, Repr

def fmt32 : FloatFmt := ⟨24, -126, 32, 0x7F7FFFFF, some 0x7F800000, some 0x7FC00000⟩
def fmtBF16 : FloatFmt := ⟨8, -126, 16, 0x7F7F, some 0x7F80, some 0x7FC0⟩
def fmtF16 : FloatFmt := ⟨11, -14, 16, 0x7BFF, some 0x7C00, some 0x7E00⟩
def fmtE4M3 : FloatFmt := ⟨4, -6, 8, 0x7E, none, some 0x7F⟩
/-- E5M2; its NaN is one of the three positive patterns, which one the spec does not say (log 7, DESIGN CHOICE). -/
def fmtE5M2 : FloatFmt := ⟨3, -14, 8, 0x7B, some 0x7C, some (0x7D + Config.e5m2Nan.toNat % 3)⟩
def fmtE2M3 : FloatFmt := ⟨4, 0, 6, 0x1F, none, none⟩
def fmtE3M2 : FloatFmt := ⟨3, -2, 6, 0x1F, none, none⟩
def fmtE2M1 : FloatFmt := ⟨2, 0, 4, 0x7, none, none⟩

/-- Exponent of the least bit of the subnormals. -/
def FloatFmt.qmin (f : FloatFmt) : Int := f.emin - (f.prec - 1 : Nat)

/-- The datum that a bit pattern stands for. -/
def FloatFmt.decode (f : FloatFmt) (b : Nat) : FVal :=
  let neg := bit b (f.width - 1)
  let x := b % 2 ^ (f.width - 1)
  if x ≤ f.maxBits then
    let ex := x / 2 ^ (f.prec - 1)
    let fr := x % 2 ^ (f.prec - 1)
    if ex = 0 then .fin neg fr f.qmin
    else .fin neg (fr + 2 ^ (f.prec - 1)) (f.qmin + (ex - 1 : Nat))
  else if f.infBits = some x then .inf neg else .nan

/-- `m / 2^k` rounded to nearest, ties to even. -/
def rneShift (m k : Nat) : Nat :=
  let q := m / 2 ^ k
  let r := m % 2 ^ k
  if 2 * r > 2 ^ k || (2 * r == 2 ^ k && q % 2 == 1) then q + 1 else q

/-- Exponent of the least bit kept when `m · 2^e` (`m > 0`) is rounded to the format. -/
def FloatFmt.quantum (f : FloatFmt) (m : Nat) (e : Int) : Int :=
  max (e + Nat.log2 m - (f.prec - 1 : Nat)) f.qmin

/-- The unsigned pattern of a significand `s` at quantum `q`; the carry of rounding runs into the exponent. -/
def FloatFmt.pattern (f : FloatFmt) (s : Nat) (q : Int) : Nat := (q - f.qmin).toNat * 2 ^ (f.prec - 1) + s

/-- The unsigned pattern of `m · 2^e` rounded to nearest even, before any overflow. -/
def FloatFmt.rnePattern (f : FloatFmt) (m : Nat) (e : Int) : Nat :=
  if m = 0 then 0
  else
    let q := f.quantum m e
    f.pattern (if q ≤ e then m * 2 ^ (e - q).toNat else rneShift m (q - e).toNat) q

/-- Sign bit of a format. -/
def FloatFmt.signBit (f : FloatFmt) (neg : Bool) : Nat := if neg then 2 ^ (f.width - 1) else 0

/-- The canonical NaN pattern; the largest finite one where the format has none. -/
def FloatFmt.nan (f : FloatFmt) : Nat := f.nanBits.getD f.maxBits

/-- Encodes a datum with round to nearest even; `sat` bounds finite overflow at the largest finite value. -/
def FloatFmt.encode (f : FloatFmt) (sat : Bool) : FVal → Nat
  | .nan => f.nan
  | .inf neg => match f.infBits with
    | some b => f.signBit neg + b
    | none => f.nan
  | .fin neg m e =>
    let b := f.rnePattern m e
    if b ≤ f.maxBits then f.signBit neg + b
    else if sat then f.signBit neg + f.maxBits
    else f.signBit neg + f.infBits.getD f.maxBits

/-- A binary32 pattern. -/
abbrev F32 := W32

/-- The canonical quiet NaN (R120). -/
def qNaN : F32 := 0x7FC00000#32
/-- +0. -/
def fZero : F32 := 0#32
/-- −0. -/
def fNegZero : F32 := 0x80000000#32
/-- 1.0. -/
def fOne : F32 := 0x3F800000#32
/-- +inf. -/
def fInf : F32 := 0x7F800000#32
/-- −inf. -/
def fNegInf : F32 := 0xFF800000#32

/-- The datum of a binary32 pattern. -/
def fval (x : F32) : FVal := fmt32.decode x.toNat
/-- Rounding to binary32, `rn()` of R92 and R120. -/
def rn (v : FVal) : F32 := BitVec.ofNat 32 (fmt32.encode false v)

def FVal.isNeg : FVal → Bool
  | .nan => false
  | .inf n => n
  | .fin n _ _ => n

def FVal.isZero : FVal → Bool
  | .fin _ m _ => m == 0
  | _ => false

def FVal.neg : FVal → FVal
  | .nan => .nan
  | .inf n => .inf (!n)
  | .fin n m e => .fin (!n) m e

/-- Signed significand. -/
def FVal.signed (n : Bool) (m : Nat) : Int := if n then -(m : Int) else m

/-- A dyadic number from a signed significand; a zero takes the sign given. -/
def FVal.ofInt (zneg : Bool) (i : Int) (e : Int) : FVal :=
  if i = 0 then .fin zneg 0 0 else .fin (i < 0) i.natAbs e

/-- Exact sum; an exact zero sum of opposite signs is +0. -/
def FVal.add : FVal → FVal → FVal
  | .nan, _ => .nan
  | _, .nan => .nan
  | .inf a, .inf b => if a = b then .inf a else .nan
  | .inf a, _ => .inf a
  | _, .inf b => .inf b
  | .fin a m e, .fin b n g =>
    if m = 0 then (if n = 0 then .fin (a && b) 0 0 else .fin b n g)
    else if n = 0 then .fin a m e
    else
      let k := min e g
      FVal.ofInt false (FVal.signed a (m * 2 ^ (e - k).toNat) + FVal.signed b (n * 2 ^ (g - k).toNat)) k

/-- Exact product; inf × 0 is NaN (R92). -/
def FVal.mul : FVal → FVal → FVal
  | .nan, _ => .nan
  | _, .nan => .nan
  | .inf a, .inf b => .inf (a != b)
  | .inf a, .fin b m _ => if m = 0 then .nan else .inf (a != b)
  | .fin a m _, .inf b => if m = 0 then .nan else .inf (a != b)
  | .fin a m e, .fin b n g => .fin (a != b) (m * n) (e + g)

/-- Quotient with enough significand bits for one correct rounding, its last bit standing for any remainder. -/
def FVal.div : FVal → FVal → FVal
  | .nan, _ => .nan
  | _, .nan => .nan
  | .inf _, .inf _ => .nan
  | .inf a, .fin b _ _ => .inf (a != b)
  | .fin a _ _, .inf b => .fin (a != b) 0 0
  | .fin a m e, .fin b n g =>
    if n = 0 then (if m = 0 then .nan else .inf (a != b))
    else if m = 0 then .fin (a != b) 0 0
    else
      let k := 64 + Nat.log2 n
      let q := m * 2 ^ k / n
      let r := m * 2 ^ k % n
      .fin (a != b) (2 * q + (if r = 0 then 0 else 1)) (e - g - k - 1)

/-- Comparison of numbers: `a < b`; false with a NaN. -/
def FVal.lt : FVal → FVal → Bool
  | .nan, _ => false
  | _, .nan => false
  | .inf a, .inf b => a && !b
  | .inf a, _ => a
  | _, .inf b => !b
  | .fin a m e, .fin b n g =>
    let k := min e g
    decide (FVal.signed a (m * 2 ^ (e - k).toNat) < FVal.signed b (n * 2 ^ (g - k).toNat))

def fadd (a b : F32) : F32 := rn ((fval a).add (fval b))
def fsub (a b : F32) : F32 := rn ((fval a).add (fval b).neg)
def fmul (a b : F32) : F32 := rn ((fval a).mul (fval b))
def fdiv (a b : F32) : F32 := rn ((fval a).div (fval b))
/-- Fused multiply-add rounded once (R120). -/
def ffma (a b c : F32) : F32 := rn (((fval a).mul (fval b)).add (fval c))
def fneg (a : F32) : F32 := rn (fval a).neg
def flt (a b : F32) : Bool := (fval a).lt (fval b)
def isNaN (a : F32) : Bool := fval a == .nan
def isInf (a : F32) : Bool := a == fInf || a == fNegInf
def isFin (a : F32) : Bool := !isNaN a && !isInf a
/-- A natural number, rounded. -/
def fofNat (n : Nat) : F32 := rn (.fin false n 0)
def fisZero (a : F32) : Bool := a.toNat % 2 ^ 31 == 0
/-- A subnormal pattern. -/
def isSub (a : F32) : Bool := a.toNat % 2 ^ 31 != 0 && a.toNat / 2 ^ 23 % 256 == 0

end Sys2Proof.Machine
end

