-- ==== Sys2Proof/Machine/Hem.lean ====
section
/-! DEFINITION. The Hem unit's functions, native and Askuc, to the bit (chapter 5, R120 to R135). -/

namespace Sys2Proof.Machine

/-- Table 5-2: c[k] = round(2^40 · (ln 2)^k / k!), from k = 9 down to 0. -/
def exp2Coeffs : List Nat :=
  [111909, 1453058, 16770558, 169363608, 1466040222, 10575244791, 61027412866, 264131837702, 762123384786, 1099511627776]

/-- R123: k[i] · 2^40 = round(2^40 · 2 / ((2i + 1) ln 2)), from i = 4 down to 0. -/
def log2Coeffs : List Nat := [352502216176, 453217135083, 634503989117, 1057506648528, 3172519945584]

/-- LOG2E48 · 2^48 and LN2_48 · 2^48 (R125). -/
def log2e48 : Nat := 0x171547652B82F
def ln2x48 : Nat := 0xB17217F7D1CF

/-- floor(i · 2^e) of a dyadic number. -/
def floorDyadic (i e : Int) : Int := if 0 ≤ e then i * (2 ^ e.toNat : Nat) else Int.fdiv i (2 ^ (-e).toNat : Nat)

/-- R121 on an exact dyadic argument `i · 2^e`. -/
def exp2Dyadic (i e : Int) : F32 :=
  if floorDyadic i e ≥ 128 then fInf
  else if floorDyadic i e < -149 then fZero
  else
    let t := floorDyadic i (e + 40)
    let n := Int.fdiv t (2 ^ 40)
    let r := (t - n * 2 ^ 40).toNat
    let q := (exp2Coeffs.drop 1).foldl (fun q c => c + q * r / 2 ^ 40) (exp2Coeffs.headD 0)
    rn (.fin false q (n - 40))

/-- Native exp2 (R121). -/
def exp2N (x : F32) : F32 :=
  match fval x with
  | .nan => qNaN
  | .inf n => if n then fZero else fInf
  | .fin n m e => exp2Dyadic (FVal.signed n m) e

/-- A positive dyadic magnitude `m · 2^e`. -/
abbrev Mag := Nat × Int

/-- trunc40 of R123: the 40 most significant bits of a magnitude. -/
def trunc40 (x : Mag) : Mag :=
  let k := Nat.log2 x.1 - 39
  (x.1 / 2 ^ k, x.2 + k)

def Mag.mul (a b : Mag) : Mag := (a.1 * b.1, a.2 + b.2)
def Mag.add (a b : Mag) : Mag :=
  let k := min a.2 b.2
  (a.1 * 2 ^ (a.2 - k).toNat + b.1 * 2 ^ (b.2 - k).toNat, k)

/-- e + v of R123, exactly, for a positive finite `m · 2^q`: an integer significand and an exponent. -/
def log2Exact (m : Nat) (q : Int) : Int × Int :=
  let lg := Nat.log2 m
  let e0 : Int := q + lg
  let m24 := if lg ≤ 23 then m * 2 ^ (23 - lg) else m / 2 ^ (lg - 23)
  let hi := decide (m24 ≥ 0xB504F4)
  let e := if hi then e0 + 1 else e0
  let u : Int := if hi then (m24 : Int) - 2 ^ 24 else 2 * ((m24 : Int) - 2 ^ 23)
  if u = 0 then (e, 0)
  else
    let den : Int := 2 ^ 25 + u
    let s := trunc40 (u.natAbs * 2 ^ 80 / den.toNat, -80)
    let w := trunc40 (s.mul s)
    let p := (log2Coeffs.drop 1).foldl (fun acc c => Mag.add (c, -40) (trunc40 (Mag.mul acc w))) (log2Coeffs.headD 0, -40)
    let v := trunc40 (s.mul p)
    let k := min 0 v.2
    (e * (2 ^ (-k).toNat : Nat) + (if u < 0 then -1 else 1) * ((v.1 * 2 ^ (v.2 - k).toNat : Nat) : Int), k)

/-- Native log2 (R123, Table 5-4). -/
def log2N (x : F32) : F32 :=
  match fval x with
  | .nan => qNaN
  | .inf n => if n then qNaN else fInf
  | .fin n m e =>
    if m = 0 then fNegInf
    else if n then qNaN
    else let (i, k) := log2Exact m e; rn (FVal.ofInt false i k)

/-- Native exp (Table 5-3): x × LOG2E48 exact, then the exp2 reduction. -/
def expN (x : F32) : F32 :=
  match fval x with
  | .nan => qNaN
  | .inf n => if n then fZero else fInf
  | .fin n m e => exp2Dyadic (FVal.signed n (m * log2e48)) (e - 48)

/-- Native ln (Table 5-3). -/
def lnN (x : F32) : F32 :=
  match fval x with
  | .nan => qNaN
  | .inf n => if n then qNaN else fInf
  | .fin n m e =>
    if m = 0 then fNegInf
    else if n then qNaN
    else let (i, k) := log2Exact m e; rn (FVal.ofInt false (i * ln2x48) (k - 48))

/-- Native reciprocal: correctly rounded (Table 5-3). -/
def recipN (x : F32) : F32 := fdiv fOne x

/-- Native reciprocal square root (Table 5-3, Table 5-4). -/
def rsqrtN (x : F32) : F32 :=
  match fval x with
  | .nan => qNaN
  | .inf n => if n then qNaN else fZero
  | .fin n m e =>
    if m = 0 then (if n then fNegInf else fInf)
    else if n then qNaN
    else let (i, k) := log2Exact m e; exp2Dyadic (-i) (k - 1)

/-- Askuc operands: a subnormal reads as a zero of its sign (R120). -/
def flushIn (x : F32) : F32 := if isSub x then (if x.getLsbD 31 then fNegZero else fZero) else x
/-- Askuc results: a subnormal becomes +0 (R120). -/
def flushOut (x : F32) : F32 := if isSub x then fZero else x

/-- The segment tables of the applied HEM_TABLES block: a, b, l, s, 16 entries each (R132, Table 5-6). -/
structure AskucTables where
  a : List Nat := []
  b : List Nat := []
  l : List Nat := []
  s : List Nat := []
deriving DecidableEq, Repr

/-- Askuc exp2 (R132). -/
def exp2A (t : AskucTables) (x0 : F32) : F32 :=
  match fval (flushIn x0) with
  | .nan => qNaN
  | .inf n => if n then fZero else fInf
  | .fin ng m e =>
    let i := FVal.signed ng m
    if floorDyadic i e ≥ 128 then fInf
    else if floorDyadic i e < -126 then fZero
    else
      let f := floorDyadic i (e + 16)
      let n := Int.fdiv f (2 ^ 16)
      let f16 := (f - n * 2 ^ 16).toNat
      let k := f16 / 4096
      let u := f16 % 4096
      flushOut (rn (.fin false (65536 + t.a.getD k 0 + t.b.getD k 0 * u / 4096) (n - 16)))

/-- Askuc log2 (R132, Table 5-4). -/
def log2A (t : AskucTables) (x0 : F32) : F32 :=
  match fval (flushIn x0) with
  | .nan => qNaN
  | .inf n => if n then qNaN else fInf
  | .fin ng m e =>
    if m = 0 then fNegInf
    else if ng then qNaN
    else
      let ex : Int := e + 23
      let f16 := m % 2 ^ 23 / 2 ^ 7
      let k := f16 / 4096
      let u := f16 % 4096
      let v := t.l.getD k 0 + t.s.getD k 0 * u / 4096
      flushOut (rn (FVal.ofInt false (ex * 65536 + (v : Int)) (-16)))

/-- rn(log2 e), rn(ln 2), rn(0.5) negated, KG and KC of Table 5-3. -/
def rnLog2e : F32 := 0x3FB8AA3B#32
def rnLn2 : F32 := 0x3F317218#32
def fNegHalf : F32 := 0xBF000000#32
def geluKG : F32 := 0x3FCC422A#32
def geluKC : F32 := 0x3D372713#32

/-- The function set of a slot: native, or Askuc with its tables (R131). -/
inductive HemSet where
  | native
  | askuc (t : AskucTables)
deriving DecidableEq, Repr

def HemSet.isAskuc : HemSet → Bool
  | .native => false
  | .askuc _ => true

def HemSet.fin (h : HemSet) (x : F32) : F32 := if h.isAskuc then flushIn x else x
def HemSet.fout (h : HemSet) (x : F32) : F32 := if h.isAskuc then flushOut x else x

def HemSet.exp2 : HemSet → F32 → F32
  | .native, x => exp2N x
  | .askuc t, x => exp2A t x
def HemSet.log2 : HemSet → F32 → F32
  | .native, x => log2N x
  | .askuc t, x => log2A t x
def HemSet.exp : HemSet → F32 → F32
  | .native, x => expN x
  | .askuc t, x => exp2A t (fmul (flushIn x) rnLog2e)
def HemSet.ln : HemSet → F32 → F32
  | .native, x => lnN x
  | .askuc t, x => flushOut (fmul (log2A t x) rnLn2)
def HemSet.recip (h : HemSet) (x : F32) : F32 := h.fout (recipN (h.fin x))
def HemSet.rsqrt : HemSet → F32 → F32
  | .native, x => rsqrtN x
  | .askuc t, x0 =>
    let x := flushIn x0
    match fval x with
    | .nan => qNaN
    | .inf n => if n then qNaN else fZero
    | .fin n m _ =>
      if m = 0 then (if n then fNegInf else fInf)
      else if n then qNaN
      else exp2A t (fmul fNegHalf (log2A t x))

/-- Sigmoid (Table 5-3): E = exp(−x), T = rn(1 + E), recip(T). -/
def HemSet.sigmoid (h : HemSet) (x : F32) : F32 := h.recip (fadd fOne (h.exp (fneg x)))

/-- SiLU (Table 5-3, Table 5-4). -/
def HemSet.silu (h : HemSet) (x0 : F32) : F32 :=
  let x := h.fin x0
  if x = fNegInf then fNegZero else h.fout (fmul x (h.sigmoid x))

/-- GELU in its tanh form (Table 5-3, Table 5-4; log 63, DESIGN CHOICE). -/
def HemSet.gelu (h : HemSet) (x0 : F32) : F32 :=
  let x := h.fin x0
  if x = fNegInf then fNegZero
  else
    let c := fmul (fmul x x) x
    let z := fmul geluKG (ffma geluKC c x)
    h.fout (fmul x (h.sigmoid z))

/-- The SiLU gate before its rounding to the operand format (R126); an Askuc gate flushes as R120 says (log 32, DEDUCED). -/
def HemSet.gate (h : HemSet) (a b : F32) : FVal :=
  match h with
  | .native =>
    if isFin a then ((fval a).mul (fval (h.sigmoid a))).mul (fval b)
    else (fval (h.silu a)).mul (fval b)
  | .askuc _ =>
    if isFin a then fval (flushOut (fmul (fmul (flushIn a) (h.sigmoid a)) (flushIn b)))
    else fval (flushOut (fmul (h.silu a) (flushIn b)))

/-- Diagnostic evaluation of FUNC on A and B (R137, Table 5-1); the gate in binary32. -/
def hemFunc (h : HemSet) (f : Nat) (a b : F32) : F32 :=
  match f with
  | 0 => h.exp2 a
  | 1 => h.log2 a
  | 2 => h.exp a
  | 3 => h.ln a
  | 4 => h.recip a
  | 5 => h.rsqrt a
  | 6 => h.sigmoid a
  | 7 => h.silu a
  | 8 => h.gelu a
  | _ => h.fout (rn (h.gate a b))

/-- What row normalisation answers: the prepared elements, clamps counted (R128), and whether the row was not finite (R129). -/
structure NormOut where
  row : List F32
  clamped : Nat
  nonfinite : Bool
deriving DecidableEq, Repr

/-- Row normalisation (R128, R129) with mode `norm` and `eps` on a row in binary32; Askuc slots read subnormal
elements as zeros (R120, corner cases of chapter 5; log 63, DESIGN CHOICE). -/
def hemNormalise (h : HemSet) (norm : Nat) (eps : F32) (x0 : List F32) : NormOut :=
  let x := x0.map h.fin
  let n := fofNat x.length
  let sq := fun (q t : F32) => if h.isAskuc then fadd q (fmul t t) else ffma t t q
  let bad : NormOut := ⟨x.map (fun _ => qNaN), 0, true⟩
  match norm with
  | 1 =>
    let q := x.foldl sq fZero
    let v := fadd (fdiv q n) eps
    if !isFin q then bad
    else if fisZero v then ⟨x.map (fun _ => fZero), 0, false⟩
    else let r := h.rsqrt v; ⟨x.map (fun e => fmul e r), 0, false⟩
  | 2 =>
    let p0 := if h.isAskuc then fZero else x.headD fZero
    let pq := x.foldl (fun (pq : F32 × F32) e => let t := fsub e p0; (fadd pq.1 t, sq pq.2 t)) (fZero, fZero)
    let mu := fadd p0 (fdiv pq.1 n)
    let v0 := fdiv (fsub pq.2 (fdiv (fmul pq.1 pq.1) n)) n
    if !(isFin pq.1 && isFin pq.2 && isFin mu && isFin v0) then bad
    else
      let clamp := flt v0 fZero
      let w := fadd (if clamp then fZero else v0) eps
      if fisZero w then ⟨x.map (fun _ => fZero), clamp.toNat, false⟩
      else let r := h.rsqrt w; ⟨x.map (fun e => fmul (fsub e mu) r), clamp.toNat, false⟩
  | _ => ⟨x0, 0, false⟩

/-- The rsqrt value rs and the mean-free scale of R128 for a row, as R222 uses it; +0 where R129 takes r as +0. -/
def hemRs (h : HemSet) (norm : Nat) (eps : F32) (x0 : List F32) : F32 :=
  let x := x0.map h.fin
  let n := fofNat x.length
  let sq := fun (q t : F32) => if h.isAskuc then fadd q (fmul t t) else ffma t t q
  let v := if norm = 1 then fadd (fdiv (x.foldl sq fZero) n) eps
    else
      let p0 := if h.isAskuc then fZero else x.headD fZero
      let pq := x.foldl (fun (pq : F32 × F32) e => let t := fsub e p0; (fadd pq.1 t, sq pq.2 t)) (fZero, fZero)
      let v0 := fdiv (fsub pq.2 (fdiv (fmul pq.1 pq.1) n)) n
      fadd (if flt v0 fZero then fZero else v0) eps
  if fisZero v then fZero else h.rsqrt v

/-- The dot path ⟨a, b⟩ (R135). -/
def hemDot (askuc : Bool) (a b : List F32) : F32 :=
  (a.zip b).foldl (fun s p => if askuc then fadd s (fmul p.1 p.2) else ffma p.1 p.2 s) fZero

end Sys2Proof.Machine
end

