-- ==== Sys2Proof/Machine/Formats.lean ====
section
/-! DEFINITION. Row, wire and weight formats and their conversions (R91, R182, R185 to R188), the Philox generator
(R328) and the selvage digest (R330). -/

namespace Sys2Proof.Machine

/-- Philox-4x32-10 (R328): one round. -/
def philoxRound (c : W32 × W32 × W32 × W32) (k0 k1 : W32) : W32 × W32 × W32 × W32 :=
  let p0 := 0xD2511F53 * c.1.toNat
  let p1 := 0xCD9E8D57 * c.2.2.1.toNat
  let hi := fun (p : Nat) => BitVec.ofNat 32 (p / 2 ^ 32)
  (hi p1 ^^^ c.2.1 ^^^ k0, BitVec.ofNat 32 p1, hi p0 ^^^ c.2.2.2 ^^^ k1, BitVec.ofNat 32 p0)

/-- `n` rounds of Philox, the key advancing after each (R328). -/
def philoxLoop : Nat → W32 × W32 × W32 × W32 → W32 → W32 → W32 × W32 × W32 × W32
  | 0, c, _, _ => c
  | n + 1, c, k0, k1 => philoxLoop n (philoxRound c k0 k1) (k0 + 0x9E3779B9#32) (k1 + 0xBB67AE85#32)

/-- The generator: seed and four counter words to four output words (R328). -/
def philox (seed : W64) (c0 c1 c2 c3 : Nat) : List Nat :=
  let o := philoxLoop 10 (BitVec.ofNat 32 c0, BitVec.ofNat 32 c1, BitVec.ofNat 32 c2, BitVec.ofNat 32 c3)
    (seed.truncate 32) ((seed >>> 32).truncate 32)
  [o.1.toNat, o.2.1.toNat, o.2.2.1.toNat, o.2.2.2.toNat]

/-- The rotation key ρ of a slot and step (R144, Table 14-3). -/
def rotationKey (seed : W64) (slot step : Nat) : Nat := (philox seed slot step 0 0).headD 0 % 2 ^ 14

/-- The 16-bit draw of element `j` (R187) from the counter word c3 without its group and the word c2. -/
def srDraw (seed : W64) (slot step c2 c3 j : Nat) : Nat :=
  let w := (philox seed slot step c2 (c3 + j / 8)).getD (j % 8 / 2) 0
  if j % 2 = 0 then w % 65536 else w / 65536

/-- mix() of the selvage digest (R330). -/
def digestMix (x0 : W64) : W64 :=
  let x := (x0 ^^^ (x0 >>> 33)) * 0xFF51AFD7ED558CCD#64
  let y := (x ^^^ (x >>> 33)) * 0xC4CEB9FE1A85EC53#64
  y ^^^ (y >>> 33)

/-- The hash of one written row of token `t` (R330). -/
def digestRow (t : Nat) (row : List Byte) : W64 :=
  (groups 8 (row.length / 8 + 1) row).foldl (fun h g => digestMix (h ^^^ BitVec.ofNat 64 (leNat g)))
    (digestMix (BitVec.ofNat 64 t ^^^ 0x53454C5600000000#64))

/-- Format of a ROW_FMT code (R37): 0 BF16, 1 FP32, 2 E4M3, 3 E5M2 (log 32, DEDUCED). -/
def rowFmt : Nat → FloatFmt
  | 0 => fmtBF16
  | 1 => fmt32
  | 2 => fmtE4M3
  | _ => fmtE5M2

/-- Whether finite values beyond the largest are held at it: the FP8 formats only (R91). -/
def satOf (f : FloatFmt) : Bool := f.width == 8

/-- Bytes per element of a ROW_FMT. -/
def rowElemBytes (c : Nat) : Nat := (rowFmt c).width / 8

/-- ROW_BYTES of R160. -/
def rowBytes (c d : Nat) : Nat := d * rowElemBytes c

/-- A plain conversion: round to nearest even, saturating as R91 (log 7, DESIGN CHOICE). -/
def toPlain (f : FloatFmt) (x : F32) : Nat := f.encode (satOf f) (fval x)

/-- A plain datum widened exactly to binary32. -/
def ofPlain (f : FloatFmt) (b : Nat) : F32 := rn (f.decode b)

/-- A row of binary32 values in a plain format. -/
def packPlain (f : FloatFmt) (l : List F32) : List Byte := l.flatMap (fun x => leBytes (f.width / 8) (toPlain f x))

/-- `d` elements of a plain format, widened to binary32. -/
def unpackPlain (f : FloatFmt) (d : Nat) (l : List Byte) : List F32 :=
  (groups (f.width / 8) d (fitTo (d * (f.width / 8)) l)).map (fun g => ofPlain f (leNat g))

def packRow (c : Nat) (l : List F32) : List Byte := packPlain (rowFmt c) l
def unpackRow (c d : Nat) (l : List Byte) : List F32 := unpackPlain (rowFmt c) d l

/-- The element format of an MX wire code (Table 8-1), and its emax (R185). -/
def mxElem : Nat → Option (FloatFmt × Int)
  | 3 => some (fmtE4M3, 8)
  | 4 => some (fmtE5M2, 15)
  | 5 => some (fmtE2M3, 2)
  | 6 => some (fmtE3M2, 4)
  | 7 => some (fmtE2M1, 2)
  | _ => none

/-- The plain format of a wire code (Table 8-1). -/
def wirePlain : Nat → Option FloatFmt
  | 0 => some fmtBF16
  | 1 => some fmtE4M3
  | 2 => some fmtE5M2
  | 8 => some fmt32
  | _ => none

/-- Lowest Overlock version of a wire code (Table 8-1). -/
def wireMinVersion (c : Nat) : Nat := if 3 ≤ c ∧ c ≤ 7 then 3 else 2

/-- Rounds a length up to whole 64 B lines, A(x) of R170. -/
def lineUp (n : Nat) : Nat := 64 * ceilDiv n 64

/-- Row bytes on the wire, padded (R182, Table 8-1). -/
def wireLen (c d : Nat) : Nat :=
  match mxElem c with
  | some (f, _) => lineUp (d * f.width / 8 + d / 32)
  | none => lineUp (d * ((wirePlain c).getD fmtBF16).width / 8)

/-- How a conversion rounds: to nearest even, or stochastically with a draw per element (R186). -/
inductive Rounding where
  | rne
  | sr (seed : W64) (slot step c2 c3 : Nat)
deriving DecidableEq, Repr

/-- Encodes a datum in a format under a rounding (R186: fraction truncated to 16 bits, compared with the draw). -/
def encodeWith (r : Rounding) (f : FloatFmt) (sat : Bool) (j : Nat) (v : FVal) : Nat :=
  match r, v with
  | .sr seed slot step c2 c3, .fin neg m e =>
    if m = 0 then f.encode sat v
    else
      let q := f.quantum m e
      if q ≤ e then f.encode sat v
      else
        let k := (q - e).toNat
        let up := m % 2 ^ k * 65536 / 2 ^ k + srDraw seed slot step c2 c3 j ≥ 65536
        f.encode sat (.fin neg ((m / 2 ^ k + (if up then 1 else 0)) * 2 ^ k) e)
  | _, _ => f.encode sat v

/-- Magnitude order of finite data. -/
def FVal.absLt (a b : FVal) : Bool :=
  match a, b with
  | .fin _ m e, .fin _ n g => FVal.lt (.fin false m e) (.fin false n g)
  | _, _ => false

/-- One MX block (R185): its scale byte and element codes; `j0` is the index of its first element (log 39, DEDUCED). -/
def mxBlock (r : Rounding) (f : FloatFmt) (emax : Int) (j0 : Nat) (vs : List FVal) : Nat × List Nat :=
  if vs.any (fun v => match v with | .fin _ _ _ => false | _ => true) then (255, vs.map (fun _ => 0))
  else
    let amax := vs.foldl (fun a v => if FVal.absLt a v then v else a) (.fin false 0 0)
    let x : Int := match amax with
      | .fin _ m e => if m = 0 then -127 else max (-127) (min 127 (e + Nat.log2 m - emax))
      | _ => -127
    ((x + 127).toNat, vs.zipIdx.map (fun (v, i) => match v with
      | .fin n m e => encodeWith r f true (j0 + i) (.fin n m (e - x))
      | _ => 0))

/-- Packs element codes of `bits` bits little-endian (R182). -/
def packBits (bits : Nat) (l : List Nat) : List Byte :=
  let per := if bits = 6 then 4 else if bits = 4 then 2 else 1
  (groups per l.length l).flatMap (fun g =>
    leBytes (bits * per / 8) ((g.zipIdx.map (fun (c, i) => c * 2 ^ (bits * i))).foldl (· + ·) 0))

/-- Unpacks `n` element codes of `bits` bits (R182). -/
def unpackBits (bits n : Nat) (l : List Byte) : List Nat :=
  let per := if bits = 6 then 4 else if bits = 4 then 2 else 1
  ((groups (bits * per / 8) n l).flatMap (fun g => (List.range per).map (fun i => field (leNat g) (bits * i) bits))).take n

/-- A row in a wire format, padded to 64 B (R182, R185). -/
def wirePack (r : Rounding) (code : Nat) (l : List F32) : List Byte :=
  fitTo (wireLen code l.length) (match mxElem code with
    | some (f, emax) =>
      let bl := (groups 32 l.length (l.map fval)).zipIdx.map (fun (b, i) => mxBlock r f emax (32 * i) b)
      packBits f.width (bl.flatMap (·.2)) ++ bl.map (fun b => BitVec.ofNat 8 b.1)
    | none =>
      let f := (wirePlain code).getD fmtBF16
      l.zipIdx.flatMap (fun (x, i) => leBytes (f.width / 8) (encodeWith r f (satOf f) i (fval x))))

/-- `v · 2^k`. -/
def FVal.scale (v : FVal) (k : Int) : FVal :=
  match v with
  | .fin n m e => .fin n m (e + k)
  | w => w

/-- A wire row widened to binary32; the elements of a block with scale 0xFF are NaN (R188). -/
def wireUnpack (code d : Nat) (l : List Byte) : List F32 :=
  match mxElem code with
  | some (f, _) =>
    let eb := d * f.width / 8
    (groups 32 d (unpackBits f.width d (l.take eb))).zipIdx.flatMap (fun (b, i) =>
      let sc := (l.getD (eb + i) 0).toNat
      b.map (fun c => if sc = 255 then qNaN else rn ((f.decode c).scale ((sc : Int) - 127))))
  | none => unpackPlain ((wirePlain code).getD fmtBF16) d l

/-- A token operand of the cutting tables (R91, Table 4-1): values widened to binary32, and block scales. -/
structure Operand where
  vals : List F32
  scales : List Nat := []
deriving DecidableEq, Repr

/-- The element format of a WFMT (Table 4-1). -/
def weightFmt : Nat → FloatFmt
  | 0 => fmtBF16
  | 1 => fmtE4M3
  | 2 => fmtE5M2
  | 3 => fmtE4M3
  | _ => fmtE5M2

/-- Whether a WFMT is an MX format (Table 4-1). -/
def isMxW (wfmt : Nat) : Bool := wfmt == 3 || wfmt == 4

/-- Conversion of exact data to the operand format of R91. -/
def toOperandV (wfmt : Nat) (l : List FVal) : Operand :=
  let f := weightFmt wfmt
  if isMxW wfmt then
    let bl := (groups 32 l.length l).map (fun b => mxBlock .rne f (if wfmt = 3 then 8 else 15) 0 b)
    ⟨bl.flatMap (fun b => b.2.map (ofPlain f)), bl.map (·.1)⟩
  else ⟨l.map (fun v => ofPlain f (f.encode (satOf f) v)), []⟩

/-- Conversion of a prepared row to the operand format (R91). -/
def toOperand (wfmt : Nat) (l : List F32) : Operand := toOperandV wfmt (l.map fval)

/-- Bytes of a weight row of `k` inputs before padding (R98). -/
def weightRowBytes (wfmt k : Nat) : Nat := lineUp (if wfmt = 0 then 2 * k else if isMxW wfmt then k + k / 32 else k)

/-- A weight row of `k` inputs (R98). -/
def weightRow (wfmt k : Nat) (l : List Byte) : Operand :=
  let f := weightFmt wfmt
  let eb := k * (f.width / 8)
  ⟨unpackPlain f k (l.take eb), if isMxW wfmt then ((l.drop eb).take (k / 32)).map (·.toNat) else []⟩

/-- rn(rn(w·x) + rn(w'·x')) summed over adjacent pairs from `s` (R92). -/
def pairSum (s : F32) (p : List (F32 × F32)) : F32 :=
  (groups 2 p.length p).foldl (fun s g => match g with
    | [a, b] => fadd s (fadd (fmul a.1 a.2) (fmul b.1 b.2))
    | [a] => fadd s (fmul a.1 a.2)
    | _ => s) s

/-- One logit in the fixed order of R92. -/
def logit (askuc : Bool) (wfmt : Nat) (w x : Operand) : F32 :=
  let p := w.vals.zip x.vals
  if askuc then
    (groups 64 p.length p).foldl (fun s g => fadd s (g.foldl (fun t a => fadd t (fmul a.1 a.2)) fZero)) fZero
  else if wfmt = 0 then p.foldl (fun s a => fadd s (fmul a.1 a.2)) fZero
  else if isMxW wfmt then
    ((groups 32 p.length p).zip (w.scales.zip x.scales)).foldl (fun s (g, sw, sx) =>
      let b := pairSum fZero g
      fadd s (if sw = 255 || sx = 255 then qNaN else rn ((fval b).scale ((sw : Int) + sx - 254)))) fZero
  else pairSum fZero p

/-- `n` elements of an operand from `lo` on, with their scales. -/
def Operand.slice (o : Operand) (lo n : Nat) : Operand := ⟨(o.vals.drop lo).take n, (o.scales.drop (lo / 32)).take (n / 32)⟩

/-- One segment of a sum of R92, as a column runs it (R93): `a` holds the running sum and, in an ASKUC slot, the tile partial
under way; `j0` is the index of the segment's first element. -/
def accRun (askuc : Bool) (wfmt j0 : Nat) (a : F32 × F32) (w x : Operand) : F32 × F32 :=
  let p := w.vals.zip x.vals
  if askuc then
    p.zipIdx.foldl (fun a q =>
      let t := fadd (if (j0 + q.2) % 64 = 0 then fZero else a.2) (fmul q.1.1 q.1.2)
      if (j0 + q.2) % 64 = 63 then (fadd a.1 t, t) else (a.1, t)) a
  else if wfmt = 0 then (p.foldl (fun s q => fadd s (fmul q.1 q.2)) a.1, a.2)
  else if isMxW wfmt then
    (((groups 32 p.length p).zip (w.scales.zip x.scales)).foldl (fun s (g, sw, sx) =>
      fadd s (if sw = 255 || sx = 255 then qNaN else rn ((fval (pairSum fZero g)).scale ((sw : Int) + sx - 254)))) a.1, a.2)
  else (pairSum a.1 p, a.2)

/-- The ordinal of a key (R143). -/
def ordKey (k : F32) : Nat :=
  let b := if k = fNegZero then fZero else k
  (if b.getLsbD 31 then b ^^^ 0xFFFFFFFF#32 else b ^^^ 0x80000000#32).toNat

/-- Largest of two finite or infinite values. -/
def fmax (a b : F32) : F32 := if flt a b then b else a

end Sys2Proof.Machine
end

