-- ==== Sys2Proof/Machine/TypesData.lean ====
section
/-! DEFINITION. Data types of the state of the Pattern loader, the command front end and the data path (chapters 2 to 9,
12 and 14). -/

namespace Sys2Proof.Machine

/-! ### The Kihild pattern (chapter 2) -/

/-- TOPOLOGY (Table 2-5); the trays of a rack as its TRAY_MASK byte, racks without one not listed. -/
structure Topology where
  jobChips : Nat := 0
  jobRacks : Nat := 0
  matrixFmt : Nat := 2
  chunk : Nat := 32768
  consentTo : Nat := 200
  trayMask : KV Nat := []
deriving DecidableEq, Repr

/-- QUEUES entry (Table 2-6). -/
structure QueueCfg where
  qclass : Nat
  quarter : Nat
  minCells : Nat
  maxCells : Nat
  ctCells : Nat
  qflags : Nat
deriving DecidableEq, Repr

/-- SPOOL_CARVE bank entry (Table 2-7). -/
structure BankCfg where
  pool : Nat
  pinned : Nat
  scrubUs : Nat
deriving DecidableEq, Repr

/-- LAYER_SLOTS entry (Table 2-8). -/
structure SlotCfg where
  mode : Nat
  k : Nat
  kp : Nat
  alts : Nat
  wireFmt : Nat
  rowFmt : Nat
  dDiv : Nat
  fDiv : Nat
  panels : Nat
  freeboard : Nat
  rho : Nat
  rhidDiv : Nat
  biasEta : F32
  biasClamp : F32
  wcBase : Nat
  wcSize : Nat
  ecCap : Nat
deriving DecidableEq, Repr

/-- PANEL_MAP panel entry (Table 2-9). -/
structure Panel where
  primary : Nat
  mirror : Nat
  active : Nat
deriving DecidableEq, Repr

/-- One slot's PANEL_MAP table: the panels that are not all zero, by index. -/
abbrev PanelMap := KV Panel

/-- HEM_TABLES block (Table 5-6): revision, Askuc tables, EPS and NORM by slot where nonzero. -/
structure HemBlock where
  rev : Nat := 0
  tables : AskucTables := {}
  slots : KV (Nat × Nat) := []
deriving DecidableEq, Repr

/-- TIDE entry (R40). -/
structure TideEntry where
  start : Nat
  len : Nat
  polder : Nat
  valid : Bool
deriving DecidableEq, Repr

/-- SLUICE port entry (Table 2-10). -/
structure PortCfg where
  ovlMin : Nat
  ovlMax : Nat
  pflags : Nat
  vcWeight : Nat
deriving DecidableEq, Repr

/-- POLDER_TEMPLATES entry (Table 2-11). -/
structure Template where
  tclass : Nat
  slotBase : Nat
  slotCount : Nat
  queueBase : Nat
  queueCount : Nat
  cellQuota : Nat
  bobQuota : List Nat
  shuttleMask : Nat
  ringQuota : Nat
  prioCeil : Nat
  tflags : Nat
deriving DecidableEq, Repr

/-- The content of a Pattern image. -/
structure Pattern where
  patternId : Nat := 0
  major : Nat := 0
  minor : Nat := 0
  topo : Topology := {}
  queues : KV QueueCfg := []
  quarterShare : List Nat := []
  banks : KV BankCfg := []
  slots : KV SlotCfg := []
  panels : KV PanelMap := []
  hem : HemBlock := {}
  tidePeriod : Nat := 0
  tide : List TideEntry := []
  rackRoute : KV Nat := []
  chipRoute : KV Nat := []
  ports : KV PortCfg := []
  templates : KV Template := []
deriving DecidableEq, Repr

/-- Loader states (Table 2-12). -/
inductive LoaderState where
  | empty | receiving | repair | verifying | applying | applied | rejected | incomplete
deriving DecidableEq, Repr

/-- A consent edit of one slot awaiting its step boundary (R56). -/
structure PatternPiece where
  slots : KV SlotCfg
  panels : KV PanelMap
  queues : KV QueueCfg
deriving DecidableEq, Repr

/-- The Pattern loader (chapter 2): state, registers it drives, the staged image, the broadcast bookkeeping. `image` is a
local image, `frames` what a broadcast brought; `wants` the frames that other chips have asked this one for. -/
structure Loader where
  st : LoaderState := .empty
  err : Nat := 0
  errSection : Nat := 255
  repairRound : Nat := 0
  reloadNeeded : Bool := false
  loadPend : Bool := false
  kept : Bool := false
  keptLen : Nat := 0
  keptMissing : List Nat := []
  loadRefused : Bool := false
  bcast : Bool := false
  sending : Bool := false
  sendNext : Nat := 0
  sendDebt : Nat := 0
  localRead : Bool := false
  src : Nat := 0
  len : Nat := 0
  image : List Byte := []
  firstId : Option Nat := none
  parent : Option Nat := none
  total : Nat := 0
  frames : KV (List Byte) := []
  lastNs : Nat := 0
  staged : Option Pattern := none
  stagedBays : List Nat := []
  reload : Bool := false
  received : Nat := 0
  repaired : Nat := 0
  crcFails : Nat := 0
  foreign : Nat := 0
  baysUncfg : Nat := 0
  bitmaps : KV (List Nat) := []
  wants : KV (List Nat) := []
  hallOk : List Nat := []
  hallBad : List Nat := []
  hallClosed : Bool := true
  hallBadCount : Nat := 0
  endNs : Nat := 0
deriving DecidableEq, Repr

/-! ### Rings and commands (chapter 3) -/

/-- Ring states (Table 3-6). -/
inductive RingState where
  | detached | attached | stopped | draining
deriving DecidableEq, Repr

/-- The values of a ring window (Table 3-3). -/
structure RingWindow where
  base : Nat := 0
  cfg : Nat := 0
  queue : Nat := 0
  cplBase : Nat := 0
  headWb : Nat := 0
deriving DecidableEq, Repr

/-- One command ring (R62 to R74): the values it was attached with, its versions and indices; since when a command or a
record has found no completion slot free (R89). -/
structure Ring where
  st : RingState := .detached
  owner : Nat := 0
  held : Bool := false
  win : RingWindow := {}
  negMajor : Nat := 0
  negMinor : Nat := 0
  priv : Bool := false
  pendAttach : Option (Nat × RingWindow) := none
  head : Nat := 0
  tail : Nat := 0
  ctail : Nat := 0
  chead : Nat := 0
  headWbAt : Nat := 0
  stallAt : Option Nat := none
  stalled : Bool := false
deriving DecidableEq, Repr

/-- A descriptor in its version 3 form (R75, R76, R78). -/
structure Desc where
  opcode : Nat
  fmt : Nat
  flags : Nat
  prio : Nat
  tag : Nat
  slot : Nat
  step : Nat
  ops : List Byte
  waitAddr : Nat := 0
  waitValue : Nat := 0
  sizeOff : Nat := 0
deriving DecidableEq, Repr

/-- How far a fetched command has come. -/
inductive CmdPhase where
  | held
  | started
  | running
  | ended
deriving DecidableEq, Repr

/-- What a completion record carries beside its identity (Table 3-13), and what the solo estimate needs (Table 13-12):
bytes moved, the farthest class, lane operations and fitting rounds. -/
structure CmdResult where
  status : Nat := 0
  flags : Nat := 0
  placed : Nat := 0
  spilled : Nat := 0
  dropped : Nat := 0
  digest : W64 := 0
  time : Option Nat := none
  bytes : Nat := 0
  far : Nat := 0
  laneOps : Nat := 0
  rounds : Nat := 0
deriving DecidableEq, Repr

/-- A command fetched and not yet written (R66, R82 to R88): `id` counts fetches; `bseq` the number a
BARRIER took (R334); `prev` is the step (its `inst`) whose STEP_END a ROUTE waits on; `badRows` the token rows that stayed
unreadable (R115); `blockedNs` the time that a WAIT, a dependency or consent held it, `blockedAt` since when one does;
`tilesDone`, `raised` and `gone` the tiles that a SCORE has written, its row events so far, and the entries of weight 0. -/
structure Cmd where
  id : Nat
  ring : Nat
  idx : Nat
  polder : Nat
  rslot : Nat
  d : Desc
  err : Option Nat := none
  detm : Bool := false
  seed : W64 := 0
  epoch : Nat := 0
  bseq : Option Nat := none
  prev : Option Nat := none
  phase : CmdPhase := .held
  done : Bool := false
  slotHeld : Bool := false
  recorded : Bool := false
  channel : Option Nat := none
  waitOk : Bool := false
  count : Option Nat := none
  fetchNs : Nat := 0
  blockedAt : Option Nat := none
  blockedNs : Nat := 0
  tilesDone : List Nat := []
  raised : List Nat := []
  gone : Nat := 0
  startNs : Nat := 0
  sentLast : Bool := false
  cancels : List Nat := []
  peerLost : Bool := false
  degraded : Bool := false
  badRows : List Nat := []
  res : CmdResult := {}
deriving DecidableEq, Repr

/-- A record on its way to HBM: what it writes, and what its acknowledgement brings (R417, R419). -/
inductive WqKind where
  | completion (ring : Nat) (cmd : Nat) (irq : Bool)
  | deferred (ring : Nat) (irq : Bool)
  | event
  | headWb (ring : Nat)
  | ready (polder : Nat)
  | line
deriving DecidableEq, Repr

/-- One record waiting for the memory system (R417). -/
structure WqEntry where
  kind : WqKind
  addr : Nat
  bytes : List Byte
deriving DecidableEq, Repr

/-! ### Layer slots (chapters 4, 6, 7, 9, 13) -/

/-- What a step summary tells of a local expert, and of a host role (Table 13-9). -/
structure HostSumX where
  expert : Nat
  granted : Nat
  demand : Nat
  spilledIn : Nat
deriving DecidableEq, Repr
structure HostSum where
  tlayer : Nat := 0
  cap : Nat := 0
  refused : Nat := 0
  voided : Nat := 0
  experts : KV HostSumX := []
deriving DecidableEq, Repr

/-- Where one step of a slot stands, from the fetch of its ROUTE on (R84, R315, R316): `inst` tells it from other steps
with its number, by the command that began it; whether STEP_END has ended it, the
address of its edit list, what consent said, whether its boundary has passed, and `host`, the counts of its host role once that
has ended. -/
structure StepInfo where
  step : Nat
  inst : Nat := 0
  polder : Nat := 0
  ended : Bool := false
  deadline : Nat := 0
  editAddr : Nat := 0
  consented : Bool := false
  edit : Bool := false
  timedOut : Bool := false
  boundary : Bool := false
  placed : Nat := 0
  spilled : Nat := 0
  dropped : Nat := 0
  digest : W64 := 0
  tokens : Nat := 0
  detm : Bool := false
  host : Option HostSum := none
deriving DecidableEq, Repr

/-! ### Cutting tables (chapter 4) -/

/-- What a pass is part of (R104, R105): a command's tile, the stage (0 hidden layer, 1 panel or flat, 2 expert), its block
of 64 outputs, and in the expert stage the token of the pair. -/
structure PassJob where
  cmd : Nat
  tile : Nat
  stage : Nat
  block : Nat
  token : Nat := 0
deriving DecidableEq, Repr

/-- The weights that a set of registers holds (R93): their job, the segment of its inputs, and each column's weights. -/
structure CellWeights where
  job : PassJob
  seg : Nat
  cols : List Operand
deriving DecidableEq, Repr

/-- The cells of a table or of one of its bands (R93, R95): the stationary and the shadow registers, and the partial sums of
the job under way by token and column, each a running sum and a tile partial (R92). -/
structure Cells where
  stat : Option CellWeights := none
  shadow : Option CellWeights := none
  sums : KV (List (F32 × F32)) := []
deriving DecidableEq, Repr

/-- A cutting table (R90, R93, R95, R113): its cells as one array and as four bands, its passes, and the column that the check
column has just contradicted. -/
structure CutTable where
  whole : Cells := {}
  bands : List Cells := List.replicate 4 {}
  passes : Nat := 0
  missed : Option Nat := none
deriving DecidableEq, Repr

/-- Partial sums that a pre-emption saved (R94): the job, its next segment, the sums. -/
structure SavedPass where
  job : PassJob
  seg : Nat
  sums : KV (List (F32 × F32))
deriving DecidableEq, Repr

/-- State of one layer slot; `endedRoles` holds the steps whose host role ended last, `bwdReleased` those for which
BWD_HOST_RELEASED has been raised, `staleTold` the steps and epochs for which STALE_RETURN has, `srcEpochs` the epoch held of
each source (R163). -/
structure LSlot where
  epoch : Nat := 0
  wimg : Nat := 0
  bound : Bool := false
  boundAddr : Nat := 0
  loading : Bool := false
  cached : Bool := false
  wgen : Nat := 0
  wfmt : Nat := 0
  wpend : Option (Nat × Nat) := none
  biasReg : Nat := 0
  bias : Nat := 0
  biasZeroing : Bool := false
  biasPend : Option Nat := none
  shapeAddr : Nat := 0
  lvAddr : Nat := 0
  tlayer : Nat := 0
  cap : Nat := 0
  rot : Nat := 0
  lastRound : Nat := 0
  routeSteps : List Nat := []
  endedRoles : List Nat := []
  bwdReleased : List Nat := []
  staleTold : List Nat := []
  srcEpochs : KV Nat := []
  steps : List StepInfo := []
deriving DecidableEq, Repr

/-! ### Selection, fitting, pleating (chapters 6, 7) -/

/-- One entry of a preference list (R148). -/
structure Pref where
  expert : Nat
  prio : Nat
  prob : F32
deriving DecidableEq, Repr

/-- What selection says of one token (R141, R148), and the saved router state (R203). -/
structure TokSel where
  rflags : Nat := 0
  choices : Nat := 0
  prefs : List Pref := []
  panels : List Nat := []
  probs : List (Nat × F32) := []
  logits : List F32 := []
  a : List F32 := []
  b : List F32 := []
  zeroWeight : Nat := 0
  nonfinite : Bool := false
  clamped : Nat := 0
deriving DecidableEq, Repr

/-- A bid in flight or answered (R165). -/
structure SrcBid where
  token : Nat
  choice : Nat
  rank : Nat
  round : Nat
  dest : Nat
  answer : Option Nat := none
deriving DecidableEq, Repr

/-- An entry of the pair table (Table 7-5). -/
structure Pair where
  token : Nat
  expert : Nat
  rank : Nat
  pflags : Nat
  weight : F32
  dest : Nat
  ltag : Nat
deriving DecidableEq, Repr

/-- A pleat table entry (R170). -/
structure Pleat where
  dest : Nat
  pairs : Nat
  first : Nat
  chunks : Nat
  wfmt : Nat := 0
deriving DecidableEq, Repr

/-- A buffer taken from the bobbin pools. -/
structure Buf where
  handle : Nat
  addr : Nat
  size : Nat
deriving DecidableEq, Repr

/-- An incoming pleat stream, as the chunks that passed PCRC (R169, R190). -/
structure InStream where
  src : Nat
  kind : Nat
  epoch : Nat
  wfmt : Nat
  len : Nat
  parts : KV (List Byte) := []
  ids : List Nat := []
deriving DecidableEq, Repr

/-- A combine area (R203): what it holds of each token and pair. -/
structure Area where
  live : Bool := false
  bufs : List Buf := []
  bits : List Buf := []
  stageBufs : List Buf := []
  saved : List Buf := []
  acc : KV (List F32) := []
  stage : KV (List F32) := []
  got : List Nat := []
  bad : List Nat := []
  dots : KV F32 := []
  badTokens : List Nat := []
  streams : List InStream := []
deriving DecidableEq, Repr

/-- How far a ROUTE's source role has come. -/
inductive SrcPhase where
  | areaWait
  | scoring
  | fitting
  | sorting
  | sending
  | sent
deriving DecidableEq, Repr

/-- The source role of one ROUTE and what its step keeps (R165 to R170, R203). -/
structure RouteWork where
  cmd : Nat
  polder : Nat
  slot : Nat
  step : Nat
  epoch : Nat
  detm : Bool
  seed : W64
  tag : Nat
  tokens : Nat
  rows : Nat
  mask : Nat
  routes : Nat
  wgen : Nat := 0
  phase : SrcPhase := .scoring
  tilesDone : List Nat := []
  sel : KV TokSel := []
  round : Nat := 1
  lastSent : Bool := false
  bids : List SrcBid := []
  pairs : List Pair := []
  order : List Nat := []
  pleats : List Pleat := []
  stage : List Buf := []
  bwdStage : List Buf := []
  void : List Nat := []
  area : Area := {}
  bwdArea : Area := {}
  bwdCmd : Option Nat := none
  bwdEpoch : Nat := 0
  bwdDetm : Bool := false
  bwdSeed : W64 := 0
  bwdDy : Nat := 0
  bwdDropped : Nat := 0
  combineCmd : Option Nat := none
  bwdCombineCmd : Option Nat := none
  combined : List Nat := []
  unreach : Nat := 0
  roundNs : Nat := 0
  firstReturn : Option Nat := none
  raised : List Nat := []
  done : Bool := false
  doneBwd : Bool := false
  superseded : Bool := false
deriving DecidableEq, Repr

/-- A landing place of a host role (R159, R166). -/
structure Place where
  src : Nat
  token : Nat
  rank : Nat
  alt : Bool := false
  void : Bool := false
  landed : Bool := false
  bwdLanded : Bool := false
  weight : F32 := 0
  dot : Option F32 := none
  noDot : Bool := false
  bad : Bool := false
  bwdBad : Bool := false
  sent : Bool := false
deriving DecidableEq, Repr

/-- A run of landing places and its buffers (R160). -/
structure Run where
  rows : Nat
  inBuf : Buf
  outBuf : Buf
deriving DecidableEq, Repr

/-- One local expert of a host role. -/
structure HostExpert where
  expert : Nat
  places : List Place := []
  runs : List Run := []
  ledgers : List Buf := []
  bwdRuns : List Run := []
  demand : Nat := 0
  refused : Nat := 0
  spilledIn : Nat := 0
deriving DecidableEq, Repr

/-- What a host holds of one source in a step (R164). -/
structure SrcState where
  endRound : Nat := 0
  last : Bool := false
  cancelled : Bool := false
  epoch : Nat := 0
deriving DecidableEq, Repr

/-- A bid waiting at its host for its round to close or for the reservation. -/
structure HeldBid where
  src : Nat
  round : Nat
  epoch : Nat
  bid : BidRec
deriving DecidableEq, Repr

/-- The host role of a step on a slot (R158 to R174). -/
structure HostRole where
  slot : Nat
  step : Nat
  polder : Nat
  rslot : Nat
  cap : Nat
  detm : Bool
  epoch : Nat
  tag : Nat := 0
  experts : KV HostExpert := []
  reserving : Bool := false
  nomem : Bool := false
  failed : Bool := false
  startNs : Nat := 0
  sources : KV SrcState := []
  heldBids : List HeldBid := []
  roundClosed : Nat := 0
  closed : Bool := false
  streams : List InStream := []
  ready : Bool := false
  gtable : Option Buf := none
  groups : Nat := 0
  bwdWanted : Bool := false
  bwdSeed : W64 := 0
  tlayer : Nat := 0
  bwdStarted : Bool := false
  bwdReady : Bool := false
  bwdGtable : Option Buf := none
  voided : Nat := 0
  mismatch : Nat := 0
  refusedList : List (Nat × Nat × Nat) := []
  returnSent : Bool := false
  raised : List Nat := []
deriving DecidableEq, Repr

/-! ### Shuttle and Sluice (chapter 8) -/

/-- What a chunk is rebuilt from (R197, R199, R207, R284, R286). -/
inductive ChunkSrc where
  | dispatch (work : Nat)
  | ret (slot step : Nat)
  | bwdDispatch (work : Nat)
  | bwdReturn (slot step : Nat)
  | copy (addr : Nat)
  | bytes (b : List Byte)
  | frame (h : FitHdr) (payload : List Byte)
deriving DecidableEq, Repr

/-- A chunk or frame ready to leave: what a transfer table entry will name. -/
structure OutMsg where
  cmd : Nat
  hdr : ChunkHdr
  src : ChunkSrc
deriving DecidableEq, Repr

/-- A transfer table entry in use (R197); `awaits` that it was forwarded by cut-through from a chunk that then failed, and its
replay waits for this node's good copy (R282). -/
structure TtEntry where
  cmd : Nat
  hdr : ChunkHdr
  src : ChunkSrc
  port : Option Nat
  vc : Nat
  attempts : Nat := 1
  fails : KV Nat := []
  firstNs : Nat
  sentNs : Nat
  unsent : Bool := false
  awaits : Bool := false
deriving DecidableEq, Repr

/-- A piece of work of a Shuttle channel: bytes still to move before its chunk or copy is done. -/
inductive Job where
  | chunk (hdr : ChunkHdr) (src : ChunkSrc) (left : Nat)
  | copy (src dst left : Nat)
deriving DecidableEq, Repr

/-- A Shuttle channel held by a command (R177, R178). -/
structure Channel where
  cmd : Nat
  polder : Nat
  ring : Nat
  prio : Nat
  jobs : List Job := []
  since : Nat := 0
deriving DecidableEq, Repr

/-- What waits to leave on a port: its virtual channel, collective group and bytes, and the Spool queue and packet that it is
read from. -/
structure PortItem where
  vc : Nat
  group : Nat := 0
  bytes : Nat
  src : Option (Nat × Nat) := none
deriving DecidableEq, Repr

/-- A Sluice port (Tables 8-9, 8-10), its counters apart: link state and versions, what is queued in order, the deficits of the
virtual channels (R193) and of the groups on virtual channel 4 (R289), and the bytes of link time not yet used. -/
structure Port where
  link : Nat := 0
  negVer : Nat := 0
  peerMax : Nat := 0
  swred : Bool := false
  fixedOrder : Bool := false
  queue : List PortItem := []
  deficit : List Nat := List.replicate 8 0
  vcNext : Nat := 0
  groups : KV Nat := []
  groupLast : Nat := 0
  budget : Nat := 0
deriving DecidableEq, Repr

/-- ACKs waiting to be sent to one chip (R198). -/
structure PendingAcks where
  ids : List Nat
  since : Nat
deriving DecidableEq, Repr

/-- A path excluded for a destination (R199). -/
structure Exclusion where
  chip : Nat
  port : Nat
  endNs : Nat
deriving DecidableEq, Repr

/-- What leaves through a port or stays local (port none). -/
inductive TxMsg where
  | chunk (h : ChunkHdr) (payload : List Byte)
  | bid (chunkId : Nat) (h : FitHdr) (recs : List BidRec)
  | grant (chunkId : Nat) (h : FitHdr) (recs : List GrantRec)
  | ack (chip : Nat) (ids : List Nat)
  | nak (chip id : Nat)
  | pattern (chip : Nat) (h : PatHdr) (payload : List Byte)
  | patBitmap (chip : Nat) (held : List Nat)
  | patRequest (chip : Nat) (seqs : List Nat)
  | patReport (dst chip state : Nat)
  | sync (m : SyncMsg)
  | probe (chip : Nat)
  | probeAnswer (chip : Nat)
deriving DecidableEq, Repr

/-- A message sent: its port (none when local or on the management route), virtual channel and content. -/
structure Tx where
  port : Option Nat
  vc : Nat
  msg : TxMsg
deriving DecidableEq, Repr

/-! ### Collectives and barriers (chapters 12, 14) -/

/-- Group states (Table 12-10). -/
inductive GroupState where
  | unformed | forming | formed | broken | reforming
deriving DecidableEq, Repr

/-- A count record (Table 12-3). -/
structure CountRec where
  total : Nat := 0
  capacity : Nat := 0
  base : Nat := 0
  members : Nat := 0
  err : Nat := 0
  dDiv : Nat := 0
  fDiv : Nat := 0
  efmt : Nat := 0
  expert : Nat := 0
deriving DecidableEq, Repr

/-- A BCAST or REDUCE in flight (R283 to R291); `written` the ranges of BUF or OUT that it has stored to (Table 12-7). -/
structure CollOp where
  seq : Nat
  cmd : Nat
  reduce : Bool
  dtype : Nat
  root : Nat
  buf : Nat
  out : Nat
  len : Nat
  detm : Bool
  polder : Nat
  ups : KV CountRec := []
  upSent : Bool := false
  down : Option CountRec := none
  landed : List Nat := []
  inputs : List (Nat × Nat × List Byte) := []
  emitted : List Nat := []
  refused : List Nat := []
  factorBytes : Nat := 0
  refusedRaised : Bool := false
  rebuiltRaised : Bool := false
  dataSent : Bool := false
  written : List (Nat × Nat) := []
deriving DecidableEq, Repr

/-- A BARRIER of a group (R334 to R336). -/
structure Barrier where
  bseq : Nat
  cmd : Nat
  started : Bool := false
  ups : List Nat := []
  upSent : Bool := false
  trel : Option Nat := none
deriving DecidableEq, Repr

/-- A form handshake (R276). -/
structure Form where
  cmd : Nat
  startNs : Nat
  crc : Nat
  factor : Bool
  ups : KV (Nat × Nat × Bool) := []
  sent : Bool := false
deriving DecidableEq, Repr

/-- A collective group (R275 to R294). -/
structure Group where
  st : GroupState := .unformed
  epoch : Nat := 0
  seq : Nat := 0
  bseq : Nat := 0
  owner : Nat := 0
  membersAddr : Nat := 0
  excludeAddr : Nat := 0
  members : List Nat := []
  factorOk : Bool := false
  form : Option Form := none
  ops : List CollOp := []
  barriers : List Barrier := []
  early : List (ChunkHdr × List Byte) := []
deriving DecidableEq, Repr

end Sys2Proof.Machine
end

