-- ==== Sys2Proof/Machine/TypesUnits.lean ====
section
/-! DEFINITION. Data types of the state of the Spool, the bobbin manager, the polder slots, time, fault control, power,
the gauges, Tape and the outgoing interfaces (chapters 10, 11 and 13 to 20). -/

namespace Sys2Proof.Machine

/-! ### Spool (chapter 10) -/

/-- A packet that a port producer brings to a queue. -/
inductive RxPkt where
  | chunk (port : Option Nat) (h : ChunkHdr) (payload : List Byte)
  | bid (port : Option Nat) (chunkId : Nat) (h : FitHdr) (recs : List BidRec)
  | grant (port : Option Nat) (chunkId : Nat) (h : FitHdr) (recs : List GrantRec)
  | claim (port : Option Nat) (chunkId : Nat) (h : FitHdr) (recs : List BidRec)
deriving DecidableEq, Repr

/-- What a packet of the Spool is: one that came, with its virtual channel; or one that leaves, with its port, virtual channel,
collective group and bytes, and whether `Eng.tx` shows it already. -/
inductive SItem where
  | rx (vc : Nat) (p : RxPkt)
  | tx (port vc group bytes : Nat) (m : TxMsg) (told : Bool)
deriving DecidableEq, Repr

/-- A packet in a queue (R228, R235, R236): its length LEN, the words written, those its consumer has read, whether it
was ended with PSTAT 2, and whether its cells are kept after it was read (R286). `id` tells it from others
(log 19, DEDUCED). -/
structure SPkt where
  id : Nat
  words : Nat
  written : Nat
  read : Nat := 0
  aborted : Bool := false
  kept : Bool := false
  item : SItem
  rd : SpoolRead := .good
deriving DecidableEq, Repr

/-- A producer's wait for cells (R234): since when, the Spool cycles of it that TWK_SPL_BP_STALL has, and whether
SPOOL_BACKPRESSURE has been raised. -/
structure Wait where
  since : Nat
  counted : Nat := 0
  told : Bool := false
deriving DecidableEq, Repr

/-- Descriptor of one queue (R229, R230, R240): its cells from head to tail, and the packets in them, whose read and written
words give the words within the head and the tail cell; a wait of a producer that asks for one cell at a time; a list break, with
the packets it lost and the cell that broke the list (log 19, DEDUCED). -/
structure SQueue where
  cells : List Nat := []
  bank : Nat := 0
  pktIn : Nat := 0
  pktOut : Nat := 0
  pkts : List SPkt := []
  wait : Option Wait := none
  broken : Bool := false
  sweeping : Bool := false
  lost : List SPkt := []
  badCell : Option Nat := none
deriving DecidableEq, Repr

/-- A packet that its port holds in a virtual channel's receive buffer, for want of cells or behind another (R234;
log 19, DEDUCED). -/
structure Held where
  port : Option Nat
  vc : Nat
  queue : Nat
  pkt : RxPkt
  rd : SpoolRead
  wait : Option Wait := none
deriving DecidableEq, Repr

/-- A bank's free list of its shared pool rows: rows from `fresh` on that nothing has taken since the carve, then the
freed rows in the order freed (R230); and the rows that its scrub pass has read (R245). -/
structure SBank where
  fresh : Nat := 768
  freed : List Nat := []
  retired : Nat := 0
  scrubbed : List Nat := []
deriving DecidableEq, Repr

/-- The Spool; `held` what its ports hold back, `cut` the port, source and CHUNK_ID of packets flushed before their end had come,
`bad` the cells in use that a scrub could not read, `corrupt` that R248 has found a fault, which fault control takes at the
end of the command. -/
structure Spool where
  cfg : KV QueueCfg := []
  queues : KV SQueue := []
  held : List Held := []
  cut : List (Option Nat × Nat × Nat) := []
  nextPkt : Nat := 0
  bad : List Nat := []
  banks : List SBank := List.replicate 48 {}
  absent : List Nat := []
  faulty : List Nat := []
  retired : List Nat := []
  scrubPasses : Nat := 0
  correctedAt : Option Nat := none
  corrupt : Bool := false
deriving DecidableEq, Repr

/-! ### Bobbins (chapter 11) -/

/-- Buffer states (Table 11-2). -/
inductive BState where
  | free | held | reserved | orphan
deriving DecidableEq, Repr

/-- An entry of the buffer table (Table 11-2), NEXT apart, which the free lists give; `eng` of its references are the
engine's own. -/
structure BEntry where
  st : BState := .free
  gen : Nat := 1
  count : Nat := 0
  eng : Nat := 0
  retired : Bool := false
  owner : Nat := 0
  fromResv : Bool := false
deriving DecidableEq, Repr

/-- A pool's free list: buffers from `fresh` on never taken since initialisation, then the freed ones in order. -/
structure BPool where
  fresh : Nat := 0
  freed : List Nat := []
deriving DecidableEq, Repr

/-- An ADMIT in force or waiting (R268, R269). -/
structure BSeq where
  polder : Nat
  seq : Nat
  slot : Nat
  resv : List Nat
  cmd : Nat
  admitted : Bool := false
  deferred : Bool := false
deriving DecidableEq, Repr

/-- What a waiting request serves: a combine area (R203), a group table (R172), a host reservation (R160, R174), or a wire
stage (R184). -/
inductive BWho where
  | area (cmd : Nat)
  | table (slot step : Nat) (bwd : Bool)
  | host (slot step : Nat) (bwd : Bool)
  | stage (cmd : Nat)
deriving DecidableEq, Repr

/-- A request that waits for the pools it names (Table 11-4 case 4). -/
structure BWait where
  pools : List Nat
  who : BWho
  polder : Nat
  slot : Nat
  tag : Nat
  since : Nat
  raised : Bool := false
deriving DecidableEq, Repr

/-- The bobbin pool manager. -/
structure Bob where
  entries : KV BEntry := []
  pools : List BPool := List.replicate 8 {}
  seqs : List BSeq := []
  waits : List BWait := []
  busy : Bool := false
  ready : Bool := false
  refused : Bool := false
  fifo : List (Nat × Nat) := []
  correctedAt : Option Nat := none
deriving DecidableEq, Repr

/-! ### Polder slots (chapter 13) -/

/-- Slot states (Table 13-4). -/
inductive PldState where
  | empty | creating | running | parking | parked | unparking | evicting | restoring | faulted | destroying
deriving DecidableEq, Repr

/-- STATE codes of Table 13-4. -/
def PldState.code : PldState → Nat
  | .empty => 0 | .creating => 1 | .running => 2 | .parking => 3 | .parked => 4
  | .unparking => 5 | .evicting => 6 | .restoring => 7 | .faulted => 8 | .destroying => 9

/-- Accounting counters (Table 13-11) and the values at the last SLOWDOWN computation (R319). -/
structure Acc where
  time : Nat := 0
  tray : Nat := 0
  rack : Nat := 0
  hall : Nat := 0
  hbm : Nat := 0
  wait : Nat := 0
  parks : Nat := 0
  evictions : Nat := 0
  actual : Nat := 0
  solo : Nat := 0
  slowdown : Nat := 0
  lastActual : Nat := 0
  lastSolo : Nat := 0
deriving DecidableEq, Repr

/-- One resident slot (Tables 13-1 to 13-3). -/
structure PldSlot where
  st : PldState := .empty
  polder : Nat := 0
  result : Nat := 0
  pend : Option (Nat × Nat) := none
  save : Nat := 0
  stageSave : Nat := 0
  stagePiece : Nat := 0
  stagePlen : Nat := 0
  stageClient : Nat := 0
  client : Nat := 0
  saveNeed : Nat := 0
  consentErr : Nat := 0
  fault : Nat := 0
  faultTag : Nat := 0
  acc : Acc := {}
  seed : W64 := 0
  incarnation : Nat := 0
  ringSel : Nat := 0
  wins : KV RingWindow := []
  results : KV Nat := []
  teardown : Option (Nat × Nat) := none
deriving DecidableEq, Repr

/-- An evicted polder: its recorded save address and what EVICT saved (R304; log 24, DESIGN CHOICE). -/
structure Evicted where
  polder : Nat
  save : Nat
  client : Nat
  seed : W64
  incarnation : Nat
  acc : Acc
  ringSel : Nat
  wins : KV RingWindow
  results : KV Nat
  fault : Nat
  faultTag : Nat
  consentErr : Nat
  saveNeed : Nat
  rings : KV Ring
  cmds : List Cmd
  queues : KV (SQueue × QueueCfg)
  slots : KV LSlot
  piece : Option PatternPiece
  cfgs : KV SlotCfg
  maps : KV PanelMap
deriving DecidableEq, Repr

/-- Polder management outside the slots. -/
structure PldCtl where
  slots : List PldSlot := List.replicate 16 {}
  evicted : List Evicted := []
  quarantine : List (Nat × Nat) := []
  pieces : KV PatternPiece := []
  window : Option Nat := none
  incarnations : KV Nat := []
deriving DecidableEq, Repr

/-! ### Time, determinism, tacks (chapters 14, 17) -/

/-- Hall time base (R332, R333): `asked` the parent and first timestamp of the exchange under way, `skipped` the parents
that did not answer, `set` that the count has been set to a parent's time. -/
structure TimeBase where
  ns : Nat := 0
  root : Bool := false
  locked : Bool := false
  offsets : List Int := []
  skipped : List Nat := []
  lastReply : Nat := 0
  asked : Option (Nat × Nat) := none
  set : Bool := false
deriving DecidableEq, Repr

/-- Values of one gauge (Table 17-8). -/
structure Gauge where
  bind : Nat := 0
  count : Nat := 0
  sum : Nat := 0
  min : Nat := 2 ^ 64 - 1
  max : Nat := 0
  clearedAt : Nat := 0
  bins : KV Nat := []
deriving DecidableEq, Repr

/-- Per-expert counters of one slot and local expert (R388). -/
structure ExpCnt where
  demand : Nat := 0
  granted : Nat := 0
  refused : Nat := 0
  spilledIn : Nat := 0
  voided : Nat := 0
  lastStep : Nat := 0
  lastGranted : Nat := 0
deriving DecidableEq, Repr

/-- Source-side counters of one slot (R388). -/
structure SrcCnt where
  placed : Nat := 0
  spilled : Nat := 0
  dropped : Nat := 0
deriving DecidableEq, Repr

/-- A pending tack (R390): its T, scope and the commands it completes. -/
structure Tack where
  t : Nat
  scope : Bool
  cmds : List Nat := []
  due : Bool := false
deriving DecidableEq, Repr

/-! ### Faults (chapter 15) -/

/-- Entries of the fault queue (R353). -/
inductive FaultRec where
  | cluster (quarter pos : Nat)
  | half (unit half : Nat)
  | table (t : Nat)
  | bay (b : Nat)
  | dike (d : Nat)
  | compute
deriving DecidableEq, Repr

/-- Recoveries (Table 15-13). -/
inductive Recovery where
  | substitution (quarter pos : Nat)
  | bay (b : Nat)
  | dike (d : Nat)
  | compute
deriving DecidableEq, Repr

/-- Why the engine holds toward a chip, and its probes (R360, R361). -/
structure HoldRec where
  noticed : Bool := false
  suspected : Bool := false
  probes : Nat := 0
  since : Nat := 0
  reported : Bool := false
deriving DecidableEq, Repr

/-- A takeover in progress on this engine as the substitute of `lost` (R365): the bids claimed, and what each member has
said of its rounds. -/
structure Takeover where
  lost : Nat
  slot : Nat
  step : Nat
  detm : Bool
  claims : List HeldBid := []
  ends : KV SrcState := []
deriving DecidableEq, Repr

/-- Fault and gusset control (chapter 15), its registers of maps apart. -/
structure Flt where
  queue : List FaultRec := []
  recovery : Option Recovery := none
  failed : Bool := false
  baysContained : List Nat := []
  baysReset : List Nat := []
  dikesContained : List Nat := []
  dikesReset : List Nat := []
  bayResetNs : KV Nat := []
  ctAbsent : List Nat := []
  hemAbsent : List Nat := []
  selAbsent : List Nat := []
  pltAbsent : List Nat := []
  semAbsent : List Nat := []
  banksAbsent : List Nat := []
  laneLast : KV Nat := []
  ctRetired : List (Nat × Nat) := []
  lost : List (Option Nat) := []
  lostClear : List Nat := []
  nseq : Nat := 0
  nseqAny : Bool := false
  holds : KV HoldRec := []
  latchedLost : List Nat := []
  takeovers : List Takeover := []
deriving DecidableEq, Repr

/-! ### Bring-up and power (chapter 16) -/

/-- Bring-up (R370 to R374). -/
structure Boot where
  powered : Bool := false
  phase : Nat := 0
  porNs : Nat := 0
  variant : Nat := 3
  recRev : Nat := 0
  variantValid : Bool := false
  record : Option VariantRec := none
  keys : List KeySlot := List.replicate 4 {}
  wavesReleased : List Nat := []
  wavesDone : List Nat := []
  ready : Bool := false
  everReady : Bool := false
  bootNs : Nat := 0
  waveNs : Nat := 0
  chipId : Option Nat := none
deriving DecidableEq, Repr

/-- An MMIO access that waits for a power-state exit (R379). -/
structure WaitingAccess where
  port : Bool
  off : Nat
  wide : Bool
  value : Option Nat
deriving DecidableEq, Repr

/-- Power states (R377 to R382). -/
structure Pwr where
  cur : Nat := 0
  target : Nat := 0
  trans : Bool := false
  wakePend : Bool := false
  wakeNs : Nat := 0
  accesses : List WaitingAccess := []
  rx : List (RxPkt × SpoolRead) := []
  transNs : Nat := 0
  funcState : List Nat := [3, 3, 3, 3, 3, 3]
  funcNs : List Nat := List.replicate 6 0
  pendEnable : List Nat := []
  pendDisable : List Nat := []
deriving DecidableEq, Repr

/-! ### Event ring and outgoing interfaces (chapters 19, 20) -/

/-- Event ring state beside its registers (R433 to R435). -/
structure EvtRing where
  armed : Bool := true
  loss : Bool := false
  lossNs : Option Nat := none
  held : List (List Byte) := []
  resetHeld : List (List Byte) := []
deriving DecidableEq, Repr

/-- Posts to the management controller (R347, R349, R356, R359, R360). -/
inductive Post where
  | map (quarter lo hi : Nat)
  | column (table value : Nat)
  | replace (value : Nat)
  | holdRequest
  | resumeRequest
  | peerReport (chip : Nat)
  | computeFailed
deriving DecidableEq, Repr

/-- An answer on MMIO_RSP or on the management port (R418, R437). -/
structure MmioRsp where
  port : Bool
  off : Nat
  value : Nat
deriving DecidableEq, Repr

/-! ### Tape (chapter 18) -/

/-- The last reading of a polder's counters (R401). -/
structure TapeRead where
  incarnation : Nat
  client : Nat
  time : Nat
  tray : Nat
  rack : Nat
  hall : Nat
  hbm : Nat
deriving DecidableEq, Repr

/-- An answer on Tape's sealed port (R408). -/
inductive TapeReply where
  | ack
  | nack
  | bytes (b : List Byte)
deriving DecidableEq, Repr

/-- What Tape writes to its non-volatile memory on a power-fail warning (R406). -/
structure TapeNv where
  acc : Nat := 0
  rev : Nat := 0
  carry : Nat := 0
  pendings : List Nat := []
deriving DecidableEq, Repr

/-- Tape (R397 to R412). Energies in attojoules, `pendings` in mJ, newest first; `frames` counts sample periods since
the seal. -/
structure Tape where
  running : Bool := false
  powerFail : Bool := false
  nv : TapeNv := {}
  sealed : Bool := false
  vOfs : Int := 0
  vGain : Int := 0
  iOfs : Int := 0
  iGain : Int := 0
  keyOk : Bool := false
  seed : List Byte := []
  pub : List Byte := []
  senseOk : Bool := false
  lastSeq : Option Nat := none
  lastV : Int := 0
  lastI : Int := 0
  invalidRun : Nat := 0
  validRun : Nat := 0
  overLimit : Bool := false
  saturated : Bool := false
  gap : Bool := false
  gapFrames : Nat := 0
  acc : Nat := 0
  rev : Nat := 0
  legal : Nat := 0
  reverse : Nat := 0
  carry : Nat := 0
  periodAj : Nat := 0
  frames : Nat := 0
  sumV : Int := 0
  sumI : Int := 0
  sumE : Int := 0
  samples : Nat := 0
  vMean : Nat := 0
  iMean : Nat := 0
  pMean : Nat := 0
  overLast : Bool := false
  waiting : Bool := false
  currentMj : Nat := 0
  pendings : List Nat := []
  reads : KV TapeRead := []
  totals : KV Nat := []
  minuteMj : Nat := 0
  minuteUnattr : Nat := 0
  minuteGapMs : Nat := 0
  minuteOver : Bool := false
  minuteGap : Bool := false
  minuteShares : KV Nat := []
  periods : Nat := 0
  hall : Nat := 0
  seq : Nat := 0
  sealSeq : Nat := 0
  log : List (Nat × List Byte) := []
  wrapped : Bool := false
  lastChallenge : List Byte := []
  events : List Nat := []
  replies : List TapeReply := []
deriving DecidableEq, Repr

end Sys2Proof.Machine
end

