-- ==== Sys2Proof/Machine/State.lean ====
section
/-! DEFINITION. The state of the block: HBM as the engine sees it, the engine, Tape, and the queue of waiting commands. -/

namespace Sys2Proof.Machine

/-- A shadow bank (R391, R392): the counters as they stood at the latch edge. -/
structure Shadow where
  t : Nat
  scope : Bool
  late : Bool
  latches : Nat
  ns : Nat
  regs : KV Nat
  gauges : KV Gauge
  experts : KV ExpCnt
  srcs : KV SrcCnt
  spool : Spool
  bob : Bob
  slots : List PldSlot
  tt : KV TtEntry
  loader : Loader
deriving DecidableEq, Repr

/-- Everything of the engine but Tape. `regs` holds the registers that are plain storage, by offset, absent where they
have their reset value; `wlog` the HBM writes of the command under way, newest first; `freeCtr` counts the free values
used (log 4, DESIGN CHOICE, the model's own field); `diag` is the result of the Hem diagnostic in a lane (R137); `acts` the
ranges of HBM, by address and length, that the memory system has marked activations, the rest being marked weights/state
(R414; log 60, DESIGN CHOICE);
`pins` the port that frames and void lists for a chip are pinned to (R194);
`wcache` the every-token parts in the weight cache by the byte address of their allocation (R99); `tables` the cutting
tables, `outs` what has left their output taps for tiles not yet selected, by token of each job;
`copies` the OFFSET of the last COPY chunk landed under each sender and transfer entry (R200, log 30, DEDUCED). -/
structure Eng where
  wlog : List (Nat × List Byte) := []
  freeCtr : Nat := 0
  regs : KV Nat := []
  time : TimeBase := {}
  boot : Boot := {}
  pwr : Pwr := {}
  flt : Flt := {}
  loader : Loader := {}
  pat : Option Pattern := none
  slotCfg : KV SlotCfg := []
  panelMaps : KV PanelMap := []
  ports : List Port := List.replicate 16 {}
  peerVer : KV Nat := []
  tt : KV TtEntry := []
  ttGen : KV Nat := []
  ttFullSince : Option Nat := none
  ttFullBy : Option Nat := none
  acks : KV PendingAcks := []
  copies : KV Nat := []
  excl : List Exclusion := []
  outq : List OutMsg := []
  fallbacks : List (Nat × Nat) := []
  pins : KV Nat := []
  arbCount : Nat := 0
  arbLast : Nat := 63
  rings : KV Ring := []
  served : KV Nat := []
  cmds : List Cmd := []
  nextCmd : Nat := 0
  wq : List WqEntry := []
  evt : EvtRing := {}
  lslots : KV LSlot := []
  wcache : KV (List Byte) := []
  tables : List CutTable := [{}, {}]
  outs : List (PassJob × KV (List F32)) := []
  savedSums : List SavedPass := []
  works : List RouteWork := []
  roles : List HostRole := []
  chans : KV Channel := []
  groups : KV Group := []
  spool : Spool := {}
  bob : Bob := {}
  pld : PldCtl := {}
  gauges : KV Gauge := []
  experts : KV ExpCnt := []
  srcs : KV SrcCnt := []
  tacks : List Tack := []
  bank0 : Option Shadow := none
  bank1 : Option Shadow := none
  lastBank : Nat := 1
  latches : Nat := 0
  diag : Option Nat := none
  acts : List (Nat × Nat) := []
  mgmtAddr : Nat := 0
  mgmtWide : Bool := false
  mirror : List Byte := zeros 640
  tx : List Tx := []
  irqs : List Nat := []
  rsp : List MmioRsp := []
  posts : List Post := []
deriving DecidableEq, Repr

/-- The machine. -/
structure State where
  hbm : Mem := []
  eng : Eng := {}
  tape : Tape := {}
  pending : List Instr := []
deriving DecidableEq, Repr

/-- The machine right after reset: nothing powered up yet, no memory written, no command waiting (log 3, DESIGN CHOICE, names every
value that the spec does not give). -/
def State.reset : State := {}

/-- No command of this block stops the machine: every error is a status, an event or a reset (INVENTORY, Faults). -/
inductive Fault where
deriving DecidableEq, Repr

/-- Why a command has no meaning. -/
inductive Refusal where
  /-- Raised by `exec` for a command that the model does not cover; safe. -/
  | notModelled (mnemonic : String)
deriving DecidableEq, Repr

end Sys2Proof.Machine
end

