-- ==== Sys2Proof/Machine/Ops.lean ====
section
/-! DEFINITION. Operations every unit uses: HBM (R8, R414), registers, hall time, events (R433 to R438), records on their
way to HBM (R417), waking (R379), and the chip's place in the hall (R13). -/

namespace Sys2Proof.Machine

/-! ### HBM -/

/-- First address past HBM's line addresses [51:6] (R414; log 2, DESIGN CHOICE). -/
def memTop : Nat := 2 ^ 52

/-- One byte; an address not listed reads 0 (log 2, DESIGN CHOICE). -/
def Mem.byte (m : Mem) (a : Nat) : Byte := KV.get 0 m a

/-- The cells that bytes from `a` on need. -/
def Mem.cells : Nat → List Byte → Mem
  | _, [] => []
  | a, b :: t => if b = 0 then Mem.cells (a + 1) t else (a, b) :: Mem.cells (a + 1) t

/-- `n` bytes from `a` on, out of cells none of which lies below `a`. -/
def Mem.readGo : Nat → Mem → Nat → List Byte
  | 0, _, _ => []
  | n + 1, [], a => (0 : Byte) :: Mem.readGo n [] (a + 1)
  | n + 1, (k, v) :: t, a => if k = a then v :: Mem.readGo n t (a + 1) else (0 : Byte) :: Mem.readGo n ((k, v) :: t) (a + 1)

/-- `n` bytes from `a` on, below the top (log 2, DESIGN CHOICE). -/
def Mem.readAt (m : Mem) (a n : Nat) : List Byte := Mem.readGo n (m.dropWhile (fun c => c.1 < a)) a

/-- `n` bytes from `a` on; addresses wrap at the top (log 2, DESIGN CHOICE). -/
def Mem.read (m : Mem) (a n : Nat) : List Byte :=
  let a := a % memTop
  if a + n ≤ memTop then Mem.readAt m a n else Mem.readAt m a (memTop - a) ++ Mem.readAt m 0 (n - (memTop - a))

/-- Stores bytes from `a` on, below the top. -/
def Mem.writeAt (m : Mem) (a : Nat) (bs : List Byte) : Mem :=
  m.filter (fun c => c.1 < a) ++ (Mem.cells a bs ++ m.filter (fun c => a + bs.length ≤ c.1))

/-- Stores bytes from `a` on; addresses wrap at the top (log 2, DESIGN CHOICE). -/
def Mem.write (m : Mem) (a : Nat) (bs : List Byte) : Mem :=
  Mem.writeAt (Mem.writeAt m (a % memTop) (bs.take (memTop - a % memTop))) 0 (bs.drop (memTop - a % memTop))

/-- The canonical form: addresses strictly rising, no byte equal to what an unlisted address reads as. -/
def Mem.wf (m : Mem) : Bool := decide (m.Pairwise (fun a b => a.1 < b.1)) && m.all (fun c => c.2 != 0)

/-- HBM with the writes of the command under way. -/
def Eng.view (m : Mem) (e : Eng) : Mem := e.wlog.foldr (fun w m => Mem.write m w.1 w.2) m

/-- `n` bytes of HBM as the command under way sees them. -/
def Eng.rd (m : Mem) (e : Eng) (a n : Nat) : List Byte := Mem.read (e.view m) a n

/-- `n` bytes of HBM as a number. -/
def Eng.rdNat (m : Mem) (e : Eng) (a n : Nat) : Nat := leNat (e.rd m a n)

/-- Writes bytes to HBM. -/
def Eng.store (a : Nat) (bs : List Byte) (e : Eng) : Eng := { e with wlog := (a, bs) :: e.wlog }

/-- Carries out a command that works on HBM and the engine. -/
def State.apply (s : State) (f : Mem → Eng → Eng) : Host.Outcome State Fault Refusal :=
  let e := f s.hbm { s.eng with wlog := [] }
  .next { s with hbm := e.view s.hbm, eng := { e with wlog := [] } }

/-! ### Registers -/

/-- Reset values of the registers held as plain storage (register tables, column Reset; log 3, DESIGN CHOICE). -/
def regReset (off : Nat) : Nat :=
  if off = Reg.ctCtrl then 3
  else if off = Reg.ctColmap0 then 0x40
  else if off = Reg.ctColmap1 then 0x40
  else if off = Reg.hemCtrl then 1
  else if off = Reg.slcAckTo then 0x32
  else if off = Reg.colCtrl then 1
  else if off = Reg.colFormTo then 0x64
  else if off = Reg.schCtrl then 3
  else if off = Reg.fltCtrl then 3
  else if off = Reg.engFunc then 0x3F
  else if off = Reg.evtCfg then 0x3F000000
  else if off = Reg.fltQmapLo 0 ∨ off = Reg.fltQmapLo 1 ∨ off = Reg.fltQmapLo 2 ∨ off = Reg.fltQmapLo 3 then 0x0807060403020100
  else if off = Reg.fltQmapHi 0 ∨ off = Reg.fltQmapHi 1 ∨ off = Reg.fltQmapHi 2 ∨ off = Reg.fltQmapHi 3 then 0x11100F0E0D0C0A09
  else 0

/-- The value of a stored register. -/
def Eng.reg (e : Eng) (off : Nat) : Nat := KV.get (regReset off) e.regs off

/-- Sets a stored register. -/
def Eng.setReg (off v : Nat) (e : Eng) : Eng := { e with regs := KV.put e.regs off v }

/-- Adds to the counter in bits [lo + n − 1 : lo] of a register; counters stop at their largest value. -/
def Eng.bump (off lo n k : Nat) (e : Eng) : Eng :=
  e.setReg off (setField (e.reg off) lo n (satAdd n (field (e.reg off) lo n) k))

/-- Adds to a counter that fills a 32-bit register. -/
def Eng.bump32 (off k : Nat) (e : Eng) : Eng := e.bump off 0 32 k

/-- Adds to a free-running 64-bit counter. -/
def Eng.bump64 (off k : Nat) (e : Eng) : Eng := e.setReg off ((e.reg off + k) % 2 ^ 64)

/-- DETM (Table 16-7). -/
def Eng.detm (e : Eng) : Bool := bit (e.reg Reg.engMode) 0

/-! ### Free values and time -/

/-- A fresh 64-bit free value (log 4, DESIGN CHOICE). -/
def Eng.free (e : Eng) : W64 × Eng := (Config.free64 e.freeCtr, { e with freeCtr := e.freeCtr + 1 })

/-- Hall time in ns. -/
def Eng.now (e : Eng) : Nat := e.time.ns

/-- Hall time has reached `t` (log 1, DESIGN CHOICE; log 11, DEDUCED). -/
def Eng.reach (t : Nat) (e : Eng) : Eng := { e with time.ns := max e.time.ns t }

/-! ### The chip and its place -/

/-- Variant is Twiak-3S (Table 16-8; log 14, DEDUCED). -/
def Eng.is3S (e : Eng) : Bool := e.boot.variant == 1

/-- Sluice ports of the variant (R2; log 14, DEDUCED). -/
def Eng.portCount (e : Eng) : Nat := if e.is3S then 12 else 16

/-- Quarters of the variant. -/
def Eng.quarterCount (e : Eng) : Nat := if e.is3S then 3 else 4

/-- This chip's ID, learned at training (R373). -/
def Eng.chip (e : Eng) : Nat := e.boot.chipId.getD 0

/-- Rack, tray and position of a chip ID (R13). -/
def chipRack (c : Nat) : Nat := c / 128
def chipTray (c : Nat) : Nat := c / 16 % 8
def chipPos (c : Nat) : Nat := c % 16

/-- Latency class to another chip: 0 own tray, 1 own rack, 2 hall. -/
def hopClass (a b : Nat) : Nat := if a / 16 = b / 16 then 0 else if a / 128 = b / 128 then 1 else 2

/-- One-way latency in ns of a class (Table 0-2). -/
def hopNs : Nat → Nat
  | 0 => 900
  | 1 => 2000
  | _ => 5500

/-- A message to the management controller. -/
def Eng.post (p : Post) (e : Eng) : Eng := { e with posts := e.posts ++ [p] }

/-- An IRQ_MSG (R419). -/
def Eng.irq (v : Nat) (e : Eng) : Eng := { e with irqs := e.irqs ++ [v] }

/-- A message through a port (none: local, or the management route). -/
def Eng.send (port : Option Nat) (vc : Nat) (m : TxMsg) (e : Eng) : Eng := { e with tx := e.tx ++ [⟨port, vc, m⟩] }

/-- Changes a Sluice port's state. -/
def Eng.setPort (p : Nat) (f : Port → Port) (e : Eng) : Eng := { e with ports := updAt e.ports p f }

/-- Bytes queued on a port, in all and on one virtual channel (R194). -/
def Port.queued (p : Port) : Nat := (p.queue.map (·.bytes)).sum
def Port.queuedOn (p : Port) (vc : Nat) : Nat := ((p.queue.filter (fun i => i.vc == vc)).map (·.bytes)).sum

/-- A message of `bytes` bytes joins the queue of its port and leaves (R193; log 41, DEDUCED). -/
def Eng.transmit (port : Option Nat) (vc bytes : Nat) (m : TxMsg) (e : Eng) : Eng :=
  (match port with
   | some p => e.setPort p (fun q => { q with queue := q.queue ++ [PortItem.mk vc 0 bytes none] })
   | none => e).send port vc m

/-! ### Waking (R379, R381) -/

/-- A wake event: an exit to ACTIVE starts, or waits for the entry in progress. -/
def Eng.wake (e : Eng) : Eng :=
  if e.pwr.trans then (if e.pwr.target = 0 then e else { e with pwr.wakePend := true, pwr.wakeNs := e.now })
  else if e.pwr.cur = 0 then e
  else { e with pwr.trans := true, pwr.target := 0, pwr.wakeNs := e.now, pwr.transNs := e.now }

/-! ### Events -/

/-- Records of the event ring: 2^LOG2, or none where LOG2 is not 6 to 16 (Table 20-4). -/
def Eng.evtSize (e : Eng) : Option Nat :=
  let l := field (e.reg Reg.evtCfg) 0 5
  if 6 ≤ l ∧ l ≤ 16 then some (2 ^ l) else none

/-- Event records queued for HBM. -/
def Eng.evtQueued (e : Eng) : Nat := (e.wq.filter (fun w => w.kind == .event)).length

/-- An event record (Table 20-5) with SEQ zero. -/
def evtBytes (code arg : Nat) (polder : Option Nat) (tag time : Nat) (flags : Nat) : List Byte :=
  leBytes 2 code ++ leBytes 1 (polder.getD 0) ++ leBytes 1 (flags + (if polder.isSome then 4 else 0)) ++ leBytes 4 tag ++
  leBytes 8 time ++ leBytes 4 0 ++ zeros 4 ++ leBytes 8 arg ++ zeros 32

/-- Sets SEQ and, where it applies, LOSS in a record. -/
def evtStamp (r : List Byte) (seq : Nat) (loss : Bool) : List Byte :=
  r.take 3 ++ leBytes 1 (rdLE r 3 1 + loss.toNat) ++ (r.drop 4).take 12 ++ leBytes 4 seq ++ r.drop 20

/-- Queues a record for HBM, or drops it when the ring is full (R433, R435); says whether it was dropped. -/
def Eng.evtPush (r : List Byte) (e : Eng) : Bool × Eng :=
  match e.evtSize with
  | none => (false, e)
  | some size =>
    let seq := (e.reg Reg.evtTail + e.evtQueued) % 2 ^ 32
    if (seq + 2 ^ 32 - e.reg Reg.evtHead) % 2 ^ 32 ≥ size then
      (true, { e.bump Reg.evtLost 0 16 1 with evt.loss := true })
    else
      (false, { e with
        wq := e.wq ++ [⟨.event, e.reg Reg.evtBase + seq % size * 64, evtStamp r seq e.evt.loss⟩]
        evt.loss := false })

/-- Counts an event and delivers its record: masked, held while the memory-system port is off, held through a compute
reset, or queued (R435, R436). Says whether it was dropped (log 13, DEDUCED). -/
def Eng.raiseRec (code arg : Nat) (polder : Option Nat) (tag : Nat) (e : Eng) : Bool × Eng :=
  let cls := code / 256
  let e := (e.bump32 (Reg.evtCnt cls) 1).setReg Reg.evtLast (code % 2 ^ 16 * 2 ^ 48 + e.now % 2 ^ 48)
  let r := evtBytes code arg polder tag e.now 0
  if bit (e.reg Reg.evtMask) cls then (false, e.bump Reg.evtLost 16 16 1)
  else if e.evtSize.isNone then (false, e)
  else if e.flt.recovery == some .compute then (false, { e with evt.resetHeld := e.evt.resetHeld ++ [r] })
  else if e.pwr.cur ≥ 3 then
    if e.evt.held.length ≥ 64 then (true, { e.bump Reg.evtLost 0 16 1 with evt.loss := true })
    else
      let e := { e with evt.held := e.evt.held ++ [evtBytes code arg polder tag e.now 2] }
      (false, if cls = 1 ∨ cls = 6 ∨ e.evt.held.length ≥ 48 then e.wake else e)
  else e.evtPush r

/-- Raises an event; while records are dropped, EVENT_RING_LOSS is raised at most once per millisecond (R438). -/
def Eng.raise (code arg : Nat) (polder : Option Nat) (tag : Nat) (e : Eng) : Eng :=
  let (lost, e) := e.raiseRec code arg polder tag
  if lost && e.evt.lossNs.all (fun t => t + 1000000 ≤ e.now) then
    ({ e with evt.lossNs := some e.now }.raiseRec 0x05C0 0 none 0).2
  else e

/-- ARG of class 0x01: port and peer chip. -/
def arg1 (port : Option Nat) (chip : Nat) : Nat := port.getD 15 * 2 ^ 17 + chip % 2 ^ 17
/-- ARG of class 0x03: layer slot and token of the first row. -/
def arg3 (slot token : Nat) : Nat := slot + token % 2 ^ 32 * 256
/-- ARG of class 0x04: layer slot, expert, queue or pool, occurrences. -/
def arg4 (slot sub occ : Nat) : Nat := slot + sub % 2 ^ 14 * 256 + occ % 2 ^ 32 * 2 ^ 32
/-- ARG of class 0x05: ring, polder, resident slot. -/
def arg5 (ring polder rslot : Nat) : Nat := ring + polder * 2 ^ 16 + rslot * 2 ^ 24
/-- ARG of class 0x06: bay, dike, quarter, position; ones in a field not concerned. -/
def arg6 (bay dike quarter pos : Option Nat) : Nat :=
  bay.getD 63 % 64 + dike.getD 63 % 64 * 256 + quarter.getD 3 % 4 * 2 ^ 16 + pos.getD 31 % 32 * 2 ^ 20
/-- ARG of class 0x09: power state, functions changed. -/
def arg9 (st fn : Nat) : Nat := st + fn * 256
/-- ARG of class 0x0A: group, epoch, SEQ or BSEQ. -/
def argA (g epoch seq : Nat) : Nat := g % 64 + epoch % 2 ^ 16 * 2 ^ 16 + seq % 2 ^ 32 * 2 ^ 32

/-! ### Records on their way to HBM -/

/-- Queues a record (R417). -/
def Eng.queueRec (k : WqKind) (addr : Nat) (bs : List Byte) (e : Eng) : Eng := { e with wq := e.wq ++ [⟨k, addr, bs⟩] }

/-! ### Lists of engine work -/

/-- The polder slot that holds a resident polder. -/
def Eng.slotOf (e : Eng) (polder : Nat) : Option Nat :=
  (List.range 16).find? (fun s => match e.pld.slots[s]? with
    | some p => p.st != .empty && p.polder == polder
    | none => false)

/-- A polder slot. -/
def Eng.pslot (e : Eng) (s : Nat) : PldSlot := e.pld.slots.getD s {}

/-- Changes a polder slot. -/
def Eng.setPslot (s : Nat) (f : PldSlot → PldSlot) (e : Eng) : Eng := { e with pld.slots := updAt e.pld.slots s f }

/-- A layer slot. -/
def Eng.lslot (e : Eng) (s : Nat) : LSlot := KV.get {} e.lslots s

/-- Changes a layer slot (log 62, DESIGN CHOICE). -/
def Eng.setLslot (s : Nat) (f : LSlot → LSlot) (e : Eng) : Eng := { e with lslots := KV.upd {} e.lslots s f }

/-- A group. -/
def Eng.group (e : Eng) (g : Nat) : Group := KV.get {} e.groups g

/-- Changes a group. -/
def Eng.setGroup (g : Nat) (f : Group → Group) (e : Eng) : Eng := { e with groups := KV.upd {} e.groups g f }

/-- A Sluice port. -/
def Eng.port (e : Eng) (p : Nat) : Port := e.ports.getD p {}

/-- A command of the front end by its identity. -/
def Eng.cmd? (e : Eng) (id : Nat) : Option Cmd := e.cmds.find? (fun c => c.id == id)

/-- Changes a command. -/
def Eng.setCmd (id : Nat) (f : Cmd → Cmd) (e : Eng) : Eng := { e with cmds := updFirst (fun c => c.id == id) f e.cmds }

/-- The template of a polder in the applied image (R297). -/
def Eng.template (e : Eng) (polder : Nat) : Option Template := e.pat.bind (fun p => KV.find p.templates (polder % 16))

/-- Whether a range of HBM lies in regions marked weights/state (R414; log 60, DESIGN CHOICE). -/
def Eng.marked (e : Eng) (a n : Nat) : Bool := e.acts.all (fun r => !(decide (a < r.1 + r.2) && decide (r.1 < a + n)))

/-- Polder whose template range holds a layer slot. -/
def Eng.slotPolder (e : Eng) (slot : Nat) : Option Nat :=
  ((e.pld.slots.filter (fun p => p.st != .empty)).find? (fun p => match e.template p.polder with
    | some t => t.slotBase ≤ slot && slot < t.slotBase + t.slotCount
    | none => false)).map (·.polder)

/-- A polder of the reserved class: its template says so, and the Pattern has a TIDE section (R30, R42, R60). -/
def Eng.reservedClass (e : Eng) (polder : Nat) : Bool := match e.template polder with
  | some t => t.tclass == 1 && (e.pat.map (·.tidePeriod)).getD 0 != 0
  | none => false

/-- A polder of the consent class. -/
def Eng.consentClass (e : Eng) (polder : Nat) : Bool := (e.template polder).isSome && !e.reservedClass polder

/-- Adds to an accounting counter of a resident polder (R318). -/
def Eng.account (polder : Nat) (f : Acc → Acc) (e : Eng) : Eng :=
  match e.slotOf polder with
  | some s => e.setPslot s (fun p => { p with acc := f p.acc })
  | none => e

/-- Work of a polder has held units of the core island: ACC_TIME counts its core cycles, whose number the spec bounds and
does not state (Tables 13-7, 13-11; log 4, DESIGN CHOICE), and TWK_SCH_OFFHOME how much of it was placed off its home quarter, which
depends on the quarters' backlogs in core cycles (R310; log 4, DESIGN CHOICE). -/
def Eng.accTime (polder : Nat) (e : Eng) : Eng :=
  let t := e.free
  let h := t.2.free
  (h.2.account polder (fun a => { a with time := (a.time + t.1.toNat) % 2 ^ 64 })).bump32 Reg.schOffhome h.1.toNat

/-- HBM bytes moved for a polder (log 60, DESIGN CHOICE). -/
def Eng.accHbm (polder n : Nat) (e : Eng) : Eng := e.account polder (fun a => { a with hbm := (a.hbm + n) % 2 ^ 64 })

/-- HBM bytes moved for the polder of a layer slot. -/
def Eng.accSlot (slot n : Nat) (e : Eng) : Eng := match e.slotPolder slot with
  | some p => e.accHbm p n
  | none => e

/-- HBM bytes of weights that the tables read for a polder's passes, whose number the spec does not state (Table 13-11; log 4,
DESIGN CHOICE; log 60, DESIGN CHOICE). -/
def Eng.accWeights (polder : Nat) (e : Eng) : Eng :=
  let n := e.free
  n.2.accHbm polder n.1.toNat

/-- Bytes sent to or received from a chip for a polder (Table 13-11). -/
def Eng.accLink (polder chip n : Nat) (e : Eng) : Eng :=
  match hopClass e.chip chip with
  | 0 => e.account polder (fun a => { a with tray := (a.tray + n) % 2 ^ 64 })
  | 1 => e.account polder (fun a => { a with rack := (a.rack + n) % 2 ^ 64 })
  | _ => e.account polder (fun a => { a with hall := (a.hall + n) % 2 ^ 64 })

end Sys2Proof.Machine
end

