-- ==== Sys2Proof/Machine/Gauges.lean ====
section
/-! DEFINITION. Gauges and per-expert counters: the values taken (R384 to R388). -/

namespace Sys2Proof.Machine

/-- Gauge sources (Table 17-1). -/
def gsCmdLatency : Nat := 0x0001
def gsCmdWait : Nat := 0x0002
def gsChunkRtt : Nat := 0x0003
def gsFittingRound : Nat := 0x0004
def gsCombineTail : Nat := 0x0005
def gsBarrierSlack : Nat := 0x0006
def gsPowerExit : Nat := 0x0007
def gsQueueHeld : Nat := 0x0010
def gsPoolFree : Nat := 0x0011
def gsTtInflight : Nat := 0x0012
def gsBobbinFree : Nat := 0x0013
def gsPortQueued : Nat := 0x0014
def gsSlowdown : Nat := 0x0015
def gsTtFull : Nat := 0x0020
def gsSwitchRefused : Nat := 0x0021
def gsSpoolBpWait : Nat := 0x0022
def gsTideOverrun : Nat := 0x0023
def gsHostReserveWait : Nat := 0x0024

/-- Histogram bin of a shifted value (R386). -/
def gaugeBin (v : Nat) : Nat := if v = 0 then 0 else min 63 (Nat.log2 v + 1)

/-- A gauge takes one value (R386). -/
def Gauge.take (g : Gauge) (x : Nat) : Gauge :=
  let v := x % 2 ^ 64 / 2 ^ field g.bind 32 4
  { g with
    count := (g.count + 1) % 2 ^ 64
    sum := (g.sum + v) % 2 ^ 64
    min := Nat.min g.min v
    max := Nat.max g.max v
    bins := KV.upd 0 g.bins (gaugeBin v) (fun n => satAdd 32 n 1) }

/-- A gauge's values after a clear (R386, Table 17-8). -/
def Gauge.clear (g : Gauge) (now : Nat) : Gauge := { bind := g.bind, clearedAt := now }

/-- Whether a gauge takes values of a source's occurrence (R384, R385). -/
def Gauge.takes (g : Gauge) (src inst : Nat) (polder : Option Nat) : Bool :=
  bit g.bind 16 && field g.bind 0 16 == src && (!bit g.bind 39 || field g.bind 40 13 == inst) &&
  (!bit g.bind 55 || polder == some (field g.bind 56 8))

/-- A value of a latency or event source reaches the gauges bound to it. -/
def Eng.gauge (src inst : Nat) (polder : Option Nat) (x : Nat) (e : Eng) : Eng :=
  { e with gauges := e.gauges.map (fun kg => if kg.2.takes src inst polder then (kg.1, kg.2.take x) else kg) }

/-- Whether a gauge samples a level source at `us` microseconds of hall time (R384). -/
def Gauge.samples (g : Gauge) (us : Nat) : Bool :=
  bit g.bind 16 && us % Nat.max 1 (field g.bind 24 8) == 0

/-- Changes the counters of a slot's local expert (R388). -/
def Eng.expert (slot j : Nat) (f : ExpCnt → ExpCnt) (e : Eng) : Eng :=
  { e with experts := KV.upd {} e.experts (slot * 4 + j) f }

/-- Changes the source-side counters of a slot (R388). -/
def Eng.srcCount (slot : Nat) (f : SrcCnt → SrcCnt) (e : Eng) : Eng := { e with srcs := KV.upd {} e.srcs slot f }

end Sys2Proof.Machine
end

