-- ==== Sys2Proof/Machine/Bobbins.lean ====
section
/-! DEFINITION. The bobbin pool manager (chapter 11): pools, requests, reference counts, reserves, force-release. -/

namespace Sys2Proof.Machine

/-! ### Pools -/

/-- Buffer size of a pool (Table 11-1). -/
def poolSize (p : Nat) : Nat := 2048 * 4 ^ p

/-- Buffer count and base of a pool. -/
def Eng.poolCount (e : Eng) (p : Nat) : Nat := field (e.reg (Reg.bobPoolCount p)) 0 23
def Eng.poolBase (e : Eng) (p : Nat) : Nat := e.reg (Reg.bobPoolBase p)

/-- Global number of a pool's first buffer (R254). -/
def Eng.poolFirst (e : Eng) (p : Nat) : Nat := ((List.range p).map e.poolCount).sum

/-- Buffers of all pools. -/
def Eng.bufTotal (e : Eng) : Nat := e.poolFirst 8

/-- Pool of a global number. -/
def Eng.poolOf (e : Eng) (n : Nat) : Option Nat :=
  (List.range 8).find? (fun p => e.poolFirst p ≤ n && n < e.poolFirst p + e.poolCount p)

/-- Address of a buffer (R254). -/
def Eng.bufAddr (e : Eng) (p n : Nat) : Nat := e.poolBase p + (n - e.poolFirst p) * poolSize p

/-- Whether two address ranges meet; an empty range meets none. -/
def rangesMeet (a la b lb : Nat) : Bool := la > 0 && lb > 0 && a < b + lb && b < a + la

/-- The pool configuration is valid (R254, R255). -/
def Eng.poolsValid (e : Eng) : Bool :=
  (List.range 8).all (fun p => e.poolBase p % 4096 == 0) && e.bufTotal ≤ 4194304 &&
  (List.range 8).all (fun p => (List.range 8).all (fun q =>
    p == q || !rangesMeet (e.poolBase p) (e.poolCount p * poolSize p) (e.poolBase q) (e.poolCount q * poolSize q))) &&
  (List.range 8).all (fun p =>
    !rangesMeet (e.poolBase p) (e.poolCount p * poolSize p) (e.reg Reg.bobTable) (8 * e.bufTotal))

/-- CONFIG_VALID (Table 11-8): R255, from the first configuration on (log 35, DEDUCED). -/
def Eng.configValid (e : Eng) : Bool := e.bob.ready && e.poolsValid

/-- Table entry of a buffer; one not listed is FREE with GEN 1 (R258). -/
def Eng.bentry (e : Eng) (n : Nat) : BEntry := KV.get {} e.bob.entries n

/-- The first buffer from `i` on whose entry is free, not retired, and not in the list of those freed since. -/
def Eng.freshFrom (e : Eng) (freed : List Nat) : Nat → Nat → Nat → Option Nat
  | 0, _, _ => none
  | fuel + 1, i, top =>
    if i < top then
      if (e.bentry i).st == .free && !(e.bentry i).retired && !freed.contains i then some i else e.freshFrom freed fuel (i + 1) top
    else none

/-- The first buffer of a pool from `i` on that has been free since initialisation (log 58, DESIGN CHOICE). -/
def Eng.freshOf (e : Eng) (p i : Nat) : Option Nat :=
  let freed := (e.bob.pools.getD p {}).freed
  e.freshFrom freed (e.bob.entries.length + freed.length + 1) i (e.poolFirst p + e.poolCount p)

/-- NEXT of a buffer (Table 11-2): the next of its pool's free list, or its own number. -/
def Eng.bufNext (e : Eng) (n : Nat) : Nat :=
  match e.poolOf n with
  | none => n
  | some p =>
    let pool := e.bob.pools.getD p {}
    let freed := pool.freed.filter (fun i => i == n || !(e.bentry i).retired)
    match freed.dropWhile (· != n) with
    | _ :: m :: _ => m
    | [_] => n
    | [] =>
      if e.poolFirst p + pool.fresh ≤ n && (e.bentry n).st == .free && !(e.bentry n).retired then
        ((e.freshOf p (n + 1)).orElse (fun _ => freed.head?)).getD n
      else n

/-- The table entry as Table 11-2 lays it out. -/
def Eng.entryWord (e : Eng) (n : Nat) : Nat :=
  let b := e.bentry n
  let st := match b.st with | .free => 0 | .held => 1 | .reserved => 2 | .orphan => 3
  b.fromResv.toNat * 2 ^ 20 + b.owner % 256 * 2 ^ 21 + b.retired.toNat * 2 ^ 29 + b.count % 16 * 2 ^ 30 + st * 2 ^ 34 +
  b.gen % 64 * 2 ^ 36 + e.bufNext n % 2 ^ 22 * 2 ^ 42

/-- Lines of the buffer table are written back to HBM whole, at TWK_BOB_TABLE, as their entries change (R257; log 58, DESIGN
CHOICE). -/
def Eng.lineBack (n : Nat) (e : Eng) : Eng :=
  let l := ((List.range 8).map (fun i => n / 8 * 8 + i)).filter (· < e.bufTotal)
  e.store (e.reg Reg.bobTable + n / 8 * 64) (l.flatMap (fun i => leBytes 8 (e.entryWord i)))

/-- The whole buffer table written to HBM: at its initialisation, and with the stacks at the entry to DEEP (R257, R258,
R273; log 58, DESIGN CHOICE). -/
def Eng.tableBack (e : Eng) : Eng :=
  e.store (e.reg Reg.bobTable) ((List.range e.bufTotal).flatMap (fun i => leBytes 8 (e.entryWord i)))

/-- Changes a table entry, and its line in HBM (log 58, DESIGN CHOICE). -/
def Eng.setEntry (n : Nat) (f : BEntry → BEntry) (e : Eng) : Eng :=
  { e with bob.entries := KV.upd {} e.bob.entries n f }.lineBack n

/-- A buffer joins the tail of its pool's free list (R261): its line and the one of the tail before it change
(log 58, DESIGN CHOICE). -/
def Eng.toTail (p n : Nat) (e : Eng) : Eng :=
  let last := (e.bob.pools.getD p {}).freed.getLast?
  let e := { e with bob.pools := updAt e.bob.pools p (fun l => { l with freed := l.freed ++ [n] }) }.lineBack n
  match last with
  | some k => e.lineBack k
  | none => e

/-- HELD_ANY (Table 11-8). -/
def Eng.heldAny (e : Eng) : Bool := e.bob.entries.any (fun kv => kv.2.st != .free)

/-- Entries of a pool that satisfy a condition. -/
def Eng.countIn (e : Eng) (p : Nat) (f : BEntry → Bool) : Nat :=
  (e.bob.entries.filter (fun kv => e.poolFirst p ≤ kv.1 && kv.1 < e.poolFirst p + e.poolCount p && f kv.2)).length

/-- Free buffers of a pool: none while the configuration is not valid (R258). -/
def Eng.poolAvail (e : Eng) (p : Nat) : Nat :=
  if e.configValid then e.poolCount p - e.countIn p (fun b => b.retired || b.st != .free) else 0

/-- H, U and R of a polder and pool (R266). -/
def Eng.bobH (e : Eng) (polder p : Nat) : Nat := e.countIn p (fun b => b.st == .held && b.owner == polder)
def Eng.bobU (e : Eng) (polder p : Nat) : Nat :=
  e.countIn p (fun b => b.st == .held && b.owner == polder && b.fromResv)
def Eng.bobR (e : Eng) (polder p : Nat) : Nat :=
  ((e.bob.seqs.filter (fun s => s.polder == polder && s.admitted)).map (fun s => s.resv.getD p 0)).sum

/-- Q of a polder and pool (R42). -/
def Eng.bobQ (e : Eng) (polder p : Nat) : Nat :=
  match e.template polder with
  | some t => t.bobQuota.getD p 0
  | none => 0

/-- Handle of a buffer (R256). -/
def Eng.handleOf (e : Eng) (n : Nat) : Nat := (e.bentry n).gen * 2 ^ 26 + (e.poolOf n).getD 0 * 2 ^ 22 + n

/-- Starts every table entry, free list and quota account over; retired entries stay, orphans stay where asked; sequences that
wait, and their commands, go on waiting (R258, R273). -/
def Eng.bobInitTable (keepOrphans : Bool) (e : Eng) : Eng :=
  let e : Eng := { e with
    bob.entries := e.bob.entries.filterMap (fun kv =>
      if kv.2.retired then some (kv.1, { retired := true })
      else if keepOrphans && kv.2.st == .orphan then some kv else none)
    bob.pools := List.replicate 8 {}
    bob.seqs := e.bob.seqs.map (fun s => if s.admitted then { s with resv := List.replicate 8 0 } else s)
    bob.busy := true
    bob.ready := true }
  e.tableBack

/-! ### Taking buffers -/

/-- The buffer at the head of a pool's free list, and the manager without it (R261). -/
def Eng.popBuf (p : Nat) (e : Eng) : Option (Nat × Eng) :=
  let pool := e.bob.pools.getD p {}
  let first := e.poolFirst p
  match e.freshOf p (first + pool.fresh) with
  | some n => some (n, { e with bob.pools := e.bob.pools.set p { pool with fresh := n + 1 - first } })
  | none =>
    match pool.freed.filter (fun n => !(e.bentry n).retired) with
    | n :: t => some (n, { e with bob.pools := e.bob.pools.set p { fresh := e.poolCount p, freed := t } })
    | [] => none

/-- Marks a buffer HELD (R262). -/
def Eng.holdBuf (polder n refs eng : Nat) (resv : Bool) (e : Eng) : Eng :=
  e.setEntry n (fun b => { b with st := .held, count := refs, eng := eng, owner := polder, fromResv := resv })

/-- What a request gets (Table 11-4). -/
inductive BobAns where
  | got (bufs : List Buf) (e : Eng)
  | quota (pool : Nat)
  | wait (pool : Nat)

/-- The buffer that a handle names. -/
def Eng.bufOf (e : Eng) (n : Nat) : Buf :=
  let p := (e.poolOf n).getD 0
  ⟨e.handleOf n, e.bufAddr p n, poolSize p⟩

/-- Takes `k` buffers of a pool from its free list. -/
def Eng.takeFree (polder p refs eng : Nat) : Nat → Eng → List Buf × Eng
  | 0, e => ([], e)
  | k + 1, e =>
    match e.popBuf p with
    | none => ([], e)
    | some (n, e) =>
      let e := e.holdBuf polder n refs eng false
      let (l, e') := Eng.takeFree polder p refs eng k e
      (e.bufOf n :: l, e')

/-- Takes `k` RESERVED buffers of a polder, lowest number first (log 8, DESIGN CHOICE). -/
def Eng.takeResv (polder p refs eng k : Nat) (e : Eng) : List Buf × Eng :=
  let l := (e.bob.entries.filter (fun kv => e.poolOf kv.1 == some p && kv.2.st == .reserved && kv.2.owner == polder)).map (·.1)
  (l.take k).foldl (fun (acc : List Buf × Eng) n =>
    let e := acc.2.holdBuf polder n refs eng true
    (acc.1 ++ [e.bufOf n], e)) ([], e)

/-- Pools for which requests ahead of `who` wait: all of them, for a request that does not wait itself (R267;
log 34, DEDUCED). -/
def Eng.bobAhead (who : Option BWho) (e : Eng) : List Nat :=
  (e.bob.waits.takeWhile (fun w => some w.who != who)).flatMap (·.pools)

/-- The pool whose quota a whole part exceeds (Table 11-4 case 2); `used` lists the pools and counts of its earlier requests
and whether the reserve covers them (log 34, DEDUCED). -/
def Eng.overQuota (e : Eng) (polder : Nat) (resv : Bool) :
    List (Nat × Nat × Nat × Nat) → List (Nat × Nat × Bool) → Option Nat
  | [], _ => none
  | (p, k, _, _) :: t, used =>
    let mine := used.filter (fun x => x.1 == p)
    let h := e.bobH polder p + (mine.map (fun x => x.2.1)).sum
    let u := e.bobU polder p + ((mine.filter (fun x => x.2.2)).map (fun x => x.2.1)).sum
    let r := e.bobR polder p
    if resv && u + k ≤ r then e.overQuota polder resv t (used ++ [(p, k, true)])
    else if h + r + k > e.bobQ polder p + u then some p
    else e.overQuota polder resv t (used ++ [(p, k, false)])

/-- One request, within its quota, for `k` buffers of one pool, behind the requests that wait for the pools `ahead`
(R258, R267; log 8, DESIGN CHOICE; log 34, DEDUCED). -/
def Eng.bobTake (polder : Nat) (resv : Bool) (ahead : List Nat) (p k refs eng : Nat) (e : Eng) : BobAns :=
  if resv && e.bobU polder p + k ≤ e.bobR polder p then
    let (l, e) := e.takeResv polder p refs eng k
    .got l e
  else if e.configValid && k ≤ e.poolAvail p && !ahead.contains p then
    let e := if resv then e.bump32 Reg.bobResvShort 1 else e
    let (l, e) := e.takeFree polder p refs eng k
    .got l e
  else .wait p

/-- Pool and number of buffers for `rows` rows of `w` bytes kept together (R260). -/
def fitRows (rows w : Nat) : Nat × Nat :=
  let l := rows * w
  match (List.range 8).find? (fun p => l ≤ poolSize p) with
  | some p => (p, 1)
  | none => (7, ceilDiv rows (max 1 (poolSize 7 / w)))

/-- Takes every request of a list that is within its quota, or none of them. -/
def Eng.bobTakeList (polder : Nat) (resv : Bool) (ahead : List Nat) : List (Nat × Nat × Nat × Nat) → Eng → BobAns
  | [], e => .got [] e
  | (p, k, refs, eng) :: t, e =>
    match e.bobTake polder resv ahead p k refs eng with
    | .got l e =>
      match e.bobTakeList polder resv ahead t with
      | .got l' e => .got (l ++ l') e
      | a => a
    | a => a

/-- A whole part: every request of the list, or none of them (R267); initialisation keeps requests waiting (R258;
log 34, DEDUCED). -/
def Eng.bobTakeAll (who : Option BWho) (polder : Nat) (resv : Bool) (l : List (Nat × Nat × Nat × Nat)) (e : Eng) : BobAns :=
  if e.bob.busy then .wait ((l.head?.map (·.1)).getD 0)
  else match e.overQuota polder resv l [] with
    | some p => .quota p
    | none => e.bobTakeList polder resv (e.bobAhead who) l

/-- Notes that a request waits (Table 11-4 case 4; log 34, DEDUCED). -/
def Eng.noteWait (w : BWait) (e : Eng) : Eng :=
  if e.bob.waits.any (fun x => x.who == w.who) then e else { e with bob.waits := e.bob.waits ++ [w] }

/-- A request no longer waits. -/
def Eng.endWait (who : BWho) (e : Eng) : Eng := { e with bob.waits := e.bob.waits.filter (fun w => w.who != who) }


/-- A request that does not fit the quota raises the event, and is counted where its polder is of the reserved class
(Table 11-4 case 2). -/
def Eng.bobQuotaEvent (polder slot : Nat) (pool tag : Nat) (e : Eng) : Eng :=
  (if e.reservedClass polder then e.bump32 Reg.bobResvShort 1 else e).raise 0x0492 (arg4 slot pool 1) (some polder) tag

/-! ### Giving buffers back -/

/-- A buffer whose count reaches 0: back to its owner's reserve or to the free list's tail, with the next GEN (R257,
R263, R267). -/
def Eng.freeBuf (n : Nat) (e : Eng) : Eng :=
  let b := e.bentry n
  let p := (e.poolOf n).getD 0
  let gen := if b.gen ≥ 63 then 1 else b.gen + 1
  if b.fromResv && e.bobU b.owner p ≤ e.bobR b.owner p then
    e.setEntry n (fun b => { b with st := .reserved, gen := gen, count := 0, eng := 0, fromResv := false })
  else
    (e.setEntry n (fun b => { b with st := .free, gen := gen, count := 0, eng := 0, owner := 0, fromResv := false })).toTail p n

/-- An engine unit gives up its reference (R263); on a retired entry it is ignored and counted (R264, R272;
log 58, DESIGN CHOICE). -/
def Eng.engDec (buf : Buf) (e : Eng) : Eng :=
  let n := buf.handle % 2 ^ 22
  let b := e.bentry n
  if b.retired then e.bump Reg.bobDf 0 16 1
  else if b.count = 0 || b.gen ≠ buf.handle / 2 ^ 26 || !(b.st == .held || b.st == .orphan) then e
  else
    let e := e.setEntry n (fun b => { b with count := b.count - 1, eng := b.eng - 1 })
    if b.count = 1 then e.freeBuf n else e

/-- Engine references of several buffers. -/
def Eng.engDecAll (l : List Buf) (e : Eng) : Eng := l.foldl (fun e b => e.engDec b) e

/-- One buffer of a RELEASE (R264): its status and whether it was a double free; `polder` for a command, none for a
message. -/
def Eng.releaseOne (polder : Option Nat) (single : Bool) (gen n : Nat) (e : Eng) : Nat × Bool × Eng :=
  let b := e.bentry n
  if polder.isSome && (((b.st == .held || b.st == .reserved) && some b.owner != polder) || b.st == .orphan) then
    (0x15, false, e)
  else if b.retired then (0, false, e.bump Reg.bobDf 0 16 1)
  else if single && gen ≠ 0 && gen ≠ b.gen then (0x14, true, e.bump Reg.bobDf 0 16 1)
  else if b.st == .free || b.st == .reserved || b.count = 0 then (0x14, true, e.bump Reg.bobDf 16 16 1)
  else
    let e := e.setEntry n (fun b => { b with count := b.count - 1, eng := min b.eng (b.count - 1) })
    (0, false, if b.count = 1 then e.freeBuf n else e)

/-- The buffers of a handle and count, where POOL and every NUMBER agree (R264 check 1). -/
def Eng.releaseRange (e : Eng) (handle count : Nat) : Option (List Nat) :=
  let p := field handle 22 3
  let n := field handle 0 22
  if p < 8 && e.poolFirst p ≤ n && n + count ≤ e.poolFirst p + e.poolCount p && count > 0 then
    some ((List.range count).map (fun i => n + i))
  else none

/-- All buffers of a RELEASE, ascending: the first failing status, and how many were double frees (R264, R265;
log 35, DEDUCED). -/
def Eng.releaseAll (polder : Option Nat) (single : Bool) (gen : Nat) : List Nat → Nat × Nat × Eng → Nat × Nat × Eng
  | [], acc => acc
  | n :: t, (st, df, e) =>
    let (s1, d1, e) := e.releaseOne polder single gen n
    Eng.releaseAll polder single gen t (if st = 0 then s1 else st, df + d1.toNat, e)

/-- A RELEASE message (R263, R264; log 35, DEDUCED). -/
def Eng.releaseMsg (handle count : Nat) (e : Eng) : Eng :=
  match e.releaseRange handle count with
  | none => e
  | some l =>
    let (_, df, e) := Eng.releaseAll none (count = 1) (field handle 26 6) l (0, 0, e)
    if df > 0 then e.raise 0x0490 (arg4 0 (field handle 22 3) df) none 0 else e

/-- Force-release of everything charged to a polder (R271): reserves, references of the engine and of RELEASE commands;
what only the matrix engine still holds becomes ORPHAN. -/
def Eng.forceRelease (polder : Nat) (e : Eng) : Eng :=
  let mine := (e.bob.entries.filter (fun kv => kv.2.owner == polder && (kv.2.st == .held || kv.2.st == .reserved))).map (·.1)
  let e := { e with
    bob.seqs := e.bob.seqs.filter (fun s => s.polder != polder)
    bob.waits := e.bob.waits.filter (fun w => w.polder != polder) }
  let (e, orphan) := mine.foldl (fun (acc : Eng × Bool) n =>
    let b := acc.1.bentry n
    if b.st == .held && b.count > b.eng then
      (acc.1.setEntry n (fun b => { b with st := .orphan, count := b.count - b.eng, eng := 0, owner := 0, fromResv := false }), true)
    else ((acc.1.setEntry n (fun b => { b with fromResv := false })).freeBuf n, acc.2)) (e, false)
  if orphan then e.raise 0x0590 (arg5 0 polder ((e.slotOf polder).getD 0)) (some polder) 0 else e

/-! ### Reserves (R268 to R270) -/

/-- Whether an ADMIT's reservation can be met (R269); it passes no request of another polder that waits for a pool it
names (log 34, DEDUCED). -/
def Eng.admitFits (e : Eng) (s : BSeq) : Bool :=
  !e.bob.busy && e.configValid && (List.range 8).all (fun p =>
    let r := s.resv.getD p 0
    r ≤ e.poolAvail p && (r == 0 || !e.bob.waits.any (fun w => w.polder != s.polder && w.pools.contains p)) &&
    e.bobH s.polder p + e.bobR s.polder p - e.bobU s.polder p + r ≤ e.bobQ s.polder p)

/-- Moves `k` free buffers of a pool to a polder's reserve. -/
def Eng.reserve (polder p : Nat) : Nat → Eng → Eng
  | 0, e => e
  | k + 1, e =>
    match e.popBuf p with
    | none => e
    | some (n, e) => Eng.reserve polder p k (e.setEntry n (fun b => { b with st := .reserved, owner := polder }))

/-- Admits a sequence, all pools in one step (R269). -/
def Eng.admitNow (s : BSeq) (e : Eng) : Eng :=
  let e := (List.range 8).foldl (fun e p => Eng.reserve s.polder p (s.resv.getD p 0) e) e
  { e with bob.seqs := updFirst (fun x => x.polder == s.polder && x.seq == s.seq) (fun x => { x with admitted := true, deferred := false }) e.bob.seqs }

/-- After a RETIRE: RESERVED buffers above R − U go back to the free list (R270). -/
def Eng.trimResv (polder : Nat) (e : Eng) : Eng :=
  (List.range 8).foldl (fun e p =>
    let keep := e.bobR polder p - e.bobU polder p
    let l := (e.bob.entries.filter (fun kv => e.poolOf kv.1 == some p && kv.2.st == .reserved && kv.2.owner == polder)).map (·.1)
    (l.drop keep).foldl (fun e n =>
      (e.setEntry n (fun b => { b with st := .free, owner := 0 })).toTail p n) e) e

/-! ### Entries that cannot be read (R272) -/

/-- Takes one buffer of a pool off a polder's reserve: off its sequence admitted first that reserves any (log 58, DESIGN
CHOICE). -/
def Eng.lessResv (polder p : Nat) (e : Eng) : Eng :=
  let mine (s : BSeq) : Bool := s.polder == polder && s.admitted && s.resv.getD p 0 != 0
  { e with bob.seqs := updFirst mine (fun s => { s with resv := updAt s.resv p (fun n => n - 1) }) e.bob.seqs }

/-- An entry is lost: never allocated again, its buffer charged to nobody, neither as held nor as reserved
(log 58, DESIGN CHOICE). -/
def Eng.retireBuf (n : Nat) (e : Eng) : Eng :=
  let b := e.bentry n
  let e := if b.st == .reserved || (b.st == .held && b.fromResv) then e.lessResv b.owner ((e.poolOf n).getD 0) else e
  e.setEntry n (fun _ => { retired := true })

/-! ### Status -/

/-- TWK_BOB_STATUS (Table 11-8). -/
def Eng.bobStatus (e : Eng) : Nat :=
  e.configValid.toNat + e.bob.refused.toNat * 2 + e.heldAny.toNat * 4 + e.bob.busy.toNat * 8

/-- A write refused (R258, R259). -/
def Eng.bobRefuse (e : Eng) : Eng := { e with bob.refused := true }.raise 0x0591 0 none 0

end Sys2Proof.Machine
end

