-- ==== Sys2Proof/Machine/Flags.lean ====
section
/-! DEFINITION. Status codes (Table 3-15), completion FLAGS and records (Table 3-13), and which units are present: the
placement of Table 1-3, the logical maps (R346, R348) and the replacement request (R349). -/

namespace Sys2Proof.Machine

/-! ### Status codes -/

def stOk : Nat := 0x00
def stDegraded : Nat := 0x01
def stCancelled : Nat := 0x02
def stDeferred : Nat := 0x03
def stAlign : Nat := 0x10
def stBad : Nat := 0x11
def stVersion : Nat := 0x12
def stQuota : Nat := 0x13
def stDoubleFree : Nat := 0x14
def stPriv : Nat := 0x15
def stPeerLost : Nat := 0x20
def stPolderFault : Nat := 0x21
def stEpochStale : Nat := 0x22

/-! ### Placement (R15, Table 1-3) -/

/-- Bay of a quarter's physical position (R15). -/
def bayOf (quarter pos : Nat) : Nat := if quarter % 2 = 0 then pos else 18 + pos

/-- Spool banks of a bay. -/
def bayBanks (b : Nat) : List Nat :=
  let d := b / 6
  match b % 6 with
  | 0 => [8 * d, 8 * d + 1]
  | 1 => [8 * d + 2, 8 * d + 3]
  | 2 => [8 * d + 4]
  | 3 => [8 * d + 5]
  | 4 => [8 * d + 6]
  | _ => [8 * d + 7]

/-- Bay of a Sluice port. -/
def portBay (p : Nat) : Nat := if p < 6 then 6 * p + 2 else if p < 12 then 6 * (p - 6) + 3 else 6 * (p - 12) + 4

/-- Bay of a weight cache slice. -/
def sliceBay (s : Nat) : Nat := 6 * s + 1

/-- Bays of the two halves of the cutting tables, Hem unit, Selector and fitting unit, Pleater and Seamer. -/
def ctBay (h : Nat) : Nat := if h = 0 then 5 else 23
def hemBay (h : Nat) : Nat := if h = 0 then 11 else 29
def selBay (h : Nat) : Nat := if h = 0 then 17 else 35
def pltBay (h : Nat) : Nat := if h = 0 then 10 else 28
def semBay (h : Nat) : Nat := if h = 0 then 4 else 34

/-- Whether a bay is in reset or contained, itself or with its dike (R350). -/
def Eng.bayDown (e : Eng) (b : Nat) : Bool :=
  e.flt.baysReset.contains b || e.flt.baysContained.contains b || e.flt.dikesReset.contains (b / 6) ||
  e.flt.dikesContained.contains (b / 6)

def Eng.ctPresent (e : Eng) (h : Nat) : Bool := !e.flt.ctAbsent.contains h && !e.bayDown (ctBay h)
def Eng.hemPresent (e : Eng) (h : Nat) : Bool := !e.flt.hemAbsent.contains h && !e.bayDown (hemBay h)
def Eng.selPresent (e : Eng) (h : Nat) : Bool := !e.flt.selAbsent.contains h && !e.bayDown (selBay h)
def Eng.pltPresent (e : Eng) (h : Nat) : Bool := !e.flt.pltAbsent.contains h && !e.bayDown (pltBay h)
def Eng.semPresent (e : Eng) (h : Nat) : Bool := !e.flt.semAbsent.contains h && !e.bayDown (semBay h)
def Eng.slicePresent (e : Eng) (s : Nat) : Bool := !e.bayDown (sliceBay s)
def Eng.portPresent (e : Eng) (p : Nat) : Bool :=
  p < e.portCount && !e.bayDown (portBay p)

/-! ### Logical maps -/

/-- QMAP byte of a logical cluster (Table 15-12). -/
def Eng.qmapByte (e : Eng) (quarter n : Nat) : Nat :=
  if n < 8 then field (e.reg (Reg.fltQmapLo quarter)) (8 * n) 8 else field (e.reg (Reg.fltQmapHi quarter)) (8 * (n - 8)) 8

/-- Sets a QMAP byte. -/
def Eng.setQmapByte (quarter n v : Nat) (e : Eng) : Eng :=
  if n < 8 then e.setReg (Reg.fltQmapLo quarter) (setField (e.reg (Reg.fltQmapLo quarter)) (8 * n) 8 v)
  else e.setReg (Reg.fltQmapHi quarter) (setField (e.reg (Reg.fltQmapHi quarter)) (8 * (n - 8)) 8 v)

/-- Physical position of a logical cluster. -/
def Eng.position (e : Eng) (quarter n : Nat) : Nat := field (e.qmapByte quarter n) 0 5

/-- Whether a logical cluster is present (R348, R350). -/
def Eng.clusterPresent (e : Eng) (quarter n : Nat) : Bool :=
  !bit (e.qmapByte quarter n) 7 && !e.flt.baysReset.contains (bayOf quarter (e.position quarter n)) &&
  !e.flt.dikesReset.contains (bayOf quarter (e.position quarter n) / 6)

/-- Logical cluster that stands at a physical position. -/
def Eng.logicalAt (e : Eng) (quarter pos : Nat) : Option Nat :=
  (List.range 16).find? (fun n => e.position quarter n == pos && !bit (e.qmapByte quarter n) 7)

/-- Whether a physical position has failed or lies in a bay that is down. -/
def Eng.posFailed (e : Eng) (quarter pos : Nat) : Bool :=
  bit (e.reg (Reg.fltFailed quarter)) pos || e.bayDown (bayOf quarter pos)

/-- Free gussets of a quarter: sound and standing in for no cluster (R346). -/
def Eng.freeGussets (e : Eng) (quarter : Nat) : List Nat :=
  [5, 11].filter (fun p => !e.posFailed quarter p && (e.logicalAt quarter p).isNone)

/-- Logical clusters present in the whole engine. -/
def Eng.clustersPresent (e : Eng) : Nat :=
  ((List.range e.quarterCount).map (fun q => ((List.range 16).filter (e.clusterPresent q)).length)).sum

/-- Ports, tables and slices present. -/
def Eng.portsPresent (e : Eng) : Nat := ((List.range e.portCount).filter e.portPresent).length
def Eng.tablesPresent (e : Eng) : Nat := ((List.range 2).filter e.ctPresent).length
def Eng.slicesPresent (e : Eng) : Nat := ((List.range 6).filter e.slicePresent).length

/-- The bits of TWK_ENG_REPLACE [14:0] (Table 15-16). -/
def Eng.absentBits (e : Eng) : Nat :=
  let pair (f : Nat → Bool) := (!f 0).toNat + (!f 1).toNat * 2
  pair e.ctPresent + pair e.hemPresent * 4 + pair e.selPresent * 16 + pair e.pltPresent * 64 + pair e.semPresent * 256 +
  (decide (e.slicesPresent < 6)).toNat * 2 ^ 10 + (!e.spool.absent.isEmpty).toNat * 2 ^ 11 +
  (decide (e.portsPresent < e.portCount)).toNat * 2 ^ 12 +
  (decide (e.clustersPresent < 16 * e.quarterCount)).toNat * 2 ^ 13 +
  ((List.range e.quarterCount).any (fun q => (e.freeGussets q).isEmpty)).toNat * 2 ^ 14

/-- A logical unit is absent (DEGRADED, R348). -/
def Eng.degraded (e : Eng) : Bool := e.absentBits % 2 ^ 14 != 0

/-- CAPABILITY (R349). -/
def Eng.capability (e : Eng) : Nat :=
  let share (n d : Nat) := 100 * n / d
  min (min (share (8 * e.clustersPresent) (128 * e.quarterCount)) (share e.portsPresent e.portCount))
    (min (share (48 - e.spool.absent.length) 48) (share (4096 * e.tablesPresent) 8192))

/-- LEVEL (R349). -/
def Eng.replaceLevel (e : Eng) : Nat :=
  let gusset := (List.range e.quarterCount).any (fun q => (List.range 16).any (fun n => bit (e.qmapByte q n) 6))
  let spare := [7, 15, 23, 31].any (fun i => bit (e.reg Reg.ctColmap0) i || bit (e.reg Reg.ctColmap1) i)
  if e.degraded then (if e.capability ≥ 75 then 2 else 3) else if gusset || spare then 1 else 0

/-- TWK_ENG_REPLACE as the maps give it (Table 15-16); CAPABILITY reads from the moment the engine is ready. -/
def Eng.replaceWord (e : Eng) : Nat :=
  e.absentBits + (if e.boot.everReady then e.capability else 0) * 2 ^ 16 + e.replaceLevel * 2 ^ 26

/-- Whether two values of TWK_ENG_REPLACE differ in CAPABILITY and in nothing else. -/
def capabilityOnly (old w : Nat) : Bool := field w 16 8 != field old 16 8 && setField w 16 8 0 == setField old 16 8 0

/-- Commands that run while a logical unit is absent keep it for FLAGS[4] of their record (R348; log 61, DESIGN CHOICE). -/
def Eng.markDegraded (e : Eng) : Eng :=
  if e.degraded then { e with cmds := e.cmds.map (fun c => if c.phase = .held then c else { c with degraded := true }) } else e

/-- Sets TWK_ENG_REPLACE: a change is posted and raises REPLACE_REQUESTED (R349). -/
def Eng.setReplace (e : Eng) : Eng :=
  if e.replaceWord = e.reg Reg.engReplace then e
  else if capabilityOnly (e.reg Reg.engReplace) e.replaceWord then e.setReg Reg.engReplace e.replaceWord
  else ((e.setReg Reg.engReplace e.replaceWord).post (.replace e.replaceWord)).raise 0x0603 (arg6 none none none none) none 0

/-- After a change of what is present: the running commands and TWK_ENG_REPLACE follow it (R348, R349). -/
def Eng.updateReplace (e : Eng) : Eng := e.markDegraded.setReplace

/-- A bay is down or up again: bays contained (R350). -/
def Eng.containedBays (e : Eng) : List Nat :=
  (List.range 36).filter (fun b => e.flt.baysContained.contains b || e.flt.dikesContained.contains (b / 6))

/-- A condition of the DETM promise changed (R340; log 60, DESIGN CHOICE). -/
def Eng.voidPromise (e : Eng) : Eng :=
  ((e.setReg Reg.detStatus (setBit (e.reg Reg.detStatus) 3 true)).bump32 Reg.detVoids 1).raise 0x05A1 0 none 0

/-! ### Completion records -/

/-- ASKUC of a layer slot (Table 2-8 MODE [2]). -/
def Eng.askuc (e : Eng) (slot : Nat) : Bool :=
  match KV.find e.slotCfg slot with
  | some c => bit c.mode 2
  | none => false

/-- The completion record of a command (Tables 3-13, 3-14). -/
def completionBytes (c : Cmd) (askuc : Bool) (now : Nat) : List Byte :=
  let flags := c.detm.toNat + askuc.toNat * 2 + c.count.isSome.toNat * 4 + c.degraded.toNat * 16 + c.res.flags
  leBytes 1 c.res.status ++ leBytes 1 flags ++ leBytes 2 (c.polder + c.rslot * 256) ++ leBytes 4 c.d.tag ++
  leBytes 8 (c.res.time.getD now) ++ leBytes 4 c.res.placed ++ leBytes 2 (min c.res.spilled 0xFFFF) ++
  leBytes 2 (min c.res.dropped 0xFFFF) ++ leBytes 8 c.res.digest.toNat

end Sys2Proof.Machine
end

