-- ==== Sys2Proof/Machine/Operands.lean ====
section
/-! DEFINITION. Descriptors: the three formats (R75, R76), their translation to version 3 operands (R78), the operands by
name, and the validation of R87 that needs the descriptor alone. -/

namespace Sys2Proof.Machine

/-- Version 3 opcodes (Table 3-10). -/
def opNop : Nat := 0x00
def opScore : Nat := 0x01
def opRoute : Nat := 0x02
def opCombine : Nat := 0x03
def opReturn : Nat := 0x04
def opRouteBwd : Nat := 0x05
def opReturnBwd : Nat := 0x06
def opCombineBwd : Nat := 0x07
def opCopy : Nat := 0x08
def opFence : Nat := 0x09
def opStepEnd : Nat := 0x0A
def opTack : Nat := 0x0B
def opBarrier : Nat := 0x0C
def opCancel : Nat := 0x0D
def opAdmit : Nat := 0x0E
def opRetire : Nat := 0x0F
def opRelease : Nat := 0x10
def opBcast : Nat := 0x20
def opReduce : Nat := 0x21
def opGroupForm : Nat := 0x22
def opGroupReform : Nat := 0x23

/-- Descriptor size of a major version (R62). -/
def descSize (major : Nat) : Nat := if major = 1 then 32 else if major = 2 then 48 else 64

/-- Bytes of the 32 operand bytes that a version 3 opcode uses (Table 3-11), counted from byte 16. -/
def opBytes (op : Nat) : List Nat :=
  let r (a n : Nat) := (List.range n).map (fun i => a + i)
  if op = opScore then r 0 29
  else if op = opRoute then r 0 28
  else if op = opCombine ∨ op = opRouteBwd then r 0 16 ++ r 24 4
  else if op = opReturn ∨ op = opReturnBwd then r 0 8 ++ r 24 4
  else if op = opCombineBwd ∨ op = opCopy then r 0 28
  else if op = opFence ∨ op = opCancel then [0]
  else if op = opStepEnd then r 0 16
  else if op = opTack then r 0 9
  else if op = opBarrier then [0, 2, 3]
  else if op = opAdmit then r 0 4 ++ r 8 16
  else if op = opRetire then r 0 4
  else if op = opRelease then r 0 8
  else if op = opBcast then r 0 17 ++ r 18 6
  else if op = opReduce then r 0 32
  else if op = opGroupForm then r 0 13
  else if op = opGroupReform then r 0 13 ++ r 14 2
  else []

/-- Opcodes of version 3 (Table 3-10). -/
def v3Opcodes : List Nat := (List.range 17) ++ [0x20, 0x21, 0x22, 0x23]

/-- Opcodes of version 2 (Table 3-10). -/
def v2Opcodes : List Nat := (List.range 11) ++ [0x0C, 0x0D]

/-- Version 3 opcode of a version 1 code (Table 3-10). -/
def v1Opcode : Nat → Option Nat
  | 0 => some opNop
  | 1 => some opRoute
  | 2 => some opCombine
  | 3 => some opReturn
  | 4 => some opCopy
  | 5 => some opFence
  | _ => none

/-- Opcodes that name a layer slot (Table 3-8); CANCEL does with SCOPE 0. -/
def namesSlot (op scope : Nat) : Bool :=
  [opScore, opRoute, opCombine, opReturn, opRouteBwd, opReturnBwd, opCombineBwd, opStepEnd, opAdmit, opRetire].contains op ||
  (op = opCancel && scope = 0)

/-- Opcodes whose size INDIRECT may replace (Table 3-11). -/
def takesIndirect (op : Nat) : Bool :=
  [opScore, opRoute, opReturn, opReturnBwd, opCopy, opBcast, opReduce].contains op

/-! ### Operands by name (Table 3-11), offsets from byte 16 -/

def Desc.n (d : Desc) (off len : Nat) : Nat := rdLE d.ops off len
/-- ROWS, DY, OUT of COMBINE, GROUP_TABLE, DX, SRC, SUMMARY, T, BUF, MEMBERS or EXCLUDE: the operand at 16. -/
def Desc.a (d : Desc) : Nat := d.n 0 8
/-- OUT of SCORE, ROUTES, DST, EDIT or LEN: the operand at 24. -/
def Desc.b (d : Desc) : Nat := d.n 8 8
/-- MASK, DW_ROUTER or LEN of COPY: the operand at 32. -/
def Desc.c (d : Desc) : Nat := d.n 16 8
/-- TOKENS, ENTRIES or DST_CHIP: the operand at 40. -/
def Desc.count (d : Desc) : Nat := d.n 24 4
def Desc.outKind (d : Desc) : Nat := d.n 28 1
def Desc.scope (d : Desc) : Nat := if d.opcode = opTack then d.n 8 1 else d.n 0 1
def Desc.remote (d : Desc) : Bool := bit d.count 31
def Desc.dstChip (d : Desc) : Nat := field d.count 0 17
def Desc.seq (d : Desc) : Nat := d.n 0 4
def Desc.resv (d : Desc) : List Nat := (List.range 8).map (fun p => d.n (8 + 2 * p) 2)
def Desc.handle (d : Desc) : Nat := d.n 0 4
def Desc.relCount (d : Desc) : Nat := d.n 4 4
def Desc.group (d : Desc) : Nat := if d.opcode = opBarrier then d.n 0 1 else if d.opcode = opGroupForm ∨ d.opcode = opGroupReform then d.n 12 1 else d.n 16 1
def Desc.groupEpoch (d : Desc) : Nat := if d.opcode = opBarrier then d.n 2 2 else if d.opcode = opGroupReform then d.n 14 2 else d.n 18 2
def Desc.root (d : Desc) : Nat := d.n 20 4
def Desc.dtype (d : Desc) : Nat := d.n 17 1
def Desc.out (d : Desc) : Nat := d.n 24 8
def Desc.members (d : Desc) : Nat := d.n 8 4
def Desc.fence (d : Desc) : Bool := bit d.flags 0
def Desc.indirect (d : Desc) : Bool := bit d.flags 1
def Desc.irq (d : Desc) : Bool := bit d.flags 2
def Desc.wait (d : Desc) : Bool := bit d.flags 3

/-- Length of a COPY, BCAST or REDUCE. -/
def Desc.len (d : Desc) : Nat := if d.opcode = opCopy then d.c else d.b

/-! ### Formats -/

/-- The version 3 operands of the fields A, B, C and COUNT (Table 3-11, columns v2 and v1). -/
def opsOfFields (op : Nat) (v1 : Bool) (a b c count : Nat) : List Byte :=
  if op = opCopy ∧ v1 then leBytes 8 a ++ leBytes 8 b ++ leBytes 8 (64 * count) ++ leBytes 8 0
  else if op = opFence ∨ op = opCancel ∨ op = opBarrier then leBytes 1 a ++ zeros 31
  else leBytes 8 a ++ leBytes 8 b ++ leBytes 8 c ++ leBytes 4 count ++ zeros 4

/-- Whether the fields that an opcode does not use are zero; A is wider than the field some take from it. -/
def fieldsUnusedZero (op : Nat) (a b c count : Nat) : Bool :=
  let z (la lb lc ln : Bool) := (la || a == 0) && (lb || b == 0) && (lc || c == 0) && (ln || count == 0)
  if op = opNop then z false false false false
  else if op = opScore ∨ op = opRoute ∨ op = opCombineBwd ∨ op = opCopy then true
  else if op = opCombine ∨ op = opRouteBwd then z true true false true
  else if op = opReturn ∨ op = opReturnBwd then z true false false true
  else if op = opStepEnd then z true true false false
  else if op = opBarrier then a < 256 && z true false false false
  else a < 256 && z true false false false

/-- A descriptor out of its bytes, for a ring's major version, and whether its form is sound: an opcode of the format, no
reserved bit set (R10, R75 to R78; log 51, DEDUCED). -/
def parseDesc (major : Nat) (l : List Byte) : Desc × Bool :=
  let b (i n : Nat) := rdLE l i n
  if major = 3 then
    let ops := fitTo 32 (l.drop 16)
    let op := b 0 1
    ({ opcode := op, fmt := b 1 1, flags := b 2 1, prio := b 3 1, tag := b 4 4, slot := b 8 1, step := b 12 4, ops := ops
       waitAddr := b 48 8, waitValue := b 56 4, sizeOff := b 60 2 },
     v3Opcodes.contains op && b 2 1 < 16 && b 9 3 == 0 && b 62 2 == 0 &&
     (List.range 32).all (fun i => (opBytes op).contains i || ops.getD i 0 == 0))
  else if major = 2 then
    let op := b 0 1
    let (a, bb, c, n) := (b 16 8, b 24 8, b 32 8, b 40 4)
    ({ opcode := op, fmt := b 1 1, flags := b 2 1, prio := b 3 1, tag := b 4 4, slot := b 8 1, step := b 12 4
       ops := opsOfFields op false a bb c n },
     v2Opcodes.contains op && (b 2 1 == 0 || b 2 1 == 1 || b 2 1 == 4 || b 2 1 == 5) && b 9 3 == 0 && b 44 4 == 0 &&
     fieldsUnusedZero op a bb c n)
  else
    let (a, bb, n) := (b 8 8, b 16 8, b 24 4)
    match v1Opcode (b 0 1) with
    | none => ({ opcode := if 0x20 ≤ b 0 1 ∧ b 0 1 ≤ 0x23 then b 0 1 else 0xFF, fmt := b 1 1, flags := 0, prio := 3, tag := b 4 4, slot := b 3 1, step := b 28 2, ops := zeros 32 }, false)
    | some op =>
      ({ opcode := op, fmt := b 1 1, flags := b 2 1, prio := 3, tag := b 4 4, slot := b 3 1, step := b 28 2
         ops := opsOfFields op true (if op = opFence then 0 else a) bb 0 n },
       (b 2 1 == 0 || b 2 1 == 1 || b 2 1 == 4 || b 2 1 == 5) && b 30 2 == 0 &&
       (if op = opFence then a == 0 && bb == 0 && n == 0 else if op = opCopy then true
        else fieldsUnusedZero op a bb 0 n))

/-- TOKENS, ENTRIES or a length in range; ENTRIES is bounded by its 32 bits alone. -/
def countInRange (op n : Nat) : Bool :=
  if op = opScore ∨ op = opRoute ∨ op = opCombine ∨ op = opRouteBwd ∨ op = opCombineBwd then n ≤ 1048576 else true

/-- Operand fields in range (Table 3-11) and INDIRECT used as R81 allows. -/
def Desc.fieldsOk (d : Desc) : Bool :=
  let op := d.opcode
  (d.indirect || countInRange op d.count) &&
  (op != opScore || d.outKind ≤ 2) &&
  (op != opFence && op != opCancel && op != opTack || d.scope ≤ 1) &&
  (op != opCopy || field d.count 17 14 == 0) &&
  (op != opBarrier || d.group < 64 || d.group == 255) &&
  (!(op == opBcast || op == opReduce || op == opGroupForm || op == opGroupReform) || d.group < 64) &&
  (op != opReduce || d.dtype ≤ 2) &&
  (op != opGroupForm || 2 ≤ d.members && d.members ≤ 131072) &&
  (op != opGroupReform || d.members ≤ 131072) &&
  (op != opRelease || 1 ≤ d.relCount && d.relCount ≤ 4096 && !bit d.handle 25) &&
  (!d.indirect || d.wait && takesIndirect op && d.sizeOff % 4 == 0 && d.sizeOff < 4096)

/-- Every address and length 64 B aligned, WAIT_ADDR 8 B aligned (R78, Table 3-15); a length that INDIRECT replaces is
ignored as written (R81). -/
def Desc.aligned (d : Desc) : Bool :=
  let op := d.opcode
  let three := op == opScore || op == opRoute || op == opCombineBwd || op == opCopy
  let two := op == opCombine || op == opRouteBwd || op == opStepEnd || op == opBcast || op == opReduce
  let one := op == opReturn || op == opReturnBwd || op == opGroupForm || op == opGroupReform
  (!(three || two || one) || d.a % 64 == 0) && (!(three || two) || (op == opBcast || op == opReduce) && d.indirect || d.b % 64 == 0) &&
  (!three || op == opCopy && d.indirect || d.c % 64 == 0) &&
  (op != opReduce || d.out % 64 == 0) && (!d.wait || d.waitAddr % 8 == 0)

end Sys2Proof.Machine
end

