-- ==== Sys2Proof/Machine/Spool.lean ====
section
/-! DEFINITION. The Spool (chapter 10): banks, cells, admission, packets, flushes, retirement. -/

namespace Sys2Proof.Machine

/-! ### Banks and cells -/

/-- PINNED_CELLS of a bank (R36); 768 before the first apply (R231). -/
def Eng.pinned (e : Eng) (b : Nat) : Nat :=
  match e.pat.bind (fun p => KV.find p.banks b) with
  | some c => c.pinned
  | none => 768

/-- A bank of the Spool. -/
def Eng.sbank (e : Eng) (b : Nat) : SBank := e.spool.banks.getD b {}

/-- Whether a bank is present (R249). -/
def Eng.bankPresent (e : Eng) (b : Nat) : Bool := b < 48 && !e.spool.absent.contains b

/-- Banks present. -/
def Eng.banksPresent (e : Eng) : List Nat := (List.range 48).filter e.bankPresent

/-- Free shared pool cells of a bank. -/
def Eng.bankFree (e : Eng) (b : Nat) : Nat := (4096 - (e.sbank b).fresh) + (e.sbank b).freed.length

/-- Free shared pool cells (TWK_SPL_POOL [17:0]). -/
def Eng.poolFree (e : Eng) : Nat := (e.banksPresent.map e.bankFree).sum

/-- Cells below PINNED_CELLS that a bank's rows from `lo` to below `hi` give, and those of them retired. -/
def Eng.areaCells (e : Eng) (lo : Nat) (hi : Nat → Nat) : Nat :=
  (e.banksPresent.map (fun b => hi b - lo)).sum -
  (e.spool.retired.filter (fun c => e.bankPresent (c % 48) && lo ≤ c / 48 && c / 48 < hi (c % 48))).length

/-- The `k`-th cell in ascending order of an area of the present banks that begins at row `lo`, the retired ones left out. -/
def Eng.areaCell (e : Eng) (lo k : Nat) : Nat :=
  let p := e.banksPresent
  let n := p.length
  let place (c : Nat) : Nat := (c / 48 - lo) * n + p.findIdx (· == c % 48)
  let gone := sortBy (fun a b => a ≤ b) ((e.spool.retired.filter (fun c => e.bankPresent (c % 48) && lo ≤ c / 48)).map place)
  let i := gone.foldl (fun i r => if r ≤ i then i + 1 else i) k
  (lo + i / n) * 48 + p.getD (i % n) 0

/-- Records and faults that wait in the spine reserve (R231; log 19, DEDUCED). -/
def Eng.spineUse (e : Eng) : Nat := e.wq.length + e.flt.queue.length

/-- Free spine reserve cells of the present banks: one goes to each record or fault that waits (R231). -/
def Eng.spineFree (e : Eng) : Nat := e.areaCells 683 e.pinned - e.spineUse

/-- The cells of the loader area that hold a frame's payload (R49, R231; log 19, DEDUCED; log 64, DESIGN CHOICE). -/
def Eng.loaderCells (e : Eng) (seq : Nat) : List Nat := (List.range 8).map (fun j => e.areaCell 0 (8 * seq + j))

/-- Pool cells of the present banks, and of all banks. -/
def Eng.presentPool (e : Eng) : Nat := (e.banksPresent.map (fun b => 4096 - e.pinned b)).sum
def Eng.carvedPool (e : Eng) : Nat := ((List.range 48).map (fun b => 4096 - e.pinned b)).sum

/-- Carves the Spool: every bank's free list starts over, retired cells left out (R251). -/
def Eng.carve (e : Eng) : Eng :=
  { e with spool.banks := (List.range 48).map (fun b =>
      let old := e.sbank b
      let gone := (e.spool.retired.filter (fun c => c % 48 = b)).map (· / 48)
      if gone.isEmpty then { old with fresh := e.pinned b, freed := [] }
      else { old with fresh := 4096, freed := ((List.range 4096).filter (fun r => e.pinned b ≤ r ∧ !gone.contains r)) }) }

/-- The next free row of a bank, and the bank without it (log 19, DEDUCED). -/
def SBank.pop (b : SBank) : Option (Nat × SBank) :=
  if b.fresh < 4096 then some (b.fresh, { b with fresh := b.fresh + 1 })
  else match b.freed with
    | r :: t => some (r, { b with freed := t })
    | [] => none

/-! ### Packets -/

/-- Source chip and chunk identity of a packet. -/
def RxPkt.sender : RxPkt → Nat × Nat
  | .chunk _ h _ => (h.src, h.chunkId)
  | .bid _ i h _ => (h.src, i)
  | .grant _ i h _ => (h.src, i)
  | .claim _ i h _ => (h.src, i)

/-- Port of a packet. -/
def RxPkt.port : RxPkt → Option Nat
  | .chunk p _ _ => p
  | .bid p _ _ _ => p
  | .grant p _ _ _ => p
  | .claim p _ _ _ => p

/-- Length of a packet in 64 B words (R228, R234). -/
def RxPkt.words : RxPkt → Nat
  | .chunk _ _ b => 1 + ceilDiv b.length 64
  | .bid _ _ _ l => 1 + ceilDiv (16 * l.length) 64
  | .grant _ _ _ l => 1 + ceilDiv (8 * l.length) 64
  | .claim _ _ _ l => 1 + ceilDiv (16 * l.length) 64

/-- What tells a packet from others: its port, source and CHUNK_ID. -/
def RxPkt.key (p : RxPkt) : Option Nat × Nat × Nat := (p.port, p.sender)

/-- Whether a packet's end mark has been written (R235). -/
def SPkt.ended (p : SPkt) : Bool := p.aborted || p.written == p.words

/-- Cells taken for a packet: all at once for one that came, one at a time for one that leaves (R234). -/
def SPkt.granted (p : SPkt) : Nat := match p.item with
  | .rx _ _ => ceilDiv p.words 8
  | .tx _ _ _ _ _ _ => ceilDiv p.written 8

/-- Cells that a packet still holds: those read to their last word are free (R229), unless they are kept (R286). -/
def SPkt.held (p : SPkt) : Nat := if p.kept then p.granted else p.granted - p.read / 8

/-- Whether a packet leaves through a port. -/
def SPkt.leaves (p : SPkt) : Bool := match p.item with
  | .tx _ _ _ _ _ _ => true
  | .rx _ _ => false

/-- A packet that its producer has begun and still takes cells for (R234). -/
def SPkt.partial_ (p : SPkt) : Bool := p.leaves && !p.ended

/-! ### Queues -/

/-- Descriptor of a queue. -/
def Eng.squeue (e : Eng) (q : Nat) : SQueue := KV.get {} e.spool.queues q

/-- Changes a queue's descriptor. -/
def Eng.setQueue (q : Nat) (f : SQueue → SQueue) (e : Eng) : Eng :=
  { e with spool.queues := KV.upd {} e.spool.queues q f }

/-- Effective MIN_CELLS (R233). -/
def Eng.effMin (e : Eng) (c : QueueCfg) : Nat :=
  if e.carvedPool = 0 then 0 else c.minCells * e.presentPool / e.carvedPool

/-- Unused reservations over all queues (R233). -/
def Eng.unusedResv (e : Eng) : Nat :=
  (e.spool.cfg.map (fun kc => e.effMin kc.2 - (e.squeue kc.1).cells.length)).sum

/-- Template whose queue range holds a queue (R232). -/
def Eng.queueTemplate (e : Eng) (q : Nat) : Option (Nat × Template) :=
  e.pat.bind (fun p => p.templates.find? (fun kt => kt.2.queueBase ≤ q && q < kt.2.queueBase + kt.2.queueCount))

/-- Cells held by the queues of a range. -/
def Eng.heldIn (e : Eng) (base count : Nat) : Nat :=
  ((e.spool.queues.filter (fun kq => base ≤ kq.1 && kq.1 < base + count)).map (fun kq => kq.2.cells.length)).sum

/-- Cells held by the queues of a quarter. -/
def Eng.heldByQuarter (e : Eng) (quarter : Nat) : Nat :=
  ((e.spool.cfg.filter (fun kc => kc.2.quarter == quarter)).map (fun kc => (e.squeue kc.1).cells.length)).sum

/-- QUARTER_SHARE of a quarter (R36). -/
def Eng.quarterShare (e : Eng) (quarter : Nat) : Nat :=
  match e.pat with
  | some p => p.quarterShare.getD quarter 0
  | none => 0

/-- Whether a producer asking for one cell for queue `q` is granted one (R233). -/
def Eng.cellGrant (e : Eng) (q : Nat) (c : QueueCfg) : Bool :=
  let held := (e.squeue q).cells.length
  e.poolFree > 0 && held < c.maxCells &&
  (held < e.effMin c ||
    (e.poolFree > e.unusedResv &&
     (c.quarter == 15 || e.heldByQuarter c.quarter < e.quarterShare c.quarter) &&
     (match e.queueTemplate q with
      | some (_, t) => e.heldIn t.queueBase t.queueCount < t.cellQuota
      | none => true)))

/-- The first present bank with a free cell, from a queue's bank pointer on (R230). -/
def Eng.pickBank (e : Eng) (ptr : Nat) : Option Nat :=
  ((List.range 48).map (fun i => (ptr + i) % 48)).find? (fun b => e.bankPresent b && e.bankFree b > 0)

/-- Takes one cell for a queue (R230, R233). -/
def Eng.takeCell (q : Nat) (c : QueueCfg) (e : Eng) : Option Eng :=
  if e.cellGrant q c then
    match e.pickBank (e.squeue q).bank with
    | none => none
    | some b =>
      match (e.sbank b).pop with
      | none => none
      | some (row, bank) =>
        some ({ e with spool.banks := e.spool.banks.set b bank }.setQueue q
          (fun s => { s with cells := s.cells ++ [row * 48 + b], bank := (b + 1) % 48 }))
  else none

/-- Takes all cells of a packet at once, or none (R234). -/
def Eng.takeCells (q : Nat) (c : QueueCfg) : Nat → Eng → Option Eng
  | 0, e => some e
  | n + 1, e => (e.takeCell q c).bind (Eng.takeCells q c n)

/-- Whether a cell's FREE bit is set, or its OWNER another queue than `q` (R248). -/
def Eng.cellAstray (q cell : Nat) (e : Eng) : Bool :=
  let k := e.sbank (cell % 48)
  k.fresh ≤ cell / 48 || k.freed.contains (cell / 48) || e.spool.queues.any (fun kq => kq.1 != q && kq.2.cells.contains cell)

/-- A cell is retired: it lies on no free list until power-on (R244). -/
def Eng.retireCell (cell : Nat) (e : Eng) : Eng :=
  { e with
    spool.faulty := e.spool.faulty.filter (· != cell)
    spool.bad := e.spool.bad.filter (· != cell)
    spool.retired := e.spool.retired ++ [cell]
    spool.banks := updAt e.spool.banks (cell % 48) (fun k => { k with retired := k.retired + 1 }) }.raise 0x0681 cell none 0

/-- A cell of a queue goes back to its bank's list, or is retired where it is marked faulty (R230, R244); one that is
free or another queue's is a fault of the Spool (R248). -/
def Eng.freeCell (q cell : Nat) (e : Eng) : Eng :=
  let b := cell % 48
  if e.cellAstray q cell then { e with spool.corrupt := true }.raise 0x0283 cell none 0
  else if e.spool.faulty.contains cell then e.retireCell cell
  else
    { e with spool.banks := updAt e.spool.banks b (fun k => { k with freed := k.freed ++ [cell / 48] })
             spool.bad := e.spool.bad.filter (· != cell) }

/-- Frees a queue's cells in order. -/
def Eng.freeCells (q : Nat) (l : List Nat) (e : Eng) : Eng := l.foldl (fun e c => e.freeCell q c) e

/-! ### Flush, break, bank loss (R244, R247, R249, R250) -/

/-- Takes a queue's packets off the ports' queues. -/
def Eng.unport (q : Nat) (e : Eng) : Eng :=
  { e with ports := e.ports.map (fun p => { p with queue := p.queue.filter (fun i => match i.src with
    | some s => s.1 != q
    | none => true) }) }

/-- Packets whose end has not come and that are lost: what follows of them is not taken up (R250). -/
def cutKeys (l : List SPkt) : List (Option Nat × Nat × Nat) := l.filterMap (fun p => match p.item with
  | .rx _ x => if p.ended then none else some x.key
  | _ => none)

/-- The flush of a queue is counted, with the packets lost (log 64, DESIGN CHOICE). -/
def Eng.countFlush (q : Nat) (e : Eng) : Eng :=
  let lost := ((e.squeue q).pkts.filter (fun p => !p.kept)).length
  ((e.bump Reg.splFlushed 16 16 1).bump Reg.splFlushed 0 16 lost).setQueue q (fun s => { s with pktOut := s.pktIn })

/-- A list break: the queue is flushed, BROKEN, and stands still until the sweep ends; `bad` the cell whose metadata could not
be read (R247). -/
def Eng.breakQueue (q : Nat) (bad : Option Nat) (e : Eng) : Eng :=
  let s := e.squeue q
  let e := { (e.countFlush q).unport q with spool.cut := e.spool.cut ++ cutKeys s.pkts }
  (e.setQueue q (fun s => { s with
    pkts := [], lost := s.lost ++ s.pkts.filter (fun p => !p.kept && !p.aborted), broken := true, sweeping := true
    badCell := bad })).raise 0x0282 ((bad.or s.cells.head?).getD 0) none 0

/-- Every queue that held a cell of a bank is flushed without waiting for a read (R249). -/
def Eng.breakBank (b : Nat) (e : Eng) : Eng :=
  ((e.spool.queues.filter (fun kq => kq.2.cells.any (fun c => c % 48 == b))).map (·.1)).foldl (fun (e : Eng) q => e.breakQueue q none) e

/-- Pattern frames with a payload cell in a bank that leaves are missing again until the image is verified (R246, R249;
log 64, DESIGN CHOICE). -/
def Eng.loseFrames (b : Nat) (e : Eng) : Eng :=
  let l := e.loader
  if l.localRead || l.st == .applying || l.st == .applied then e
  else
    let gone (n : Nat) : Bool := (e.loaderCells n).any (fun c => c % 48 == b)
    { e with loader := { l with
        frames := l.frames.filter (fun kf => !gone kf.1)
        st := if l.st == .verifying && l.frames.any (fun kf => gone kf.1) then .repair else l.st } }

/-- A bank becomes absent: its cells leave the pool (R249). -/
def Eng.bankLost (b : Nat) (e : Eng) : Eng :=
  if e.bankPresent b then
    ({ e.loseFrames b with spool.absent := e.spool.absent ++ [b], flt.banksAbsent := e.flt.banksAbsent ++ [b] }.breakBank b).raise 0x0680 b none 0
  else e

/-- Banks that have retired 256 cells are declared absent (R244). -/
def Eng.checkRetired (e : Eng) : Eng :=
  (List.range 48).foldl (fun e b => if (e.sbank b).retired ≥ 256 then e.bankLost b else e) e

/-- Cells of a queue's `i`-th packet, and those of the packets before it. -/
def SQueue.before (s : SQueue) (i : Nat) : Nat := ((s.pkts.take i).map (·.held)).sum
def SQueue.pktCells (s : SQueue) (i : Nat) : List Nat := (s.cells.drop (s.before i)).take ((s.pkts[i]?.map (·.held)).getD 0)

/-- The word within the head cell that is read next, and the word within the tail cell that is written next (R229). -/
def SQueue.readWord (s : SQueue) : Nat := (s.pkts.head?.map (fun p => p.read % 8)).getD 0
def SQueue.writeWord (s : SQueue) : Nat := (s.pkts.getLast?.map (fun p => p.written % 8)).getD 0

/-! ### Packets that come -/

/-- A NAK to a packet's sender (R198). -/
def Eng.nakTo (p : RxPkt) (e : Eng) : Eng :=
  let (chip, id) := p.sender
  let e := match p.port with
    | some q => e.bump32 (Reg.slcNakTx q) 1
    | none => e
  e.transmit p.port 6 64 (.nak chip id)

/-! ### Checks of what is read (R244) -/

/-- SPOOL_CORRECTED at most once per millisecond, and its count; a symbol corrected again marks its cell faulty (R244). -/
def Eng.spoolCorrected (cell : Nat) (again : Bool) (e : Eng) : Eng :=
  let e := e.bump Reg.splEcc 0 16 1
  let e := if again && !e.spool.faulty.contains cell then { e with spool.faulty := e.spool.faulty ++ [cell] } else e
  if e.spool.correctedAt.all (fun t => t + 1000000 ≤ e.now) then
    { e with spool.correctedAt := some e.now }.raise 0x0280 cell none 0
  else e

/-- A word that stays uncorrectable: counted and told (R246). -/
def Eng.spoolBad (cell : Nat) (e : Eng) : Eng := (e.bump Reg.splEcc 16 16 1).raise 0x0281 cell none 0

/-! ### Producers' waits (R234) -/

/-- The resident polder whose range holds a queue. -/
def Eng.queuePolder (e : Eng) (q : Nat) : Option Nat :=
  (e.queueTemplate q).bind (fun t => (e.pld.slots.find? (fun p => p.st != .empty && p.polder % 16 == t.1)).map (·.polder))

/-- Spool cycles of a wait that TWK_SPL_BP_STALL does not have yet, 2.4 to the ns (log 19, DEDUCED). -/
def Wait.cycles (w : Wait) (now : Nat) : Nat := (now - w.since) * 12 / 5 - w.counted

/-- A producer's wait for cells of a queue ends: it is counted, and is a value of SPOOL_BP_WAIT (Table 17-1;
log 19, DEDUCED). -/
def Eng.waitOver (q : Nat) (w : Wait) (e : Eng) : Eng :=
  (e.bump32 Reg.splBpStall (w.cycles e.now)).gauge gsSpoolBpWait q (e.queuePolder q) (e.now - w.since)

/-- The wait of the one producer of a queue that asks for single cells begins, and ends. -/
def Eng.noteAsk (q : Nat) (e : Eng) : Eng := e.setQueue q (fun s => { s with wait := some (s.wait.getD { since := e.now }) })
def Eng.askOver (q : Nat) (e : Eng) : Eng := match (e.squeue q).wait with
  | some w => (e.waitOver q w).setQueue q (fun s => { s with wait := none })
  | none => e

/-- Waits under way. -/
def Eng.waits (e : Eng) : List Wait := e.spool.held.filterMap (·.wait) ++ e.spool.queues.filterMap (fun kq => kq.2.wait)

/-- TWK_SPL_BP_STALL with the waits under way (log 19, DEDUCED). -/
def Eng.bpStall (e : Eng) : Nat := satAdd 32 (e.reg Reg.splBpStall) ((e.waits.map (fun w => w.cycles e.now)).sum)

/-- Puts the waits under way into TWK_SPL_BP_STALL. -/
def Eng.bpSettle (e : Eng) : Eng :=
  let n := e.bpStall
  let seen (w : Wait) : Wait := { w with counted := w.counted + w.cycles e.now }
  { e with
    spool.held := e.spool.held.map (fun (h : Held) => { h with wait := h.wait.map seen })
    spool.queues := e.spool.queues.map (fun (kq : Nat × SQueue) => (kq.1, { kq.2 with wait := kq.2.wait.map seen })) }.setReg Reg.splBpStall n

/-- SPOOL_BACKPRESSURE, once per wait of 10 µs for a queue (R234; log 11, DEDUCED). -/
def Eng.backpressure (q : Nat) (e : Eng) : Eng :=
  let told (e : Eng) : Eng := e.raise 0x0480 (arg4 0 q 1) none 0
  match e.spool.held.find? (fun h => h.queue == q && h.wait.any (fun w => !w.told)), (e.squeue q).wait.filter (fun w => !w.told) with
  | some h, _ =>
    let e := e.reach ((h.wait.map (·.since)).getD e.now + 10000)
    told { e with spool.held := updFirst (fun x => x == h) (fun x => { x with wait := x.wait.map (fun w => { w with told := true }) }) e.spool.held }
  | none, some w => told ((e.reach (w.since + 10000)).setQueue q (fun s => { s with wait := some { w with told := true } }))
  | none, none => e

/-! ### Taking packets out -/

/-- Changes the `i`-th packet of a queue. -/
def Eng.setPkt (q i : Nat) (f : SPkt → SPkt) (e : Eng) : Eng := e.setQueue q (fun s => { s with pkts := updAt s.pkts i f })

/-- The first `n` cells of a queue's `i`-th packet leave the queue and are free (R229). -/
def Eng.freeFirst (q i n : Nat) (e : Eng) : Eng :=
  let s := e.squeue q
  let at_ := s.before i
  let mine := (s.cells.drop at_).take n
  (((e.setQueue q (fun s => { s with cells := s.cells.take at_ ++ s.cells.drop (at_ + n) })).freeCells q mine).checkRetired)

/-- The consumer has read the first `n` words of a packet: the cells read to their last word are free (R229;
log 19, DEDUCED). -/
def Eng.readTo (q i n : Nat) (e : Eng) : Eng :=
  match (e.squeue q).pkts[i]? with
  | some p => (e.freeFirst q i (n / 8 - p.read / 8)).setPkt q i (fun p => { p with read := n })
  | none => e

/-- A packet and its cells leave their queue. -/
def Eng.dropAt (q i : Nat) (e : Eng) : Eng :=
  match (e.squeue q).pkts[i]? with
  | some p => (e.freeFirst q i p.held).setQueue q (fun s => { s with pkts := s.pkts.take i ++ s.pkts.drop (i + 1) })
  | none => e

/-- The consumer reads a packet's end-marked word (R240). -/
def Eng.readEnd (q : Nat) (e : Eng) : Eng := e.setQueue q (fun s => { s with pktOut := (s.pktOut + 1) % 2 ^ 32 })
def Eng.consume (q i : Nat) (e : Eng) : Eng := (e.dropAt q i).readEnd q

/-- A packet read whose cells stay until the sum built from it has been acknowledged (R286). -/
def Eng.keepPkt (q i : Nat) (e : Eng) : Eng := (e.setPkt q i (fun p => { p with kept := true, read := p.words })).readEnd q

/-- A packet known by its number leaves its queue. -/
def Eng.dropPkt (q id : Nat) (e : Eng) : Eng := match (e.squeue q).pkts.findIdx? (fun p => p.id == id) with
  | some i => e.dropAt q i
  | none => e

/-- Kept packets that are needed no more leave their queues. -/
def Eng.releaseKept (f : RxPkt → Bool) (e : Eng) : Eng :=
  (e.spool.queues.flatMap (fun kq => (kq.2.pkts.filter (fun p => p.kept && (match p.item with
    | .rx _ x => f x
    | _ => false))).map (fun p => (kq.1, p.id)))).foldl (fun (e : Eng) k => e.dropPkt k.1 k.2) e

/-! ### Putting packets in -/

/-- A packet joins a queue (R235, R240). -/
def Eng.putPkt (q words written : Nat) (item : SItem) (rd : SpoolRead) (e : Eng) : Eng :=
  { e with spool.nextPkt := e.spool.nextPkt + 1 }.setQueue q (fun s => { s with
    pkts := s.pkts ++ [({ id := e.spool.nextPkt, words := words, written := written, item := item, rd := rd } : SPkt)]
    pktIn := if written = words then (s.pktIn + 1) % 2 ^ 32 else s.pktIn })

/-- Puts a packet that came into a queue, if all its cells can be had at once (R234); the words of its cells written so far are
all of them, or those that have come (log 19, DEDUCED). -/
def Eng.enqueue (q : Nat) (c : QueueCfg) (vc : Nat) (p : RxPkt) (rd : SpoolRead) (e : Eng) : Option Eng :=
  if (e.squeue q).sweeping || (e.squeue q).pkts.any (·.partial_) then none
  else (e.takeCells q c (ceilDiv p.words 8)).map (fun e =>
    e.putPkt q p.words (match rd with
      | .sofar n => min n (p.words - 1)
      | _ => p.words) (.rx vc p) rd)

/-- Whether an unfinished packet stands in the way of others of its port and virtual channel. -/
def Eng.openFrom (e : Eng) (port : Option Nat) (vc : Nat) : Bool :=
  e.spool.queues.any (fun kq => kq.2.pkts.any (fun p => !p.ended && (match p.item with
    | .rx v x => v == vc && x.port == port
    | _ => false)))

/-- The packets that the ports hold ask for their cells: the oldest of each virtual channel of each port, what follows it when
it has been granted (R234; log 19, DEDUCED). A queue no longer configured refuses (R232). -/
def Eng.grantHeld (e : Eng) : Eng :=
  let r := e.spool.held.foldl (fun (a : Eng × List Held) h =>
    if a.2.any (fun x => x.port == h.port && x.vc == h.vc) || a.1.openFrom h.port h.vc then (a.1, a.2 ++ [h])
    else match KV.find a.1.spool.cfg h.queue with
      | none => (a.1.raise 0x0481 (arg4 0 h.queue 1) none 0, a.2)
      | some c => match a.1.enqueue h.queue c h.vc h.pkt h.rd with
        | some e => (match h.wait with
          | some w => e.waitOver h.queue w
          | none => e, a.2)
        | none => (a.1, a.2 ++ [{ h with wait := some (h.wait.getD ⟨a.1.now, 0, false⟩) }])) ({ e with spool.held := [] }, [])
  { r.1 with spool.held := r.2 }

/-- Offers a packet to a queue: an unconfigured one refuses it (R232), else its port holds it until its cells are there
(log 19, DEDUCED). -/
def Eng.offer (q vc : Nat) (p : RxPkt) (rd : SpoolRead) (e : Eng) : Eng :=
  if (KV.find e.spool.cfg q).isNone then e.raise 0x0481 (arg4 0 q 1) none 0
  else { e with spool.held := e.spool.held ++ [Held.mk p.port vc q p rd none] }.grantHeld

/-- Whether more of a packet has come that has begun before: it is in a queue, held, or flushed. -/
def Eng.begun (e : Eng) (p : RxPkt) : Bool :=
  let same (x : RxPkt) : Bool := x.key == p.key
  e.spool.queues.any (fun kq => kq.2.pkts.any (fun k => !k.ended && (match k.item with
    | .rx _ x => same x
    | _ => false))) ||
  e.spool.held.any (fun h => same h.pkt && (match h.rd with
    | .sofar _ => true
    | _ => false)) || e.spool.cut.contains p.key

/-- A packet with more of its words written, or all of them. -/
def SPkt.more (k : SPkt) (p : RxPkt) (rd : SpoolRead) : SPkt :=
  let vc := match k.item with
    | .rx v _ => v
    | _ => 0
  let n := match rd with
    | .sofar n => max k.written (min n (k.words - 1))
    | _ => k.words
  { k with rd := rd, item := .rx vc p, written := n }

/-- More of a packet comes, or its end (R235); one that was flushed meanwhile is not taken up again (R250). -/
def Eng.goesOn (p : RxPkt) (rd : SpoolRead) (e : Eng) : Eng :=
  let last := match rd with
    | .sofar _ => false
    | _ => true
  let same (x : RxPkt) : Bool := x.key == p.key
  if e.spool.cut.contains p.key then (if last then { e with spool.cut := e.spool.cut.filter (· != p.key) } else e)
  else
    { e with
      spool.held := e.spool.held.map (fun h => if same h.pkt then { h with pkt := p, rd := rd } else h)
      spool.queues := e.spool.queues.map (fun (kq : Nat × SQueue) =>
        match kq.2.pkts.findIdx? (fun k => !k.ended && (match k.item with
          | .rx _ x => same x
          | _ => false)) with
        | none => kq
        | some i => (kq.1, { kq.2 with
            pktIn := if last then (kq.2.pktIn + 1) % 2 ^ 32 else kq.2.pktIn
            pkts := updAt kq.2.pkts i (fun k => k.more p rd) })) }

/-- A port goes down: its unfinished packets get a word of zeros with END and PSTAT 2, what it held is lost (R235). -/
def Eng.abortPort (port : Nat) (e : Eng) : Eng :=
  let mine (k : SPkt) : Bool := !k.ended && (match k.item with
    | .rx _ x => x.port == some port
    | _ => false)
  let gone := e.spool.held.filter (fun h => h.port == some port)
  let e := gone.foldl (fun (e : Eng) h => match h.wait with
    | some w => e.waitOver h.queue w
    | none => e) e
  { e with
    spool.held := e.spool.held.filter (fun h => h.port != some port)
    spool.cut := e.spool.cut.filter (fun k => k.1 != some port)
    spool.queues := e.spool.queues.map (fun (kq : Nat × SQueue) => (kq.1, { kq.2 with
      pktIn := (kq.2.pktIn + (kq.2.pkts.filter mine).length) % 2 ^ 32
      pkts := kq.2.pkts.map (fun k => if mine k then { k with aborted := true, written := k.written + 1 } else k) })) }

/-- Whether a packet that leaves waits in its port's queue. -/
def Eng.ported (e : Eng) (q id : Nat) : Bool := e.ports.any (fun p => p.queue.any (fun i => i.src == some (q, id)))

/-- Packets of a queue that no port waits for any more are discarded as they come to the head of those that leave. -/
def Eng.dropDead (q : Nat) : Nat → Eng → Eng
  | 0, e => e
  | n + 1, e =>
    let s := e.squeue q
    match s.pkts.findIdx? SPkt.leaves with
    | none => e
    | some i =>
      if (s.pkts[i]?).any (fun p => p.ended && !e.ported q p.id) then Eng.dropDead q n (e.consume q i) else e

/-- What waits to leave by a port that goes down is lost (chapter 8, corner cases): the port's queue empties, and the Spool's
queues as far as nothing for another port stands before it. -/
def Eng.losePort (port : Nat) (e : Eng) : Eng :=
  let e := e.setPort port (fun p => { p with queue := [], deficit := List.replicate 8 0, groups := [], budget := 0 })
  e.spool.queues.foldl (fun (e : Eng) kq => e.dropDead kq.1 kq.2.pkts.length) e

/-! ### Packets that leave (R190, R234) -/

/-- Whether a queue can take a new packet of its one-cell producer. -/
def Eng.takesOut (e : Eng) (q : Nat) : Bool := !(e.squeue q).sweeping && !(e.squeue q).pkts.any (·.partial_)

/-- A whole packet goes to its port's queue, and leaves (log 41, DEDUCED). -/
def Eng.handOver (q id : Nat) (item : SItem) (e : Eng) : Eng := match item with
  | .tx port vc group bytes m told =>
    let e := if (e.port port).link = 2 then
        e.setPort port (fun p => { p with queue := p.queue ++ [PortItem.mk vc group bytes (some (q, id))] })
      else e
    if told then e else e.send (some port) vc m
  | .rx _ _ => e

/-- The producer of an unfinished packet takes one cell after the other and writes its words. -/
def Eng.writeOn (q : Nat) (c : QueueCfg) : Nat → Eng → Eng
  | 0, e => e
  | n + 1, e => match e.takeCell q c with
    | some e => Eng.writeOn q c n (e.setQueue q (fun s => { s with
        pkts := updAt s.pkts (s.pkts.length - 1) (fun p => { p with written := min p.words (p.written + 8) }) }))
    | none => e

/-- An unfinished packet that leaves goes on; whole, it is handed over (R190, R234, R240). -/
def Eng.fillOut (q : Nat) (e : Eng) : Eng :=
  match (e.squeue q).pkts.getLast?, KV.find e.spool.cfg q with
  | some p, some c =>
    if !p.partial_ || (e.squeue q).sweeping then e
    else
      let e := e.writeOn q c (ceilDiv (p.words - p.written) 8)
      match (e.squeue q).pkts.getLast? with
      | some p =>
        if p.ended then
          let e := (e.askOver q).setQueue q (fun s => { s with pktIn := (s.pktIn + 1) % 2 ^ 32 })
          (e.setPkt q ((e.squeue q).pkts.length - 1) (fun p => { p with item := match p.item with
            | .tx a b c d m _ => .tx a b c d m true
            | x => x })).handOver q p.id p.item
        else e.noteAsk q
      | none => e
  | _, _ => e

/-- A packet that leaves is begun. -/
def Eng.pushOut (q words : Nat) (item : SItem) (e : Eng) : Eng := (e.putPkt q words 0 item .good).fillOut q

/-- The producer of a queue's outbound packets goes on, after a break with those it lost (R246, R247). -/
def Eng.produce (q : Nat) (e : Eng) : Eng :=
  let e := e.fillOut q
  if e.takesOut q then
    match (e.squeue q).lost with
    | p :: rest => (e.setQueue q (fun s => { s with lost := rest })).pushOut q p.words p.item
    | [] => e
  else e

/-- A word that passes a queue at once: its cell is taken and freed, both counters move (classes 5 and 6; log 19, DEDUCED).
None where no cell can be had. -/
def Eng.through (q : Nat) (e : Eng) : Option Eng :=
  match KV.find e.spool.cfg q with
  | none => none
  | some c =>
    if e.takesOut q then
      (e.takeCell q c).map (fun e =>
        let cell := ((e.squeue q).cells.getLast?).getD 0
        ((e.setQueue q (fun s => { s with cells := s.cells.dropLast, pktIn := (s.pktIn + 1) % 2 ^ 32
                                          pktOut := (s.pktOut + 1) % 2 ^ 32 })).freeCell q cell).checkRetired)
    else none

/-- Frees what a queue holds, without regard to packet boundaries, and counts the flush (R250, R251). -/
def Eng.flushQueue (q : Nat) (e : Eng) : Eng :=
  let s := e.squeue q
  if s.cells.isEmpty && s.pkts.isEmpty then e.setQueue q (fun s => { s with lost := [] })
  else
    let e := { (e.countFlush q).unport q with spool.cut := e.spool.cut ++ cutKeys s.pkts }
    let e := (e.setQueue q (fun s => { s with cells := [], pkts := [], lost := [], badCell := none })).freeCells q s.cells
    e.checkRetired


/-- A queue is flushed together with what ports hold for it and what its producer waits for. -/
def Eng.flushAll (q : Nat) (e : Eng) : Eng :=
  let gone := e.spool.held.filter (fun h => h.queue == q)
  let e := gone.foldl (fun (e : Eng) h => match h.wait with
    | some w => e.waitOver q w
    | none => e) ((e.askOver q).flushQueue q)
  { e with spool.held := e.spool.held.filter (fun h => h.queue != q)
           spool.cut := e.spool.cut ++ gone.filterMap (fun h => match h.rd with
             | .sofar _ => some h.pkt.key
             | _ => none) }

/-- The sweep ends: the cells are free, one that could not be read is retired; what was lost is fetched again, from its sender or
by its producer, and the queue goes on (R247). -/
def Eng.sweepEnd (q : Nat) (e : Eng) : Eng :=
  let s := e.squeue q
  if !s.sweeping then e
  else
    let back := s.lost.filter SPkt.leaves
    let e := e.setQueue q (fun s => { s with cells := [], lost := back, sweeping := false, badCell := none })
    let e := match s.badCell with
      | some c => { e with spool.faulty := if e.spool.faulty.contains c then e.spool.faulty else e.spool.faulty ++ [c] }
      | none => e
    let e := (e.freeCells q s.cells).checkRetired
    s.lost.foldl (fun (e : Eng) p => match p.item with
      | .rx _ x => e.nakTo x
      | .tx _ _ _ _ _ _ => e) (e.produce q)

/-! ### Scrub (R245) -/

/-- Whether a cell is in use: a frame's in the loader area, a record's in the spine reserve, a queue's in the pool. -/
def Eng.cellUsed (e : Eng) (cell : Nat) : Bool :=
  if cell / 48 ≤ 682 then e.loader.frames.any (fun kf => (e.loaderCells kf.1).contains cell)
  else if cell / 48 < e.pinned (cell % 48) then (List.range e.spineUse).any (fun i => e.areaCell 683 i == cell)
  else e.spool.queues.any (fun kq => kq.2.cells.contains cell)

/-- SCRUB_US of a bank. -/
def Eng.scrubUs (e : Eng) (b : Nat) : Nat := match e.pat.bind (fun p => KV.find p.banks b) with
  | some c => c.scrubUs
  | none => 0

/-- A free cell that a scrub cannot read leaves its free list and is retired. -/
def Eng.retireFree (cell : Nat) (e : Eng) : Eng :=
  { e with spool.banks := updAt e.spool.banks (cell % 48) (fun k =>
      if cell / 48 < e.pinned (cell % 48) then k
      else if k.fresh ≤ cell / 48 then
        { k with fresh := 4096, freed := (List.range 4096).filter (fun r => k.fresh ≤ r ∧ r ≠ cell / 48) ++ k.freed }
      else { k with freed := k.freed.filter (· != cell / 48) }) }.retireCell cell

/-- Whether a bank's pass has read all its cells; the retired ones hold nothing to read. -/
def Eng.passDone_ (e : Eng) (b : Nat) : Bool :=
  let gone := (e.spool.retired.filter (fun c => c % 48 == b && !(e.sbank b).scrubbed.contains (c / 48))).length
  decide ((e.sbank b).scrubbed.length + gone ≥ 4096)

/-- Scrub of one cell: corrected, retired where it is free and unreadable, left to the consumer's read where it is in use. A pass
is counted when every present bank has read all its cells. -/
def Eng.scrubCell (cell : Nat) (stat : LineStat) (again : Bool) (e : Eng) : Eng :=
  let b := cell % 48
  if cell < 196608 && e.bankPresent b && (e.pwr.cur < 2) && e.scrubUs b > 0 && !e.spool.retired.contains cell then
    let e := match stat with
      | .ok => e
      | .corrected => e.spoolCorrected cell again
      | .uncorrectable =>
        let e := e.spoolBad cell
        if e.cellUsed cell then { e with spool.bad := if e.spool.bad.contains cell then e.spool.bad else e.spool.bad ++ [cell] }
        else e.retireFree cell
    let e := { e with spool.banks := updAt e.spool.banks b (fun k =>
      { k with scrubbed := if k.scrubbed.contains (cell / 48) then k.scrubbed else k.scrubbed ++ [cell / 48] }) }
    let e := e.checkRetired
    if e.banksPresent.all e.passDone_ then
      { e with
        spool.scrubPasses := (e.spool.scrubPasses + 1) % 2 ^ 32
        spool.banks := e.spool.banks.map (fun k => { k with scrubbed := [] }) }
    else e
  else e

/-! ### Diagnostics (Tables 10-1, 10-7, 10-8) -/

/-- TWK_SPL_QCFG of a queue. -/
def QueueCfg.word (c : QueueCfg) : Nat :=
  c.qclass % 8 + c.quarter % 16 * 2 ^ 4 + c.minCells % 2 ^ 18 * 2 ^ 8 + c.maxCells % 2 ^ 18 * 2 ^ 26 +
  c.ctCells % 2 ^ 7 * 2 ^ 44 + c.qflags % 2 * 2 ^ 51

/-- A queue configuration out of TWK_SPL_QCFG's bits; none where QCLASS is 7. -/
def QueueCfg.ofWord (v : Nat) : Option QueueCfg :=
  if field v 0 3 = 7 then none
  else some ⟨field v 0 3, field v 4 4, field v 8 18, field v 26 18, field v 44 7, field v 51 1⟩

/-- Whether a packet of a queue is being read before its end mark. -/
def SQueue.ctOpen (s : SQueue) : Bool := s.pkts.any (fun p => decide (p.read > 0) && !p.ended)

/-- TWK_SPL_QSTAT of a queue; WAIT while a producer waits for cells, a port or its own. -/
def Eng.qstat (e : Eng) (q : Nat) : Nat :=
  let s := e.squeue q
  let full := match KV.find e.spool.cfg q with
    | some c => decide (s.cells.length = c.maxCells)
    | none => false
  let wait := s.wait.isSome || e.spool.held.any (fun h => h.queue == q && h.wait.isSome)
  s.cells.isEmpty.toNat + full.toNat * 2 + s.ctOpen.toNat * 4 + s.broken.toNat * 8 + wait.toNat * 16 +
  (s.pktIn + 2 ^ 32 - s.pktOut) % 2 ^ 18 * 2 ^ 20 + s.cells.length % 2 ^ 18 * 2 ^ 38

/-- Successor of an element in a list, or the end of a list of cells. -/
def nextIn : List Nat → Nat → Nat
  | a :: b :: t, x => if a = x then b else nextIn (b :: t) x
  | _, _ => 2 ^ 18 - 1

/-- Position of a cell among those of its packet, counted from the packet's first cell, and the packet. -/
def pktPos : List SPkt → Nat → Option (Nat × SPkt)
  | [], _ => none
  | p :: t, i => if i < p.held then some (i + (p.granted - p.held), p) else pktPos t (i - p.held)

/-- Metadata bits of the `j`-th cell of a packet of `words` words, `written` of them there, ended with `pstat` (0 while open). -/
def metaBits (j words written pstat : Nat) : Nat :=
  let here := min 8 (written - 8 * j)
  let last := decide (pstat ≠ 0) && decide (0 < here) && decide (written ≤ 8 * (j + 1))
  (2 ^ here - 1) * 2 ^ 18 + (if last then 2 ^ (here - 1) * 2 ^ 26 + pstat * 2 ^ 37 else 0) + (if j = 0 then 2 ^ 34 + words * 2 ^ 39 else 0)

/-- Metadata of a cell that holds part of a packet. -/
def SPkt.metaAt (p : SPkt) (j : Nat) : Nat := metaBits j p.words p.written (if p.aborted then 2 else if p.ended then 1 else 0)

/-- The queue shown as OWNER of a frame's or record's cells: the class 6 queue, the last number (log 19, DEDUCED). -/
def Eng.loaderQueue (e : Eng) : Option Nat := (e.spool.cfg.find? (fun kc => kc.2.qclass == 6)).map (·.1)

/-- Metadata bits [63:0] of a cell (Table 10-1; log 19, DEDUCED). -/
def Eng.cellMeta (e : Eng) (cell : Nat) : Nat :=
  let b := cell % 48
  let row := cell / 48
  let free := 2 ^ 36
  let none_ := 2 ^ 18 - 1
  if e.spool.retired.contains cell then none_
  else if row ≤ 682 then
    match e.loader.frames.find? (fun kf => (e.loaderCells kf.1).contains cell) with
    | some (n, bytes) =>
      let l := e.loaderCells n
      let w := ceilDiv bytes.length 64
      nextIn l cell + metaBits (l.findIdx (· == cell)) w w 1 + (e.loaderQueue.getD 8191) * 2 ^ 51
    | none => none_ + free
  else if row < e.pinned b then
    if e.cellUsed cell then none_ + metaBits 0 1 1 1 + 8191 * 2 ^ 51 else none_ + free
  else match e.spool.queues.find? (fun kq => kq.2.cells.contains cell) with
  | some (q, s) =>
    nextIn s.cells cell + (match pktPos s.pkts (s.cells.findIdx (· == cell)) with
      | some (j, p) => p.metaAt j
      | none => 0) + q * 2 ^ 51
  | none =>
    let k := e.sbank b
    let list := ((List.range 4096).filter (fun r => k.fresh ≤ r)) ++ k.freed
    let nxt := nextIn list row
    (if nxt = none_ then none_ else nxt * 48 + b) + free

end Sys2Proof.Machine
end

