-- ==== Sys2Proof/Machine/Cmds.lean ====
section
/-! DEFINITION. The command front end (chapter 3): rings, fetch, start rules (R82 to R84), completion (R66, R86), waits
(R80, R81), and accounting of commands (R318, R319). -/

namespace Sys2Proof.Machine

/-! ### Rings -/

/-- A ring. -/
def Eng.ring (e : Eng) (r : Nat) : Ring := KV.get {} e.rings r

/-- Changes a ring. -/
def Eng.setRing (r : Nat) (f : Ring → Ring) (e : Eng) : Eng := { e with rings := KV.upd {} e.rings r f }

/-- n and m of a ring configuration: 16 is encoded as 0 (Table 3-4). -/
def logOf (v : Nat) : Nat := if v = 0 then 16 else v
def RingWindow.ringLog (w : RingWindow) : Nat := logOf (field w.cfg 0 4)
def RingWindow.cplLog (w : RingWindow) : Nat := logOf (field w.cfg 4 4)
def RingWindow.vector (w : RingWindow) : Nat := field w.cfg 24 6

/-- Difference of two free-running 32-bit indices. -/
def idxSub (a b : Nat) : Nat := (a + 2 ^ 32 - b % 2 ^ 32) % 2 ^ 32

/-- Completion records of a ring queued for HBM. -/
def Eng.cplQueued (e : Eng) (r : Nat) : Nat :=
  (e.wq.filter (fun w => match w.kind with
    | .completion q _ _ => q == r
    | .deferred q _ => q == r
    | _ => false)).length

/-- Completion slots free on a ring (R66). -/
def Eng.cplFree (e : Eng) (r : Nat) : Nat :=
  let g := e.ring r
  2 ^ g.win.cplLog - (idxSub g.ctail g.chead + e.cplQueued r + (e.cmds.filter (fun c => c.ring == r && c.slotHeld)).length)

/-- The command at an index of a ring, with the given opcode. -/
def Eng.cmdAt (e : Eng) (r idx op : Nat) : Option Cmd :=
  e.cmds.find? (fun c => c.ring == r && c.idx == idx && c.d.opcode == op && !c.done)

/-! ### Completion -/

/-- A command's record goes into the write queue, in its completion slot (R64, R86). -/
def Eng.pushRecord (id : Nat) (e : Eng) : Eng :=
  match e.cmd? id with
  | none => e
  | some c =>
    let g := e.ring c.ring
    let k := (g.ctail + e.cplQueued c.ring) % 2 ^ 32
    (e.setCmd id (fun c => { c with slotHeld := false, recorded := true })).queueRec (.completion c.ring id c.d.irq)
      (g.win.cplBase + k % 2 ^ g.win.cplLog * 32)
      (completionBytes c (namesSlot c.d.opcode c.d.scope && e.askuc c.d.slot) e.now)

/-- Notes since when a command or a record of a ring has waited with no completion slot free (R89). -/
def Eng.markStall (r : Nat) (e : Eng) : Eng :=
  let g := e.ring r
  let waits := e.cplFree r == 0 &&
    e.cmds.any (fun c => c.ring == r && ((c.phase == .held && !c.done) || (c.done && !c.recorded && !c.slotHeld)))
  let t := if waits then some (g.stallAt.getD e.now) else none
  if t = g.stallAt then e else e.setRing r (fun g => { g with stallAt := t })

/-- Records whose commands ended without a slot take freed slots in fetch order (R66). -/
def Eng.serveSlots (r : Nat) (e : Eng) : Eng :=
  (e.cmds.filter (fun c => c.ring == r && c.done && !c.slotHeld && !c.recorded)).foldl
    (fun e c => if e.cplFree r > 0 then e.pushRecord c.id else e) e

/-- Nominal rates in bytes per ns: the ports of the variant, the memory port (Table 0-2, R177), and lane element
operations per ns times 10 (R202; log 21, DESIGN CHOICE). -/
def Eng.portRate (e : Eng) : Nat := if e.is3S then 9600 else 12800
def Eng.laneRate10 (e : Eng) : Nat := if e.is3S then 55296 else 73728

/-- Core cycles of one tile by the weight format and the tables present (Tables 4-4, 4-5, R110): the sums given there, each
expert stage rounded up as their figures are; open for the other forms (log 22, DEDUCED). -/
def tileCycles (c : SlotCfg) (wfmt tables : Nat) : Nat :=
  let d := c.dDiv * 256
  let h := c.rhidDiv * 64
  let cols := ceilDiv c.panels 64
  let pairs := ceilDiv ((if d > 16384 then 32 else 64) * c.kp) 8
  let whole := d ≤ 16384
  if bit c.mode 6 then
    if bit c.mode 0 && wfmt = 0 && tables = 2 && whole then h * d / 64 + 160 + cols * h / 2 + 341 + ceilDiv (pairs * h) 6
    else Config.tileCyclesOther [c.mode, wfmt, tables, d, c.panels, c.kp, h]
  else if bit c.mode 0 then
    if wfmt = 0 && tables = 2 then cols * d / 2 + 341 + ceilDiv (pairs * d) 6
    else if wfmt = 0 && whole then cols * d + 341 + ceilDiv (2 * pairs * d) 6
    else if wfmt ≤ 2 && tables = 2 && whole then cols * d / 4 + 341 + ceilDiv (pairs * d) 12
    else if tables = 2 && whole then cols * d * 66 / 256 + 341 + ceilDiv (pairs * d * 11) 128
    else Config.tileCyclesOther [c.mode, wfmt, tables, d, c.panels, c.kp, h]
  else if wfmt = 0 && tables = 2 && whole then c.panels * d / 2
  else Config.tileCyclesOther [c.mode, wfmt, tables, d, c.panels, c.kp, h]

/-- Core cycles of one token on the bypass (R111); open for two-layer routers (log 22, DEDUCED). -/
def bypassCycles (c : SlotCfg) : Nat :=
  if bit c.mode 6 then Config.tileCyclesOther [c.mode, c.dDiv, c.panels, c.kp, c.rhidDiv]
  else if bit c.mode 0 then (c.panels + 64 * c.kp) * c.dDiv + 48 + 245
  else 64 * c.panels * c.dDiv + 24

/-- A time in ns; how a fraction is rounded is open (log 21, DESIGN CHOICE). -/
def nsOf (num den : Nat) : Nat := num / den + (if num % den = 0 then 0 else (Config.nsRoundsUp num den).toNat)

/-- Solo estimate of a command in ns (Table 13-12; log 21, DESIGN CHOICE). -/
def Eng.soloNs (e : Eng) (c : Cmd) : Option Nat :=
  let op := c.d.opcode
  let send := nsOf c.res.bytes e.portRate
  let link := send + hopNs c.res.far
  let score := match KV.find e.slotCfg c.d.slot with
    | none => 0
    | some s =>
      let tokens := c.count.getD c.d.count
      if tokens = 1 && bit (e.reg Reg.ctCtrl) 0 then
        nsOf (bypassCycles s * 10) 36
      else nsOf (ceilDiv tokens (if s.dDiv > 64 then 32 else 64) * tileCycles s (e.lslot c.d.slot).wfmt e.tablesPresent * 10) 36
  if op = opScore then some score
  else if op = opRoute then some (score + c.res.rounds * 2 * hopNs c.res.far + send)
  else if op = opCombine then some (nsOf (c.res.laneOps * 10) e.laneRate10)
  else if op = opCombineBwd then some (nsOf (c.res.laneOps * 10) e.laneRate10 + 2 * score)
  else if op = opRouteBwd ∨ op = opReturn ∨ op = opReturnBwd ∨ op = opBcast ∨ op = opReduce then some link
  else if op = opCopy then some (if c.d.remote then link else nsOf (2 * c.res.bytes) 31900)
  else none

/-! ### What a routed step keeps (R204) -/

/-- The route work of a command's step. -/
def Eng.workOf (e : Eng) (polder slot step : Nat) : Option RouteWork :=
  e.works.find? (fun w => w.polder == polder && w.slot == slot && w.step == step)

/-- The source role started by a command. -/
def Eng.workById (e : Eng) (cmd : Nat) : Option RouteWork := e.works.find? (fun w => w.cmd == cmd)

/-- Changes a step's route work. -/
def Eng.setWork (cmd : Nat) (f : RouteWork → RouteWork) (e : Eng) : Eng :=
  { e with works := updFirst (fun w => w.cmd == cmd) f e.works }

/-- A step's area, forward or backward. -/
def RouteWork.areaOf (w : RouteWork) (bwd : Bool) : Area := if bwd then w.bwdArea else w.area

/-- Changes a step's area. -/
def RouteWork.setArea (w : RouteWork) (bwd : Bool) (f : Area → Area) : RouteWork :=
  if bwd then { w with bwdArea := f w.bwdArea } else { w with area := f w.area }

/-- Releases the accumulator, stage and bitmap of a forward or backward area. -/
def Eng.releaseArea (cmd : Nat) (bwd : Bool) (e : Eng) : Eng :=
  match e.workById cmd with
  | none => e
  | some w =>
    let a := w.areaOf bwd
    (e.engDecAll (a.bufs ++ a.bits ++ a.stageBufs)).setWork cmd (fun w => w.setArea bwd (fun a =>
      { a with live := false, bufs := [], bits := [], stageBufs := [], acc := [], stage := [], streams := [] }))

/-- Releases the saved router state of a step. -/
def Eng.releaseSaved (cmd : Nat) (e : Eng) : Eng :=
  match e.workById cmd with
  | none => e
  | some w => (e.engDecAll w.area.saved).setWork cmd (fun w => { w with area := { w.area with saved := [] } })

/-- What the end of a step's COMBINE or COMBINE_BWD releases, whatever its status; one whose descriptor does not hold up
does nothing but end (R84, R87, R204; log 56, DESIGN CHOICE). -/
def Eng.combineEnds (c : Cmd) (e : Eng) : Eng :=
  match e.workOf c.polder c.d.slot c.d.step with
  | none => e
  | some w =>
    if c.d.opcode = opCombine then
      if w.combineCmd.any (· != c.id) then e
      else (if c.err.isSome then e else e.releaseArea w.cmd false).setWork w.cmd (fun w => { w with done := true })
    else if c.err.isSome || w.bwdCombineCmd.any (· != c.id) then e
    else ((e.releaseArea w.cmd true).releaseSaved w.cmd).setWork w.cmd (fun w => { w with doneBwd := true })

/-- Commands whose sending, receiving or summing runs in the lanes (R185, R285). -/
def usesLanes (op : Nat) : Bool := [opRoute, opRouteBwd, opReturn, opReturnBwd, opReduce].contains op

/-- Ends a command: its status, its accounting (R318, R319), its channel, its record (R66, R86). -/
def Eng.completeOne (id status : Nat) (e : Eng) : Eng :=
  match e.cmd? id with
  | none => e
  | some c =>
    if c.done then e
    else
      let e := e.setCmd id (fun c => { c with done := true, phase := .ended, res.status := status, res.time := some (c.res.time.getD e.now) })
      let e := match c.channel with
        | some ch => { e with chans := KV.del e.chans ch }
        | none => e
      let e := match (if c.phase == .held then none else e.soloNs c) with
        | some n => e.account c.polder (fun a =>
            { a with actual := (a.actual + (e.now - c.startNs)) % 2 ^ 64, solo := (a.solo + n) % 2 ^ 64 })
        | none => e
      let e := if c.phase != .held && usesLanes c.d.opcode then e.accTime c.polder else e
      let e := if c.d.opcode = opCombine ∨ c.d.opcode = opCombineBwd then e.combineEnds c else e
      (if c.slotHeld then e.pushRecord id else e.serveSlots c.ring).markStall c.ring

/-- FENCE commands under way that have nothing left to wait for (R83). -/
def Eng.fenceMet (e : Eng) (c : Cmd) : Bool :=
  c.d.opcode == opFence && c.phase == .running && !c.done &&
  e.cmds.all (fun x => x.done || x.id ≥ c.id || (if c.d.scope = 0 then x.ring != c.ring else x.polder != c.polder))

/-- Ends the FENCE commands whose earlier commands have all completed (R83). -/
def Eng.settleFences (e : Eng) : Eng :=
  (e.cmds.map (·.id)).foldl (fun e id => match e.cmd? id with
    | some c => if e.fenceMet c then e.completeOne id stOk else e
    | none => e) e


/-- A deferred ADMIT's first record (R88): the command stays. -/
def Eng.recordDeferred (id : Nat) (e : Eng) : Eng :=
  match e.cmd? id with
  | none => e
  | some c =>
    let g := e.ring c.ring
    let k := (g.ctail + e.cplQueued c.ring) % 2 ^ 32
    (e.setCmd id (fun c => { c with slotHeld := false })).queueRec (.deferred c.ring c.d.irq)
      (g.win.cplBase + k % 2 ^ g.win.cplLog * 32)
      (completionBytes { c with res.status := stDeferred } (e.askuc c.d.slot) e.now)

/-! ### Starting -/

/-- Whether a Tide window lets a polder issue (R309, R312, R313). -/
def Eng.windowOk (e : Eng) (polder : Nat) : Bool :=
  let enforced := bit (e.reg Reg.schCtrl) 0 && (match e.pat with
    | some p => p.tidePeriod > 0
    | none => false)
  if enforced then
    match e.pld.window with
    | some x => x == polder
    | none => !e.reservedClass polder
  else true

/-- A polder is resident and RUNNING (R299). -/
def Eng.polderRuns (e : Eng) (polder : Nat) : Bool := match e.slotOf polder with
  | some s => (e.pslot s).st == .running && (e.pslot s).teardown.isNone
  | none => false

/-- Whether a polder's micro-operations issue (R299, R303, R313); nothing issues outside ACTIVE or during a compute
reset. -/
def Eng.mayIssue (e : Eng) (polder : Nat) : Bool :=
  e.polderRuns polder && e.windowOk polder && e.pwr.cur == 0 && !e.pwr.trans && e.flt.recovery != some .compute

/-- Whether another command of the polder names the same slot and step and satisfies a condition. -/
def Eng.anyCmd (e : Eng) (c : Cmd) (f : Cmd → Bool) : Bool :=
  e.cmds.any (fun x => x.id != c.id && x.polder == c.polder && x.d.slot == c.d.slot && x.d.step == c.d.step && !x.done && f x)

/-- What a slot keeps of a step that STEP_END has reached. -/
def Eng.stepInfo (e : Eng) (slot step : Nat) : Option StepInfo := (e.lslot slot).steps.find? (fun s => s.step == step)

/-- Changes what a slot keeps of a step. -/
def Eng.setStep (slot step : Nat) (f : StepInfo → StepInfo) (e : Eng) : Eng :=
  e.setLslot slot (fun l => { l with steps := updFirst (fun s => s.step == step) f l.steps })

/-- Implicit dependencies (Table 3-12; log 27, DEDUCED). -/
def Eng.depsMet (e : Eng) (c : Cmd) : Bool :=
  let op := c.d.opcode
  let work := e.workOf c.polder c.d.slot c.d.step
  if op = opCombine then !e.anyCmd c (fun x => x.d.opcode == opRoute && !x.sentLast)
  else if op = opRouteBwd then
    !e.anyCmd c (fun x => x.d.opcode == opCombine || (x.d.opcode == opRoute && x.phase == .held)) && work.all (·.done)
  else if op = opCombineBwd then
    !e.anyCmd c (fun x => x.d.opcode == opRouteBwd && !x.sentLast)
  else if op = opStepEnd then
    !e.anyCmd c (fun x => x.d.opcode == opCombine || x.d.opcode == opCombineBwd || (x.d.opcode == opRoute && x.phase == .held)) &&
    work.all (·.done)
  else if op = opRoute then
    (e.lslot c.d.slot).steps.all (fun i => some i.inst != c.prev || i.boundary)
  else if op = opBcast ∨ op = opReduce then
    !e.cmds.any (fun x => x.id < c.id && x.polder == c.polder && !x.done &&
      (x.d.opcode == opGroupForm || x.d.opcode == opGroupReform) && x.d.group == c.d.group) &&
    !e.cmds.any (fun x => x.id < c.id && x.polder == c.polder && !x.done && x.err.isNone &&
      (x.d.opcode == opBcast || x.d.opcode == opReduce) && x.d.group == c.d.group && !(e.group c.d.group).ops.any (fun o => o.cmd == x.id)) &&
    (e.group c.d.group).ops.all (fun o => ((e.group c.d.group).seq + 2 ^ 32 - o.seq % 2 ^ 32) % 2 ^ 32 < 4)
  else if op = opAdmit ∨ op = opRetire then true
  else true

/-- Only the WAIT, a dependency or consent holds the command (Table 13-11 ACC_WAIT). -/
def Eng.blocked (e : Eng) (c : Cmd) : Bool := c.err.isNone && ((c.d.wait && !c.waitOk) || !e.depsMet c)

/-- The time a command has been blocked so far, and since when it is again. -/
def Cmd.markBlocked (c : Cmd) (blocked : Bool) (now : Nat) : Cmd :=
  if c.phase != .held || c.done then c
  else match c.blockedAt with
    | some t => if blocked then c else { c with blockedAt := none, blockedNs := c.blockedNs + (now - t) }
    | none => if blocked then { c with blockedAt := some now } else c

/-- Notes which commands a WAIT, a dependency or consent holds (Table 13-11 ACC_WAIT). -/
def Eng.markBlocked (e : Eng) : Eng := { e with cmds := e.cmds.map (fun c => c.markBlocked (e.blocked c) e.now) }

/-- Ends a command. -/
def Eng.complete (id status : Nat) (e : Eng) : Eng := ((e.completeOne id status).settleFences).markBlocked

/-- A command that reads its slot's weight image waits behind a latched weight command or a latched bias bind (R102,
R152). -/
def Eng.slotFree (e : Eng) (c : Cmd) : Bool :=
  let op := c.d.opcode
  let l := e.lslot c.d.slot
  (!(op == opScore || op == opRoute || op == opCombineBwd) || (l.wpend.isNone && !l.loading)) &&
  (!(op == opScore || op == opRoute) || (l.biasPend.isNone && !l.biasZeroing))

/-- Ring order, FENCE, BARRIER and FENCE commands ahead (R82, R83, R334);
ADMIT and RETIRE pass ADMITs and RETIREs that wait for the same boundary (Table 3-12; log 36, DEDUCED). -/
def Eng.orderMet (e : Eng) (c : Cmd) : Bool :=
  let wait (x : Cmd) := x.d.opcode == opAdmit || x.d.opcode == opRetire
  e.cmds.all (fun x => x.ring != c.ring || x.id ≥ c.id || x.done ||
    ((x.phase != .held || (wait x && wait c)) && x.d.opcode != opFence && x.d.opcode != opBarrier)) &&
  (!(c.d.fence || c.d.opcode == opBarrier) || e.cmds.all (fun x => x.ring != c.ring || x.id ≥ c.id || x.done)) &&
  !e.cmds.any (fun x => x.polder == c.polder && x.d.opcode == opCancel && x.id < c.id && x.phase == .held &&
    (x.d.scope == 1 || x.d.slot == c.d.slot))

/-- Opcodes that hold a Shuttle channel (R177; log 9, DEDUCED). -/
def usesChannel (op : Nat) : Bool :=
  [opRoute, opReturn, opRouteBwd, opReturnBwd, opCopy, opBcast, opReduce].contains op

/-- The lowest free channel of a polder's SHUTTLE_MASK (R42, R177; log 9, DEDUCED). -/
def Eng.freeChannel (e : Eng) (polder : Nat) : Option Nat :=
  match e.template polder with
  | none => none
  | some t => (List.range 64).find? (fun ch => bit t.shuttleMask ch && (KV.find e.chans ch).isNone)

/-- SHUTTLE_MASK is empty: the command exceeds its quota (R42, Table 3-15; log 9, DEDUCED; log 63, DESIGN CHOICE). -/
def Eng.noChannels (e : Eng) (c : Cmd) : Bool :=
  usesChannel c.d.opcode && (match e.template c.polder with
    | some t => t.shuttleMask == 0
    | none => true)

/-- Reads a WAIT word and, where it is satisfied, the INDIRECT count (R80, R81; log 36, DEDUCED). -/
def Eng.pollWait (m : Mem) (id : Nat) (e : Eng) : Eng :=
  match e.cmd? id with
  | none => e
  | some c =>
    if c.done || c.waitOk || !c.d.wait then e
    else if toSigned 32 (e.rdNat m c.d.waitAddr 4 + 2 ^ 32 - c.d.waitValue) < 0 then e.accHbm c.polder 64
    else
      let n := if c.d.indirect then some (e.rdNat m (c.d.waitAddr + c.d.sizeOff) 4) else none
      let e := e.accHbm c.polder (if c.d.indirect then 128 else 64)
      let bad := n.any (fun k => !countInRange c.d.opcode k)
      e.setCmd id (fun c => { c with waitOk := true, count := n, err := if c.err.isNone && bad then some stBad else c.err })

/-- Whether the item of a micro-operation finds a cell in its ring's class 5 queue (Table 10-2). -/
def Eng.itemRoom (e : Eng) (c : Cmd) : Bool := c.err.isSome || (e.through (e.ring c.ring).win.queue).isSome

/-- Whether nothing but its item's cell holds a command back (R66, R68, R80 to R84). -/
def Eng.unheld (e : Eng) (c : Cmd) : Bool :=
  let g := e.ring c.ring
  c.phase == .held && !c.done && c.d.opcode != opCancel && (g.st == .attached || g.st == .draining) && e.mayIssue c.polder && e.orderMet c &&
  e.cplFree c.ring > 0 &&
  (c.err.isSome || ((!c.d.wait || c.waitOk) && e.depsMet c && e.slotFree c &&
    (!usesChannel c.d.opcode || e.noChannels c || (e.freeChannel c.polder).isSome)))

/-- Everything a command needs to start, its completion slot, its channel and its item's cell included. -/
def Eng.startable (e : Eng) (c : Cmd) : Bool := e.unheld c && e.itemRoom c

/-- The front end waits for a cell of its class 5 queue, or is refused (R232, R234). -/
def Eng.awaitItem (c : Cmd) (e : Eng) : Eng :=
  let q := (e.ring c.ring).win.queue
  if !e.unheld c then e else if (KV.find e.spool.cfg q).isNone then e.raise 0x0481 (arg4 0 q 1) none 0 else e.noteAsk q

/-- The item of a micro-operation passes its ring's class 5 queue (R240). -/
def Eng.passItem (c : Cmd) (e : Eng) : Eng :=
  let q := (e.ring c.ring).win.queue
  if c.err.isSome then e else ((e.through q).getD e).askOver q

/-- Starts a command that may start: its item passes its queue, it takes its completion slot and channel, the wait is accounted
(R66, R318; log 61, DESIGN CHOICE). -/
def Eng.begin (c : Cmd) (e : Eng) : Eng :=
  let e := e.passItem c
  let ch := if usesChannel c.d.opcode && c.err.isNone && !e.noChannels c then e.freeChannel c.polder else none
  let e := match ch with
    | some k => { e with chans := KV.put e.chans k { cmd := c.id, polder := c.polder, ring := c.ring, prio := c.d.prio } }
    | none => e
  let waited := e.now - c.fetchNs - (c.markBlocked false e.now).blockedNs
  let e := e.account c.polder (fun a => { a with wait := (a.wait + waited) % 2 ^ 64 })
  let e := e.gauge gsCmdWait c.d.opcode (some c.polder) waited
  (e.setCmd c.id (fun c => { c with phase := .started, slotHeld := true, channel := ch, startNs := e.now, degraded := e.degraded })).markStall
    c.ring

/-- A command that cannot do its work: a validation status, no channel in its quota, or an INDIRECT count of 0 (R81,
R87); a collective of no bytes still runs its count sweep (chapter 12), and a
ROUTE still tells its peers (R161), in its own meaning (log 63, DESIGN CHOICE). -/
def Eng.endsAtStart (e : Eng) (c : Cmd) : Option Nat :=
  match c.err with
  | some st => some st
  | none =>
    if c.d.opcode = opRoute then none
    else if e.noChannels c then some stQuota
    else if c.count == some 0 && c.d.opcode != opBcast && c.d.opcode != opReduce then some stOk else none

/-- Tries to start a held command; it ends at once where there is nothing to do. -/
def Eng.tryStart (m : Mem) (id : Nat) (e : Eng) : Eng :=
  let e := e.pollWait m id
  match e.cmd? id with
  | none => e
  | some c =>
    if e.startable c then
      let e := e.begin c
      match e.endsAtStart c with
      | some st => e.complete id st
      | none => e
    else (e.awaitItem c).setCmd id (fun c => c.markBlocked (e.blocked c) e.now)

/-- Runs a command's work once it has started, while its polder issues (R303, R309, R313); a command that already runs is left
alone (log 5, DEDUCED). -/
def Eng.runCmd (m : Mem) (r idx op : Nat) (body : Cmd → Eng → Eng) (e : Eng) : Eng :=
  match e.cmdAt r idx op with
  | none => e
  | some c =>
    let e := if c.phase == .held then e.tryStart m c.id else e
    match e.cmd? c.id with
    | none => e
    | some c =>
      if c.phase == .started && !c.done && e.mayIssue c.polder then
        body c (e.setCmd c.id (fun c => { c with phase := .running }))
      else e

/-! ### Fetching -/

/-- Whether a slot named by a command lies in the polder's range and is defined (Table 3-15). -/
def Eng.slotOk (e : Eng) (polder slot : Nat) : Bool :=
  (match e.template polder with
   | some t => t.slotBase ≤ slot && slot < t.slotBase + t.slotCount
   | none => false) && (KV.find e.slotCfg slot).isSome

/-- Validation from VERSION_UNSUPPORTED down to ALIGN_ERROR (R87, Table 3-15). -/
def Eng.validate (e : Eng) (g : Ring) (d : Desc) (formOk : Bool) : Option Nat :=
  if d.fmt ≠ g.negMajor then some stVersion
  else if 0x20 ≤ d.opcode ∧ d.opcode ≤ 0x23 ∧ !g.priv then some stPriv
  else if !formOk || !d.fieldsOk || (namesSlot d.opcode d.scope && !e.slotOk g.owner d.slot) then some stBad
  else if !d.aligned then some stAlign
  else none

/-- The step whose STEP_END a ROUTE of a consent-class slot waits on: that of the most recent ROUTE on the slot with
another STEP (Table 3-12). -/
def Eng.prevStep (e : Eng) (polder slot step : Nat) : Option Nat :=
  if e.consentClass polder then
    (((e.lslot slot).routeSteps.find? (· != step)).bind (fun s => e.stepInfo slot s)).map (·.inst)
  else none

/-- A slot's steps when a ROUTE of a step is fetched: a number whose earlier step is past its boundary begins a new step
(log 53, DESIGN CHOICE). -/
def LSlot.openStep (l : LSlot) (i : StepInfo) : LSlot :=
  { l with
    routeSteps := i.step :: (l.routeSteps.filter (· != i.step)).take 7
    steps := if l.steps.any (fun x => x.step == i.step && !x.boundary) then l.steps
      else l.steps.filter (fun x => x.step != i.step) ++ [i] }

/-- The head write-back line (R67), its CTAIL filled in when it is written. -/
def Eng.headWriteback (r : Nat) (e : Eng) : Eng :=
  let g := e.ring r
  (e.setRing r (fun g => { g with headWbAt := g.head })).queueRec (.headWb r) g.win.headWb (leBytes 4 g.head ++ zeros 60)

/-- Whether a BARRIER belongs to its group as it stands: the job, or a formed group of its polder and epoch. -/
def Eng.barrierFits (e : Eng) (polder : Nat) (d : Desc) : Bool :=
  let g := e.group d.group
  d.opcode == opBarrier && (d.group == 255 || (g.st == .formed && g.owner == polder)) && d.groupEpoch == g.epoch

/-- A BARRIER takes its group's next number in fetch order (R334). -/
def Eng.numberBarrier (id : Nat) (e : Eng) : Eng :=
  match e.cmd? id with
  | none => e
  | some c =>
    if c.bseq.isNone && !c.done && c.err.isNone && e.barrierFits c.polder c.d then
      (e.setCmd id (fun c => { c with bseq := some (e.group c.d.group).bseq })).setGroup c.d.group (fun g => { g with bseq := (g.bseq + 1) % 2 ^ 32 })
    else e

/-- Fetches and decodes the descriptor at HEAD (R68, R75 to R81). -/
def Eng.fetchOne (m : Mem) (r : Nat) (e : Eng) : Eng :=
  let g := e.ring r
  if g.st == .attached && g.head ≠ g.tail then
    let size := descSize g.negMajor
    let bytes := e.rd m (g.win.base + g.head % 2 ^ g.win.ringLog * size) size
    let (d, formOk) := parseDesc g.negMajor bytes
    let rslot := (e.slotOf g.owner).getD 0
    let ceil := match e.template g.owner with
      | some t => t.prioCeil
      | none => 0
    let d := { d with prio := min d.prio ceil }
    let err := e.validate g d formOk
    let isRoute := d.opcode == opRoute && err.isNone
    let c : Cmd :=
      { id := e.nextCmd, ring := r, idx := g.head, polder := g.owner, rslot := rslot, d := d, err := err
        detm := e.detm, seed := (e.pslot rslot).seed, epoch := (e.lslot d.slot).epoch
        prev := if isRoute then e.prevStep g.owner d.slot d.step else none, fetchNs := e.now }
    let e := { e with cmds := e.cmds ++ [c], nextCmd := e.nextCmd + 1 }.numberBarrier c.id
    let e := if isRoute then
        e.setLslot d.slot (fun l => l.openStep { step := d.step, inst := c.id, polder := g.owner, detm := e.detm })
      else e
    let e := e.accHbm g.owner size
    let e := e.setRing r (fun g => { g with head := (g.head + 1) % 2 ^ 32 })
    let g := e.ring r
    (if g.head = g.tail || idxSub g.head g.headWbAt ≥ 2 ^ (g.win.ringLog - 2) then e.headWriteback r else e).markStall r
  else e

/-- Announced descriptors that one request of up to 64 lines brings (R68). -/
def Ring.batch (g : Ring) : Nat := min (idxSub g.tail g.head) (4096 / descSize g.negMajor)

/-- The attached rings of a queue, each with the descriptors of its request. -/
def Eng.queueRings (e : Eng) (q : Nat) : KV Nat :=
  e.rings.filterMap (fun kg => if kg.2.win.queue = q && kg.2.st == .attached && kg.2.batch > 0 then some (kg.1, kg.2.batch) else none)

/-- The ring that follows the one served last, going round (log 53, DESIGN CHOICE). -/
def nextRing (last : Option Nat) (l : KV Nat) : Option Nat :=
  let l := KV.keys (l.filter (fun x => x.2 > 0))
  (l.find? (fun r => last.all (· < r))).or l.head?

/-- Takes the fetched descriptors of a queue's rings, one of a ring at a time (R68; log 53, DESIGN CHOICE). -/
def Eng.decodeRound (m : Mem) (q : Nat) : Nat → KV Nat → Eng → Eng
  | 0, _, e => e
  | n + 1, left, e => match nextRing (KV.find e.served q) left with
    | none => e
    | some r => Eng.decodeRound m q n (KV.upd 0 left r (· - 1)) { e.fetchOne m r with served := KV.put e.served q r }

/-- The descriptors announced on the rings of a ring's queue come in and are decoded, round-robin over the rings (R68;
log 36, DEDUCED; log 53, DESIGN CHOICE; log 49, DEDUCED). -/
def Eng.fetchRing (m : Mem) (r : Nat) (e : Eng) : Eng :=
  let g := e.ring r
  let l := e.queueRings g.win.queue
  if g.st == .attached then (Eng.decodeRound m g.win.queue (l.map (·.2)).sum l e).markBlocked else e

/-! ### Cancelling, attaching, detaching -/

/-- A ring that drains with nothing left to write becomes DETACHED; a latched ATTACH is left for its caller (R73). -/
def Eng.drained (e : Eng) (r : Nat) : Bool :=
  (e.ring r).st == .draining && e.cmds.all (fun c => c.ring != r) && e.cplQueued r == 0

/-- Checks of ATTACH in order (Table 3-7; log 36, DEDUCED). -/
def Eng.attachCheck (e : Eng) (polder r : Nat) (w : RingWindow) : Nat :=
  let major := field w.cfg 8 8
  match e.template polder with
  | none => stBad
  | some t =>
    let n := field w.cfg 0 4
    let m := field w.cfg 4 4
    if !(major = 1 || major = 2 || major = 3) then stVersion
    else if bit w.cfg 31 && !bit t.tflags 0 then stPriv
    else if (e.rings.filter (fun kg => kg.2.owner == polder && kg.2.st != .detached)).length ≥ t.ringQuota then stQuota
    else if (e.ring r).st != .detached || (e.ring r).held || w.queue < t.queueBase || w.queue ≥ t.queueBase + t.queueCount ||
        (match KV.find e.spool.cfg w.queue with
         | some q => q.qclass != 5
         | none => true) ||
        (1 ≤ n && n ≤ 3) || (1 ≤ m && m ≤ 3) then stBad
    else if w.base % 4096 ≠ 0 || w.cplBase % 4096 ≠ 0 || w.headWb % 64 ≠ 0 then stAlign
    else stOk

/-- Carries out an ATTACH (R72). -/
def Eng.attachNow (slot r : Nat) (w : RingWindow) (e : Eng) : Eng :=
  let polder := (e.pslot slot).polder
  let st := e.attachCheck polder r w
  let e := e.setPslot slot (fun p => { p with results := KV.put p.results r st })
  if st = stOk then
    (e.setRing r (fun _ =>
      { st := .attached, owner := polder, win := w, negMajor := field w.cfg 8 8, negMinor := min (field w.cfg 16 8) 0
        priv := bit w.cfg 31 })).raise 0x0514 (arg5 r polder slot) (some polder) 0
  else e

/-- Ends draining where nothing is left (R73; log 36, DEDUCED). -/
def Eng.drainEnd (r : Nat) (e : Eng) : Eng :=
  if e.drained r then
    let g := e.ring r
    let slot := (e.slotOf g.owner).getD 0
    let e := (e.setRing r (fun g => { g with st := .detached, pendAttach := none })).raise 0x0515 (arg5 r g.owner slot) (some g.owner) 0
    match g.pendAttach with
    | some (s, w) => e.attachNow s r w
    | none => e
  else e

/-- CANCEL commands whose cancelled commands have all written their records complete OK (R85). -/
def Eng.settleCancels (e : Eng) : Eng :=
  (e.cmds.filter (fun c => c.d.opcode == opCancel && c.phase == .running && !c.done)).foldl (fun e c =>
    if c.cancels.all (fun id => (e.cmd? id).isNone) then e.complete c.id stOk else e) e

/-- An accepted advance of CHEAD gives its slots to waiting records (R65, R66). -/
def Eng.advanceChead (r v : Nat) (e : Eng) : Eng :=
  let e := e.setRing r (fun g => { g with chead := v })
  let e := (e.serveSlots r).markStall r
  e.setRing r (fun g => { g with stalled := g.stalled && e.cplFree r == 0 })

end Sys2Proof.Machine
end

