-- ==== Sys2Proof/Machine/Digest.lean ====
section
/-! DEFINITION. The published digests the spec names (R12, Table 0-4): CRC-32C, SHA-256, and SHA-512 for Ed25519. -/

namespace Sys2Proof.Machine

/-- One bit of CRC-32C (reflected polynomial 0x82F6_3B78). -/
def crcBit (c : W32) : W32 := if c.getLsbD 0 then (c >>> 1) ^^^ 0x82F63B78#32 else c >>> 1

/-- One byte of CRC-32C. -/
def crcByte (c : W32) (b : Byte) : W32 := Nat.repeat crcBit 8 (c ^^^ b.zeroExtend 32)

/-- CRC-32C of a byte string (R12). -/
def crc32c (l : List Byte) : W32 := ~~~(l.foldl crcByte (BitVec.allOnes 32))

/-- Round constants of SHA-256. -/
def sha256K : List W32 := (
  [0x428a2f98, 0x71374491, 0xb5c0fbcf, 0xe9b5dba5, 0x3956c25b, 0x59f111f1, 0x923f82a4, 0xab1c5ed5] ++
  [0xd807aa98, 0x12835b01, 0x243185be, 0x550c7dc3, 0x72be5d74, 0x80deb1fe, 0x9bdc06a7, 0xc19bf174] ++
  [0xe49b69c1, 0xefbe4786, 0x0fc19dc6, 0x240ca1cc, 0x2de92c6f, 0x4a7484aa, 0x5cb0a9dc, 0x76f988da] ++
  [0x983e5152, 0xa831c66d, 0xb00327c8, 0xbf597fc7, 0xc6e00bf3, 0xd5a79147, 0x06ca6351, 0x14292967] ++
  [0x27b70a85, 0x2e1b2138, 0x4d2c6dfc, 0x53380d13, 0x650a7354, 0x766a0abb, 0x81c2c92e, 0x92722c85] ++
  [0xa2bfe8a1, 0xa81a664b, 0xc24b8b70, 0xc76c51a3, 0xd192e819, 0xd6990624, 0xf40e3585, 0x106aa070] ++
  [0x19a4c116, 0x1e376c08, 0x2748774c, 0x34b0bcb5, 0x391c0cb3, 0x4ed8aa4a, 0x5b9cca4f, 0x682e6ff3] ++
  [0x748f82ee, 0x78a5636f, 0x84c87814, 0x8cc70208, 0x90befffa, 0xa4506ceb, 0xbef9a3f7, 0xc67178f2]).map (BitVec.ofNat 32)

/-- Initial value of SHA-256. -/
def sha256Init : List W32 := (
  [0x6a09e667, 0xbb67ae85, 0x3c6ef372, 0xa54ff53a, 0x510e527f, 0x9b05688c, 0x1f83d9ab, 0x5be0cd19]).map (BitVec.ofNat 32)

/-- Message padding of SHA-2: a one bit, zeros, and the length in bits, in blocks of `blk` bytes. -/
def shaPad (blk lenBytes : Nat) (l : List Byte) : List Byte :=
  let z := (2 * blk - lenBytes - 1 - l.length % blk) % blk
  l ++ (0x80#8 :: zeros z) ++ beBytes lenBytes (8 * l.length)

/-- Extends a message schedule held newest first by `n` words. -/
def shaSched {w : Nat} (s0 s1 : BitVec w → BitVec w) : Nat → List (BitVec w) → List (BitVec w)
  | 0, l => l
  | n + 1, l =>
    let x := s1 (l.getD 1 0) + l.getD 6 0 + s0 (l.getD 14 0) + l.getD 15 0
    shaSched s0 s1 n (x :: l)

/-- One round of SHA-2 on the eight working words, with the schedule word and the constant. -/
def shaRound {w : Nat} (e0 e1 : BitVec w → BitVec w) (st : List (BitVec w)) (kw : BitVec w × BitVec w) : List (BitVec w) :=
  match st with
  | [a, b, c, d, e, f, g, h] =>
    let t1 := h + e1 e + ((e &&& f) ^^^ (~~~e &&& g)) + kw.1 + kw.2
    let t2 := e0 a + ((a &&& b) ^^^ (a &&& c) ^^^ (b &&& c))
    [t1 + t2, a, b, c, d + t1, e, f, g]
  | _ => st

/-- One block of SHA-256. -/
def sha256Block (h : List W32) (blk : List Byte) : List W32 :=
  let w0 := ((groups 4 16 blk).map (fun g => BitVec.ofNat 32 (beNat g))).reverse
  let s0 := fun (x : W32) => x.rotateRight 7 ^^^ x.rotateRight 18 ^^^ (x >>> 3)
  let s1 := fun (x : W32) => x.rotateRight 17 ^^^ x.rotateRight 19 ^^^ (x >>> 10)
  let e0 := fun (x : W32) => x.rotateRight 2 ^^^ x.rotateRight 13 ^^^ x.rotateRight 22
  let e1 := fun (x : W32) => x.rotateRight 6 ^^^ x.rotateRight 11 ^^^ x.rotateRight 25
  let w := (shaSched s0 s1 48 w0).reverse
  List.zipWith (· + ·) h ((sha256K.zip w).foldl (shaRound e0 e1) h)

/-- SHA-256 of a byte string (R31; log 47, DEDUCED). -/
def sha256 (l : List Byte) : List Byte :=
  let p := shaPad 64 8 l
  ((groups 64 (p.length / 64) p).foldl sha256Block sha256Init).flatMap (fun x => beBytes 4 x.toNat)

/-- Round constants of SHA-512. -/
def sha512K : List W64 := (
  [0x428a2f98d728ae22, 0x7137449123ef65cd, 0xb5c0fbcfec4d3b2f, 0xe9b5dba58189dbbc] ++
  [0x3956c25bf348b538, 0x59f111f1b605d019, 0x923f82a4af194f9b, 0xab1c5ed5da6d8118] ++
  [0xd807aa98a3030242, 0x12835b0145706fbe, 0x243185be4ee4b28c, 0x550c7dc3d5ffb4e2] ++
  [0x72be5d74f27b896f, 0x80deb1fe3b1696b1, 0x9bdc06a725c71235, 0xc19bf174cf692694] ++
  [0xe49b69c19ef14ad2, 0xefbe4786384f25e3, 0x0fc19dc68b8cd5b5, 0x240ca1cc77ac9c65] ++
  [0x2de92c6f592b0275, 0x4a7484aa6ea6e483, 0x5cb0a9dcbd41fbd4, 0x76f988da831153b5] ++
  [0x983e5152ee66dfab, 0xa831c66d2db43210, 0xb00327c898fb213f, 0xbf597fc7beef0ee4] ++
  [0xc6e00bf33da88fc2, 0xd5a79147930aa725, 0x06ca6351e003826f, 0x142929670a0e6e70] ++
  [0x27b70a8546d22ffc, 0x2e1b21385c26c926, 0x4d2c6dfc5ac42aed, 0x53380d139d95b3df] ++
  [0x650a73548baf63de, 0x766a0abb3c77b2a8, 0x81c2c92e47edaee6, 0x92722c851482353b] ++
  [0xa2bfe8a14cf10364, 0xa81a664bbc423001, 0xc24b8b70d0f89791, 0xc76c51a30654be30] ++
  [0xd192e819d6ef5218, 0xd69906245565a910, 0xf40e35855771202a, 0x106aa07032bbd1b8] ++
  [0x19a4c116b8d2d0c8, 0x1e376c085141ab53, 0x2748774cdf8eeb99, 0x34b0bcb5e19b48a8] ++
  [0x391c0cb3c5c95a63, 0x4ed8aa4ae3418acb, 0x5b9cca4f7763e373, 0x682e6ff3d6b2b8a3] ++
  [0x748f82ee5defb2fc, 0x78a5636f43172f60, 0x84c87814a1f0ab72, 0x8cc702081a6439ec] ++
  [0x90befffa23631e28, 0xa4506cebde82bde9, 0xbef9a3f7b2c67915, 0xc67178f2e372532b] ++
  [0xca273eceea26619c, 0xd186b8c721c0c207, 0xeada7dd6cde0eb1e, 0xf57d4f7fee6ed178] ++
  [0x06f067aa72176fba, 0x0a637dc5a2c898a6, 0x113f9804bef90dae, 0x1b710b35131c471b] ++
  [0x28db77f523047d84, 0x32caab7b40c72493, 0x3c9ebe0a15c9bebc, 0x431d67c49c100d4c] ++
  [0x4cc5d4becb3e42b6, 0x597f299cfc657e2a, 0x5fcb6fab3ad6faec, 0x6c44198c4a475817]).map (BitVec.ofNat 64)

/-- Initial value of SHA-512. -/
def sha512Init : List W64 := (
  [0x6a09e667f3bcc908, 0xbb67ae8584caa73b, 0x3c6ef372fe94f82b, 0xa54ff53a5f1d36f1] ++
  [0x510e527fade682d1, 0x9b05688c2b3e6c1f, 0x1f83d9abfb41bd6b, 0x5be0cd19137e2179]).map (BitVec.ofNat 64)

/-- One block of SHA-512. -/
def sha512Block (h : List W64) (blk : List Byte) : List W64 :=
  let w0 := ((groups 8 16 blk).map (fun g => BitVec.ofNat 64 (beNat g))).reverse
  let s0 := fun (x : W64) => x.rotateRight 1 ^^^ x.rotateRight 8 ^^^ (x >>> 7)
  let s1 := fun (x : W64) => x.rotateRight 19 ^^^ x.rotateRight 61 ^^^ (x >>> 6)
  let e0 := fun (x : W64) => x.rotateRight 28 ^^^ x.rotateRight 34 ^^^ x.rotateRight 39
  let e1 := fun (x : W64) => x.rotateRight 14 ^^^ x.rotateRight 18 ^^^ x.rotateRight 41
  let w := (shaSched s0 s1 64 w0).reverse
  List.zipWith (· + ·) h ((sha512K.zip w).foldl (shaRound e0 e1) h)

/-- SHA-512 of a byte string (RFC 8032, R32; log 47, DEDUCED). -/
def sha512 (l : List Byte) : List Byte :=
  let p := shaPad 128 16 l
  ((groups 128 (p.length / 128) p).foldl sha512Block sha512Init).flatMap (fun x => beBytes 8 x.toNat)

end Sys2Proof.Machine
end

