-- ==== Sys2Proof/Machine/Ed25519.lean ====
section
/-! DEFINITION. Ed25519 (RFC 8032, pure, no context) as R32 and R404 use it: points in extended coordinates modulo 2^255 − 19. -/

namespace Sys2Proof.Machine

/-- The field prime. -/
def edP : Nat := 2 ^ 255 - 19
/-- The order of the base point. -/
def edL : Nat := 2 ^ 252 + 27742317777372353535851937790883648493
/-- The curve constant d. -/
def edD : Nat := 37095705934669439343138083508754565189542113879843219016388785533085940283555

/-- `b ^ e` modulo the prime, over `n` exponent bits. -/
def edPow : Nat → Nat → Nat → Nat
  | 0, _, _ => 1
  | n + 1, b, e =>
    let r := edPow n (b * b % edP) (e / 2)
    if e % 2 = 1 then r * b % edP else r

/-- Inverse in the field. -/
def edInv (x : Nat) : Nat := edPow 255 x (edP - 2)

/-- A point (X, Y, Z, T) with x = X/Z, y = Y/Z, xy = T/Z. -/
structure EdPoint where
  x : Nat
  y : Nat
  z : Nat
  t : Nat
deriving DecidableEq, Repr

/-- The neutral point. -/
def edZero : EdPoint := ⟨0, 1, 1, 0⟩

/-- The base point. -/
def edBase : EdPoint :=
  let x := 15112221349535400772501151409588531511454012693041857206046113283949847762202
  let y := 46316835694926478169428394003475163141307993866256225615783033603165251855960
  ⟨x, y, 1, x * y % edP⟩

/-- Addition of points. -/
def edAdd (p q : EdPoint) : EdPoint :=
  let a := (p.y + edP - p.x) * (q.y + edP - q.x) % edP
  let b := (p.y + p.x) * (q.y + q.x) % edP
  let c := 2 * p.t * q.t % edP * edD % edP
  let d := 2 * p.z * q.z % edP
  let e := b + edP - a
  let f := d + edP - c
  let g := d + c
  let h := b + a
  ⟨e * f % edP, g * h % edP, f * g % edP, e * h % edP⟩

/-- Scalar multiple over `n` scalar bits. -/
def edMul : Nat → Nat → EdPoint → EdPoint
  | 0, _, _ => edZero
  | n + 1, k, p =>
    let r := edMul n (k / 2) (edAdd p p)
    if k % 2 = 1 then edAdd r p else r

/-- The 32 B encoding of a point. -/
def edEncode (p : EdPoint) : List Byte :=
  let zi := edInv p.z
  let x := p.x * zi % edP
  let y := p.y * zi % edP
  leBytes 32 (y + x % 2 * 2 ^ 255)

/-- The point that 32 B encode, if any. -/
def edDecode (l : List Byte) : Option EdPoint :=
  let v := leNat l
  let y := v % 2 ^ 255
  let sign := v / 2 ^ 255 % 2
  if y ≥ edP then none
  else
    let u := (y * y + edP - 1) % edP
    let w := (edD * (y * y % edP) + 1) % edP
    let x2 := u * edInv w % edP
    let c := edPow 253 x2 ((edP + 3) / 8)
    let x := if c * c % edP = x2 then c else c * edPow 253 2 ((edP - 1) / 4) % edP
    if x * x % edP ≠ x2 then none
    else if x = 0 ∧ sign = 1 then none
    else
      let x' := if x % 2 = sign then x else edP - x
      some ⟨x', y, 1, x' * y % edP⟩

/-- The scalar and the prefix that a 32 B private key expands to. -/
def edExpand (seed : List Byte) : Nat × List Byte :=
  let h := sha512 seed
  let a := leNat (h.take 32)
  (2 ^ 254 + a % 2 ^ 254 / 8 * 8, h.drop 32)

/-- The public key of a private key (log 47, DEDUCED). -/
def edPublic (seed : List Byte) : List Byte := edEncode (edMul 255 (edExpand seed).1 edBase)

/-- The signature of a message (RFC 8032, pure Ed25519; log 47, DEDUCED). -/
def edSign (seed msg : List Byte) : List Byte :=
  let (a, pre) := edExpand seed
  let pk := edEncode (edMul 255 a edBase)
  let r := leNat (sha512 (pre ++ msg)) % edL
  let rr := edEncode (edMul 253 r edBase)
  let k := leNat (sha512 (rr ++ pk ++ msg)) % edL
  rr ++ leBytes 32 ((r + k * a) % edL)

/-- Whether a 64 B signature of a message verifies under a public key (R32; log 47, DEDUCED). -/
def edVerify (pk msg sig : List Byte) : Bool :=
  let s := leNat ((sig.drop 32).take 32)
  match edDecode pk, edDecode (sig.take 32) with
  | some a, some r =>
    let k := leNat (sha512 (sig.take 32 ++ pk ++ msg)) % edL
    decide (s < edL) && edEncode (edMul 253 s edBase) == edEncode (edAdd r (edMul 253 k a))
  | _, _ => false

end Sys2Proof.Machine
end

