-- ==== Sys2Proof/Machine/PatternImage.lean ====
section
/-! DEFINITION. Pattern images and pieces: layout (R27 to R31), section contents (R34 to R42, R134), verification in the
order of Table 2-4 (R33), and the consistency checks of R44. -/

namespace Sys2Proof.Machine

/-- Section types (Table 2-3). -/
def secTopology : Nat := 1
def secQueues : Nat := 2
def secCarve : Nat := 3
def secSlots : Nat := 4
def secPanels : Nat := 5
def secHem : Nat := 6
def secTide : Nat := 7
def secSluice : Nat := 8
def secTemplates : Nat := 9
def secSignature : Nat := 0xFF

/-- Sections with a block index in format 4 (Table 2-3). -/
def bayScoped (t : Nat) : Bool := t = secCarve || t = secHem || t = secSluice

/-- A section descriptor (Table 2-2). -/
structure PatSec where
  idx : Nat
  stype : Nat
  sver : Nat
  off : Nat
  len : Nat
  digest : List Byte
deriving DecidableEq, Repr

/-- The descriptors of an image's table. -/
def patSections (img : List Byte) : List PatSec :=
  (List.range (rdLE img 12 2)).map (fun i =>
    let d := 64 + 48 * i
    ⟨i, rdLE img d 2, rdLE img (d + 2) 2, rdLE img (d + 4) 4, rdLE img (d + 8) 4, (img.drop (d + 16)).take 32⟩)

/-- Bytes of a section. -/
def PatSec.bytes (s : PatSec) (img : List Byte) : List Byte := (img.drop s.off).take s.len

/-- Length of the common part of a bay-scoped section (R36, R39, R41). -/
def commonLen (t : Nat) : Nat := if t = secCarve then 16 else if t = secSluice then 2304 else 0

/-- Offset, length and digest of a bay's block from its index entry (R31). -/
def blockEntry (sec : List Byte) (bay : Nat) : Nat × Nat × List Byte :=
  (rdLE sec (48 * bay) 4, rdLE sec (48 * bay + 4) 4, (sec.drop (48 * bay + 16)).take 32)

/-- Whether a byte range of the image meets a missing frame (R49, R51). -/
def rangeMissing (missing : List Nat) (off len : Nat) : Bool :=
  missing.any (fun f => f * 4096 < off + len && off < (f + 1) * 4096)

/-- Image ranges of the bay blocks: section, bay, image offset, length. -/
def blockRanges (img : List Byte) : List (PatSec × Nat × Nat × Nat) :=
  if rdLE img 4 2 = 4 then
    ((patSections img).filter (fun s => bayScoped s.stype)).flatMap (fun s =>
      (List.range 36).filterMap (fun b =>
        let e := blockEntry (s.bytes img) b
        if e.2.1 = 0 then none else some (s, b, s.off + e.1, e.2.1)))
  else []

/-- Whether every missing frame lies inside bay blocks, so that R51's second case applies. -/
def onlyBlocksMissing (img : List Byte) (missing : List Nat) : Bool :=
  let ranges := blockRanges img
  missing.all (fun f => ranges.any (fun r => r.2.2.1 ≤ f * 4096 && (f + 1) * 4096 ≤ r.2.2.1 + r.2.2.2))

/-- Bays with an incomplete block in some bay-scoped section (R51). -/
def baysMissing (img : List Byte) (missing : List Nat) : List Nat :=
  let l := ((blockRanges img).filter (fun r => rangeMissing missing r.2.2.1 r.2.2.2)).map (·.2.1)
  (List.range 36).filter (fun b => l.contains b)

/-! ### Sections -/

/-- A Pattern under construction and the sections found out of range. -/
structure PatParse where
  pat : Pattern := {}
  bad : List Nat := []
deriving DecidableEq, Repr

def PatParse.fail (p : PatParse) (t : Nat) (c : Bool) : PatParse := if c then { p with bad := p.bad ++ [t] } else p

/-- Whether a list is strictly ascending. -/
def ascending : List Nat → Bool
  | a :: b :: t => decide (a < b) && ascending (b :: t)
  | _ => true

/-- Entries of `size` bytes after a header of 16. -/
def entriesOf (sec : List Byte) (n size : Nat) : List (List Byte) :=
  (List.range n).map (fun i => (sec.drop (16 + size * i)).take size)

/-- TOPOLOGY (R34; log 52, DESIGN CHOICE). -/
def parseTopology (s : List Byte) (p : PatParse) : PatParse :=
  let trays : KV Nat := (List.range 1024).filterMap (fun r =>
    let m := rdLE s (0x90 + r) 1
    if m = 0 then none else some (r, m))
  let map : List Nat := (List.range 1024).filter (fun r => bit (rdLE s (0x10 + r / 8) 1) (r % 8))
  let t : Topology := ⟨rdLE s 0 4, rdLE s 4 2, rdLE s 6 1, rdLE s 8 4, rdLE s 12 2, trays⟩
  let n := (trays.map (fun rt => popcount 8 rt.2)).sum
  { p with pat.topo := t }.fail secTopology
    (s.length ≠ 1168 || t.jobChips ≠ 16 * n || n = 0 || t.jobRacks ≠ trays.length || map ≠ KV.keys trays ||
     !(t.matrixFmt = 1 || t.matrixFmt = 2) || t.chunk % 4096 ≠ 0 || t.chunk < 4096 || t.chunk > 65536 || t.consentTo = 0 ||
     rdLE s 7 1 ≠ 0 || rdLE s 14 2 ≠ 0)

/-- QUEUES (R35). -/
def parseQueues (s : List Byte) (p : PatParse) : PatParse :=
  let n := rdLE s 0 4
  let l := entriesOf s (min n 8192) 16
  let nums := l.map (fun e => rdLE e 0 2)
  let q : List (Nat × QueueCfg) := l.map (fun e => (rdLE e 0 2, QueueCfg.mk (rdLE e 2 1) (rdLE e 3 1) (rdLE e 4 4) (rdLE e 8 4) (rdLE e 12 2) (rdLE e 14 2)))
  { p with pat.queues := q.foldl (fun (m : KV QueueCfg) (e : Nat × QueueCfg) => KV.put m e.1 e.2) p.pat.queues }.fail secQueues
    (n > 8192 || s.length ≠ 16 + 16 * n || !allZero ((s.drop 4).take 12) || !ascending nums || nums.any (· ≥ 8192))

/-- A bank entry (Table 2-7), of a bank that its block must hold. -/
def parseBank (bank : Nat) (e : List Byte) (p : PatParse) : PatParse :=
  let c : BankCfg := ⟨rdLE e 4 2, rdLE e 6 2, rdLE e 8 4⟩
  { p with pat.banks := KV.put p.pat.banks bank c }.fail secCarve
    (rdLE e 0 1 ≠ bank || !allZero ((e.drop 1).take 3) || !allZero ((e.drop 12).take 20) || c.pool + c.pinned ≠ 4096 ||
     c.pinned < 768)

/-- A port entry (Table 2-10). -/
def parsePort (port : Nat) (e : List Byte) (p : PatParse) : PatParse :=
  let c : PortCfg := ⟨rdLE e 1 1, rdLE e 2 1, rdLE e 3 1, rdLE e 4 8⟩
  { p with pat.ports := KV.put p.pat.ports port c }.fail secSluice
    (rdLE e 0 1 ≠ port || c.ovlMin < 2 || c.ovlMin > 4 || c.ovlMax < c.ovlMin || c.ovlMax > 4 || c.pflags > 1 ||
     (List.range 8).any (fun v => field c.vcWeight (8 * v) 8 = 0) || rdLE e 12 4 ≠ 0)

/-- A HEM_TABLES block (R134). -/
def parseHem (b : List Byte) (p : PatParse) : PatParse :=
  let col (base w : Nat) := (List.range 16).map (fun i => rdLE b (base + 8 * i + w) 4)
  let t : AskucTables := ⟨col 0x40 0, col 0x40 4, col 0xC0 0, col 0xC0 4⟩
  let slots : KV (Nat × Nat) := (List.range 256).filterMap (fun i =>
    let o := 0x200 + 8 * i
    if rdLE b o 8 = 0 then none else some (i, (rdLE b o 4, rdLE b (o + 4) 1)))
  let segs := t.a.zip t.b ++ t.l.zip t.s
  { p with pat.hem := ⟨rdLE b 0 4, t, slots⟩ }.fail secHem
    (b.length ≠ 4096 || rdLE b 0 4 = 0 ||
     segs.any (fun x => x.1 > 65535 || x.2 = 0 || x.2 > 8191 || x.1 + x.2 * 4095 / 4096 > 65535) ||
     (List.range 256).any (fun i => rdLE b (0x200 + 8 * i + 5) 3 ≠ 0) ||
     slots.any (fun x => x.2.2 > 2 || (x.2.1 ≥ 0x7F800000 && x.2.1 ≠ 0x80000000)) ||
     !allZero ((b.drop 4).take 60) || !allZero ((b.drop 0x140).take 192) || !allZero ((b.drop 0xA00).take 1536))

/-- Route entries of 2 B that are not zero (R41). -/
def parseRoutes (s : List Byte) (n : Nat) : KV Nat :=
  (List.range n).filterMap (fun i =>
    let m := rdLE s (2 * i) 2
    if m = 0 then none else some (i, m))

/-- The content of a bay's block in each bay-scoped section, nothing where it is absent. -/
def bayBlock (fmt : Nat) (missing : List Nat) (sec : PatSec) (s : List Byte) (bay : Nat) : Option (List Byte) :=
  if fmt = 4 then
    let e := blockEntry s bay
    if e.2.1 = 0 || rangeMissing missing (sec.off + e.1) e.2.1 then none else some ((s.drop e.1).take e.2.1)
  else none

/-- Common part of a bay-scoped section. -/
def commonPart (fmt : Nat) (t : Nat) (s : List Byte) : List Byte := (s.drop (if fmt = 4 then 1728 else 0)).take (commonLen t)

/-- SPOOL_CARVE (R36); in format 3 the bank entries follow the common part in bank order (log 52, DESIGN CHOICE). -/
def parseCarve (fmt : Nat) (missing : List Nat) (sec : PatSec) (s : List Byte) (p : PatParse) : PatParse :=
  let c := commonPart fmt secCarve s
  let p := { p with pat.quarterShare := (List.range 4).map (fun i => rdLE c (4 * i) 4) }
  if fmt = 4 then
    (List.range 36).foldl (fun p b =>
      match bayBlock fmt missing sec s b with
      | none => p.fail secCarve ((blockEntry s b).2.1 = 0)
      | some blk => ((bayBanks b).zipIdx).foldl (fun p x => parseBank x.1 ((blk.drop (32 * x.2)).take 32) p) p) p
  else
    ((List.range 48).foldl (fun p k => parseBank k ((s.drop (16 + 32 * k)).take 32) p) p).fail secCarve (s.length ≠ 16 + 48 * 32)

/-- HEM_TABLES (R39): the blocks of bays 11 and 29 are equal (log 52, DESIGN CHOICE). -/
def parseHemSec (fmt : Nat) (missing : List Nat) (sec : PatSec) (s : List Byte) (p : PatParse) : PatParse :=
  if fmt = 4 then
    let a := bayBlock fmt missing sec s 11
    let b := bayBlock fmt missing sec s 29
    let p := match a.orElse (fun _ => b) with
      | some blk => parseHem blk p
      | none => p
    p.fail secHem ((match a, b with
      | some x, some y => decide (x ≠ y)
      | _, _ => false) || (blockEntry s 11).2.1 ≠ 4096 || (blockEntry s 29).2.1 ≠ 4096 ||
      (List.range 36).any (fun k => k ≠ 11 && k ≠ 29 && (blockEntry s k).2.1 ≠ 0))
  else (parseHem (s.take 4096) p).fail secHem (s.length ≠ 8192 || s.take 4096 ≠ s.drop 4096)

/-- Ports of a bay (Table 1-3). -/
def bayPorts (b : Nat) : List Nat := (List.range 16).filter (fun p => portBay p = b)

/-- SLUICE (R41, R44): a block holds its bay's port entry; a port that the image gives no entry is no ground to reject,
since one image can serve both variants and a Twiak-3S rejects an entry for ports 12 to 15 (log 52, DESIGN CHOICE). -/
def parseSluice (fmt : Nat) (missing : List Nat) (ports : Nat) (sec : PatSec) (s : List Byte) (p : PatParse) : PatParse :=
  let c := commonPart fmt secSluice s
  let chip := parseRoutes (c.drop 2048) 128
  let p := { p with pat.rackRoute := parseRoutes (c.take 2048) 1024, pat.chipRoute := chip }.fail secSluice
    ((KV.find chip 0).isSome || c.length ≠ 2304)
  if fmt = 4 then
    (List.range 36).foldl (fun p b =>
      match bayBlock fmt missing sec s b with
      | none => p
      | some blk => ((bayPorts b).zipIdx).foldl (fun p x => parsePort x.1 ((blk.drop (16 * x.2)).take 16) p)
          (p.fail secSluice ((bayPorts b).isEmpty || (bayPorts b).any (· ≥ ports)))) p
  else
    let n := (s.length - 2304) / 16
    let l := (List.range n).map (fun i => (s.drop (2304 + 16 * i)).take 16)
    let order := l.map (fun e => portBay (rdLE e 0 1))
    (l.foldl (fun p e => parsePort (rdLE e 0 1) e p) p).fail secSluice
      (s.length ≠ 2304 + 16 * n || l.any (fun e => rdLE e 0 1 ≥ ports) || !ascending order ||
       p.pat.ports.any (fun kc => kc.2.ovlMax > 3))

/-- A LAYER_SLOTS entry (Table 2-8). -/
def slotEntry (e : List Byte) : SlotCfg :=
  { mode := rdLE e 1 1, k := rdLE e 2 1, kp := rdLE e 3 1, alts := rdLE e 4 1, wireFmt := rdLE e 5 1, rowFmt := rdLE e 6 1
    dDiv := rdLE e 8 2, fDiv := rdLE e 10 2, panels := rdLE e 12 2, freeboard := rdLE e 14 2, rho := rdLE e 16 2
    rhidDiv := rdLE e 18 2, biasEta := BitVec.ofNat 32 (rdLE e 20 4), biasClamp := BitVec.ofNat 32 (rdLE e 24 4)
    wcBase := rdLE e 28 4, wcSize := rdLE e 32 4, ecCap := rdLE e 36 2 }

/-- LAYER_SLOTS (R37). -/
def parseSlots (s : List Byte) (p : PatParse) : PatParse :=
  let n := rdLE s 0 2
  let l := entriesOf s (min n 256) 64
  let nums := l.map (fun e => rdLE e 0 1)
  { p with pat.slots := l.foldl (fun m e => KV.put m (rdLE e 0 1) (slotEntry e)) p.pat.slots }.fail secSlots
    (n > 256 || s.length ≠ 16 + 64 * n || !allZero ((s.drop 2).take 14) || !nums.Nodup ||
     l.any (fun e => rdLE e 7 1 ≠ 0 || !allZero ((e.drop 38).take 26)))

/-- A panel entry (Table 2-9). -/
def panelEntry (e : List Byte) : Panel := ⟨rdLE e 0 2, rdLE e 2 2, rdLE e 8 8⟩

/-- One table of PANEL_MAP: its slot and its panels that are not all zero. -/
def panelTable (t : List Byte) : Nat × PanelMap :=
  (rdLE t 0 1, (List.range 256).filterMap (fun i =>
    let e := (t.drop (16 + 16 * i)).take 16
    if allZero e then none else some (i, panelEntry e)))

/-- PANEL_MAP (R38; log 52, DESIGN CHOICE). -/
def parsePanels (s : List Byte) (p : PatParse) : PatParse :=
  let n := s.length / 4112
  let l := (List.range n).map (fun i => (s.drop (4112 * i)).take 4112)
  { p with pat.panels := l.foldl (fun m t => let x := panelTable t; KV.put m x.1 x.2) p.pat.panels }.fail secPanels
    (s.length % 4112 ≠ 0 || !ascending (l.map (fun t => rdLE t 0 1)) ||
     l.any (fun t => rdLE t 1 1 ≠ 0 || rdLE t 2 2 > 256 || !allZero ((t.drop 4).take 12) ||
       (List.range 256).any (fun i => let o := 16 + 16 * i
        field (rdLE t o 2) 13 2 ≠ 0 || field (rdLE t (o + 2) 2) 13 2 ≠ 0 || rdLE t (o + 4) 4 ≠ 0)))

/-- Valid entries ascend, do not overlap and end within the period. -/
def tideOrdered (period : Nat) : Nat → List TideEntry → Bool
  | _, [] => true
  | from_, e :: t => if e.valid then e.len > 0 && from_ ≤ e.start && e.start + e.len ≤ period && tideOrdered period (e.start + e.len) t
      else tideOrdered period from_ t

/-- TIDE (R40; log 52, DESIGN CHOICE). -/
def parseTide (s : List Byte) (p : PatParse) : PatParse :=
  let n := rdLE s 2 2
  let l := (List.range (min n 1024)).map (fun i => (s.drop (8 + 8 * i)).take 8)
  let t := l.map (fun e => TideEntry.mk (rdLE e 0 2) (rdLE e 2 2) (rdLE e 4 1) (bit (rdLE e 5 1) 0))
  { p with pat.tidePeriod := rdLE s 0 2, pat.tide := t }.fail secTide
    (n > 1024 || s.length ≠ 8 + 8 * n || rdLE s 0 2 = 0 || rdLE s 0 2 > 10000 || rdLE s 4 4 ≠ 0 ||
     l.any (fun e => rdLE e 2 2 = 0 || rdLE e 5 1 > 1 || rdLE e 6 2 ≠ 0) || !tideOrdered (rdLE s 0 2) 0 t)

/-- A POLDER_TEMPLATES entry (Table 2-11). -/
def templateEntry (e : List Byte) : Template :=
  ⟨rdLE e 1 1, rdLE e 2 1, rdLE e 3 1, rdLE e 4 2, rdLE e 6 2, rdLE e 8 4, (List.range 8).map (fun i => rdLE e (12 + 4 * i) 4),
   rdLE e 44 8, rdLE e 52 2, rdLE e 54 1, rdLE e 55 1⟩

/-- POLDER_TEMPLATES (R42; log 52, DESIGN CHOICE). -/
def parseTemplates (s : List Byte) (p : PatParse) : PatParse :=
  let n := rdLE s 0 1
  let l := entriesOf s (min n 16) 64
  let t : KV Template := l.foldl (fun m e => KV.put m (rdLE e 0 1) (templateEntry e)) []
  { p with pat.templates := t }.fail secTemplates
    (n > 16 || s.length ≠ 16 + 64 * n || !allZero ((s.drop 1).take 15) || !(l.map (fun e => rdLE e 0 1)).Nodup ||
     l.any (fun e => rdLE e 0 1 > 15 || !allZero ((e.drop 56).take 8)) ||
     t.any (fun x => x.2.tclass > 1 || x.2.slotBase + x.2.slotCount > 256 || x.2.queueBase + x.2.queueCount > 8192 ||
       x.2.ringQuota = 0 || x.2.ringQuota > 1024 || x.2.prioCeil > 7 || x.2.tflags > 1))

/-! ### Consistency (R44) -/

/-- The trays of a TOPOLOGY. -/
def Topology.hasTray (t : Topology) (rack tray : Nat) : Bool := bit (KV.get 0 t.trayMask rack) tray

/-- Rack and tray of a PRIMARY or MIRROR field. -/
def panelAt (v : Nat) : Nat × Nat := (field v 3 10, field v 0 3)

/-- PRIMARY's VALID and MIRROR's MIRROR_VALID. -/
def Panel.valid (p : Panel) : Bool := bit p.primary 15
def Panel.mirrored (p : Panel) : Bool := p.valid && bit p.mirror 15

/-- Masks of active experts by tray, of primaries and mirrors together. -/
def PanelMap.hosted (m : PanelMap) : List ((Nat × Nat) × Nat) :=
  m.flatMap (fun kp => (if kp.2.valid then [(panelAt kp.2.primary, kp.2.active)] else []) ++
    (if kp.2.mirrored then [(panelAt kp.2.mirror, kp.2.active)] else []))

/-- No two masks of one tray share a bit. -/
def masksDisjoint : List ((Nat × Nat) × Nat) → Bool
  | [] => true
  | x :: t => t.all (fun y => x.1 ≠ y.1 || x.2 &&& y.2 == 0) && masksDisjoint t

/-- A slot's panel map is sound: trays of the job, mirrors off their primary's tray, one expert per chip and local
number, no tray both primary and mirror (R44). -/
def panelMapOk (t : Topology) (m : PanelMap) : Bool :=
  m.all (fun kp =>
    (!kp.2.valid || t.hasTray (panelAt kp.2.primary).1 (panelAt kp.2.primary).2) &&
    (!kp.2.mirrored || (t.hasTray (panelAt kp.2.mirror).1 (panelAt kp.2.mirror).2 && panelAt kp.2.mirror ≠ panelAt kp.2.primary))) &&
  masksDisjoint m.hosted &&
  !(m.any (fun a => a.2.valid && m.any (fun b => b.2.mirrored && panelAt b.2.mirror = panelAt a.2.primary)))

/-- Field ranges of a LAYER_SLOTS entry (Table 2-8, R60, R103, R182; log 25, DEDUCED). -/
def slotCfgOk (fmt : Nat) (c : SlotCfg) : Bool :=
  1 ≤ c.k && c.k ≤ 16 &&
  (if bit c.mode 0 then 1 ≤ c.kp && c.kp ≤ 4 && 1 ≤ c.panels && c.panels ≤ 256
   else c.kp == 0 && 1 ≤ c.panels && c.panels ≤ 16) &&
  c.alts ≤ 3 && c.wireFmt < 32 && c.wireFmt % 16 ≤ 8 && c.rowFmt ≤ 3 && 1 ≤ c.dDiv && c.dDiv ≤ 128 && 1 ≤ c.fDiv &&
  c.fDiv ≤ 1024 && 64 ≤ c.freeboard && c.freeboard ≤ 256 && c.rho ≤ 256 &&
  (if bit c.mode 6 then 1 ≤ c.rhidDiv && c.rhidDiv ≤ 64 else c.rhidDiv == 0) &&
  (if bit c.mode 1 then c.ecCap ≥ 1 else c.ecCap == 0) && (c.wcSize == 0 || c.wcBase + c.wcSize ≤ 12288) &&
  (fmt != 3 || (c.rho == 0 && c.wireFmt % 16 ≤ 2))

/-- Two slots lie in one template's range. -/
def sameTemplate (ts : KV Template) (a b : Nat) : Bool :=
  ts.any (fun t => let i := fun s => t.2.slotBase ≤ s && s < t.2.slotBase + t.2.slotCount; i a && i b)

/-- Queue entries in range; classes 0, 2 and 4 must hold a chunk of CHUNK (chapter 10, corner cases; log 25, DEDUCED). -/
def queueCfgOk (is3S : Bool) (chunk : Nat) (c : QueueCfg) : Bool :=
  c.qclass ≤ 6 && (c.quarter < (if is3S then 3 else 4) || c.quarter == 15) && c.minCells ≤ c.maxCells && 1 ≤ c.ctCells &&
  c.ctCells ≤ 64 && c.qflags ≤ 1 &&
  !((c.qclass == 0 || c.qclass == 2 || c.qclass == 4) && ceilDiv (64 + chunk) 512 > c.maxCells)

/-- The sections in which step 8 finds a fault (R44; log 25, DEDUCED; log 52, DESIGN CHOICE). -/
def patternFaults (is3S : Bool) (fmt : Nat) (p : Pattern) : List Nat :=
  let f (t : Nat) (c : Bool) : List Nat := if c then [t] else []
  let pool := (p.banks.map (fun b => b.2.pool)).sum
  let ts := p.templates
  f secQueues (p.queues.any (fun q => !queueCfgOk is3S p.topo.chunk q.2) ||
    (p.queues.map (fun q => q.2.minCells)).sum > pool) ++
  f secSlots (p.slots.any (fun s => !slotCfgOk fmt s.2) || (p.slots.map (fun s => s.2.wcSize)).sum > 12288 ||
    p.slots.any (fun a => p.slots.any (fun b => a.1 < b.1 && rangesMeet a.2.wcBase a.2.wcSize b.2.wcBase b.2.wcSize &&
      !sameTemplate ts a.1 b.1))) ++
  f secPanels (KV.keys p.panels != KV.keys p.slots || p.panels.any (fun m => !panelMapOk p.topo m.2)) ++
  f secHem (p.hem.slots.any (fun s => (KV.find p.slots s.1).isNone)) ++
  f secTide (p.tide.any (fun e => e.valid && (match KV.find ts (e.polder % 16) with
    | some t => t.tclass == 0
    | none => false))) ++
  f secTemplates (ts.any (fun a => ts.any (fun b => a.1 < b.1 &&
    rangesMeet a.2.queueBase a.2.queueCount b.2.queueBase b.2.queueCount)))

/-! ### Verification (R33) -/

/-- How an image came: a full Pattern locally or by broadcast, or a piece for a polder. -/
inductive PatPath where
  | full
  | piece (polder : Nat)
deriving DecidableEq, Repr

/-- The outcome of Table 2-4: an ERR with the failing section's index, or the Pattern and the bays left unconfigured. -/
inductive PatCheck where
  | err (code sec : Nat)
  | ok (p : Pattern) (bays : List Nat)

/-- Sections permitted (Table 2-3, Table 2-18). -/
def secPermitted (fmt : Nat) (piece : Bool) (t : Nat) : Bool :=
  if piece then t = secQueues || t = secSlots || t = secPanels || t = secSignature
  else (1 ≤ t && t ≤ 9 && (t ≠ secTide || fmt = 4)) || t = secSignature

/-- Step 3 of Table 2-4: the first section with a layout fault, 0xFF where the image itself has one (log 25, DEDUCED;
log 52, DESIGN CHOICE). -/
def layoutFault (img : List Byte) (piece : Bool) (secs : List PatSec) : Option Nat :=
  let fmt := rdLE img 4 2
  let len := rdLE img 8 4
  let n := rdLE img 12 2
  if len ≠ img.length || len % 64 ≠ 0 || len = 0 || len > 16777216 || n < 2 || n > 10 || 64 + 48 * n > len then some 255
  else
    let ends := (64 + 48 * n) :: secs.map (fun s => s.off + s.len)
    let bad := (secs.zip ends).find? (fun x =>
      let s := x.1
      let order := s.idx > 0 && (match secs[s.idx - 1]? with
        | some b => b.stype ≥ s.stype
        | none => true)
      let last := decide (s.idx + 1 = n)
      !secPermitted fmt piece s.stype || order || s.sver ≠ 1 || s.off % 64 ≠ 0 || s.off < x.2 || s.off + s.len > len ||
      (last != (s.stype == secSignature)) || (s.stype == secSignature && (s.len ≠ 128 || !allZero s.digest)) ||
      (bayScoped s.stype && fmt = 4 && (s.len < 1728 + commonLen s.stype || (List.range 36).any (fun b =>
        let e := blockEntry (s.bytes img) b
        e.2.1 % 4096 ≠ 0 || (e.2.1 ≠ 0 && ((s.off + e.1) % 4096 ≠ 0 || e.1 + e.2.1 > s.len || e.1 < 1728 + commonLen s.stype))))))
    match bad with
    | some x => some x.1.idx
    | none =>
      if !piece && [1, 2, 3, 4, 5, 6, 8, 9].any (fun t => !secs.any (fun s => s.stype == t)) then some 255 else none

/-- Step 6: the first section whose digest, or whose present block's digest, fails (log 25, DEDUCED). -/
def digestFault (img : List Byte) (missing : List Nat) (secs : List PatSec) : Option Nat :=
  let fmt := rdLE img 4 2
  let covered (s : PatSec) : List Byte :=
    let b := s.bytes img
    if bayScoped s.stype && fmt = 4 then b.take (1728 + commonLen s.stype) else b
  let content := secs.filter (fun s => s.stype != secSignature)
  match content.find? (fun s => sha256 (covered s) != s.digest) with
  | some s => some s.idx
  | none =>
    ((blockRanges img).find? (fun r =>
      !rangeMissing missing r.2.2.1 r.2.2.2 &&
      sha256 ((img.drop r.2.2.1).take r.2.2.2) != (blockEntry (r.1.bytes img) r.2.1).2.2)).map (·.1.idx)

/-- Parses every section of an image (log 25, DEDUCED). -/
def parseImage (img : List Byte) (missing : List Nat) (ports : Nat) (secs : List PatSec) (start : PatParse) : PatParse :=
  let fmt := rdLE img 4 2
  secs.foldl (fun p sec =>
    let s := sec.bytes img
    match sec.stype with
    | 1 => parseTopology s p
    | 2 => parseQueues s p
    | 3 => parseCarve fmt missing sec s p
    | 4 => parseSlots s p
    | 5 => parsePanels s p
    | 6 => parseHemSec fmt missing sec s p
    | 7 => parseTide s p
    | 8 => parseSluice fmt missing ports sec s p
    | 9 => parseTemplates s p
    | _ => p) start

/-- Entries of a piece outside its template's ranges (R53; log 25, DEDUCED). -/
def pieceFaults (t : Template) (q : Pattern) : List Nat :=
  let slotIn (s : Nat) := t.slotBase ≤ s && s < t.slotBase + t.slotCount
  (if q.queues.any (fun e => e.1 < t.queueBase || e.1 ≥ t.queueBase + t.queueCount) then [secQueues] else []) ++
  (if q.slots.any (fun e => !slotIn e.1) then [secSlots] else []) ++
  (if q.panels.any (fun e => !slotIn e.1) then [secPanels] else [])

/-- A Pattern with the bay-scoped blocks of one bay taken from another image (R57). -/
def Pattern.withBay (p q : Pattern) (b : Nat) : Pattern :=
  { p with
    banks := (bayBanks b).foldl (fun m k => match KV.find q.banks k with
      | some c => KV.put m k c
      | none => m) p.banks
    ports := (bayPorts b).foldl (fun m k => match KV.find q.ports k with
      | some c => KV.put m k c
      | none => m) p.ports
    hem := if b = 11 || b = 29 then q.hem else p.hem }

/-- The full Pattern with a piece's entries in place (R54). -/
def Pattern.withPiece (p : Pattern) (q : PatternPiece) : Pattern :=
  { p with
    queues := q.queues.foldl (fun m e => KV.put m e.1 e.2) p.queues
    slots := q.slots.foldl (fun m e => KV.put m e.1 e.2) p.slots
    panels := q.panels.foldl (fun m e => KV.put m e.1 e.2) p.panels }

/-- Steps 6 to 8 of Table 2-4, after the signature; `base` is the Pattern that a piece joins (log 25, DEDUCED). -/
def Eng.verifyContent (e : Eng) (path : PatPath) (base : Option Pattern) (img : List Byte) (missing : List Nat) : PatCheck :=
  let fmt := rdLE img 4 2
  let secs := patSections img
  match digestFault img missing secs with
  | some s => .err 0x06 s
  | none =>
    if e.boot.variant > 1 || !bit (rdLE img 24 1) e.boot.variant then .err 0x07 255
    else
      let own := parseImage img missing e.portCount secs {}
      let idx (l : List Nat) : Nat := ((secs.find? (fun s => l.contains s.stype)).map (·.idx)).getD 255
      let header := rdLE img 14 2 > 1 || rdLE img 24 1 > 3 || !allZero ((img.drop 27).take 37)
      let done (p : Pattern) (bad : List Nat) : PatCheck :=
        if header then .err 0x08 255
        else if !bad.isEmpty then .err 0x08 (idx bad)
        else if !e.poolsValid then .err 0x08 255
        else .ok p (baysMissing img missing)
      let p := { own.pat with patternId := rdLE img 16 8, major := fmt, minor := rdLE img 6 2 }
      match path with
      | .full => if rdLE img 25 1 ≠ 0 then .err 0x08 255 else done p (own.bad ++ patternFaults e.is3S fmt p)
      | .piece polder =>
        match base, e.template polder with
        | some b, some t =>
          if rdLE img 25 1 ≠ polder then .err 0x08 255
          else done p (own.bad ++ pieceFaults t p ++
            (if p.slots.any (fun s => !slotCfgOk fmt s.2) then [secSlots] else []) ++
            patternFaults e.is3S 4 (b.withPiece ⟨p.slots, p.panels, p.queues⟩))
        | _, _ => .err 0x08 255

/-- Step 5 of Table 2-4: the signature over header and descriptor table (R32). -/
def signedBy (k : KeySlot) (img : List Byte) : Bool :=
  let secs := patSections img
  edVerify k.key (img.take (64 + 48 * secs.length)) (match secs.getLast? with
    | some s => (s.bytes img).take 64
    | none => [])

/-- Verification of Table 2-4 with the engine's keys, variant and pools; `base` is the Pattern that a piece joins
(log 25, DEDUCED). -/
def Eng.verifyImage (e : Eng) (path : PatPath) (base : Option Pattern) (img : List Byte) (missing : List Nat) : PatCheck :=
  let fmt := rdLE img 4 2
  let minor := rdLE img 6 2
  let piece := path != .full
  if rdLE img 0 4 ≠ 0x444C484B then .err 0x01 255
  else if !((fmt = 3 && minor ≤ 1) || (fmt = 4 && minor = 0)) || bit (rdLE img 14 2) 0 != piece then .err 0x02 255
  else
    match layoutFault img piece (patSections img) with
    | some s => .err 0x03 s
    | none =>
      match e.boot.keys[rdLE img 26 1]? with
      | none => .err 0x04 255
      | some k =>
        if !k.occupied || k.revoked then .err 0x04 255
        else if !signedBy k img then .err 0x05 255
        else e.verifyContent path base img missing

/-- The kept copy checked again by steps 5 to 8 of Table 2-4 (R57); a key slot revoked since is KEY_INVALID (corner cases of
chapter 2), a header that names no occupied slot carries no valid signature (log 48, DEDUCED). -/
def Eng.verifyKept (e : Eng) (img : List Byte) (missing : List Nat) : PatCheck :=
  match e.boot.keys[rdLE img 26 1]? with
  | none => .err 0x05 255
  | some k =>
    if k.occupied && k.revoked then .err 0x04 255
    else if !k.occupied || !signedBy k img then .err 0x05 255
    else e.verifyContent .full none img missing

end Sys2Proof.Machine
end

