-- ==== Sys2Proof/Machine/Scoring.lean ====
section
/-! DEFINITION. Scoring and selection: router weight images (R97 to R100), row preparation and logits (R90 to R106,
R128), row classes, ranking, the tiled softmax and preference lists (R140 to R148), SCORE records (R155). -/

namespace Sys2Proof.Machine

/-! ### Weight images -/

/-- Router weight image header (Table 4-3). -/
structure WImg where
  gen : Nat
  wfmt : Nat
  form : Nat
  dDiv : Nat
  panels : Nat
  rhidDiv : Nat
  offHidden : Nat
  offPanel : Nat
  offExpert : Nat
  stride : Nat
deriving DecidableEq, Repr

/-- Reads a header. -/
def WImg.ofBytes (l : List Byte) : WImg :=
  ⟨rdLE l 0 4, rdLE l 4 1, rdLE l 5 1, rdLE l 6 2, rdLE l 8 2, rdLE l 10 2, rdLE l 16 8, rdLE l 24 8, rdLE l 32 8, rdLE l 40 8⟩

/-- Mode bits of a slot (Table 2-8). -/
def SlotCfg.hier (c : SlotCfg) : Bool := bit c.mode 0
def SlotCfg.expertChoice (c : SlotCfg) : Bool := bit c.mode 1
def SlotCfg.askuc (c : SlotCfg) : Bool := bit c.mode 2
def SlotCfg.renorm (c : SlotCfg) : Bool := bit c.mode 3
def SlotCfg.rotated (c : SlotCfg) : Bool := bit c.mode 4
def SlotCfg.sigmoid (c : SlotCfg) : Bool := bit c.mode 5
def SlotCfg.twoLayer (c : SlotCfg) : Bool := bit c.mode 6
def SlotCfg.biased (c : SlotCfg) : Bool := bit c.mode 7
/-- Model width d and router hidden width H. -/
def SlotCfg.d (c : SlotCfg) : Nat := c.dDiv * 256
def SlotCfg.h (c : SlotCfg) : Nat := c.rhidDiv * 64
/-- Bytes of a token row. -/
def SlotCfg.rowBytes (c : SlotCfg) : Nat := Machine.rowBytes c.rowFmt c.d
/-- Tokens of a tile (R110). -/
def SlotCfg.tile (c : SlotCfg) : Nat := if c.dDiv > 64 then 32 else 64
/-- Entries of a preference list at most. -/
def SlotCfg.listLen (c : SlotCfg) : Nat := c.k + c.alts
/-- Pmax (R170). -/
def SlotCfg.pmax (c : SlotCfg) : Nat := if c.expertChoice then c.k + c.alts else c.k

/-- The header's fields match the slot; an ASKUC slot uses WFMT 0 (R92, R97; log 63, DESIGN CHOICE). -/
def WImg.fits (h : WImg) (c : SlotCfg) : Bool :=
  h.wfmt ≤ 4 && h.form == c.twoLayer.toNat && h.dDiv == c.dDiv && h.panels == c.panels && h.rhidDiv == c.rhidDiv &&
  (!c.askuc || h.wfmt == 0)

/-- The first offset or stride that is not 64 B aligned (R97, R99). -/
def WImg.misaligned (h : WImg) : Option Nat := [h.offHidden, h.offPanel, h.offExpert, h.stride].find? (fun x => x % 64 != 0)

/-- Inputs of the panel and expert matrices, and bytes of their rows (R98). -/
def stageInputs (c : SlotCfg) : Nat := if c.twoLayer then c.h else c.d
def stageRowBytes (c : SlotCfg) (wfmt : Nat) : Nat := weightRowBytes wfmt (stageInputs c)

/-- Offsets and lengths of the every-token part (R99), in the order of the cached copy. -/
def everyTokenParts (c : SlotCfg) (h : WImg) : List (Nat × Nat) :=
  (if c.twoLayer then [(h.offHidden, 2 * c.h * weightRowBytes h.wfmt c.d)] else []) ++
  (if c.hier then [(h.offPanel, c.panels * stageRowBytes c h.wfmt)]
   else (List.range c.panels).map (fun p => (h.offExpert + p * h.stride, 64 * stageRowBytes c h.wfmt)))

/-- Size of the every-token part. -/
def everyTokenSize (c : SlotCfg) (h : WImg) : Nat := ((everyTokenParts c h).map (·.2)).sum

/-- RESULT of a BIND (R99; log 63, DESIGN CHOICE). -/
def Eng.bindCheck (m : Mem) (e : Eng) (slot addr : Nat) : Nat :=
  match KV.find e.slotCfg slot with
  | none => stBad
  | some c =>
    if addr % 64 ≠ 0 then stAlign
    else
      let h := WImg.ofBytes (e.rd m addr 64)
      if !h.fits c then stBad
      else if h.misaligned.isSome then stAlign
      else if h.stride % 4096 ≠ 0 then stBad
      else if everyTokenSize c h > c.wcSize * 4096 then stQuota
      else stOk

/-- Whether two slots' allocations in the weight cache share a place. -/
def SlotCfg.shares (a b : SlotCfg) : Bool := rangesMeet a.wcBase a.wcSize b.wcBase b.wcSize

/-- Loads the every-token part of a bound slot into the weight cache at its WC_BASE and records its GEN (R99, R100); a copy of
another slot that shared the place is there no more (log 54, DESIGN CHOICE). -/
def Eng.fillCache (m : Mem) (slot : Nat) (e : Eng) : Eng :=
  match KV.find e.slotCfg slot with
  | none => e
  | some c =>
    let a := (e.lslot slot).boundAddr
    let h := WImg.ofBytes (e.rd m a 64)
    let bytes := (everyTokenParts c h).flatMap (fun p => e.rd m (a + p.1) p.2)
    let base := c.wcBase * 4096
    let gone (k : Nat) : Bool := k != slot && (match KV.find e.slotCfg k with
      | some d => c.shares d
      | none => false)
    let e := { e with
      wcache := KV.put (e.wcache.filter (fun kv => !rangesMeet base bytes.length kv.1 kv.2.length)) base bytes
      lslots := e.lslots.map (fun (kl : Nat × LSlot) => (kl.1, if gone kl.1 then { kl.2 with cached := false } else kl.2)) }
    (e.setLslot slot (fun l => { l with cached := true, loading := false, wgen := h.gen, wfmt := h.wfmt })).accSlot slot (64 + bytes.length)

/-- Whether a lost slice of 8 MiB holds part of a slot's allocation (R107). -/
def Eng.sliceLost (e : Eng) (c : SlotCfg) : Bool :=
  (List.range 6).any (fun k => !e.slicePresent k && rangesMeet c.wcBase c.wcSize (2048 * k) 2048)

/-! ### Rows and logits -/

/-- What scoring on a slot uses: configuration, Hem set, normalisation, image, its address, the every-token part, and what the
tables have put out for the command. -/
structure ScoreCtx where
  cfg : SlotCfg
  hem : HemSet
  norm : Nat
  eps : F32
  img : WImg
  base : Nat
  part : List Byte
  pmap : PanelMap
  rho : Nat
  bias : Option Nat
  outs : List (PassJob × KV (List F32)) := []
deriving DecidableEq, Repr

/-- Hem set of a slot (R131). -/
def Eng.hemSet (e : Eng) (c : SlotCfg) : HemSet :=
  if c.askuc then .askuc (match e.pat with
    | some p => p.hem.tables
    | none => {}) else .native

/-- EPS and NORM of a slot (R134). -/
def Eng.normOf (e : Eng) (slot : Nat) : F32 × Nat :=
  let x := match e.pat with
    | some p => KV.get (0, 0) p.hem.slots slot
    | none => (0, 0)
  (BitVec.ofNat 32 x.1, x.2)

/-- The every-token part as the tables read it: from the weight cache, or from HBM where a slice of the slot's allocation is
lost (R107). -/
def Eng.everyTokenPart (m : Mem) (e : Eng) (c : SlotCfg) (h : WImg) (slot : Nat) : List Byte :=
  let l := e.lslot slot
  if l.cached && !e.sliceLost c then KV.get [] e.wcache (c.wcBase * 4096)
  else (everyTokenParts c h).flatMap (fun p => e.rd m (l.boundAddr + p.1) p.2)

/-- The scoring context of a command on its slot; the bias acts in consent-class slots only (R154). -/
def Eng.scoreCtx (m : Mem) (e : Eng) (c : Cmd) (cfg : SlotCfg) : ScoreCtx :=
  let l := e.lslot c.d.slot
  let h := WImg.ofBytes (e.rd m l.boundAddr 64)
  let ne := e.normOf c.d.slot
  let consent := !e.reservedClass c.polder
  { cfg := cfg, hem := e.hemSet cfg, norm := ne.2, eps := ne.1, img := h, base := l.boundAddr
    part := e.everyTokenPart m cfg h c.d.slot
    pmap := KV.get [] e.panelMaps c.d.slot
    rho := if cfg.rotated then rotationKey c.seed c.d.slot c.d.step else 0
    bias := if cfg.biased && consent && l.bias ≠ 0 then some l.bias else none
    outs := e.outs.filter (fun o => o.1.cmd == c.id) }

/-- A row of the every-token part: W_a and W_b rows, then the panel matrix or the expert blocks. -/
def ScoreCtx.row (x : ScoreCtx) (off inputs : Nat) : Operand :=
  weightRow x.img.wfmt inputs ((x.part.drop off).take (weightRowBytes x.img.wfmt inputs))

/-- Offset of the stage matrices in the every-token part. -/
def ScoreCtx.stageOff (x : ScoreCtx) : Nat := if x.cfg.twoLayer then 2 * x.cfg.h * weightRowBytes x.img.wfmt x.cfg.d else 0

/-- Row of W_a (i < H) or W_b (i − H). -/
def ScoreCtx.hiddenRow (x : ScoreCtx) (i : Nat) : Operand := x.row (i * weightRowBytes x.img.wfmt x.cfg.d) x.cfg.d

/-- Row i of the panel matrix. -/
def ScoreCtx.panelRow (x : ScoreCtx) (i : Nat) : Operand :=
  x.row (x.stageOff + i * stageRowBytes x.cfg x.img.wfmt) (stageInputs x.cfg)

/-- Row s of panel p's expert block: streamed from HBM when hierarchical, cached when flat (R105, R106). -/
def ScoreCtx.expertRow (x : ScoreCtx) (rd : Nat → Nat → List Byte) (p s : Nat) : Operand :=
  let rb := stageRowBytes x.cfg x.img.wfmt
  if x.cfg.hier then weightRow x.img.wfmt (stageInputs x.cfg) (rd (x.base + x.img.offExpert + p * x.img.stride + s * rb) rb)
  else x.row (x.stageOff + (p * 64 + s) * rb) (stageInputs x.cfg)

/-- One logit of the slot (R92). -/
def ScoreCtx.dot (x : ScoreCtx) (w o : Operand) : F32 := logit x.cfg.askuc x.img.wfmt w o

/-- Output `i` of a stage for token `t`: from the output taps where its pass has run, else computed in the same order
(R92; log 54, DESIGN CHOICE). -/
def ScoreCtx.out (x : ScoreCtx) (stage i t : Nat) (w o : Operand) : F32 :=
  match (x.outs.find? (fun p => p.1.stage == stage && p.1.block == i / 64 && (KV.find p.2 t).isSome)).bind
      (fun p => (KV.get [] p.2 t)[i % 64]?) with
  | some z => z
  | none => x.dot w o

/-- The prepared row (R128) of a token: the hidden values a and b, and the operand of the stages (R103). -/
structure Prepared where
  xhat : List F32
  a : List F32 := []
  b : List F32 := []
  x : Operand
  op : Operand
  clamped : Nat
  nonfinite : Bool
deriving DecidableEq, Repr

/-- Prepares the row of token `t`. -/
def ScoreCtx.prepare (x : ScoreCtx) (t : Nat) (row : List Byte) : Prepared :=
  let v := unpackRow x.cfg.rowFmt x.cfg.d row
  let n := hemNormalise x.hem x.norm x.eps v
  let o := toOperand x.img.wfmt n.row
  if x.cfg.twoLayer then
    let a := (List.range x.cfg.h).map (fun i => x.out 0 i t (x.hiddenRow i) o)
    let b := (List.range x.cfg.h).map (fun i => x.out 0 (x.cfg.h + i) t (x.hiddenRow (x.cfg.h + i)) o)
    let g := (a.zip b).map (fun p => x.hem.gate p.1 p.2)
    { xhat := n.row, a := a, b := b, x := o, op := toOperandV x.img.wfmt g, clamped := n.clamped, nonfinite := n.nonfinite }
  else { xhat := n.row, x := o, op := o, clamped := n.clamped, nonfinite := n.nonfinite }

/-- A panel of the map, all zero where it is not listed. -/
def PanelMap.panel (m : PanelMap) (p : Nat) : Panel := KV.get ⟨0, 0, 0⟩ m p

/-- Panel logits after masking (R104, R140). -/
def ScoreCtx.panelLogits (x : ScoreCtx) (t : Nat) (o : Operand) : List F32 :=
  (List.range x.cfg.panels).map (fun p =>
    let q := x.pmap.panel p
    if q.valid && q.active ≠ 0 then x.out 1 p t (x.panelRow p) o else fNegInf)

/-- Expert logits of a panel after masking (R140). -/
def ScoreCtx.expertLogits (x : ScoreCtx) (rd : Nat → Nat → List Byte) (t : Nat) (o : Operand) (p : Nat) : List F32 :=
  let q := x.pmap.panel p
  (List.range 64).map (fun s =>
    if bit q.active s && (x.cfg.hier || q.valid) then x.out (if x.cfg.hier then 2 else 1) (p * 64 + s) t (x.expertRow rd p s) o
    else fNegInf)

/-! ### Selection -/

/-- A candidate: ID, logit, key and the value e or p under way. -/
structure Cand where
  id : Nat
  logit : F32
  key : F32
  e : F32 := fZero
deriving DecidableEq, Repr

/-- Rank of candidates (R144): whether `a` comes before `b`; IDs are compared after XOR with `rho`. -/
def Cand.before (rho : Nat) (a b : Cand) : Bool :=
  let ia := a.logit == fInf
  let ib := b.logit == fInf
  if ia != ib then ia
  else if ordKey a.key ≠ ordKey b.key then ordKey a.key > ordKey b.key
  else (a.id ^^^ rho) < (b.id ^^^ rho)

/-- Ranks candidates, the best first. -/
def rankCands (rho : Nat) (l : List Cand) : List Cand := sortBy (fun a b => !Cand.before rho b a) l

/-- The panels picked, ascending (R145). -/
def ScoreCtx.pick (x : ScoreCtx) (z : List F32) : List Nat :=
  let c := (z.zipIdx.map (fun p => Cand.mk p.2 p.1 p.1 fZero)).filter (fun c => c.logit != fNegInf)
  sortBy (fun a b => a ≤ b) (((rankCands (x.rho / 64) c).take x.cfg.kp).map (·.id))

/-- Bias of an expert (R152). -/
def ScoreCtx.biasOf (x : ScoreCtx) (rd : Nat → Nat → List Byte) (ex : Nat) : F32 :=
  match x.bias with
  | some a => BitVec.ofNat 32 (leNat (rd (a + 4 * ex) 4))
  | none => fZero

/-- Selection key of an expert (R142). -/
def ScoreCtx.key (x : ScoreCtx) (rd : Nat → Nat → List Byte) (ex : Nat) (z : F32) : F32 :=
  fadd (if x.cfg.sigmoid then x.hem.sigmoid z else z) (x.biasOf rd ex)

/-- State of the tiled recurrence (R146): running maximum and sum, retained list, and every finite used entry's e. -/
structure Softmax where
  m : F32 := fNegInf
  s : F32 := fZero
  keep : List Cand := []
  all : List (Nat × F32) := []
deriving DecidableEq, Repr

/-- The rise of the maximum at a tile. -/
def Softmax.rise (h : HemSet) (mt : F32) (a : Softmax) : Softmax :=
  if flt a.m mt then
    if a.m != fNegInf then
      let g := h.exp (fsub a.m mt)
      { a with m := mt, s := fmul a.s g, keep := a.keep.map (fun c => { c with e := fmul c.e g })
               all := a.all.map (fun p => (p.1, fmul p.2 g)) }
    else { a with m := mt }
  else a

/-- One tile of the recurrence: candidates in ascending expert ID. -/
def Softmax.tile (h : HemSet) (rho n : Nat) (a : Softmax) (t : List Cand) : Softmax :=
  let fin := t.filter (fun c => isFin c.logit)
  let mt := fin.foldl (fun x c => fmax x c.logit) fNegInf
  let a := a.rise h mt
  let es := fin.map (fun c => { c with e := h.exp (fsub c.logit a.m) })
  { a with
    s := es.foldl (fun s c => fadd s c.e) a.s
    keep := (rankCands rho (a.keep ++ es)).take n
    all := a.all ++ es.map (fun c => (c.id, c.e)) }

/-- e over the sum (R146). -/
def Softmax.prob (h : HemSet) (s e : F32) : F32 := if h.isAskuc then fmul e (h.recip s) else fdiv e s

/-- Retained entries with their probabilities, and the probability of used experts (one that is not listed has +0), for a row
of finite and infinite logits (R141, R146, R147). -/
def ScoreCtx.probabilities (x : ScoreCtx) (tiles : List (List Cand)) : List Cand × List (Nat × F32) :=
  let used := tiles.flatten
  let n := x.cfg.listLen
  let infs := (used.filter (fun c => c.logit == fInf)).length
  if infs > 0 then
    let p := fdiv fOne (fofNat infs)
    let val (c : Cand) : F32 := if c.logit == fInf then p else fZero
    (((rankCands x.rho used).take n).map (fun c => { c with e := val c }), used.map (fun c => (c.id, val c)))
  else if x.cfg.sigmoid then
    let live := (used.filter (fun c => c.logit != fNegInf)).map (fun c => { c with e := x.hem.sigmoid c.logit })
    ((rankCands x.rho live).take n, live.map (fun c => (c.id, c.e)))
  else
    let a := tiles.foldl (fun a t => a.tile x.hem x.rho n t) ({} : Softmax)
    (a.keep.map (fun c => { c with e := Softmax.prob x.hem a.s c.e }), a.all.map (fun p => (p.1, Softmax.prob x.hem a.s p.2)))

/-- RFLAGS bits of a row (Table 6-3). -/
def rfMasked : Nat := 1
def rfNumeric : Nat := 2
def rfInf : Nat := 4
def rfFew : Nat := 8

/-- A row with no preference list. -/
def emptyRow (fl : Nat) (z : List F32) (panels : List Nat) (p : Option Prepared) : TokSel :=
  { rflags := fl, logits := z, panels := panels, a := (p.map (·.a)).getD [], b := (p.map (·.b)).getD []
    nonfinite := (p.map (·.nonfinite)).getD false, clamped := (p.map (·.clamped)).getD 0 }

/-- Classifies a row and forms its preference list (R141 to R148). -/
def ScoreCtx.finish (x : ScoreCtx) (rd : Nat → Nat → List Byte) (p : Prepared) (z : List F32) (panels : List Nat)
    (tiles : List (Nat × List F32)) : TokSel :=
  let used := tiles.flatMap (·.2)
  if used.any isNaN then emptyRow rfNumeric z panels (some p)
  else if used.all (· == fNegInf) then emptyRow rfMasked z panels (some p)
  else
    let cands := tiles.map (fun t => t.2.zipIdx.map (fun v =>
      { id := t.1 * 64 + v.2, logit := v.1, key := x.key rd (t.1 * 64 + v.2) v.1 : Cand }))
    let (keep, probs) := x.probabilities cands
    let list := keep.filter (fun c => !fisZero c.e)
    let choices := min x.cfg.k list.length
    { rflags := (if used.any (· == fInf) then rfInf else 0) + (if choices < x.cfg.k then rfFew else 0)
      choices := choices
      prefs := list.map (fun c => ⟨c.id, if c.logit == fInf then 0xFFFFFFFF else ordKey c.key, c.e⟩)
      panels := panels
      probs := probs
      logits := z
      a := p.a
      b := p.b
      zeroWeight := keep.length - list.length
      nonfinite := p.nonfinite
      clamped := p.clamped }

/-- Selects one token whose row was read (R140 to R148). -/
def ScoreCtx.select (x : ScoreCtx) (rd : Nat → Nat → List Byte) (t : Nat) (row : List Byte) : TokSel :=
  let p := x.prepare t row
  if x.cfg.hier then
    let z := x.panelLogits t p.op
    if z.any isNaN then emptyRow rfNumeric z [] (some p)
    else
      let panels := x.pick z
      if panels.isEmpty then emptyRow rfMasked z [] (some p)
      else x.finish rd p z panels (panels.map (fun q => (q, x.expertLogits rd t p.op q)))
  else
    let tiles := (List.range x.cfg.panels).map (fun q => (q, x.expertLogits rd t p.op q))
    x.finish rd p (tiles.flatMap (·.2)) [] tiles

/-- Whether a position of the kind-0 record is masked by the panel map (R140). -/
def ScoreCtx.maskedAt (x : ScoreCtx) (i : Nat) : Bool :=
  if x.cfg.hier then let q := x.pmap.panel i; !(q.valid && q.active != 0)
  else let q := x.pmap.panel (i / 64); !(q.valid && bit q.active (i % 64))

/-- Positions of the kind-0 record. -/
def ScoreCtx.positions (x : ScoreCtx) : Nat := if x.cfg.hier then x.cfg.panels else 64 * x.cfg.panels

/-- Selects one token: masked by the command, unreadable, or scored (R115, R140). -/
def ScoreCtx.token (x : ScoreCtx) (rd : Nat → Nat → List Byte) (rows mask : Nat) (bad : List Nat) (t : Nat) : TokSel :=
  if mask ≠ 0 && bit (leNat (rd (mask + t / 8) 1)) (t % 8) then
    emptyRow rfMasked (List.replicate x.positions fNegInf) [] none
  else if bad.contains t then
    emptyRow rfNumeric ((List.range x.positions).map (fun i => if x.maskedAt i then fNegInf else qNaN)) [] none
  else x.select rd t (rd (rows + t * x.cfg.rowBytes) x.cfg.rowBytes)

/-! ### SCORE records (R155) -/

def f32Bytes (x : F32) : List Byte := leBytes 4 x.toNat

/-- Kind-1 probabilities of a row in a panel's or block's order. -/
def probsOf (t : TokSel) (p : Nat) : List Byte :=
  (List.range 64).flatMap (fun s => f32Bytes (((t.probs.find? (fun e => e.1 == p * 64 + s)).map (·.2)).getD fZero))

/-- RSIZE of a kind (Table 6-2). -/
def scoreSize (c : SlotCfg) (kind : Nat) : Nat :=
  match kind with
  | 0 => if c.hier then 64 * ceilDiv c.panels 16 else 256 * c.panels
  | 1 => if c.hier then 64 + 256 * c.kp else 256 * c.panels
  | _ => 64 * ceilDiv (1 + c.k + c.alts) 8

/-- One SCORE record. -/
def scoreRecord (c : SlotCfg) (kind : Nat) (t : TokSel) : List Byte :=
  fitTo (scoreSize c kind) (match kind with
    | 0 => t.logits.flatMap f32Bytes
    | 1 =>
      if bit t.rflags 0 || bit t.rflags 1 then []
      else if c.hier then
        fitTo 64 (leBytes 1 t.panels.length ++ zeros 1 ++ t.panels.flatMap (fun p => leBytes 2 p)) ++ t.panels.flatMap (probsOf t)
      else (List.range c.panels).flatMap (probsOf t)
    | _ =>
      leBytes 1 t.prefs.length ++ leBytes 1 t.rflags ++ leBytes 1 t.choices ++ zeros 5 ++
      t.prefs.zipIdx.flatMap (fun p => leBytes 2 p.1.expert ++ leBytes 1 p.2 ++ zeros 1 ++ f32Bytes p.1.prob))

/-! ### Counters and events of rows (R129, R141, R148, R157) -/

/-- Counts one selected row. -/
def Eng.countRow (t : TokSel) (e : Eng) : Eng :=
  let e := if bit t.rflags 0 then e.bump32 Reg.selMaskedRow 1 else e
  let e := if bit t.rflags 1 then e.bump32 Reg.selNumericRow 1 else e
  let e := if bit t.rflags 2 then e.bump32 Reg.selInfRow 1 else e
  let e := if t.zeroWeight > 0 then e.bump32 Reg.selZeroWeight t.zeroWeight else e
  let e := if t.clamped > 0 then e.bump32 Reg.hemClamped t.clamped else e
  if t.nonfinite then e.bump32 Reg.hemNonfinite 1 else e

/-- The row events of one token: code and condition. -/
def rowEvents (bad : Bool) (t : TokSel) : List Nat :=
  (if bad then [0x0223] else []) ++ (if t.nonfinite then [0x0330] else []) ++ (if bit t.rflags 1 then [0x0340] else []) ++
  (if bit t.rflags 2 then [0x0341] else [])

/-- Raises the row events of a token that its command has not raised yet; answers those raised so far. -/
def Eng.raiseRow (c : Cmd) (cfg : SlotCfg) (tok : Nat) (bad : Bool) (t : TokSel) (raised : List Nat) (e : Eng) : List Nat × Eng :=
  (rowEvents bad t).foldl (fun (acc : List Nat × Eng) code =>
    if acc.1.contains code then acc
    else
      let arg := if code = 0x0223 then c.d.a + tok * cfg.rowBytes else arg3 c.d.slot tok
      (acc.1 ++ [code], acc.2.raise code arg (some c.polder) c.d.tag)) (raised, e)

/-- Scores rows of a command: what they are, the row events raised so far, and the engine with rows counted (R115, R146); a row
that could not be read is a contribution dropped (R340). -/
def Eng.scoreRows (m : Mem) (c : Cmd) (cfg : SlotCfg) (toks raised : List Nat) (e : Eng) : List (Nat × TokSel) × List Nat × Eng :=
  let x := e.scoreCtx m c cfg
  let sel := toks.map (fun t => (t, x.token (fun a n => e.rd m a n) c.d.a c.d.c c.badRows t))
  let e := ((e.accHbm c.polder (toks.length * cfg.rowBytes)).accWeights c.polder).accTime c.polder
  let e := sel.foldl (fun (e : Eng) p => if c.badRows.contains p.1 then (e.countRow p.2).voidPromise else e.countRow p.2) e
  (sel, sel.foldl (fun (acc : List Nat × Eng) p => acc.2.raiseRow c cfg p.1 (c.badRows.contains p.1) p.2 acc.1) (raised, e))

/-- A table's registers hold nothing any more (R116). -/
def Eng.clearTable (t : Nat) (e : Eng) : Eng := { e with tables := updAt e.tables t (fun _ => {}) }

/-- The tables forget what they put out for a tile. -/
def Eng.dropOuts (cmd tile : Nat) (e : Eng) : Eng :=
  { e with outs := e.outs.filter (fun o => o.1.cmd != cmd || o.1.tile != tile) }

/-! ### Starting a command on its weight image (R100, R152) -/

/-- What the checks at the start of SCORE, ROUTE and COMBINE_BWD answer. -/
inductive ImageCheck where
  | ok (e : Eng)
  | fail (status : Nat) (e : Eng)
  | fault (e : Eng)

/-- Reads the header of a command's slot at its start: unbound, mismatched, misaligned (R97, R180), a changed GEN reloaded,
the bias vector bound (R152); both halves of the Hem unit, or both tables, absent make a fault (log 32, DEDUCED;
log 48, DEDUCED; log 63, DESIGN CHOICE). -/
def Eng.imageCheck (m : Mem) (c : Cmd) (e : Eng) : ImageCheck :=
  let slot := c.d.slot
  let l := e.lslot slot
  match KV.find e.slotCfg slot with
  | none => .fail stBad e
  | some cfg =>
    if !(e.hemPresent 0 || e.hemPresent 1) || !(e.ctPresent 0 || e.ctPresent 1) then .fault e
    else if !l.bound then .fail stBad e
    else
      let h := WImg.ofBytes (e.rd m l.boundAddr 64)
      let arg := arg5 c.ring c.polder c.rslot
      if !h.fits cfg || h.stride % 4096 ≠ 0 && h.stride % 64 = 0 || everyTokenSize cfg h > cfg.wcSize * 4096 then
        .fail stBad (e.raise 0x0521 arg (some c.polder) c.d.tag)
      else
        match h.misaligned with
        | some off =>
          let a := l.boundAddr + off
          .fail stAlign (((e.setReg Reg.shuErrAddr a).bump Reg.shuErr 16 16 1).raise 0x0260 (a % memTop / 64 * 64) (some c.polder) c.d.tag)
        | none =>
          if cfg.biased && c.d.opcode ≠ opCombineBwd && l.bias = 0 then .fail stBad (e.raise 0x0540 arg (some c.polder) c.d.tag)
          else if l.cached && l.wgen = h.gen then .ok (e.accHbm c.polder 64)
          else .ok (e.fillCache m slot)

end Sys2Proof.Machine
end

