-- ==== Sys2Proof/Machine/Paths.lean ====
section
/-! DEFINITION. Destinations and paths: hosts, substitutes and host sets (R162, R164, R364), port masks and port choice
(R194), versions and wire formats of paths (R183), the transfer table (R197), and what leaves through the ports. -/

namespace Sys2Proof.Machine

/-! ### Chips of the job -/

/-- TOPOLOGY of the applied Pattern. -/
def Eng.topo (e : Eng) : Topology := match e.pat with
  | some p => p.topo
  | none => {}

/-- Every chip of TOPOLOGY, ascending. -/
def Eng.jobChips (e : Eng) : List Nat :=
  e.topo.trayMask.flatMap (fun rt => (bitsOf 8 rt.2).flatMap (fun t => (List.range 16).map (fun p => rt.1 * 128 + t * 16 + p)))

/-- The lost list holds a chip (R363). -/
def Eng.isLost (e : Eng) (c : Nat) : Bool := e.flt.lost.contains (some c)

/-- A chip is lost as a slot's lookups see it: a cleared entry stays until the slot's next boundary (chapter 15). -/
def Eng.lostFor (e : Eng) (slot c : Nat) : Bool := e.isLost c || e.flt.lostClear.contains (slot * 2 ^ 17 + c)

/-- The engine holds toward a chip (R360, R361). -/
def Eng.holding (e : Eng) (c : Nat) : Bool := match KV.find e.flt.holds c with
  | some h => h.noticed || h.suspected
  | none => false

/-- A slot's panel map as the engine holds it. -/
def Eng.panelMap (e : Eng) (slot : Nat) : PanelMap := KV.get [] e.panelMaps slot

/-- The chip at a position of the tray that PRIMARY or MIRROR names. -/
def trayChip (v pos : Nat) : Nat := (panelAt v).1 * 128 + (panelAt v).2 * 16 + pos

/-- The substitute of a lost host in a slot (R364). -/
def Eng.substitute (e : Eng) (slot x : Nat) : Option Nat :=
  if bit (e.reg Reg.fltCtrl) 1 then
    ((e.panelMap slot).find? (fun kp => kp.2.mirrored && trayChip kp.2.primary (chipPos x) == x)).bind (fun kp =>
      let c := trayChip kp.2.mirror (chipPos x)
      if e.lostFor slot c then none else some c)
  else none

/-- Where traffic for a host goes now: itself, its substitute, or nowhere. -/
def Eng.destOf (e : Eng) (slot x : Nat) : Option Nat := if e.lostFor slot x then e.substitute slot x else some x

/-- The primary host of a logical expert (R162). -/
def Eng.hostOf (e : Eng) (slot ex : Nat) : Nat :=
  trayChip ((e.panelMap slot).panel (ex / 64)).primary (ex % 64 / 4)

/-- The chips that hold an active expert of a slot, each with its substitute in its place, ascending (R164). -/
def Eng.hostSet (e : Eng) (slot : Nat) : List Nat :=
  let l := (e.panelMap slot).flatMap (fun kp =>
    if kp.2.valid then
      ((List.range 16).filter (fun i => field kp.2.active (4 * i) 4 != 0)).filterMap (fun i => e.destOf slot (trayChip kp.2.primary i))
    else [])
  sortBy (fun a b => a ≤ b) l.eraseDups

/-- The local experts of this chip in a slot: local number and logical ID, ascending; those of a lost primary that this
chip mirrors included (R162, R364). -/
def Eng.localExperts (e : Eng) (slot : Nat) : List (Nat × Nat) :=
  let pos := chipPos e.chip
  sortBy (fun a b => a.1 ≤ b.1) ((e.panelMap slot).flatMap (fun kp =>
    let x := trayChip kp.2.primary pos
    if (kp.2.valid && x == e.chip) || (kp.2.mirrored && e.destOf slot x == some e.chip) then
      ((List.range 4).filter (fun j => bit kp.2.active (4 * pos + j))).map (fun j => (j, kp.1 * 64 + 4 * pos + j))
    else []))

/-- Active experts of a slot (R158). -/
def Eng.activeExperts (e : Eng) (slot : Nat) : Nat :=
  ((e.panelMap slot).map (fun kp => if kp.2.valid then popcount 64 kp.2.active else 0)).sum

/-! ### Ports -/

/-- Port mask of a chip from the route tables (R162). -/
def Eng.routeMask (e : Eng) (chip : Nat) : Nat := match e.pat with
  | none => 0
  | some p =>
    if chipRack chip = chipRack e.chip then KV.get 0 p.chipRoute (chip % 128 ^^^ e.chip % 128)
    else KV.get 0 p.rackRoute (chipRack chip ^^^ chipRack e.chip)

/-- Ports of the mask that are present and whose link is up. -/
def Eng.linkPorts (e : Eng) (chip : Nat) : List Nat :=
  (bitsOf 16 (e.routeMask chip)).filter (fun p => e.portPresent p && (e.port p).link == 2)

/-- Ports left after the exclusions for the chip (R194, R199). -/
def Eng.pathPorts (e : Eng) (chip : Nat) : List Nat :=
  (e.linkPorts chip).filter (fun p => !e.excl.any (fun x => x.chip == chip && x.port == p))

/-- The chip can be reached: itself, or through some port (R162). -/
def Eng.reachable (e : Eng) (chip : Nat) : Bool := chip == e.chip || !(e.linkPorts chip).isEmpty

/-- The port with the fewest bytes queued, the lower number at a tie (R194). -/
def Eng.bestPort (e : Eng) (chip : Nat) : Option Nat :=
  (e.pathPorts chip).foldl (fun a p => match a with
    | none => some p
    | some q => if (e.port p).queued < (e.port q).queued then some p else some q) none

/-- The port that fitting frames and void lists for a chip are pinned to: the one they have until it leaves the mask (R194;
log 41, DEDUCED). -/
def Eng.pinnedPort (e : Eng) (chip : Nat) : Option Nat :=
  let l := e.pathPorts chip
  ((KV.find e.pins chip).filter (fun p => l.contains p)).or l[chip % l.length]?

/-! ### Versions and wire formats (R183, R189) -/

/-- A port's SLUICE entry (log 6, DESIGN CHOICE). -/
def Eng.portCfg (e : Eng) (p : Nat) : Option PortCfg := e.pat.bind (fun x => KV.find x.ports p)

/-- SWRED (Table 8-10): the peer switch offers reduction slots, the link's version has slot requests (Table 8-4), and the port's
PFLAGS permit them. -/
def Eng.portSwred (e : Eng) (p : Nat) : Bool := (e.port p).swred && decide ((e.port p).negVer ≥ 3) && (match e.portCfg p with
  | some c => bit c.pflags 0
  | none => true)

/-- This chip's Overlock version: the lowest among its trained links; 2 while it has none (log 63, DESIGN CHOICE). -/
def Eng.ownVersion (e : Eng) : Nat :=
  let l := (e.ports.filter (fun p => p.link == 2)).map (·.negVer)
  match l with
  | [] => 2
  | v :: t => t.foldl min v

/-- Endpoint version with a chip; 2 while its version is unknown (log 63, DESIGN CHOICE). -/
def Eng.endVersion (e : Eng) (chip : Nat) : Nat :=
  if chip = e.chip then e.ownVersion
  else match KV.get 0 e.peerVer chip with
    | 0 => 2
    | v => min e.ownVersion v

/-- Wire code of a slot's rows on the path with a chip. -/
def Eng.wireCode (e : Eng) (c : SlotCfg) (chip : Nat) : Nat :=
  let code := c.wireFmt % 16
  if wireMinVersion code ≤ e.endVersion chip then code else 0

/-- WIRE_FALLBACK, once per slot and path. -/
def Eng.noteFallback (slot : Nat) (c : SlotCfg) (chip : Nat) (e : Eng) : Eng :=
  if e.wireCode c chip ≠ c.wireFmt % 16 && !e.fallbacks.contains (slot, chip) then
    { e with fallbacks := e.fallbacks ++ [(slot, chip)] }.raise 0x010B (arg1 none chip) none 0
  else e

/-- Largest chunk payload on the path with a chip (R34, R189). -/
def Eng.chunkMax (e : Eng) (chip : Nat) : Nat := if e.endVersion chip ≤ 2 then min e.topo.chunk 32768 else e.topo.chunk

/-! ### Leaving through the ports -/

/-- Virtual channel of a chunk or frame of a polder (Table 8-3); barrier messages and tack notices are OP 10 and up. -/
def Eng.vcOf (e : Eng) (polder : Nat) (h : ChunkHdr) : Nat :=
  let reserved := e.reservedClass polder
  match h.kind with
  | 1 => if reserved then 0 else 1
  | 3 => if reserved then 0 else 1
  | 2 => if reserved then 0 else 2
  | 4 => if reserved then 0 else 2
  | 5 => 5
  | 6 => if h.op ≤ 9 then 4 else 7
  | _ => 3


/-- Checks of a chunk (Table 8-2). -/
def sealChunk (h : ChunkHdr) (payload : List Byte) : ChunkHdr :=
  let h := { h with pcrc := (crc32c payload).toNat }
  { h with hcrc := (crc32c h.bytes60).toNat }

/-- Check of a fitting frame (Table 7-1). -/
def sealFrame (h : FitHdr) (records : List Byte) : FitHdr := { h with crc := (crc32c (h.bytes60 ++ records)).toNat }

/-- Whether a chunk's header, payload, and a frame pass their checks (R163, R190). -/
def hcrcOk (h : ChunkHdr) : Bool := h.hcrc == (crc32c h.bytes60).toNat
def pcrcOk (h : ChunkHdr) (payload : List Byte) : Bool := h.pcrc == (crc32c payload).toNat && h.plen == payload.length
def frameOk (h : FitHdr) (records : List Byte) : Bool := h.crc == (crc32c (h.bytes60 ++ records)).toNat

/-- Bid and grant records out of a frame's bytes, to rebuild it. -/
def bidOfBytes (l : List Byte) : BidRec := ⟨rdLE l 0 4, rdLE l 4 2, rdLE l 6 1, rdLE l 7 1, rdLE l 8 4, rdLE l 12 4⟩
def grantOfBytes (l : List Byte) : GrantRec := ⟨field (rdLE l 0 4) 0 20, field (rdLE l 0 4) 20 5, rdLE l 4 4⟩

/-- The header under which the transfer table keeps a frame. -/
def frameHdr (h : FitHdr) (len polder : Nat) : ChunkHdr :=
  { kind := 0, polder := polder, epoch := h.epoch, step := h.step, src := h.src, dst := h.dst, slot := h.slot, plen := len }

/-! ### Transfer table (R197) -/

/-- The lowest free entry. -/
def ttFree : Nat → KV TtEntry → Nat
  | i, (k, _) :: t => if k = i then ttFree (i + 1) t else i
  | i, [] => i

/-- CHUNK_ID of an entry under its current generation. -/
def Eng.ttId (e : Eng) (i : Nat) : Nat := KV.get 0 e.ttGen i % 16 * 4096 + i

/-- Most entries in use since the last read, kept in HIGH_WATER (Table 8-8). -/
def Eng.ttMark (e : Eng) : Eng :=
  let n := e.tt.length
  if n > field (e.reg Reg.shuTtStatus) 16 13 then e.setReg Reg.shuTtStatus (setField (e.reg Reg.shuTtStatus) 16 13 n) else e

/-- A message stays on this chip: it is for this chip, and no contribution to a switch slot (R291; log 59, DESIGN CHOICE). -/
def Eng.atHome (e : Eng) (h : ChunkHdr) : Bool := h.dst == e.chip && !(h.kind == 6 && bit h.place 3)

/-- Port for a message: its pinned port for frames and void lists, else the least loaded. What a level root contributes to its
own tray's switch leaves as if for another member of the tray (R291; log 59, DESIGN CHOICE). -/
def Eng.portFor (e : Eng) (h : ChunkHdr) : Option Nat :=
  if h.kind = 0 ∨ h.kind = 7 then e.pinnedPort h.dst
  else if h.dst = e.chip then
    ((e.group h.slot).members.find? (fun c => c / 16 == e.chip / 16 && c != e.chip)).bind e.bestPort
  else e.bestPort h.dst

/-- Spool queue class of what leaves (Table 10-2). -/
def outClass (h : ChunkHdr) : Nat := if h.kind = 0 then 3 else if h.kind = 6 then 4 else 1

/-- The queues that a polder's packets of a class use: the configured ones of its template's range, else the engine's own, in
no range (R232; log 6, DESIGN CHOICE). -/
def Eng.classQueues (e : Eng) (cl : Nat) (template : Option Nat) : List Nat :=
  let all := (e.spool.cfg.filter (fun kc => kc.2.qclass == cl)).map (·.1)
  let mine := match template.bind (fun t => e.pat.bind (fun x => KV.find x.templates t)) with
    | some t => all.filter (fun q => t.queueBase ≤ q && q < t.queueBase + t.queueCount)
    | none => []
  if mine.isEmpty then all.filter (fun q => (e.queueTemplate q).isNone) else mine

/-- The queue that a message leaves by: the lowest of class 1; of the classes 3 and 4 the second, or the one there is (log 6, DESIGN CHOICE). -/
def Eng.outQueue (e : Eng) (polder : Nat) (h : ChunkHdr) : Option Nat :=
  let l := e.classQueues (outClass h) (some (polder % 16))
  if outClass h = 1 then l.head? else (l[1]?).or l.head?

/-- Whether a message finds its queue free to take it: local ones use none. -/
def Eng.hasRoom (e : Eng) (polder : Nat) (h : ChunkHdr) : Bool :=
  e.atHome h || (e.outQueue polder h).any e.takesOut

/-- Whether a message can leave now: no hold toward the chip, a path to it, and a queue that takes it. -/
def Eng.canSend (e : Eng) (h : ChunkHdr) : Bool :=
  !e.holding h.dst && (e.atHome h || (e.portFor h).isSome) && e.hasRoom h.polder h

/-- A message with its queue goes to it (R190), a local one leaves at once. -/
def Eng.assemble (polder : Nat) (h : ChunkHdr) (port : Option Nat) (vc bytes : Nat) (m : TxMsg) (e : Eng) : Eng :=
  match port, e.outQueue polder h with
  | some p, some q => e.pushOut q (ceilDiv bytes 64) (.tx p vc h.slot bytes m false)
  | _, _ => e.send port vc m

/-- Hands a chunk or frame with its payload to its port under a CHUNK_ID (log 41, DEDUCED); a chunk forwarded by cut-through keeps
the PCRC it came with (R282). -/
def Eng.emit (o : OutMsg) (id : Nat) (payload : List Byte) (kept : Option Nat) (e : Eng) : Eng × Option Nat :=
  let h := o.hdr
  let port := if e.atHome h then none else e.portFor h
  let e := match port with
    | some p => if h.kind = 0 ∨ h.kind = 7 then { e with pins := KV.put e.pins h.dst p } else e
    | none => e
  let polder := match e.cmd? o.cmd with
    | some c => c.polder
    | none => h.polder
  let e := if e.atHome h then e else e.accLink polder h.dst (64 + payload.length)
  let vc := e.vcOf polder h
  match o.src with
  | .frame f records =>
    let g := sealFrame f records
    let m := if f.kind = 2 then TxMsg.grant id g ((Sys2Proof.groups 8 (records.length) records).map grantOfBytes)
      else TxMsg.bid id g ((Sys2Proof.groups 16 (records.length) records).map bidOfBytes)
    (e.assemble h.polder h port vc (64 + records.length) m, port)
  | _ =>
    let g := sealChunk { h with chunkId := id, plen := payload.length } payload
    let g := match kept with
      | some c => let g := { g with pcrc := c }; { g with hcrc := (crc32c g.bytes60).toNat }
      | none => g
    let e := match port with
      | some p => e.bump64 (Reg.slcTxChunks p) 1
      | none => e
    (e.assemble h.polder h port vc (64 + payload.length) (.chunk g payload), port)

/-- A message takes the lowest free entry and leaves; `kept` is the PCRC of one forwarded by cut-through, which then waits for this
node's good copy (R282). -/
def Eng.sendAs (o : OutMsg) (payload : List Byte) (kept : Option Nat) (e : Eng) : Eng :=
  let i := ttFree 0 e.tt
  let e := { e with ttGen := KV.put e.ttGen i (match KV.find e.ttGen i with
    | some g => (g + 1) % 16
    | none => 0) }
  let id := e.ttId i
  let (e, port) := e.emit o id payload kept
  { e with tt := KV.put e.tt i { cmd := o.cmd, hdr := { o.hdr with chunkId := id }, src := o.src, port := port, awaits := kept.isSome
                                 vc := e.vcOf o.hdr.polder o.hdr, firstNs := e.now, sentNs := e.now } }.ttMark

/-- A chunk or frame with its payload leaves, or waits (R197, R361; log 61, DESIGN CHOICE). -/
def Eng.sendOn (o : OutMsg) (payload : List Byte) (e : Eng) : Eng :=
  if e.tt.length ≥ 4096 then
    { e with outq := e.outq ++ [o], ttFullSince := some (e.ttFullSince.getD e.now)
             ttFullBy := if e.ttFullSince.isNone then some o.hdr.polder else e.ttFullBy }
  else if !e.canSend o.hdr || (o.hdr.kind = 0 && e.outq.any (fun q => q.hdr.kind == 0 && q.hdr.dst == o.hdr.dst)) then { e with outq := e.outq ++ [o] }
  else e.sendAs o payload none

/-- A new chunk or frame; one whose class has no queue is refused, and waits (R232; log 6, DESIGN CHOICE). -/
def Eng.sendNew (o : OutMsg) (payload : List Byte) (e : Eng) : Eng :=
  let e := if e.atHome o.hdr || (e.outQueue o.hdr.polder o.hdr).isSome then e else e.raise 0x0481 (arg4 0 8191 1) none 0
  e.sendOn o payload

/-- A fitting frame to a chip (log 40, DEDUCED). -/
def Eng.sendFrame (cmd polder : Nat) (f : FitHdr) (records : List Byte) (e : Eng) : Eng :=
  e.sendNew ⟨cmd, frameHdr f records.length polder, .frame f records⟩ records

/-- No command: what the host role and the engine send on their own. -/
def noCmd : Nat := 2 ^ 64

/-- Splits a list into parts of at most `n`, one empty part at least. -/
def parts {α : Type} (n : Nat) (l : List α) : List (List α) := if l.isEmpty then [[]] else groups n l.length l

end Sys2Proof.Machine
end

