-- ==== Sys2Proof/Machine/Streams.lean ====
section
/-! DEFINITION. Pleat streams: the chunks' bytes of dispatch, return and backward streams (R169, R206), rebuilt from their
sources (R197, R199), and how an incoming stream is read (R169, R190). -/

namespace Sys2Proof.Machine

/-! ### Places of a host role -/

/-- RUN_ROWS of a slot (R160). -/
def Eng.runRows (e : Eng) (c : SlotCfg) : Nat :=
  let r := 33554432 / c.rowBytes
  if e.topo.matrixFmt = 1 then min r 65535 else r

/-- Row counts of the runs that hold `n` rows. -/
def runSizes (runRows : Nat) : Nat → Nat → List Nat
  | 0, _ => []
  | fuel + 1, n => if n = 0 then [] else min n runRows :: runSizes runRows fuel (n - runRows)

/-- Address of row `i` in runs, of their input or output buffers. -/
def rowAddr (runRows w : Nat) (out : Bool) (runs : List Run) (i : Nat) : Option Nat :=
  (runs[i / runRows]?).map (fun r => (if out then r.outBuf.addr else r.inBuf.addr) + i % runRows * w)

/-- Landing tag of a place (Table 7-3). -/
def tagOf (j i : Nat) : Nat := j * 2 ^ 24 + i

/-- The places of a role with their local expert and place numbers, in tag order. -/
def HostRole.placesOf (h : HostRole) : List (Nat × Nat × HostExpert × Place) :=
  h.experts.flatMap (fun je => je.2.places.zipIdx.map (fun p => (je.1, p.2, je.2, p.1)))

/-- A role's place under a landing tag. -/
def HostRole.place (h : HostRole) (tag : Nat) : Option Place :=
  (KV.find h.experts (tag / 2 ^ 24)).bind (fun x => x.places[tag % 2 ^ 24]?)

/-- Changes the place under a landing tag. -/
def HostRole.setPlace (h : HostRole) (tag : Nat) (f : Place → Place) : HostRole :=
  { h with experts := h.experts.map (fun je =>
      if je.1 = tag / 2 ^ 24 then (je.1, { je.2 with places := updAt je.2.places (tag % 2 ^ 24) f }) else je) }

/-- The host role of a step. -/
def Eng.role (e : Eng) (slot step : Nat) : Option HostRole := e.roles.find? (fun r => r.slot == slot && r.step == step)

/-- Changes the host role of a step. -/
def Eng.setRole (slot step : Nat) (f : HostRole → HostRole) (e : Eng) : Eng :=
  { e with roles := updFirst (fun r => r.slot == slot && r.step == step) f e.roles }


/-- SLOT configuration, all zero where undefined. -/
def Eng.cfgOf (e : Eng) (slot : Nat) : SlotCfg :=
  (KV.find e.slotCfg slot).getD ⟨0, 0, 0, 0, 0, 0, 0, 0, 0, 0, 0, 0, 0, 0, 0, 0, 0⟩

/-! ### Streams (R169, R206) -/

/-- A list of 4 B words, padded to 64 B. -/
def wordList (l : List Nat) : List Byte := fitTo (lineUp (4 * l.length)) (l.flatMap (leBytes 4))

/-- Pair indices of a work for a host, in order-table order. -/
def RouteWork.pairsFor (w : RouteWork) (dest : Nat) : List Nat :=
  w.order.filter (fun i => match w.pairs[i]? with
    | some p => p.dest == dest
    | none => false)

/-- Landing tags of pairs. -/
def RouteWork.tags (w : RouteWork) (l : List Nat) : List Nat := l.map (fun i => match w.pairs[i]? with
  | some p => p.ltag
  | none => 0)

/-- One row of HBM as binary32 values. -/
def Eng.rowAt (m : Mem) (e : Eng) (c : SlotCfg) (addr : Nat) : List F32 := unpackRow c.rowFmt c.d (e.rd m addr c.rowBytes)

/-- Address of row `i` of rows of `w` bytes that lie in buffers, no row in two of them. -/
def bufRow (l : List Buf) (w i : Nat) : Option Nat :=
  match l with
  | [] => none
  | b :: _ => (l[i / max 1 (b.size / max 1 w)]?).map (fun x => x.addr + i % max 1 (b.size / max 1 w) * w)

/-- Rounding of a backward row: stochastic unless NO_SR is set (R186, R187). -/
def srFor (c : SlotCfg) (seed : W64) (slot step c2 c3 : Nat) : Rounding :=
  if bit c.wireFmt 4 then .rne else .sr seed slot step c2 c3

/-- A token's row or dY row converted to a wire format (R185 to R187, R215). -/
def Eng.wireRow (m : Mem) (e : Eng) (w : RouteWork) (bwd : Bool) (code t : Nat) : List Byte :=
  let c := e.cfgOf w.slot
  if bwd then wirePack (srFor c w.bwdSeed w.slot w.step t (2 ^ 30 + e.chip * 2 ^ 12)) code (e.rowAt m c (w.bwdDy + t * c.rowBytes))
  else wirePack .rne code (e.rowAt m c (w.rows + t * c.rowBytes))

/-- The wire stage of a ROUTE or ROUTE_BWD (R184). -/
def RouteWork.stageOf (w : RouteWork) (bwd : Bool) : List Buf := if bwd then w.bwdStage else w.stage

/-- A token's row as a chunk carries it: out of the wire stage, or converted as it is sent; a replay always converts again
(R184, R199). -/
def Eng.sendRow (m : Mem) (e : Eng) (w : RouteWork) (bwd replay : Bool) (code t : Nat) : List Byte :=
  let c := e.cfgOf w.slot
  match (if replay || code ≠ c.wireFmt % 16 then none else bufRow (w.stageOf bwd) (wireLen code c.d) t) with
  | some a => e.rd m a (wireLen code c.d)
  | none => e.wireRow m w bwd code t

/-- A dispatch or backward dispatch stream: tags, for the backward one weights, then rows; a void pair's row is zeros
(R169, R191, R206, R215). -/
def Eng.sourceStream (m : Mem) (e : Eng) (w : RouteWork) (bwd replay : Bool) (dest code : Nat) : List Byte :=
  let l := w.pairsFor dest
  wordList (w.tags l) ++ (if bwd then wordList (l.map (fun i => ((w.pairs[i]?).map (·.weight.toNat)).getD 0)) else []) ++
  l.flatMap (fun i =>
    if w.void.contains i then zeros (wireLen code (e.cfgOf w.slot).d)
    else e.sendRow m w bwd replay code (((w.pairs[i]?).map (·.token)).getD 0))

/-- A source's non-VOID places in a role, in tag order. -/
def HostRole.placesFor (h : HostRole) (src : Nat) : List (Nat × Nat × HostExpert × Place) :=
  h.placesOf.filter (fun p => p.2.2.2.src == src && !p.2.2.2.void)

/-- A return stream: tags, expert output rows (R205 to R207). -/
def Eng.retStream (m : Mem) (e : Eng) (h : HostRole) (dest code : Nat) : List Byte :=
  let c := e.cfgOf h.slot
  let l := h.placesFor dest
  let rr := e.runRows c
  wordList (l.map (fun p => tagOf p.1 p.2.1 + (if p.2.2.2.bad then 2 ^ 31 else 0))) ++ l.flatMap (fun p =>
    match rowAddr rr c.rowBytes true p.2.2.1.runs p.2.1 with
    | some a => if p.2.2.2.bad then zeros (wireLen code c.d) else wirePack .rne code (e.rowAt m c a)
    | none => zeros (wireLen code c.d))

/-- A backward return stream: tags, dots, input-gradient rows (R206, R216, R217). -/
def Eng.bwdRetStream (m : Mem) (e : Eng) (h : HostRole) (dest code : Nat) : List Byte :=
  let c := e.cfgOf h.slot
  let l := h.placesFor dest
  let rr := e.runRows c
  wordList (l.map (fun p => tagOf p.1 p.2.1 + (if p.2.2.2.bwdBad then 2 ^ 31 else 0) + (if p.2.2.2.noDot then 2 ^ 30 else 0))) ++
  wordList (l.map (fun p => if p.2.2.2.noDot then 0 else (p.2.2.2.dot.getD fZero).toNat)) ++
  l.flatMap (fun p => match rowAddr rr c.rowBytes true p.2.2.1.bwdRuns p.2.1 with
    | some a => if p.2.2.2.bwdBad then zeros (wireLen code c.d)
      else wirePack (srFor c h.bwdSeed h.slot h.step p.2.1 (2 ^ 31 + p.2.2.1.expert * 2 ^ 12)) code (e.rowAt m c a)
    | none => zeros (wireLen code c.d))


/-- The host that a chunk's stream was laid out for: for a dispatch to a substitute, the lost host it stands in for. -/
def Eng.streamDest (e : Eng) (h : ChunkHdr) (w : RouteWork) : Nat :=
  if w.pairs.any (fun p => p.dest == h.dst) then h.dst
  else ((w.pleats.find? (fun p => e.destOf w.slot p.dest == some h.dst)).map (·.dest)).getD h.dst

/-- Payload of a chunk, rebuilt from its source (R197, R199). -/
def Eng.payload (m : Mem) (e : Eng) (o : OutMsg) : List Byte :=
  let h := o.hdr
  let code := h.wfmt % 16
  let slice (l : List Byte) := fitTo h.plen (l.drop h.offset)
  match o.src with
  | .dispatch k => match e.workById k with
    | some w => slice (e.sourceStream m w false (bit h.cflags 1) (e.streamDest h w) code)
    | none => zeros h.plen
  | .bwdDispatch k => match e.workById k with
    | some w => slice (e.sourceStream m w true (bit h.cflags 1) (e.streamDest h w) code)
    | none => zeros h.plen
  | .ret slot step => match e.role slot step with
    | some r => slice (e.retStream m r h.dst code)
    | none => zeros h.plen
  | .bwdReturn slot step => match e.role slot step with
    | some r => slice (e.bwdRetStream m r h.dst code)
    | none => zeros h.plen
  | .copy a => e.rd m a h.plen
  | .bytes b => b
  | .frame _ b => b

/-- Length of a stream of `n` rows: lists of 4 B words, then rows (R169, R206). -/
def streamLen (lists n w : Nat) : Nat := lists * lineUp (4 * n) + n * w

/-- The chunks of a stream: offset and length (R169). -/
def cuts (len max : Nat) : List (Nat × Nat) :=
  (List.range (ceilDiv len max)).map (fun i => (i * max, min max (len - i * max)))

/-! ### Incoming streams -/

/-- Rows of a stream of a given length. -/
def streamRows (lists len w : Nat) : Nat :=
  ((List.range (len / (w + 4 * lists) + 1)).reverse.find? (fun n => streamLen lists n w ≤ len)).getD 0

/-- Rows whose last byte a chunk of a stream carries: each row of a stream ends in one of its chunks. -/
def rowsEnding (lists len w off plen : Nat) : Nat :=
  let n := streamRows lists len w
  let base := lists * lineUp (4 * n)
  ((List.range n).filter (fun k => off < base + (k + 1) * w && base + (k + 1) * w ≤ off + plen)).length

/-- Bytes [p, p + n) out of the parts held, if all of them are there. -/
def gather : KV (List Byte) → Nat → Nat → Option (List Byte)
  | _, _, 0 => some []
  | [], _, _ + 1 => none
  | (o, b) :: t, p, n =>
    if o + b.length ≤ p then gather t p n
    else if p < o then none
    else
      let x := (b.drop (p - o)).take n
      (gather t (p + x.length) (n - x.length)).map (x ++ ·)

/-- The 4 B words of the `i`-th list of a stream. -/
def InStream.words (s : InStream) (i n : Nat) : Option (List Nat) :=
  (gather s.parts (i * lineUp (4 * n)) (4 * n)).map (fun l => (Sys2Proof.groups 4 n l).map leNat)

/-- Row `k` of a stream with `lists` lists and `n` rows of `w` bytes. -/
def InStream.row (s : InStream) (lists n w k : Nat) : Option (List Byte) :=
  gather s.parts (lists * lineUp (4 * n) + k * w) w

/-- A part of a stream joins the parts held; the stream is new where no chunk of it came before. -/
def addPart (h : ChunkHdr) (payload : List Byte) (l : List InStream) : List InStream :=
  let same (s : InStream) := s.src == h.src && s.kind == h.kind && s.epoch == h.epoch && s.wfmt == h.wfmt && s.len == h.pleatLen
  if l.any same then updFirst same (fun s => { s with parts := KV.put s.parts h.offset payload }) l
  else l ++ [⟨h.src, h.kind, h.epoch, h.wfmt, h.pleatLen, KV.put [] h.offset payload, []⟩]

/-- The stream that a chunk belongs to. -/
def findStream (h : ChunkHdr) (l : List InStream) : Option InStream :=
  l.find? (fun s => s.src == h.src && s.kind == h.kind && s.epoch == h.epoch && s.wfmt == h.wfmt && s.len == h.pleatLen)

/-- Whether a chunk has landed before (R200). -/
def seenPart (h : ChunkHdr) (l : List InStream) : Bool := match findStream h l with
  | some s => (KV.find s.parts h.offset).isSome
  | none => false

end Sys2Proof.Machine
end

