-- ==== Sys2Proof/Machine/Host.lean ====
section
/-! DEFINITION. The host role of a step: capacity (R158), reservation (R160), rounds and grants (R164 to R166, R358),
voids (R167), landing structures (R170 to R174), backward landing, dots and the low-visit test (R215, R216, R223). -/

namespace Sys2Proof.Machine

/-! ### Capacity and reservation -/

/-- T_layer of a host role of a step (R158). -/
def Eng.tLayer (e : Eng) (slot tokens : Nat) : Nat :=
  let o := (e.lslot slot).tlayer
  if o ≠ 0 then o else tokens * e.topo.jobChips

/-- C of a host role whose ROUTE has `tokens` tokens (R158). -/
def Eng.capacity (e : Eng) (polder slot tokens : Nat) : Nat :=
  let c := e.cfgOf slot
  let active := e.activeExperts slot
  let t := e.tLayer slot tokens
  if active = 0 then 0
  else if c.expertChoice then c.ecCap
  else if e.reservedClass polder then min t 16777215
  else min (min (ceilDiv (c.freeboard * c.k * t) (64 * active)) t) 16777215

/-- Format 1 landing structures (R173). -/
def Eng.fmt1 (e : Eng) : Bool := e.topo.matrixFmt == 1

/-- Requests for the runs of one expert: input and output buffer of each, with their references (R160, R172, R173). -/
def Eng.runRequests (e : Eng) (c : SlotCfg) (n : Nat) : List (Nat × Nat × Nat × Nat) :=
  (runSizes (e.runRows c) n n).flatMap (fun r =>
    let p := (fitRows r c.rowBytes).1
    [(p, 1, 2, 1), (p, 1, if e.fmt1 then 1 else 2, 1)])

/-- Request for one ledger of `n` places: one buffer, or several of the largest pool (R160, R260; log 33, DEDUCED). -/
def ledgerRequest (n : Nat) : List (Nat × Nat × Nat × Nat) :=
  if n = 0 then [] else [((fitRows n 8).1, (fitRows n 8).2, 1, 1)]

/-- Entries of a ledger in one buffer where it takes several. -/
def ledgerSpan : Nat := 4194304

/-- Address of entry `i` of an expert's ledger. -/
def HostExpert.ledgerAt (x : HostExpert) (i : Nat) : Option Nat :=
  (x.ledgers[i / ledgerSpan]?).map (fun b => b.addr + 8 * (i % ledgerSpan))

/-- Runs out of their buffers, input and output in turn. -/
def assignRuns : List Nat → List Buf → List Run
  | r :: t, i :: o :: bs => ⟨r, i, o⟩ :: assignRuns t bs
  | _, _ => []

/-- Gives every expert its runs and ledger out of the buffers taken. -/
def assignExperts (runRows n : Nat) : KV HostExpert → List Buf → KV HostExpert
  | [], _ => []
  | (j, x) :: t, bs =>
    let sizes := runSizes runRows n n
    let rest := bs.drop (2 * sizes.length)
    let k := ((ledgerRequest n).map (fun r => r.2.1)).sum
    (j, { x with runs := assignRuns sizes bs, ledgers := rest.take k }) :: assignExperts runRows n t (rest.drop k)

/-- Tries the reservation of a role (R160); says whether it was met (log 33, DEDUCED). -/
def Eng.tryReserve (slot step : Nat) (e : Eng) : Bool × Eng :=
  match e.role slot step with
  | none => (false, e)
  | some h =>
    let c := e.cfgOf slot
    let one := e.runRequests c h.cap ++ ledgerRequest h.cap
    let who : BWho := .host slot step false
    match e.bobTakeAll (some who) h.polder (e.reservedClass h.polder) (h.experts.flatMap (fun _ => one)) with
    | .got bufs e =>
      (true, ((e.endWait who).setRole slot step (fun h => { h with
        reserving := false, experts := assignExperts (e.runRows c) h.cap h.experts bufs })).gauge gsHostReserveWait slot (some h.polder)
          (e.now - h.startNs))
    | .quota p => (false, (e.endWait who).bobQuotaEvent h.polder slot p h.tag)
    | .wait _ => (false, e.noteWait { pools := one.map (·.1), who := who, polder := h.polder, slot := slot, tag := h.tag, since := e.now })

/-! ### Ending a role -/

/-- The engine's references that a role still holds (R172, R173). -/
def HostRole.held (h : HostRole) (fmt1 : Bool) : List Buf :=
  h.experts.flatMap (fun je =>
    let x := je.2
    x.ledgers ++
    (if h.returnSent then (if fmt1 then x.runs.map (·.outBuf) else []) else x.runs.flatMap (fun r => [r.inBuf, r.outBuf])) ++
    x.bwdRuns.flatMap (fun r => [r.inBuf, r.outBuf])) ++
  h.gtable.toList ++ h.bwdGtable.toList

/-- What the step summary tells of a host role (Table 13-9; log 60, DESIGN CHOICE). -/
def HostRole.summary (h : HostRole) : HostSum :=
  { tlayer := h.tlayer, cap := h.cap, voided := h.voided, refused := (h.experts.map (fun je => je.2.refused)).sum
    experts := h.experts.map (fun je => (je.1, HostSumX.mk je.2.expert je.2.places.length je.2.demand je.2.spilledIn)) }

/-- A host role ends; its engine references go (R172), and what its step's summary tells of it stays (R315). -/
def Eng.endRole (slot step : Nat) (e : Eng) : Eng :=
  match e.role slot step with
  | none => e
  | some h =>
    let e := [false, true].foldl (fun (e : Eng) b => (e.endWait (.table slot step b)).endWait (.host slot step b)) e
    let e := e.setStep slot step (fun i => { i with host := some h.summary })
    let e := { e.engDecAll (h.held e.fmt1) with roles := e.roles.filter (fun r => !(r.slot == slot && r.step == step)) }
    e.setLslot slot (fun l => { l with endedRoles := (step :: l.endedRoles.filter (· != step)).take 8 })

/-- The role of a step has ended: it is among those that ended, or older than both roles held, or than the one of its parity
(R161, R172; log 40, DEDUCED). -/
def Eng.roleEnded (e : Eng) (slot step : Nat) : Bool :=
  let newer := e.roles.filter (fun r => r.slot == slot && toSigned 32 (step + 2 ^ 32 - r.step % 2 ^ 32) < 0)
  (e.role slot step).isNone && ((e.lslot slot).endedRoles.contains step || newer.length ≥ 2 ||
    newer.any (fun r => r.step % 2 == step % 2))

/-- Starts the host role of a step, unless it exists or has ended: a step has one host role. The role of the same parity
ends (R161, R172; log 40, DEDUCED). -/
def Eng.startRole (slot step polder tokens tag : Nat) (detm : Bool) (e : Eng) : Eng :=
  if (e.role slot step).isSome || e.roleEnded slot step then e
  else
    let e := ((e.roles.filter (fun r => r.slot == slot && r.step % 2 == step % 2)).map (·.step)).foldl (fun e s => e.endRole slot s) e
    let cap := e.capacity polder slot tokens
    let ex : KV HostExpert := (e.localExperts slot).map (fun je => (je.1, { expert := je.2 }))
    let r : HostRole :=
      { slot := slot, step := step, polder := polder, rslot := (e.slotOf polder).getD 0, cap := cap, detm := detm
        epoch := (e.lslot slot).epoch, tag := tag, experts := ex, reserving := true, startNs := e.now, tlayer := e.tLayer slot tokens }
    (({ e with roles := e.roles ++ [r] }.setLslot slot (fun l => { l with cap := cap })).tryReserve slot step).2

/-! ### Grants (R166, R358) -/

/-- Refusal results (Table 7-3). -/
def resFull : Nat := 1 * 2 ^ 28
def resAbsent : Nat := 2 * 2 ^ 28
def resNomem : Nat := 3 * 2 ^ 28
def resGrant (tag : Nat) : Nat := 2 ^ 31 + tag

/-- Answers one bid: its RESULT, and whether it is a refusal FULL given for the first time. `hosted` are the experts that
this chip hosts as the panel map now stands (R166; log 63, DESIGN CHOICE). -/
def HostRole.answer (hosted : List Nat) (src : Nat) (b : BidRec) (h : HostRole) : Nat × Bool × HostRole :=
  match h.experts.find? (fun je => je.2.expert == b.expert) with
  | none => (resAbsent, false, h)
  | some (j, x) =>
    match x.places.findIdx? (fun p => p.src == src && p.token == b.token && p.rank == b.rank && !p.void) with
    | some i => (resGrant (tagOf j i), false, h)
    | none =>
      let again := h.refusedList.contains (src, b.token, b.rank)
      let note (h : HostRole) : HostRole := if again then h else { h with refusedList := (src, b.token, b.rank) :: h.refusedList }
      let upd (f : HostExpert → HostExpert) (h : HostRole) : HostRole := { h with experts := KV.put h.experts j (f x) }
      if !h.closed && !hosted.contains b.expert then (resAbsent, false, h)
      else if h.nomem then (resNomem, false, note h)
      else if h.closed || x.places.length ≥ h.cap then
        (resFull, !again, note (if again || h.closed then h else upd (fun x => { x with refused := x.refused + 1 }) h))
      else
        let alt := bit b.bflags 0
        (resGrant (tagOf j x.places.length), false, upd (fun x => { x with
          places := x.places ++ [{ src := src, token := b.token, rank := b.rank, alt := alt }]
          spilledIn := x.spilledIn + alt.toNat }) h)

/-- A grant frame, or several, to a source (log 40, DEDUCED). -/
def Eng.sendGrants (polder slot step src round epoch : Nat) (l : List GrantRec) (e : Eng) : Eng :=
  (Sys2Proof.groups 4092 l.length l).foldl (fun e p =>
    e.sendFrame noCmd polder { kind := 2, slot := slot, epoch := epoch, step := step, src := e.chip, dst := src, round := round
                               fflags := (((e.role slot step).map (·.detm)).getD e.detm).toNat * 8, count := p.length } (p.flatMap GrantRec.bytes)) e

/-- Answers bids in the order given, and sends each source its grants. -/
def Eng.answerAll (slot step : Nat) (bids : List HeldBid) (e : Eng) : Eng :=
  match e.role slot step with
  | none => e
  | some h =>
    let start : HostRole × List (HeldBid × Nat) × Nat := (h, [], 0)
    let (h, ans, full) := bids.foldl (fun acc b =>
      let (r, f, h) := acc.1.answer ((e.localExperts slot).map (·.2)) b.src b.bid
      (h, acc.2.1 ++ [(b, r)], acc.2.2 + f.toNat)) start
    let e := (e.setRole slot step (fun _ => h)).accTime h.polder
    let e := if full = 0 then e else e.bump32 Reg.fitRefused full
    (ans.map (fun a => (a.1.src, a.1.round, a.1.epoch))).eraseDups.foldl (fun e k =>
      e.sendGrants h.polder slot step k.1 k.2.1 k.2.2 ((ans.filter (fun a => (a.1.src, a.1.round, a.1.epoch) == k)).map
        (fun a => ⟨a.1.bid.token, a.1.bid.rank, a.2⟩))) e

/-- The DETM order: PRIO descending, then source, then token (R166). -/
def detmOrder (l : List HeldBid) : List HeldBid :=
  sortBy (fun a b => a.bid.prio > b.bid.prio || (a.bid.prio == b.bid.prio &&
    (a.src < b.src || (a.src == b.src && a.bid.token ≤ b.bid.token)))) l

/-! ### Voids (R167) -/

/-- A ledger entry (R171). -/
def ledgerEntry (p : Place) : Nat :=
  p.src % 2 ^ 17 * 2 ^ 47 + p.token % 2 ^ 20 * 2 ^ 27 + p.rank % 32 * 2 ^ 22 + p.void.toNat * 2 ^ 21

/-- Voids the places that satisfy a condition: zero rows, ledger marks, counts (R167; log 63, DESIGN CHOICE). -/
def Eng.voidPlaces (slot step : Nat) (f : Place → Bool) (e : Eng) : Eng :=
  match e.role slot step with
  | none => e
  | some h =>
    let c := e.cfgOf slot
    let rr := e.runRows c
    let hit := h.placesOf.filter (fun p => !p.2.2.2.void && f p.2.2.2)
    if hit.isEmpty then e
    else
      let e := hit.foldl (fun (e : Eng) p =>
        let zero (a : Option Nat) (e : Eng) : Eng := match a with
          | some a => (e.store a (zeros c.rowBytes)).accHbm h.polder c.rowBytes
          | none => e
        let e := zero (rowAddr rr c.rowBytes false p.2.2.1.runs p.2.1) e
        let e := zero (rowAddr rr c.rowBytes false p.2.2.1.bwdRuns p.2.1) e
        let e := if h.ready then (match p.2.2.1.ledgerAt p.2.1 with
            | some a => (e.store a (leBytes 8 (ledgerEntry { p.2.2.2 with void := true }))).accHbm h.polder 8
            | none => e) else e
        (e.setRole slot step (fun h => h.setPlace (tagOf p.1 p.2.1) (fun q => { q with void := true }))).expert slot p.1
          (fun x => { x with voided := (x.voided + 1) % 2 ^ 64 })) e
      let e := (e.bump32 Reg.fitVoided hit.length).setRole slot step (fun h => { h with voided := h.voided + hit.length })
      if h.closed && !h.raised.contains 0x0454 then
        (e.setRole slot step (fun h => { h with raised := 0x0454 :: h.raised })).raise 0x0454
          (arg4 slot 0 (h.voided + hit.length)) (some h.polder) h.tag
      else e

/-! ### Landing structures (R170 to R173) -/

/-- Whether every granted place has landed or is void. -/
def HostRole.allLanded (h : HostRole) : Bool := h.placesOf.all (fun p => p.2.2.2.landed || p.2.2.2.void)
def HostRole.allBwdLanded (h : HostRole) : Bool := h.placesOf.all (fun p => p.2.2.2.bwdLanded || p.2.2.2.void)

/-- Rows of an expert's `k`-th run that hold granted places. -/
def runGranted (runRows n k : Nat) : Nat := min runRows (n - k * runRows)

/-- Group table entries of a role (Table 7-8, R173). -/
def groupEntries (fmt1 bwd : Bool) (runRows : Nat) (h : HostRole) : List (List Byte) :=
  h.experts.flatMap (fun je =>
    let x := je.2
    let l := (if bwd then x.bwdRuns else x.runs).zipIdx
    l.map (fun rk =>
      let rows := runGranted runRows x.places.length rk.2
      if fmt1 then leBytes 2 x.expert ++ leBytes 2 rows ++ leBytes 4 rk.1.inBuf.handle ++ leBytes 8 rk.1.inBuf.addr ++ leBytes 8 rk.1.outBuf.addr
      else leBytes 2 x.expert ++ leBytes 2 ((decide (rk.2 + 1 = l.length)).toNat + bwd.toNat * 2) ++ leBytes 4 rows ++
        leBytes 8 rk.1.inBuf.addr ++ leBytes 8 rk.1.outBuf.addr ++ leBytes 4 rk.1.inBuf.handle ++ leBytes 4 rk.1.outBuf.handle))

/-- Group table (Tables 7-7, 7-8). -/
def groupTable (fmt1 bwd : Bool) (c : SlotCfg) (runRows epoch : Nat) (h : HostRole) : List Byte :=
  let g := groupEntries fmt1 bwd runRows h
  let head := leBytes 2 (if fmt1 then 0x0100 else 0x0200) ++ leBytes 1 h.slot ++ leBytes 1 c.rowFmt ++ leBytes 4 h.step ++
    leBytes 4 g.length ++ leBytes 2 c.dDiv ++ leBytes 2 c.fDiv ++ leBytes 4 c.rowBytes ++ leBytes 2 epoch
  fitTo (if fmt1 then 32 else 64) head ++ g.flatten

/-- First group and group count of a role's expert `j`. -/
def firstGroup (bwd : Bool) (h : HostRole) (j : Nat) : Nat × Nat :=
  let n (x : HostExpert) := (if bwd then x.bwdRuns else x.runs).length
  (((h.experts.filter (fun je => je.1 < j)).map (fun je => n je.2)).sum, ((KV.find h.experts j).map n).getD 0)

/-- Shape record (Table 7-6, R173; log 51, DEDUCED). -/
def shapeRecord (fmt1 bwd askuc : Bool) (epoch gtable : Nat) (h : HostRole) : List Byte :=
  let groups := (h.experts.map (fun je => (if bwd then je.2.bwdRuns else je.2.runs).length)).sum
  let flags := h.detm.toNat + askuc.toNat * 2 + bwd.toNat * 4 + (decide (h.voided > 0)).toNat * 8 + h.nomem.toNat * 16
  let ready := leBytes 4 ((h.step + 1) % 2 ^ 32) ++ zeros 4 ++ leBytes 4 h.step ++ leBytes 1 h.slot
  if fmt1 then fitTo 64 (ready ++ leBytes 1 1 ++ zeros 2 ++ leBytes 4 groups ++ zeros 4 ++ leBytes 8 gtable)
  else
    let sources := ((h.placesOf.map (fun p => p.2.2.2.src)).filter (· < 2 ^ 17)).eraseDups.length
    fitTo 64 (ready ++ leBytes 1 2 ++ leBytes 2 flags ++ leBytes 4 groups ++ leBytes 4 h.placesOf.length ++ leBytes 8 gtable ++
      leBytes 4 sources ++ leBytes 2 epoch) ++
    (List.range 4).flatMap (fun j => match KV.find h.experts j with
      | none => leBytes 2 0xFFFF ++ zeros 30
      | some x =>
        let g := firstGroup bwd h j
        leBytes 2 x.expert ++ zeros 2 ++ leBytes 4 x.places.length ++ leBytes 4 g.1 ++ leBytes 4 g.2 ++
        leBytes 8 ((x.ledgerAt 0).getD 0) ++ leBytes 4 x.spilledIn ++ zeros 4) ++ zeros 64

/-- Address of a step's forward or backward shape record (R171; log 63, DESIGN CHOICE). -/
def Eng.shapeAt (e : Eng) (slot step : Nat) (bwd : Bool) : Nat :=
  (e.lslot slot).shapeAddr + 256 * (step % 2) + (if bwd then 512 else 0)

/-- Takes the buffer of a role's group table of `n` bytes, or notes that it waits; over the quota the event is raised once
(R172, R267; log 34, DEDUCED). -/
def Eng.takeTable (h : HostRole) (bwd : Bool) (n : Nat) (e : Eng) : Option Buf × Eng :=
  let who : BWho := .table h.slot h.step bwd
  let p := (fitRows n 1).1
  match e.bobTakeAll (some who) h.polder (e.reservedClass h.polder) [(p, 1, 1, 1)] with
  | .got l e => (l.head?, e.endWait who)
  | .wait _ => (none, e.noteWait { pools := [p], who := who, polder := h.polder, slot := h.slot, tag := h.tag, since := e.now })
  | .quota _ => (none, if h.raised.contains 0x0492 then e
      else (e.setRole h.slot h.step (fun h => { h with raised := 0x0492 :: h.raised })).bobQuotaEvent h.polder h.slot p h.tag)

/-- Writes bytes of a polder's work to HBM. -/
def Eng.storeFor (polder a : Nat) (bs : List Byte) (e : Eng) : Eng := (e.store a bs).accHbm polder bs.length

/-- The shape record: its further lines now, the line with READY as the last record (R171). -/
def Eng.writeShape (polder addr : Nat) (r : List Byte) (e : Eng) : Eng :=
  (if r.length > 64 then e.storeFor polder (addr + 64) (r.drop 64) else e).queueRec (.ready polder) addr (r.take 64)

/-- Writes ledgers, group table and shape record once every granted row has landed or is void (R170 to R173). -/
def Eng.checkReady (slot step : Nat) (e : Eng) : Eng :=
  match e.role slot step with
  | none => e
  | some h =>
    if h.closed && !h.ready && h.allLanded then
      let c := e.cfgOf slot
      let t := groupTable e.fmt1 false c (e.runRows c) (e.lslot slot).epoch h
      match e.takeTable h false t.length with
      | (none, e) => e
      | (some b, e) =>
        let e := h.experts.foldl (fun (e : Eng) je => je.2.ledgers.zipIdx.foldl (fun (e : Eng) l =>
          e.storeFor h.polder l.1.addr (((je.2.places.drop (l.2 * ledgerSpan)).take ledgerSpan).flatMap (fun p => leBytes 8 (ledgerEntry p)))) e) e
        let e := e.storeFor h.polder b.addr t
        (e.writeShape h.polder (e.shapeAt slot step false) (shapeRecord e.fmt1 false c.askuc (e.lslot slot).epoch b.addr h)).setRole slot step
          (fun h => { h with ready := true, gtable := some b, groups := (groupEntries e.fmt1 false (e.runRows c) h).length })
    else e

/-! ### Rounds (R164, R166) -/

/-- Round `r` is closed for the host: END of it, or LAST, from every chip of TOPOLOGY that is not lost (R164, R363). -/
def Eng.roundEnded (e : Eng) (h : HostRole) (r : Nat) : Bool :=
  e.jobChips.all (fun c => e.lostFor h.slot c || (match KV.find h.sources c with
    | some s => s.last || s.endRound ≥ r
    | none => false))

/-- Every source has sent LAST. -/
def Eng.allLast (e : Eng) (h : HostRole) : Bool :=
  e.jobChips.all (fun c => e.lostFor h.slot c || (match KV.find h.sources c with
    | some s => s.last
    | none => false))

/-- Both references of a buffer go. -/
def Eng.freeWhole (b : Buf) (e : Eng) : Eng :=
  let n := b.handle % 2 ^ 22
  let x := e.bentry n
  if x.st == .held && x.gen == b.handle / 2 ^ 26 then (e.setEntry n (fun x => { x with count := 0, eng := 0 })).freeBuf n else e

/-- Fitting of a host role closes: unused runs and ledgers released, counters, events (R160, R166, R388, R438;
log 63, DESIGN CHOICE). -/
def Eng.closeFitting (slot step : Nat) (e : Eng) : Eng :=
  match e.role slot step with
  | none => e
  | some h =>
    let rr := e.runRows (e.cfgOf slot)
    let keep (x : HostExpert) : Nat := ceilDiv x.places.length rr
    let gone := h.experts.flatMap (fun je =>
      (je.2.runs.drop (keep je.2)).flatMap (fun r => [r.inBuf, r.outBuf]) ++ je.2.ledgers.drop (ceilDiv je.2.places.length ledgerSpan))
    let e := gone.foldl (fun e b => e.freeWhole b) e
    let ex : KV HostExpert := h.experts.map (fun je => (je.1, { je.2 with
      runs := je.2.runs.take (keep je.2), ledgers := je.2.ledgers.take (ceilDiv je.2.places.length ledgerSpan) }))
    let e := e.setRole slot step (fun h => { h with closed := true, experts := ex })
    let e := h.experts.foldl (fun (e : Eng) je => e.expert slot je.1 (fun x => { x with
      demand := (x.demand + je.2.demand) % 2 ^ 64
      granted := (x.granted + je.2.places.length) % 2 ^ 64
      refused := (x.refused + je.2.refused) % 2 ^ 64
      spilledIn := (x.spilledIn + je.2.spilledIn) % 2 ^ 64
      lastStep := step
      lastGranted := je.2.places.length })) e
    let once (code n : Nat) (e : Eng) : Eng := if n = 0 || h.raised.contains code then e else
      (e.setRole slot step (fun h => { h with raised := code :: h.raised })).raise code (arg4 slot 0 n) (some h.polder) h.tag
    (once 0x0456 h.mismatch (once 0x0454 h.voided e)).checkReady slot step

/-- Closes the rounds that every source has ended, answering what waited for them (R166). -/
def Eng.closeRounds (slot step : Nat) : Nat → Eng → Eng
  | 0, e => e
  | fuel + 1, e =>
    match e.role slot step with
    | none => e
    | some h =>
      if h.closed || h.reserving then e
      else
        let r := h.roundClosed + 1
        if e.roundEnded h r then
          let now := h.heldBids.filter (fun b => b.round ≤ r)
          let later := h.heldBids.filter (fun b => r < b.round)
          let e := e.setRole slot step (fun h => { h with roundClosed := r, heldBids := later })
          let e := e.answerAll slot step (detmOrder now)
          if r ≥ 3 || (e.allLast h && later.isEmpty) then e.closeFitting slot step else Eng.closeRounds slot step fuel e
        else e

/-- Bids are answered on arrival (R166): normal mode, token choice. -/
def Eng.answersNow (e : Eng) (h : HostRole) : Bool := !h.detm && !(e.cfgOf h.slot).expertChoice

/-- Source of a place that no claim names (Table 15-7). -/
def unclaimed : Nat := 2 ^ 17

/-- What waited for the reservation goes on: it was met, or every bid is refused NOMEM (R160). Rebuilt places that no one
claimed are voided (Table 15-7). -/
def Eng.reserveSettled (slot step : Nat) (e : Eng) : Eng :=
  let e := e.voidPlaces slot step (fun p => p.src == unclaimed)
  match e.role slot step with
  | none => e
  | some h =>
    let e := if e.answersNow h || h.nomem then
        (e.setRole slot step (fun h => { h with heldBids := [] })).answerAll slot step h.heldBids
      else e
    e.closeRounds slot step 3

/-- An epoch older than the one held, in 16-bit serial arithmetic (R163; log 40, DEDUCED). -/
def olderEpoch (held got : Nat) : Bool := held != got && (held + 2 ^ 16 - got) % 2 ^ 16 < 2 ^ 15

/-- A bid frame of a step whose role exists (R163 to R167). -/
def Eng.takeBids (h : FitHdr) (recs : List BidRec) (e : Eng) : Eng :=
  match e.role h.slot h.step with
  | none => e
  | some r =>
    let s := KV.get {} r.sources h.src
    let e := if bit h.fflags 3 != r.detm && r.mismatch = 0 then e.voidPromise else e
    let e := e.setRole h.slot h.step (fun r => { r with
      sources := KV.put r.sources h.src { s with epoch := h.epoch, cancelled := s.cancelled && s.epoch == h.epoch }
      mismatch := r.mismatch + (bit h.fflags 3 != r.detm).toNat
      experts := if h.round = 1 then r.experts.map (fun je => (je.1, { je.2 with
          demand := je.2.demand + (recs.filter (fun b => b.expert == je.2.expert &&
            !(je.2.places.any (fun p => p.src == h.src && p.token == b.token && p.rank == b.rank && !p.void)) &&
            !r.refusedList.contains (h.src, b.token, b.rank) &&
            !(r.heldBids.any (fun q => q.src == h.src && q.bid.token == b.token && q.bid.rank == b.rank)))).length })) else r.experts })
    let bids := recs.map (fun b => (⟨h.src, h.round, h.epoch, b⟩ : HeldBid))
    let e := if !r.reserving && (e.answersNow r || r.closed || r.nomem || h.round ≤ r.roundClosed) then e.answerAll h.slot h.step bids
      else e.setRole h.slot h.step (fun r => { r with heldBids := r.heldBids ++ bids.filter (fun b =>
        !r.heldBids.any (fun q => q.src == b.src && q.epoch == b.epoch && q.bid.token == b.bid.token && q.bid.rank == b.bid.rank)) })
    let e := if bit h.fflags 0 then e.setRole h.slot h.step (fun r => { r with
        sources := KV.upd {} r.sources h.src (fun s => { s with
          endRound := max s.endRound h.round, last := s.last || bit h.fflags 1, cancelled := s.cancelled || bit h.fflags 2 }) }) else e
    let e := if bit h.fflags 0 && bit h.fflags 2 then
        (e.setRole h.slot h.step (fun r => { r with heldBids := r.heldBids.filter (fun b => b.src != h.src) })).voidPlaces
          h.slot h.step (fun p => p.src == h.src)
      else e
    (e.closeRounds h.slot h.step 3).checkReady h.slot h.step

/-- Every record of a frame refused ABSENT: its role has ended (R161). -/
def Eng.refuseAbsent (polder : Nat) (h : FitHdr) (recs : List BidRec) (e : Eng) : Eng :=
  e.sendGrants polder h.slot h.step h.src h.round h.epoch (recs.map (fun b => ⟨b.token, b.rank, resAbsent⟩))

/-! ### Landing rows (R169, R188, R190) -/

/-- A landed row in ROW_FMT (R188). -/
def landRow (c : SlotCfg) (code : Nat) (row : List Byte) : List Byte := packRow c.rowFmt (wireUnpack code c.d row)

/-- A landed backward row: each element times the weight, rounded once (R215). -/
def landBwdRow (c : SlotCfg) (code : Nat) (w : F32) (row : List Byte) : List Byte :=
  let f := rowFmt c.rowFmt
  (wireUnpack code c.d row).flatMap (fun y => leBytes (f.width / 8) (f.encode (satOf f) ((fval w).mul (fval y))))

/-- Lands the rows of a stream that are complete and not yet landed, and again those landed of which bytes [off, off + len) of
the stream hold a part (R200); they count as landed only with `mark` (R190). -/
def Eng.landStream (slot step : Nat) (bwd mark : Bool) (off len : Nat) (s : InStream) (e : Eng) : Eng :=
  let c := e.cfgOf slot
  let code := s.wfmt % 16
  let w := wireLen code c.d
  let lists := if bwd then 2 else 1
  let n := streamRows lists s.len w
  let base := lists * lineUp (4 * n)
  let again (k : Nat) : Bool := decide (off < base + (k + 1) * w) && decide (base + k * w < off + len)
  match s.words 0 n, (if bwd then s.words 1 n else some []) with
  | some tags, some ws =>
    tags.zipIdx.foldl (fun (e : Eng) tk =>
      let tag := tk.1 % 2 ^ 26
      match e.role slot step with
      | none => e
      | some h => match h.place tag, s.row lists n w tk.2 with
        | some p, some row =>
          if p.src ≠ s.src || p.void || ((if bwd then p.bwdLanded else p.landed) && !again tk.2) then e
          else
            let x := (KV.find h.experts (tag / 2 ^ 24)).getD { expert := 0 }
            let wt : F32 := BitVec.ofNat 32 (ws.getD tk.2 0)
            let bytes := if bwd then landBwdRow c code wt row else landRow c code row
            match rowAddr (e.runRows c) c.rowBytes false (if bwd then x.bwdRuns else x.runs) (tag % 2 ^ 24) with
            | some a =>
              let e := e.storeFor h.polder a bytes
              if mark then e.setRole slot step (fun h => h.setPlace tag (fun p =>
                if bwd then { p with bwdLanded := true, weight := wt } else { p with landed := true })) else e
            | none => e
        | _, _ => e) e
  | _, _ => e

/-! ### Backward landing (R174, R215, R216, R223) -/

/-- Starts the backward host role: reserves the runs that the forward counts fill (R174; log 33, DEDUCED). -/
def Eng.startBwd (slot step : Nat) (e : Eng) : Eng :=
  match e.role slot step with
  | none => e
  | some h =>
    if h.bwdStarted then e
    else
      let c := e.cfgOf slot
      let e := e.setRole slot step (fun h => { h with bwdWanted := true })
      let who : BWho := .host slot step true
      let l := h.experts.flatMap (fun je => e.runRequests c je.2.places.length)
      match e.bobTakeAll (some who) h.polder (e.reservedClass h.polder) l with
      | .got bufs e =>
        let e := e.endWait who
        let give := h.experts.foldl (fun (acc : KV HostExpert × List Buf) je =>
          let sizes := runSizes (e.runRows c) je.2.places.length je.2.places.length
          (acc.1 ++ [(je.1, { je.2 with bwdRuns := assignRuns sizes acc.2 })], acc.2.drop (2 * sizes.length))) ([], bufs)
        let e := e.setRole slot step (fun h => { h with bwdStarted := true, experts := give.1 })
        h.placesOf.foldl (fun (e : Eng) p => if p.2.2.2.void then
            (match rowAddr (e.runRows c) c.rowBytes false ((KV.get { expert := 0 } give.1 p.1).bwdRuns) p.2.1 with
             | some a => e.storeFor h.polder a (zeros c.rowBytes)
             | none => e) else e) e
      | .quota p => (e.endWait who).bobQuotaEvent h.polder slot p h.tag
      | .wait _ => e.noteWait { pools := l.map (·.1), who := who, polder := h.polder, slot := slot, tag := h.tag, since := e.now }

/-- An expert's rows that are granted and not VOID. -/
def HostExpert.live (x : HostExpert) : Nat := (x.places.filter (fun p => !p.void)).length

/-- The low-visit test, its record and events (R223, R224). -/
def Eng.lowVisit (slot step : Nat) (e : Eng) : Eng :=
  match e.role slot step with
  | none => e
  | some h =>
    let c := e.cfgOf slot
    let f := c.fDiv * 256
    let low := h.experts.filter (fun je => c.rho ≠ 0 && 256 * je.2.live * (c.d + f) < c.rho * c.d * f)
    let v4 := e.jobChips.all (fun x => e.endVersion x ≥ 4)
    let mask := ofBits (low.map (·.1))
    let rec_ := leBytes 4 step ++ leBytes 1 slot ++ leBytes 1 (if v4 then mask else 0) ++ leBytes 1 (if v4 then 0 else mask) ++ zeros 1 ++
      (List.range 4).flatMap (fun j => match KV.find h.experts j with
        | none => leBytes 2 0xFFFF ++ zeros 6
        | some x => leBytes 2 x.expert ++ zeros 2 ++ leBytes 4 x.live) ++ zeros 24
    let a := (e.lslot slot).lvAddr
    let e := if a = 0 then e else e.storeFor h.polder (a + 64 * (step % 2)) rec_
    if low.isEmpty then e
    else if v4 then (e.bump Reg.semLowvis 0 16 low.length).raise 0x0473 (arg4 slot 0 low.length) (some h.polder) h.tag
    else (e.bump Reg.semLowvis 16 16 low.length).raise 0x0474 (arg4 slot 0 low.length) (some h.polder) h.tag

/-- Forms the dot value of every landed row, in landing-place order (R216). -/
def Eng.formDots (m : Mem) (slot step : Nat) (e : Eng) : Eng :=
  match e.role slot step with
  | none => e
  | some h =>
    let c := e.cfgOf slot
    let rr := e.runRows c
    let dotOf (x : HostExpert) (i : Nat) (p : Place) : Place :=
      if p.void then p
      else
        let out := ((x.runs[i / rr]?).map (·.outBuf)).getD ⟨0, 0, 0⟩
        let b := e.bentry (out.handle % 2 ^ 22)
        if b.count = 0 || b.gen ≠ out.handle / 2 ^ 26 then { p with noDot := true }
        else match rowAddr rr c.rowBytes false x.bwdRuns i, rowAddr rr c.rowBytes true x.runs i with
          | some g, some y => { p with dot := some (hemDot c.askuc (e.rowAt m c g) (e.rowAt m c y)) }
          | _, _ => { p with noDot := true }
    let ex : KV HostExpert := h.experts.map (fun je => (je.1, { je.2 with places := je.2.places.zipIdx.map (fun p => dotOf je.2 p.2 p.1) }))
    let absent := (ex.map (fun je => (je.2.places.filter (·.noDot)).length)).sum
    let read := (ex.map (fun je => (je.2.places.filter (·.dot.isSome)).length)).sum
    let e := ((e.setRole slot step (fun h => { h with experts := ex })).accTime h.polder).accHbm h.polder (2 * c.rowBytes * read)
    if absent > 0 then e.raise 0x0472 (arg4 slot 0 absent) (some h.polder) h.tag else e

/-- The backward structures, once the last row has landed: low-visit record, group table, shape record, dots (R174, R215,
R216, R223). -/
def Eng.checkBwdReady (m : Mem) (slot step : Nat) (e : Eng) : Eng :=
  match e.role slot step with
  | none => e
  | some h =>
    if h.bwdStarted && !h.bwdReady && h.allBwdLanded then
      let c := e.cfgOf slot
      let t := groupTable e.fmt1 true c (e.runRows c) (e.lslot slot).epoch h
      match e.takeTable h true t.length with
      | (none, e) => e
      | (some b, e) =>
        let e := (e.lowVisit slot step).storeFor h.polder b.addr t
        let e := e.writeShape h.polder (e.shapeAt slot step true) (shapeRecord e.fmt1 true c.askuc (e.lslot slot).epoch b.addr h)
        (e.setRole slot step (fun h => { h with bwdReady := true, bwdGtable := some b })).formDots m slot step
    else e

end Sys2Proof.Machine
end

