-- ==== Sys2Proof/Machine/Source.lean ====
section
/-! DEFINITION. The source role of a ROUTE: combine areas (R203, R204), bids and rounds (R164, R165), pairs and weights
(R151, R170), pleats and their chunks (R168, R169), the route record (R170), and how a source role ends early (R167). -/

namespace Sys2Proof.Machine

/-! ### Combine areas (R203, R204) -/


/-- Request for `rows` rows of `w` bytes, no row over two buffers; nothing for a part of no size. -/
def rowRequests (rows w : Nat) : List (Nat × Nat × Nat × Nat) :=
  if rows * w = 0 then [] else let p := fitRows rows w; [(p.1, p.2, 1, 1)]

/-- Row size of the saved router state (R203). -/
def savedRowBytes (c : SlotCfg) : Nat :=
  (if c.hier then 64 + 256 * c.kp else 256 * c.panels) + (if c.twoLayer then 8 * c.h else 0)

/-- Requests of the parts of a combine area: accumulator, stage, bitmap, saved router state (Table 9-1). -/
def areaParts (c : SlotCfg) (tokens : Nat) (detm bwd consent : Bool) : List (List (Nat × Nat × Nat × Nat)) :=
  let exact := detm || c.askuc
  let pairs := tokens * c.pmax
  [ if !exact || bwd then rowRequests tokens (4 * c.d) else [],
    if exact then rowRequests pairs (wireLen (c.wireFmt % 16) c.d) else [],
    rowRequests 1 (ceilDiv pairs 8),
    if !bwd && consent then rowRequests tokens (savedRowBytes c) else [] ]

/-- Buffers that a list of requests takes. -/
def requestCount (l : List (Nat × Nat × Nat × Nat)) : Nat := (l.map (fun r => r.2.1)).sum

/-- What taking a combine area answers. -/
inductive AreaAns where
  | got (a : Area) (e : Eng)
  | quota (pool : Nat)
  | wait (pool : Nat)

/-- Takes the combine area of a command, whole or not at all (log 56, DESIGN CHOICE). -/
def Eng.takeArea (cmd polder : Nat) (c : SlotCfg) (tokens : Nat) (detm bwd : Bool) (e : Eng) : AreaAns :=
  let parts := areaParts c tokens detm bwd (e.consentClass polder)
  match e.bobTakeAll (some (.area cmd)) polder (e.reservedClass polder) parts.flatten with
  | .got l e =>
    let n := parts.map requestCount
    let acc := n.getD 0 0
    let stage := n.getD 1 0
    let bits := n.getD 2 0
    let map := (l.drop (acc + stage)).take bits
    .got { live := true, bufs := l.take acc, bits := map, stageBufs := (l.drop acc).take stage, saved := l.drop (acc + stage + bits) }
      (map.foldl (fun (e : Eng) b => e.storeFor polder b.addr (zeros (ceilDiv (tokens * c.pmax) 8))) e)
  | .quota p => .quota p
  | .wait p => .wait p

/-- Releases a wire stage (R184). -/
def Eng.releaseStage (cmd : Nat) (bwd : Bool) (e : Eng) : Eng :=
  match e.workById cmd with
  | none => e
  | some w => (e.engDecAll (w.stageOf bwd)).setWork cmd (fun w => if bwd then { w with bwdStage := [] } else { w with stage := [] })

/-- Raises an event of a step, once per command of its forward or backward half: a fitting event with its total, one of class
0x02 without a line. -/
def Eng.raiseHalf (cmd : Nat) (bwd : Bool) (code arg : Nat) (e : Eng) : Eng :=
  match e.workById cmd with
  | none => e
  | some w =>
    let key := code + bwd.toNat * 2 ^ 16
    if w.raised.contains key then e
    else (e.setWork cmd (fun w => { w with raised := w.raised ++ [key] })).raise code arg (some w.polder) w.tag

/-- A wire stage is not to be had: each copy is converted as it is sent (R184). -/
def Eng.stageFallback (cmd slot : Nat) (bwd : Bool) (e : Eng) : Eng :=
  (e.bump Reg.shuErr 0 16 1).raiseHalf cmd bwd 0x0460 (arg4 slot 0 1)

/-- The wire stage of a ROUTE or ROUTE_BWD: taken from the quota, every token's row converted into it once; without it each
copy is converted as it is sent. While fitting runs, a ROUTE's stage waits for an empty pool (R184, R267; log 34, DEDUCED;
log 56, DESIGN CHOICE). -/
def Eng.takeStage (m : Mem) (cmd : Nat) (bwd : Bool) (e : Eng) : Eng :=
  match e.workById cmd with
  | none => e
  | some w =>
    let c := e.cfgOf w.slot
    let code := c.wireFmt % 16
    let n := wireLen code c.d
    let l := rowRequests w.tokens n
    match e.bobTakeAll (if bwd then none else some (.stage cmd)) w.polder (e.reservedClass w.polder) l with
    | .got l e =>
      let e := ((e.endWait (.stage cmd)).setWork cmd (fun w => if bwd then { w with bwdStage := l } else { w with stage := l })).accHbm
        w.polder (w.tokens * c.rowBytes)
      (List.range w.tokens).foldl (fun (e : Eng) t => match bufRow l n t with
        | some a => e.storeFor w.polder a (e.wireRow m w bwd code t)
        | none => e) e
    | .quota p => ((e.endWait (.stage cmd)).bobQuotaEvent w.polder w.slot p w.tag).stageFallback cmd w.slot bwd
    | .wait _ =>
      if bwd then e.stageFallback cmd w.slot bwd
      else e.noteWait { pools := l.map (·.1), who := .stage cmd, polder := w.polder, slot := w.slot, tag := w.tag, since := e.now }

/-- Chunks are assembled before a wire stage that waits for buffers was to be had (R184, R267; log 34, DEDUCED). -/
def Eng.giveUpStage (cmd : Nat) (e : Eng) : Eng :=
  if e.bob.waits.any (fun w => w.who == .stage cmd) then
    (e.endWait (.stage cmd)).stageFallback cmd (((e.workById cmd).map (·.slot)).getD 0) false
  else e

/-- Drops what is kept of a step's routing, with every buffer it holds. -/
def Eng.dropWork (cmd : Nat) (e : Eng) : Eng :=
  let e := (((((e.releaseArea cmd false).releaseArea cmd true).releaseSaved cmd).releaseStage cmd false).releaseStage cmd true).endWait
    (.stage cmd)
  { e with works := e.works.filter (fun w => w.cmd != cmd) }

/-- Stage buffers that `placed` rows of `w` bytes need of those held (R203). -/
def stageKeep (l : List Buf) (placed w : Nat) : Nat := match l with
  | [] => 0
  | b :: _ => ceilDiv placed (max 1 (b.size / w))

/-! ### Bids (R162 to R165) -/

/-- Refusal that a source gives itself where no port leads to the host (R162); no frame carries it. -/
def resUnreach : Nat := 4 * 2 ^ 28

/-- Selection of a token. -/
def RouteWork.tok (w : RouteWork) (t : Nat) : TokSel := KV.get {} w.sel t

/-- A fitting frame header of a source. -/
def RouteWork.frame (w : RouteWork) (chip dst round fflags count : Nat) : FitHdr :=
  { kind := 1, slot := w.slot, epoch := w.epoch, step := w.step, src := chip, dst := dst, round := round
    fflags := fflags + w.detm.toNat * 8, count := count }

/-- The bid for an entry of a token's list, refused at once where its host is lost or out of reach (R162, R364). -/
def Eng.mkBid (e : Eng) (slot round token choice rank : Nat) (p : Pref) : SrcBid :=
  let x := e.hostOf slot p.expert
  ⟨token, choice, rank, round, x, match e.destOf slot x with
    | none => some resAbsent
    | some d => if e.reachable d then none else some resUnreach⟩

/-- The bid record of a bid (Table 7-2). -/
def RouteWork.bidRec (w : RouteWork) (b : SrcBid) : BidRec :=
  let t := w.tok b.token
  let p := t.prefs.getD b.rank ⟨0, 0, fZero⟩
  { token := b.token, expert := p.expert, rank := b.rank, bflags := (decide (b.rank ≥ t.choices)).toNat, prio := p.prio }

/-- Bids join a source role; those out of reach are counted (R162). -/
def Eng.addBids (cmd : Nat) (bids : List SrcBid) (e : Eng) : Eng :=
  let n := (bids.filter (fun b => b.answer == some resUnreach)).length
  (if n = 0 then e else e.bump32 Reg.fitUnreachable n).setWork cmd (fun w =>
    { w with bids := w.bids ++ bids, unreach := w.unreach + n })

/-- Sends bids to their hosts, frame by frame in ascending chip order (log 63, DESIGN CHOICE). -/
def Eng.sendBids (w : RouteWork) (round : Nat) (bids : List SrcBid) (e : Eng) : Eng :=
  let live := (bids.filter (·.answer.isNone)).filterMap (fun b => (e.destOf w.slot b.dest).map (fun d => (d, b)))
  let dests := sortBy (fun (a b : Nat) => a ≤ b) (live.map (·.1)).eraseDups
  dests.foldl (fun e d =>
    let l := (live.filter (fun p => p.1 == d)).map (fun p => w.bidRec p.2)
    (Sys2Proof.groups 4092 l.length l).foldl (fun e p =>
      e.sendFrame w.cmd w.polder (w.frame e.chip d round 0 p.length) (p.flatMap BidRec.bytes)) e) e

/-- END frames of a round to the host set (R164, R167; log 63, DESIGN CHOICE). -/
def Eng.sendEnds (w : RouteWork) (round : Nat) (last cancelled : Bool) (e : Eng) : Eng :=
  (e.hostSet w.slot).foldl (fun e d =>
    e.sendFrame w.cmd w.polder (w.frame e.chip d round (1 + last.toNat * 2 + cancelled.toNat * 4) 0) []) e

/-- One round only: expert choice and the reserved class (R150, R175). -/
def Eng.oneRound (e : Eng) (w : RouteWork) : Bool := (e.cfgOf w.slot).expertChoice || e.reservedClass w.polder

/-- Alternates of a token that no bid has used, in list order. -/
def RouteWork.unused (w : RouteWork) (t : Nat) : List Nat :=
  let s := w.tok t
  ((List.range s.prefs.length).drop s.choices).filter (fun r => !w.bids.any (fun b => b.token == t && b.rank == r))

/-- Whether the source will bid no more after its latest round (R164). -/
def Eng.lastRound (e : Eng) (w : RouteWork) : Bool :=
  w.round ≥ 3 || e.oneRound w || !w.bids.any (fun b => b.round == w.round && !(w.unused b.token).isEmpty)

/-- Whether an answer is a refusal. -/
def refused (a : Option Nat) : Bool := match a with
  | some r => !bit r 31
  | none => false

/-- The bids of the next round: every refused entry moves to its token's next unused alternate, the higher-ranked first
(R165). -/
def Eng.nextBids (e : Eng) (w : RouteWork) : List SrcBid :=
  let ref := w.bids.filter (fun b => b.round == w.round && refused b.answer)
  (sortBy (fun (a b : Nat) => a ≤ b) (ref.map (·.token)).eraseDups).flatMap (fun t =>
    let mine := sortBy (fun (a b : SrcBid) => a.rank ≤ b.rank) (ref.filter (fun b => b.token == t))
    (mine.zip (w.unused t)).map (fun p => e.mkBid w.slot (w.round + 1) t p.1.choice p.2 ((w.tok t).prefs.getD p.2 ⟨0, 0, fZero⟩)))

/-! ### Pairs and weights (R151, R170) -/

/-- A token's pairs in rank order, weights apart. -/
def Eng.tokenPairs (e : Eng) (w : RouteWork) (t : Nat) : List Pair :=
  let s := w.tok t
  let ec := (e.cfgOf w.slot).expertChoice
  let mine := w.bids.filter (fun b => b.token == t)
  let ofChoice (i : Nat) : Option Pair :=
    match (mine.filter (fun b => b.choice == i)).getLast? with
    | none => none
    | some b =>
      match b.answer with
      | some r =>
        if bit r 31 then
          some ⟨t, (s.prefs.getD b.rank ⟨0, 0, fZero⟩).expert, b.rank,
            1 + (decide (b.rank ≥ s.choices)).toNat * 2 + b.round * 8, (s.prefs.getD b.rank ⟨0, 0, fZero⟩).prob, b.dest, r % 2 ^ 26⟩
        else if ec then none
        else
          let p := s.prefs.getD i ⟨0, 0, fZero⟩
          some ⟨t, p.expert, i, 4, fZero, e.hostOf w.slot p.expert, 0⟩
      | none => none
  sortBy (fun a b => a.rank ≤ b.rank) ((List.range s.prefs.length).filterMap ofChoice)

/-- PLACED, and whether a pair is awaited by its token (R212). -/
def Pair.placed (p : Pair) : Bool := bit p.pflags 0
def Pair.awaited (p : Pair) : Bool := p.placed && !bit p.pflags 5

/-- Combine weights of a token's pairs (R151). -/
def finalWeights (c : SlotCfg) (h : HemSet) (l : List Pair) : List Pair :=
  if c.renorm then
    let sum := (l.filter (·.placed)).foldl (fun s p => fadd s p.weight) fZero
    l.map (fun p => if p.placed then { p with weight := Softmax.prob h sum p.weight } else p)
  else l

/-! ### The route record (R170) -/

/-- Offsets of the tables, at the sizes that the buffer is made for, and its length. -/
def recordOffsets (c : SlotCfg) (tokens jobChips : Nat) : Nat × Nat × Nat × Nat :=
  let n := tokens * c.pmax
  let pair := 64 + lineUp (8 * tokens)
  let order := pair + lineUp (16 * n)
  let pleat := order + lineUp (4 * n)
  (pair, order, pleat, pleat + lineUp (16 * min n jobChips))

/-- One pair entry (Table 7-5). -/
def Pair.bytes (p : Pair) : List Byte :=
  leBytes 2 p.expert ++ leBytes 1 p.rank ++ leBytes 1 p.pflags ++ leBytes 4 p.weight.toNat ++ leBytes 4 p.dest ++ leBytes 4 p.ltag

/-- Token table entries: RFLAGS, pairs, first pair. -/
def tokenTable (w : RouteWork) : Nat → Nat → Nat → List Byte
  | 0, _, _ => []
  | n + 1, t, first =>
    let k := (w.pairs.filter (fun p => p.token == t)).length
    leBytes 1 (w.tok t).rflags ++ leBytes 1 k ++ zeros 2 ++ leBytes 4 first ++ tokenTable w n (t + 1) (first + k)

/-- The record, header and tables; `final` and `cancelled` of HFLAGS (Table 7-4). -/
def routeRecord (c : SlotCfg) (w : RouteWork) (jobChips : Nat) (final cancelled : Bool) : List Byte :=
  let (pair, order, pleat, len) := recordOffsets c w.tokens jobChips
  let spilled := (w.pairs.filter (fun p => p.placed && bit p.pflags 1)).length
  let dropped := (w.pairs.filter (fun p => bit p.pflags 2)).length
  let head := leBytes 1 w.slot ++ leBytes 1 1 ++ leBytes 2 w.epoch ++ leBytes 4 w.step ++ leBytes 4 w.tokens ++
    leBytes 4 w.pairs.length ++ leBytes 4 w.wgen ++ leBytes 4 spilled ++ leBytes 4 dropped ++ leBytes 4 w.pleats.length ++
    leBytes 4 pair ++ leBytes 4 order ++ leBytes 4 pleat ++ leBytes 1 (final.toNat + w.detm.toNat * 2 + cancelled.toNat * 4)
  fitTo 64 head ++ fitTo (pair - 64) (tokenTable w w.tokens 0 0) ++ fitTo (order - pair) (w.pairs.flatMap Pair.bytes) ++
  fitTo (pleat - order) (w.order.flatMap (leBytes 4)) ++
  fitTo (len - pleat) (w.pleats.flatMap (fun p => leBytes 4 p.dest ++ leBytes 4 p.pairs ++ leBytes 4 p.first ++ leBytes 4 p.chunks))

/-- Writes the route record of a work. -/
def Eng.writeRecord (cmd : Nat) (final cancelled : Bool) (e : Eng) : Eng :=
  match e.workById cmd with
  | none => e
  | some w => e.storeFor w.polder w.routes (routeRecord (e.cfgOf w.slot) w e.topo.jobChips final cancelled)

/-! ### Fitting at the source (R165, R388, R438) -/

/-- Raises a fitting event of a step with its total, once per command, where there is something to tell. -/
def Eng.raiseWork (cmd code n : Nat) (e : Eng) : Eng :=
  match e.workById cmd with
  | none => e
  | some w => if n = 0 then e else e.raiseHalf cmd false code (arg4 w.slot 0 n)

/-- Fitting closes: weights, counts, events; the pleat sort is next (R151, R165, R168; log 63, DESIGN CHOICE). -/
def Eng.closeSource (cmd : Nat) (e : Eng) : Eng :=
  match e.workById cmd with
  | none => e
  | some w =>
    let c := e.cfgOf w.slot
    let h := e.hemSet c
    let pairs := (List.range w.tokens).flatMap (fun t => finalWeights c h (e.tokenPairs w t))
    let placed := (pairs.filter (·.placed)).length
    let spilled := (pairs.filter (fun p => p.placed && bit p.pflags 1)).length
    let dropped := (pairs.filter (fun p => bit p.pflags 2)).length
    let keep := stageKeep w.area.stageBufs placed (wireLen (c.wireFmt % 16) c.d)
    let e := e.engDecAll (w.area.stageBufs.drop keep)
    let e := e.setWork cmd (fun w => { w with
      pairs := pairs, phase := .sorting, area := { w.area with stageBufs := w.area.stageBufs.take keep } })
    let e := e.setCmd cmd (fun c => { c with res := { c.res with placed := placed, spilled := spilled, dropped := dropped, rounds := w.round } })
    let e := if dropped = 0 then e else e.bump32 Reg.fitDropped dropped
    let e := e.srcCount w.slot (fun x => { x with
      placed := (x.placed + placed) % 2 ^ 64, spilled := (x.spilled + spilled) % 2 ^ 64, dropped := (x.dropped + dropped) % 2 ^ 64 })
    let e := e.setStep w.slot w.step (fun x => { x with placed := placed, spilled := spilled, dropped := dropped, tokens := w.tokens })
    ((e.raiseWork cmd 0x0450 dropped).raiseWork cmd 0x0451 spilled).raiseWork cmd 0x0452 w.unreach

/-- Opens rounds as the answers allow, and closes fitting (R165). -/
def Eng.advanceSource (cmd : Nat) : Nat → Eng → Eng
  | 0, e => e
  | fuel + 1, e =>
    match e.workById cmd with
    | none => e
    | some w =>
      if w.phase != .fitting || w.bids.any (·.answer.isNone) then e
      else
        let e := e.gauge gsFittingRound w.round (some w.polder) (e.now - w.roundNs)
        let next := if w.lastSent then [] else e.nextBids w
        if next.isEmpty then
          (if w.lastSent then e else (e.sendEnds w (w.round + 1) true false).setWork cmd (fun w => { w with lastSent := true })).closeSource cmd
        else
          let r := w.round + 1
          let e := (e.setWork cmd (fun w => { w with round := r, roundNs := e.now })).addBids cmd next
          let e := e.setLslot w.slot (fun l => { l with lastRound := r })
          match e.workById cmd with
          | none => e
          | some w =>
            let last := e.lastRound w
            let e := ((e.sendBids w r next).sendEnds w r last false).setWork cmd (fun w => { w with lastSent := last })
            Eng.advanceSource cmd fuel e

/-- Grant records to a source: each open bid they name takes its answer (R165). -/
def Eng.takeGrants (h : FitHdr) (recs : List GrantRec) (e : Eng) : Eng :=
  match e.works.find? (fun w => w.slot == h.slot && w.step == h.step && w.epoch == h.epoch) with
  | none => e
  | some w =>
    let answer (b : SrcBid) : SrcBid :=
      if b.answer.isNone && (b.dest == h.src || e.destOf w.slot b.dest == some h.src) then
        match recs.find? (fun g => g.token == b.token && g.rank == b.rank) with
        | some g => { b with answer := some g.result }
        | none => b
      else b
    (e.setWork w.cmd (fun w => { w with bids := w.bids.map answer })).advanceSource w.cmd 4

/-! ### Selection of tiles (R110, R146, R149, R150) -/

/-- Tokens of a tile. -/
def tileTokens (c : SlotCfg) (tokens tile : Nat) : List Nat :=
  (List.range (min c.tile (tokens - tile * c.tile))).map (fun i => tile * c.tile + i)

/-- After the last tile: END frames, the wire stage, and what can close (R164, R165, R184). -/
def Eng.endSelection (m : Mem) (cmd : Nat) (e : Eng) : Eng :=
  match e.workById cmd with
  | none => e
  | some w =>
    let gone := (w.sel.map (fun p => p.2.zeroWeight)).sum
    let e := (e.raiseWork cmd 0x0440 gone).takeStage m cmd false
    match e.workById cmd with
    | none => e
    | some w =>
      let last := e.lastRound w
      ((e.sendEnds w 1 last false).setWork cmd (fun w => { w with phase := .fitting, lastSent := last })).advanceSource cmd 4

/-- A row of the saved router state: its kind-1 record, then a and b of a two-layer router (R203). -/
def savedRow (c : SlotCfg) (s : TokSel) : List Byte :=
  fitTo (savedRowBytes c) (scoreRecord c 1 s ++ (s.a ++ s.b).flatMap f32Bytes)

/-- Writes the saved router state of tokens, where the area has a part for it (R203). -/
def Eng.saveRows (w : RouteWork) (c : SlotCfg) (sel : List (Nat × TokSel)) (e : Eng) : Eng :=
  sel.foldl (fun (e : Eng) p => match bufRow w.area.saved (savedRowBytes c) p.1 with
    | some a => e.storeFor w.polder a (savedRow c p.2)
    | none => e) e

/-- Selects one tile and bids for it in round 1. -/
def Eng.selectTile (m : Mem) (c : Cmd) (tile : Nat) (e : Eng) : Eng :=
  match e.workById c.id with
  | none => e
  | some w =>
    let cfg := e.cfgOf w.slot
    let toks := tileTokens cfg w.tokens tile
    if w.phase != .scoring || toks.isEmpty || w.tilesDone.contains tile then e
    else
      let (sel, raised, e) := e.scoreRows m c cfg toks w.raised
      let e := (e.dropOuts c.id tile).saveRows w cfg sel
      let bids := sel.flatMap (fun p =>
        let n := if cfg.expertChoice then p.2.prefs.length else p.2.choices
        (p.2.prefs.take n).zipIdx.map (fun q => e.mkBid w.slot 1 p.1 q.2 q.2 q.1))
      let e := e.setWork c.id (fun w => { w with
        raised := raised, tilesDone := w.tilesDone ++ [tile], sel := sel.foldl (fun k p => KV.put k p.1 p.2) w.sel })
      let e := e.addBids c.id bids
      match e.workById c.id with
      | none => e
      | some w =>
        let e := e.sendBids w 1 bids
        if w.sel.length = w.tokens then e.endSelection m c.id else e

/-! ### Pleats (R168, R169) -/

/-- Chunk flags of a stream's chunk (Table 8-2). -/
def chunkFlags (last detm sr : Bool) : Nat := last.toNat + detm.toNat * 4 + sr.toNat * 8

/-- Pieces of work of a stream of `len` bytes to a chip. -/
def Eng.streamJobs (e : Eng) (h : ChunkHdr) (detm sr : Bool) (len : Nat) (src : ChunkSrc) : List Job :=
  let cs := cuts len (e.chunkMax h.dst)
  cs.zipIdx.map (fun p => Job.chunk { h with
    cflags := chunkFlags (decide (p.2 + 1 = cs.length)) detm (sr && e.endVersion h.dst ≥ 3), offset := p.1.1, plen := p.1.2, pleatLen := len } src p.1.2)

/-- Work of a command joins its Shuttle channel. -/
def Eng.addJobs (cmd : Nat) (l : List Job) (e : Eng) : Eng :=
  { e with chans := e.chans.map (fun kc => if kc.2.cmd = cmd then
      (kc.1, { kc.2 with jobs := kc.2.jobs ++ l, since := if kc.2.jobs.isEmpty then e.now else kc.2.since }) else kc) }

/-- Bytes that a command sends, and the farthest class it sends to, for the solo estimate (Table 13-12). -/
def Eng.noteSent (cmd n dst : Nat) (e : Eng) : Eng :=
  e.setCmd cmd (fun c => { c with res := { c.res with bytes := c.res.bytes + n, far := max c.res.far (hopClass e.chip dst) } })

/-- Jobs of a work's pleats, forward or backward; pleats to chips that are nowhere now are left out. -/
def Eng.pleatJobs (w : RouteWork) (cmd epoch : Nat) (detm bwd : Bool) (e : Eng) : Eng :=
  let c := e.cfgOf w.slot
  w.pleats.foldl (fun (e : Eng) p => match e.destOf w.slot p.dest with
    | none => e
    | some d =>
      let e := e.noteFallback w.slot c d
      let code := e.wireCode c d
      let len := streamLen (if bwd then 2 else 1) p.pairs (wireLen code c.d)
      let h : ChunkHdr := { kind := if bwd then 3 else 1, wfmt := code + (if bit c.wireFmt 4 then 16 else 0), epoch := epoch, step := w.step
                            src := e.chip, dst := d, slot := w.slot, polder := w.polder }
      (e.noteSent cmd len d).addJobs cmd (e.streamJobs h detm (bwd && !bit c.wireFmt 4) len
        (if bwd then .bwdDispatch w.cmd else .dispatch w.cmd))) e

/-- The pleat sort ends: order and pleat tables, the record, and the chunks to send (R168 to R170). -/
def Eng.pleat (cmd : Nat) (e : Eng) : Eng :=
  match e.workById cmd with
  | none => e
  | some w =>
    if w.phase != .sorting then e
    else
      let c := e.cfgOf w.slot
      let keyed := (w.pairs.zipIdx.filter (fun p => p.1.placed)).map (fun p => (p.1.dest * 2 ^ 26 + p.1.ltag, p.2, p.1.dest))
      let sorted := sortBy (fun (a b : Nat × Nat × Nat) => a.1 ≤ b.1) keyed
      let dests := (sorted.map (fun p => p.2.2)).eraseDups
      let pleats := dests.foldl (fun (acc : List Pleat × Nat) d =>
        let n := (sorted.filter (fun p => p.2.2 == d)).length
        let dst := (e.destOf w.slot d).getD d
        let code := e.wireCode c dst
        (acc.1 ++ [⟨d, n, acc.2, ceilDiv (streamLen 1 n (wireLen code c.d)) (e.chunkMax dst), code⟩], acc.2 + n)) ([], 0)
      let w' := { w with order := sorted.map (fun p => p.2.1), pleats := pleats.1, phase := .sending }
      ((((e.setWork cmd (fun _ => w')).giveUpStage cmd).accTime w.polder).writeRecord cmd true false).pleatJobs w' cmd w.epoch w.detm false

/-- Chunks of a command that have not been acknowledged, or not left yet. -/
def Eng.chunksOpen (e : Eng) (cmd : Nat) : Bool :=
  e.chans.any (fun kc => kc.2.cmd == cmd && !kc.2.jobs.isEmpty) || e.outq.any (fun o => o.cmd == cmd && o.hdr.kind != 0) ||
  e.tt.any (fun kt => kt.2.cmd == cmd && kt.2.hdr.kind != 0)

/-- Chunks of a command that have not left yet. -/
def Eng.chunksUnsent (e : Eng) (cmd : Nat) : Bool :=
  e.chans.any (fun kc => kc.2.cmd == cmd && !kc.2.jobs.isEmpty) || e.outq.any (fun o => o.cmd == cmd && o.hdr.kind != 0)

/-- Forgets the chunks of a command that are still to leave or unacknowledged. -/
def Eng.dropChunks (cmd : Nat) (e : Eng) : Eng :=
  { e with
    outq := e.outq.filter (fun o => o.cmd != cmd || o.hdr.kind == 0)
    tt := e.tt.filter (fun kt => kt.2.cmd != cmd || kt.2.hdr.kind == 0)
    chans := e.chans.map (fun kc => if kc.2.cmd = cmd then (kc.1, { kc.2 with jobs := [] }) else kc) }

/-- A void list of landing tags (R191, KIND 7) to a host. -/
def Eng.sendVoid (w : RouteWork) (dst : Nat) (tags : List Nat) (e : Eng) : Eng :=
  let b := wordList tags
  e.sendNew ⟨w.cmd, { kind := 7, epoch := w.epoch, step := w.step, src := e.chip, dst := dst, slot := w.slot, polder := w.polder
                      plen := b.length, pleatLen := 4 * tags.length, cflags := chunkFlags true w.detm false }, .bytes b⟩ b

/-! ### Ending a source role early (R161, R167) -/

/-- A ROUTE that runs no fitting to a close: its host role starts, and END with LAST and CANCELLED goes out in round 1. -/
def Eng.routeAborted (c : Cmd) (e : Eng) : Eng :=
  match KV.find e.slotCfg c.d.slot with
  | none => e
  | some _ =>
    let tokens := c.count.getD c.d.count
    let e := e.startRole c.d.slot c.d.step c.polder tokens c.d.tag e.detm
    let w : RouteWork := { cmd := noCmd, polder := c.polder, slot := c.d.slot, step := c.d.step, epoch := c.epoch, detm := c.detm
                           seed := c.seed, tag := c.d.tag, tokens := tokens, rows := 0, mask := 0, routes := 0 }
    e.sendEnds w 1 true true

/-- A running ROUTE ends by CANCEL or teardown: its peers are told, its record marked, its area released (R167, R204;
log 63, DESIGN CHOICE). -/
def Eng.cancelRoute (c : Cmd) (e : Eng) : Eng :=
  match e.workById c.id with
  | none => e.routeAborted c
  | some w =>
    let e := if w.phase == .areaWait then e.routeAborted c
      else
        let e := e.sendEnds w w.round true true
        e.writeRecord c.id (w.phase == .sorting || w.phase == .sending || w.phase == .sent) true
    ((e.dropChunks c.id).dropWork c.id).endWait (.area c.id)

end Sys2Proof.Machine
end

