-- ==== Sys2Proof/Machine/Seamer.lean ====
section
/-! DEFINITION. The Seamer: returned rows and their pairs (R208, R209), the forward combine (R211 to R214), the backward
combine, dlogits and router gradients (R218 to R222), and RETURN on the host (R205, R207, R217). -/

namespace Sys2Proof.Machine

/-! ### Returned rows (R208 to R211) -/

/-- The live area of a returned chunk's POLDER, SLOT, STEP and EPOCH (R208). -/
def Eng.areaFor (e : Eng) (h : ChunkHdr) (bwd : Bool) : Option RouteWork :=
  e.works.find? (fun w => w.polder == h.polder && w.slot == h.slot && w.step == h.step &&
    (if bwd then w.bwdArea.live && w.bwdEpoch == h.epoch else w.area.live && w.epoch == h.epoch))

/-- Place of a pair in its area's stage: its number among the placed pairs (R203; log 56, DESIGN CHOICE). -/
def RouteWork.stageIndex (w : RouteWork) (i : Nat) : Nat := ((w.pairs.take i).filter (·.placed)).length

/-- Sets a pair's bit in the pair bitmap in HBM (R203, R208; log 56, DESIGN CHOICE). -/
def Eng.writeBit (cmd : Nat) (bwd : Bool) (i : Nat) (e : Eng) : Eng :=
  match e.workById cmd with
  | none => e
  | some w => match bufRow (w.areaOf bwd).bits 1 (i / 8) with
    | some a => e.storeFor w.polder a (leBytes 1 (ofBits (((w.areaOf bwd).got.filter (fun k => k / 8 == i / 8)).map (· % 8))))
    | none => e

/-- A contribution is dropped (R214, R340). -/
def Eng.dropPair (cmd : Nat) (bwd : Bool) (i : Nat) (e : Eng) : Eng :=
  ((e.setWork cmd (fun w => w.setArea bwd (fun a => { a with
    got := if a.got.contains i then a.got else a.got ++ [i], bad := if a.bad.contains i then a.bad else a.bad ++ [i] }))).writeBit
      cmd bwd i).voidPromise

/-- Combine order is fixed: in ASKUC slots, and in the half of a step that was routed under DETM (R211, R218). -/
def Eng.exactOrder (e : Eng) (w : RouteWork) (bwd : Bool) : Bool := (if bwd then w.bwdDetm else w.detm) || (e.cfgOf w.slot).askuc

/-- One contribution to a row of sums: fused in native slots, two roundings in ASKUC slots; weight none is 1 (R211, R218). -/
def addRow (askuc : Bool) (weight : Option F32) (s y : List F32) : List F32 :=
  match weight with
  | none => (s.zip y).map (fun p => fadd p.1 p.2)
  | some w => (s.zip y).map (fun p => if askuc then fadd p.1 (fmul w p.2) else ffma w p.2 p.1)

/-- Every pair that a token awaits has arrived, or is dropped. -/
def RouteWork.tokenReady (w : RouteWork) (bwd : Bool) (t : Nat) : Bool :=
  w.pairs.zipIdx.all (fun p => p.1.token != t || !p.1.awaited || (w.areaOf bwd).got.contains p.2)

/-- Writes a token's accumulator row to the area in HBM (R203). -/
def Eng.writeAcc (cmd : Nat) (bwd : Bool) (t : Nat) (s : List F32) (e : Eng) : Eng :=
  match e.workById cmd with
  | none => e
  | some w => match bufRow (w.areaOf bwd).bufs (4 * (e.cfgOf w.slot).d) t with
    | some a => e.storeFor w.polder a (s.flatMap f32Bytes)
    | none => e

/-- A matched row, in wire format `raw`, enters the combine: into the accumulator, or as it came into its pair's stage place.
The last contribution to a token of a running COMBINE is not written back (R203, R211, R218; log 38, DEDUCED;
log 56, DESIGN CHOICE). -/
def Eng.takeRow (cmd : Nat) (bwd : Bool) (i : Nat) (raw : List Byte) (y : List F32) (e : Eng) : Eng :=
  match e.workById cmd with
  | none => e
  | some w =>
    let p := w.pairs.getD i ⟨0, 0, 0, 0, fZero, 0, 0⟩
    let c := e.cfgOf w.slot
    let s := addRow false (if bwd then none else some p.weight) (KV.get (List.replicate c.d fZero) (w.areaOf bwd).acc p.token) y
    let e := if e.exactOrder w bwd || (KV.find (w.areaOf bwd).acc p.token).isNone then e else e.accHbm w.polder (4 * c.d)
    if e.exactOrder w bwd then
      let e := (e.setWork cmd (fun w => w.setArea bwd (fun a => { a with got := a.got ++ [i], stage := KV.put a.stage i y }))).writeBit cmd bwd i
      match bufRow (w.areaOf bwd).stageBufs (wireLen (c.wireFmt % 16) c.d) (w.stageIndex i) with
      | some a => e.storeFor w.polder a raw
      | none => e
    else
      let e := (e.setWork cmd (fun w => w.setArea bwd (fun a => { a with got := a.got ++ [i], acc := KV.put a.acc p.token s }))).writeBit cmd bwd i
      if !bwd && w.combineCmd.isSome && (e.workById cmd).any (fun w => w.tokenReady false p.token) then e
      else e.writeAcc cmd bwd p.token s

/-- What a returned stream's chunk brings: each row complete with it and not taken before is matched to its pair
(log 56, DESIGN CHOICE). -/
def Eng.takeReturn (h : ChunkHdr) (payload : List Byte) (port : Option Nat) (bwd : Bool) (e : Eng) : Eng :=
  match e.areaFor h bwd with
  | none =>
    let rows := rowsEnding (if bwd then 2 else 1) h.pleatLen (wireLen (h.wfmt % 16) (e.cfgOf h.slot).d) h.offset h.plen
    let key := h.step * 2 ^ 17 + h.epoch * 2 + bwd.toNat
    if rows = 0 then e
    else
      let e := e.bump32 Reg.semStale rows
      if (e.lslot h.slot).staleTold.contains key then e
      else (e.setLslot h.slot (fun l => { l with staleTold := (key :: l.staleTold).take 8 })).raise 0x0470 (arg4 h.slot 0 rows) (some h.polder) 0
  | some w =>
    let c := e.cfgOf w.slot
    let code := h.wfmt % 16
    let wl := wireLen code c.d
    let lists := if bwd then 2 else 1
    let n := streamRows lists h.pleatLen wl
    let base := lists * lineUp (4 * n)
    let e := e.setWork w.cmd (fun w => { w.setArea bwd (fun a => { a with streams := addPart h payload a.streams }) with
      firstReturn := some (w.firstReturn.getD e.now) })
    match e.workById w.cmd with
    | none => e
    | some w =>
      match findStream h (w.areaOf bwd).streams with
      | none => e
      | some s =>
        let mine := w.order.filter (fun i => match w.pairs[i]? with
          | some p => p.dest == h.src || e.destOf w.slot p.dest == some h.src
          | none => false)
        match s.words 0 n, (if bwd then s.words 1 n else some []) with
        | some tags, some dots =>
          let dup (e : Eng) : Eng := match port with
            | some q => e.bump32 (Reg.slcDupChunk q) 1
            | none => e
          let mismatch (e : Eng) : Eng := (e.bump32 Reg.semTagMismatch 1).raiseHalf w.cmd bwd 0x0471 (arg4 w.slot 0 1)
          tags.zipIdx.foldl (fun (e : Eng) tk =>
            let k := tk.2
            let lo := base + k * wl
            let touches := h.offset < lo + wl && lo < h.offset + payload.length
            if s.ids.contains k then (if touches then dup e else e)
            else match s.row lists n wl k with
              | none => e
              | some bytes =>
                let e := e.setWork w.cmd (fun w => w.setArea bwd (fun a => { a with
                  streams := updFirst (fun t => t.src == s.src && t.kind == s.kind && t.epoch == s.epoch && t.wfmt == s.wfmt && t.len == s.len)
                    (fun t => { t with ids := t.ids ++ [k] }) a.streams }))
                match mine.find? (fun i => match w.pairs[i]? with
                  | some p => p.ltag == tk.1 % 2 ^ 26
                  | none => false) with
                | none => mismatch e
                | some i =>
                  let p := w.pairs.getD i ⟨0, 0, 0, 0, fZero, 0, 0⟩
                  let got := match e.workById w.cmd with
                    | some w => (w.areaOf bwd).got.contains i
                    | none => true
                  if !p.placed then mismatch e
                  else if !p.awaited then e
                  else if got then dup e
                  else if bit tk.1 31 then
                    ((e.bump Reg.semUnreadable 16 16 1).raiseHalf w.cmd bwd 0x0271 0).dropPair w.cmd bwd i
                  else
                    let y := unpackRow c.rowFmt c.d (packRow c.rowFmt (wireUnpack code c.d bytes))
                    let e := e.takeRow w.cmd bwd i bytes y
                    if bwd then
                      let v : F32 := BitVec.ofNat 32 (dots.getD k 0)
                      let nodot := bit tk.1 30
                      let e := e.setWork w.cmd (fun w => w.setArea true (fun a => { a with
                        dots := KV.put a.dots i (if nodot then fZero else v), bad := if nodot then a.bad ++ [i] else a.bad }))
                      if nodot then e.voidPromise else e
                    else e) e
        | _, _ => e

/-! ### The forward combine (R211, R212, R214) -/

/-- Pair indices of a token. -/
def RouteWork.pairIdx (w : RouteWork) (t : Nat) : List Nat :=
  ((w.pairs.zipIdx.filter (fun p => p.1.token == t)).map (·.2))

/-- The sum of a token (R211, R214, R218): the accumulator, or the staged rows in ascending expert order. -/
def Eng.tokenSum (e : Eng) (w : RouteWork) (bwd : Bool) (t : Nat) : List F32 :=
  let c := e.cfgOf w.slot
  let a := w.areaOf bwd
  let blank := List.replicate c.d fZero
  if a.badTokens.contains t then blank
  else if e.exactOrder w bwd then
    let l := (w.pairIdx t).filter (fun i => a.got.contains i && (KV.find a.stage i).isSome)
    let sorted := sortBy (fun (x y : Nat) => (w.pairs.getD x ⟨0, 0, 0, 0, fZero, 0, 0⟩).expert ≤ (w.pairs.getD y ⟨0, 0, 0, 0, fZero, 0, 0⟩).expert) l
    sorted.foldl (fun s i => addRow c.askuc (if bwd then none else some (w.pairs.getD i ⟨0, 0, 0, 0, fZero, 0, 0⟩).weight) s (KV.get blank a.stage i)) blank
  else KV.get blank a.acc t

/-- Contributions dropped in a step: unreadable or lost pairs, void pairs, every pair of a token whose accumulator was
lost (R191, R214, R218). -/
def RouteWork.droppedPairs (w : RouteWork) (bwd : Bool) : Nat :=
  let a := w.areaOf bwd
  (w.pairs.zipIdx.filter (fun p => p.1.placed &&
    (a.bad.contains p.2 || bit p.1.pflags 5 || (a.badTokens.contains p.1.token && p.1.awaited)))).length

/-- Element operations of a combine (R214). -/
def RouteWork.laneOps (w : RouteWork) (d : Nat) : Nat :=
  d * (2 * (w.pairs.filter (·.awaited)).length + w.tokens)

/-- Bytes of its area that a combine reads for tokens: staged rows, or accumulator rows (R211, R218). -/
def RouteWork.combineReads (w : RouteWork) (c : SlotCfg) (exact bwd : Bool) (toks : List Nat) : Nat :=
  if exact then
    wireLen (c.wireFmt % 16) c.d * (w.pairs.zipIdx.filter (fun p => toks.contains p.1.token && (KV.find (w.areaOf bwd).stage p.2).isSome)).length
  else 4 * c.d * (toks.filter (fun t => (KV.find (w.areaOf bwd).acc t).isSome)).length

/-- Status of a combine: rows lost make it degraded; full results after a takeover are named as such (Table 3-15, R366). -/
def combineStatus (c : Cmd) (dropped : Nat) : Nat := if dropped > 0 then stDegraded else if c.peerLost then stPeerLost else stOk

/-- Writes the rows of a running COMBINE that are ready, and completes it with the last (R212, R330, R204). -/
def Eng.settleCombine (cmd : Nat) (e : Eng) : Eng :=
  match e.workById cmd with
  | none => e
  | some w =>
    match w.combineCmd.bind e.cmd? with
    | none => e
    | some c =>
      if c.done || c.phase != .running then e
      else
        let cfg := e.cfgOf w.slot
        let ready := (List.range w.tokens).filter (fun t => !w.combined.contains t && w.tokenReady false t)
        let (e, dig) := ready.foldl (fun (acc : Eng × W64) t =>
          let row := packRow cfg.rowFmt (acc.1.tokenSum w false t)
          (acc.1.storeFor w.polder (c.d.a + t * cfg.rowBytes) row, acc.2 + digestRow t row)) (e, c.res.digest)
        let e := e.setCmd c.id (fun c => { c with res := { c.res with digest := dig } })
        let e := e.setWork cmd (fun w => { w with combined := w.combined ++ ready })
        let e := if ready.isEmpty then e else (e.accTime w.polder).accHbm w.polder (w.combineReads cfg (e.exactOrder w false) false ready)
        if w.combined.length + ready.length < w.tokens then e
        else
          let dropped := w.droppedPairs false
          let e := e.setCmd c.id (fun c => { c with res := { c.res with
            placed := w.tokens, dropped := dropped, flags := c.res.flags + 8, laneOps := w.laneOps cfg.d } })
          let e := match w.firstReturn with
            | some t => e.gauge gsCombineTail 0 (some w.polder) (e.now - t)
            | none => e
          (e.setStep w.slot w.step (fun x => { x with digest := dig })).complete c.id (combineStatus c dropped)

/-! ### dlogits and router gradients (R219, R221, R222) -/

/-- The experts whose logits a row used and whose probabilities are saved: none for rows of classes 1 and 2, whose saved
record is all zero (R155, R203; log 39, DEDUCED). -/
def usedExperts (c : SlotCfg) (s : TokSel) : List Nat :=
  if bit s.rflags 0 || bit s.rflags 1 then []
  else if c.hier then s.panels.flatMap (fun p => (List.range 64).map (fun i => p * 64 + i))
  else List.range (64 * c.panels)

/-- dlogits of a token over its used experts (R219; log 38, DEDUCED). -/
def Eng.dlogits (w : RouteWork) (c : SlotCfg) (t : Nat) : List (Nat × F32) :=
  let s := w.tok t
  let used := usedExperts c s
  if bit s.rflags 2 then used.map (fun x => (x, fZero))
  else
    let live := (w.pairIdx t).filter (fun i => match w.pairs[i]? with
      | some p => p.awaited
      | none => false)
    let v (i : Nat) : F32 := KV.get fZero w.bwdArea.dots i
    let q := live.foldl (fun q i => fadd q (v i)) fZero
    used.map (fun x =>
      let pr := ((s.probs.find? (fun k => k.1 == x)).map (·.2)).getD fZero
      let hit := live.find? (fun i => match w.pairs[i]? with
        | some p => p.expert == x
        | none => false)
      let pair := ((w.pairIdx t).filterMap (fun i => w.pairs[i]?)).find? (fun p => p.placed && p.expert == x)
      let vx := (hit.map v).getD fZero
      let placed := pair.isSome
      let wt := (pair.map (·.weight)).getD fZero
      (x, if c.sigmoid then
            (if !placed then fZero
             else if c.renorm then fmul (fsub fOne pr) (ffma (fneg wt) q vx)
             else fmul (fsub fOne pr) vx)
          else if c.renorm then (if placed then ffma (fneg wt) q vx else fZero)
          else ffma (fneg pr) q vx))

/-- An operand's values with their block scales applied. -/
def Operand.values (o : Operand) : List F32 :=
  if o.scales.isEmpty then o.vals
  else o.vals.zipIdx.map (fun p =>
    let sc := o.scales.getD (p.2 / 32) 255
    if sc = 255 then qNaN else rn ((fval p.1).scale ((sc : Int) - 127)))

/-- A sum of products in the order of R92, for values without block scales. -/
def orderedSum (askuc : Bool) (wfmt : Nat) (p : List (F32 × F32)) : F32 :=
  if askuc then (Sys2Proof.groups 64 p.length p).foldl (fun s g => fadd s (g.foldl (fun t a => fadd t (fmul a.1 a.2)) fZero)) fZero
  else if wfmt = 0 then p.foldl (fun s a => fadd s (fmul a.1 a.2)) fZero
  else if isMxW wfmt then (Sys2Proof.groups 32 p.length p).foldl (fun s g => fadd s (pairSum fZero g)) fZero
  else pairSum fZero p

/-- u_j = Σ z_i·W[i, j] for j below `n`, in the order of the rows given (R222). -/
def colSums (askuc : Bool) (wfmt n : Nat) (rows : List (List F32)) (z : List F32) : List F32 :=
  (List.range n).map (fun j => orderedSum askuc wfmt ((rows.map (fun r => r.getD j fZero)).zip z))

/-- What the router's backward work gives for one token: rounded dlogits by expert, stage operand, hidden gradients and
their operand, the contribution r, and what preparing its row again found (R128, R129). -/
structure RouterBwd where
  dz : List (Nat × F32)
  op : List F32
  da : List F32 := []
  db : List F32 := []
  x : List F32
  r : List F32
  clamped : Nat := 0
  nonfinite : Bool := false
deriving DecidableEq, Repr

/-- The normalisation undone (R222 step 3). -/
def undoNorm (h : HemSet) (norm : Nat) (rs : F32) (xhat u : List F32) : List F32 :=
  let n := fofNat xhat.length
  match norm with
  | 1 =>
    let m := fdiv (hemDot h.isAskuc u xhat) n
    (u.zip xhat).map (fun p => fmul rs (fsub p.1 (fmul p.2 m)))
  | 2 =>
    let a := fdiv (u.foldl fadd fZero) n
    let m := fdiv (hemDot h.isAskuc u xhat) n
    (u.zip xhat).map (fun p => fmul rs (fsub (fsub p.1 a) (fmul p.2 m)))
  | _ => u

/-- The router's backward work of one token (R222). -/
def ScoreCtx.backward (x : ScoreCtx) (rd : Nat → Nat → List Byte) (row : List Byte) (dz : List (Nat × F32)) (a b : List F32) : RouterBwd :=
  let v := unpackRow x.cfg.rowFmt x.cfg.d row
  let wf := x.img.wfmt
  let round (l : List F32) : List F32 := (toOperand wf l).values
  let nrm := hemNormalise x.hem x.norm x.eps v
  let xo := toOperand wf nrm.row
  let hop := if x.cfg.twoLayer then (toOperandV wf ((a.zip b).map (fun p => x.hem.gate p.1 p.2))).values else xo.values
  let z := round (dz.map (·.2))
  let dzr := (dz.map (·.1)).zip z
  let none_ := dz.all (fun p => p.2 == fZero)
  let zeroR := List.replicate x.cfg.d fZero
  if none_ then ⟨dzr, hop, a.map (fun _ => fZero), b.map (fun _ => fZero), xo.values, zeroR, nrm.clamped, nrm.nonfinite⟩
  else
    let rows := dz.map (fun p => (x.expertRow rd (p.1 / 64) (p.1 % 64)).values)
    let u := colSums x.cfg.askuc wf (stageInputs x.cfg) rows z
    let (da, db, u) :=
      if x.cfg.twoLayer then
        let da := (u.zip (a.zip b)).map (fun p =>
          let sg := x.hem.sigmoid p.2.1
          fmul (fmul p.1 p.2.2) (fmul sg (fadd fOne (fmul p.2.1 (fsub fOne sg)))))
        let db := (u.zip a).map (fun p => fmul p.1 (x.hem.silu p.2))
        let (dar, dbr) := (round da, round db)
        let ra := (List.range x.cfg.h).map (fun i => (x.hiddenRow i).values)
        let rb := (List.range x.cfg.h).map (fun i => (x.hiddenRow (x.cfg.h + i)).values)
        (dar, dbr, ((colSums x.cfg.askuc wf x.cfg.d ra dar).zip (colSums x.cfg.askuc wf x.cfg.d rb dbr)).map (fun p => fadd p.1 p.2))
      else ([], [], u)
    ⟨dzr, hop, da, db, xo.values, undoNorm x.hem x.norm (if x.norm = 0 then fOne else hemRs x.hem x.norm x.eps v) nrm.row u,
      nrm.clamped, nrm.nonfinite⟩

/-- One gradient element: groups of up to 64 tokens (R221). -/
def gradElem (l : List (F32 × F32)) : F32 :=
  (Sys2Proof.groups 64 l.length l).foldl (fun g k => fadd g (k.foldl (fun t p => fadd t (fmul p.1 p.2)) fZero)) fZero

/-- One row of a gradient matrix from the tokens that bear on it (log 39, DEDUCED). -/
def gradRow (n : Nat) (l : List (F32 × List F32)) : List Byte :=
  (List.range n).flatMap (fun j => f32Bytes (gradElem (l.map (fun p => (p.1, p.2.getD j fZero)))))

/-- The gradient image (R221). -/
def gradImage (c : SlotCfg) (header : List Byte) (gen : Nat) (toks : List RouterBwd) : List Byte :=
  let k := stageInputs c
  let hid := if c.twoLayer then 8 * c.h * c.d else 0
  let pan := if c.hier then c.panels * 4 * k else 0
  let head := fitTo 64 (leBytes 4 gen ++ leBytes 1 0x10 ++ (header.drop 5).take 11 ++ leBytes 8 (if c.twoLayer then 64 else 0) ++
    leBytes 8 (if c.hier then 64 + hid else 0) ++ leBytes 8 (64 + hid + pan) ++ leBytes 8 (256 * k) ++ header.drop 48)
  let live := toks.filter (fun t => !t.dz.isEmpty)
  let hidden (f : RouterBwd → List F32) : List Byte := (List.range c.h).flatMap (fun i =>
    gradRow c.d (live.map (fun t => ((f t).getD i fZero, t.x))))
  head ++ (if c.twoLayer then hidden (·.da) ++ hidden (·.db) else []) ++ zeros pan ++
  (List.range (64 * c.panels)).flatMap (fun x =>
    gradRow k (toks.filterMap (fun t => (t.dz.find? (fun p => p.1 == x)).map (fun p => (p.2, t.op)))))

/-- Whether the MASK of a step's ROUTE masks a token, as it reads now (R220). -/
def Eng.maskedNow (m : Mem) (e : Eng) (w : RouteWork) (t : Nat) : Bool :=
  w.mask ≠ 0 && bit (leNat (e.rd m (w.mask + t / 8) 1)) (t % 8)

/-- What COMBINE_BWD's second preparation of the rows found: clamps and rows that are not finite (R128, R129, R220). -/
def Eng.noteRows (w : RouteWork) (c : Cmd) (toks : List RouterBwd) (e : Eng) : Eng :=
  let clamped := (toks.map (·.clamped)).sum
  let bad := (toks.filter (·.nonfinite)).length
  let e := if clamped = 0 then e else e.bump32 Reg.hemClamped clamped
  if bad = 0 then e
  else (e.bump32 Reg.hemNonfinite bad).raise 0x0330 (arg3 w.slot (toks.findIdx (·.nonfinite))) (some w.polder) c.d.tag

/-- Completes a running COMBINE_BWD once every awaited pair has arrived: DX, DW_ROUTER, digest (R218, R220, R221, R330). -/
def Eng.settleCombineBwd (m : Mem) (cmd : Nat) (e : Eng) : Eng :=
  match e.workById cmd with
  | none => e
  | some w =>
    match w.bwdCombineCmd.bind e.cmd? with
    | none => e
    | some c =>
      if c.done || c.phase != .running || !w.bwdArea.live || !(List.range w.tokens).all (w.tokenReady true) then e
      else
        let cfg := e.cfgOf w.slot
        let x := e.scoreCtx m { c with seed := w.seed } cfg
        let rd (a n : Nat) : List Byte := e.rd m a n
        let back (t : Nat) : RouterBwd :=
          let s := w.tok t
          if e.maskedNow m w t then { dz := [], op := [], x := [], r := List.replicate cfg.d fZero }
          else x.backward rd (rd (w.rows + t * cfg.rowBytes) cfg.rowBytes) (Eng.dlogits w cfg t) s.a s.b
        let toks := (List.range w.tokens).map back
        let e := e.noteRows w c toks
        let (e, dig) := toks.zipIdx.foldl (fun (acc : Eng × W64) p =>
          let sum := acc.1.tokenSum w true p.2
          let e := if acc.1.exactOrder w true then acc.1.writeAcc cmd true p.2 sum else acc.1
          let row := if w.bwdArea.badTokens.contains p.2 then packRow cfg.rowFmt (List.replicate cfg.d fZero)
            else packRow cfg.rowFmt ((sum.zip p.1.r).map (fun q => fadd q.1 q.2))
          (e.storeFor w.polder (c.d.a + p.2 * cfg.rowBytes) row, acc.2 + digestRow p.2 row)) (e, 0)
        let e := e.storeFor w.polder c.d.c (gradImage cfg (e.rd m (e.lslot w.slot).boundAddr 64) w.wgen toks)
        let dropped := w.droppedPairs true
        let toks := List.range w.tokens
        let read := w.tokens * (cfg.rowBytes + savedRowBytes cfg) + ceilDiv w.tokens 8 + w.combineReads cfg (e.exactOrder w true) true toks
        let e := (((e.accTime w.polder).accHbm w.polder read).accWeights w.polder).setCmd c.id (fun c => { c with res := { c.res with
          placed := w.tokens, dropped := dropped, digest := dig, flags := c.res.flags + 8, laneOps := w.laneOps cfg.d } })
        e.complete c.id (combineStatus c dropped)

/-! ### RETURN and RETURN_BWD (R205, R207, R217) -/

/-- A RETURN's status from its checks, none where it may run: the group table of the step's shape record, its ENTRIES
and STEP (R205), and the alignment of its entries (R180; log 63, DESIGN CHOICE). -/
def Eng.returnCheck (m : Mem) (e : Eng) (c : Cmd) (bwd : Bool) : Option Nat × Nat :=
  match e.role c.d.slot c.d.step with
  | none => (some stBad, 0)
  | some h =>
    let shape := e.shapeAt c.d.slot c.d.step bwd
    let n := c.count.getD c.d.count
    let t := c.d.a
    let size := if e.fmt1 then 24 else 32
    let outs := (List.range n).map (fun i => e.rdNat m (t + (if e.fmt1 then 32 else 64) + i * size + 16) 8)
    if !(if bwd then h.bwdReady else h.ready) || e.rdNat m (shape + 24) 8 ≠ t || e.rdNat m (t + 8) 4 ≠ n || e.rdNat m (t + 4) 4 ≠ c.d.step then
      (some stBad, 0)
    else match outs.find? (fun a => a % 64 != 0) with
      | some a => (some stAlign, a)
      | none => (none, 0)

/-- A misaligned address in a record the engine reads (R180; log 57, DESIGN CHOICE). -/
def Eng.alignError (addr : Nat) (c : Cmd) (e : Eng) : Eng :=
  (((e.setReg Reg.shuErrAddr addr).bump Reg.shuErr 16 16 1).raise 0x0260 (addr % memTop / 64 * 64) (some c.polder) c.d.tag).complete c.id stAlign

/-- Starts a return: one pleat for each source with granted places that are not VOID. -/
def Eng.startReturn (m : Mem) (c : Cmd) (bwd : Bool) (e : Eng) : Eng :=
  match e.returnCheck m c bwd with
  | (some st, a) => if st = stAlign then e.alignError a c else e.complete c.id st
  | (none, _) =>
    match e.role c.d.slot c.d.step with
    | none => e
    | some h =>
      let cfg := e.cfgOf c.d.slot
      let srcs := sortBy (fun (a b : Nat) => a ≤ b) ((h.placesOf.filter (fun p => !p.2.2.2.void)).map (fun p => p.2.2.2.src)).eraseDups
      let rows := (h.placesOf.filter (fun p => !p.2.2.2.void)).length
      let nodot := (h.placesOf.filter (fun p => !p.2.2.2.void && p.2.2.2.noDot)).length
      let e := e.accHbm c.polder (128 + (if e.fmt1 then 24 else 32) * c.count.getD c.d.count)
      let e := if bwd && nodot > 0 then e.bump32 Reg.semNodot nodot else e
      let e := e.setCmd c.id (fun c => { c with res := { c.res with placed := rows } })
      let e := if bwd then e.setRole c.d.slot c.d.step (fun h => { h with bwdSeed := c.seed }) else e
      srcs.foldl (fun (e : Eng) d =>
        let e := e.noteFallback c.d.slot cfg d
        let code := e.wireCode cfg d
        let len := streamLen (if bwd then 2 else 1) (h.placesFor d).length (wireLen code cfg.d)
        let hd : ChunkHdr := { kind := if bwd then 4 else 2, wfmt := code + (if bit cfg.wireFmt 4 then 16 else 0)
                               epoch := (KV.get {} h.sources d).epoch, step := c.d.step, src := e.chip, dst := d, slot := c.d.slot, polder := c.polder }
        (e.noteSent c.id len d).addJobs c.id (e.streamJobs hd h.detm (bwd && !bit cfg.wireFmt 4) len
          (if bwd then .bwdReturn c.d.slot c.d.step else .ret c.d.slot c.d.step))) e

/-- A return has sent its last chunk: the engine's references go; a backward return ends the role (R172, R173). -/
def Eng.endReturn (slot step : Nat) (bwd : Bool) (e : Eng) : Eng :=
  match e.role slot step with
  | none => e
  | some h =>
    if bwd then e.endRole slot step
    else if h.returnSent then e
    else
      let gone := h.experts.flatMap (fun je => je.2.runs.flatMap (fun r => if e.fmt1 then [r.inBuf] else [r.inBuf, r.outBuf]))
      (e.engDecAll gone).setRole slot step (fun h => { h with returnSent := true })

end Sys2Proof.Machine
end

