-- ==== Sys2Proof/Machine/Shuttle.lean ====
section
/-! DEFINITION. The Shuttle and the transfer table: what waits to leave, ACK, NAK and timeout (R197 to R199), holds toward
a chip (R360, R361), and the burst arbiter (R177, R178). -/

namespace Sys2Proof.Machine

/-! ### What waits to leave -/

/-- Sends, in order, everything that waits and can leave now; a new chunk held back by a full table begins a value of TT_FULL,
its polder's (R197, R361, R384; log 49, DEDUCED; log 61, DESIGN CHOICE). -/
def Eng.pump (m : Mem) (e : Eng) : Eng :=
  let q := e.outq
  let e := q.foldl (fun (e : Eng) o => e.sendOn o (e.payload m o)) { e with outq := [] }
  match e.ttFullSince with
  | some t => if e.tt.length < 4096 then ({ e with ttFullSince := none, ttFullBy := none }).gauge gsTtFull 0 e.ttFullBy (e.now - t) else e
  | none =>
    let fresh := e.chans.find? (fun kc => e.mayIssue kc.2.polder && (match kc.2.jobs with
      | .chunk h _ left :: _ => left == h.plen
      | _ => false))
    if e.tt.length ≥ 4096 && fresh.isSome then { e with ttFullSince := some e.now, ttFullBy := fresh.map (fun kc => kc.2.polder) } else e

/-! ### Acknowledgement (R198) -/

/-- The port toward a chip, none for this chip itself. -/
def Eng.towards (e : Eng) (chip : Nat) : Option Nat := if chip = e.chip then none else e.bestPort chip

/-- Sends the ACKs that wait for a chip. -/
def Eng.sendAcks (chip : Nat) (e : Eng) : Eng :=
  match KV.find e.acks chip with
  | none => e
  | some a => { e with acks := KV.del e.acks chip }.transmit (e.towards chip) 6 64 (.ack chip a.ids)

/-- Queues the ACK of a chunk or frame; 64 pending leave together. -/
def Eng.ackTo (chip id : Nat) (e : Eng) : Eng :=
  let a := KV.get ⟨[], e.now⟩ e.acks chip
  let e := { e with acks := KV.put e.acks chip { a with ids := a.ids ++ [id] } }
  if a.ids.length + 1 ≥ 64 then e.sendAcks chip else e

/-- The entry that an ID of the current generation names, for a chip. -/
def Eng.ttNamed (e : Eng) (chip id : Nat) : Option (Nat × TtEntry) :=
  match KV.find e.tt (id % 4096) with
  | some t => if t.hdr.dst = chip && e.ttId (id % 4096) = id && !t.unsent then some (id % 4096, t) else none
  | none => none

/-- One acknowledged ID: its entry is free; one of an older generation is discarded (R197). -/
def Eng.ackOne (chip id : Nat) (e : Eng) : Eng :=
  match e.ttNamed chip id with
  | none => e
  | some (i, t) => { e with tt := KV.del e.tt i }.gauge gsChunkRtt (t.port.getD 16) (some t.hdr.polder) (e.now - t.firstNs)

/-! ### Holding toward a chip (R360, R361) -/

/-- Entries toward a chip are released; what they named waits to be sent again. -/
def Eng.releaseEntries (chip : Nat) (e : Eng) : Eng :=
  let mine := e.tt.filter (fun kt => kt.2.hdr.dst == chip)
  { e with tt := e.tt.filter (fun kt => kt.2.hdr.dst != chip)
           outq := mine.map (fun kt => OutMsg.mk kt.2.cmd kt.2.hdr kt.2.src) ++ e.outq }

/-- A probe to a suspect's control block (log 44, DEDUCED). -/
def Eng.sendProbe (chip : Nat) (e : Eng) : Eng := e.transmit (e.bestPort chip) 7 64 (.probe chip)

/-- A hold toward a chip that nothing held toward is told. -/
def Eng.toldHold (chip : Nat) (e : Eng) : Eng := if e.holding chip then e else e.raise 0x0110 (arg1 none chip) none 0

/-- Suspects a chip: holds toward it and sends the first probe, once (log 44, DEDUCED). -/
def Eng.suspectChip (chip : Nat) (e : Eng) : Eng :=
  let h := KV.get {} e.flt.holds chip
  if h.suspected || chip = e.chip || e.isLost chip then e
  else
    let e := e.toldHold chip
    ({ e with flt.holds := KV.put e.flt.holds chip { h with suspected := true, probes := 1, since := e.now, reported := false } }.releaseEntries
      chip).sendProbe chip

/-! ### NAK, timeout and replay (R199) -/

/-- A failed attempt is counted against its port; three on one port exclude it, unless the link layer has reported it down. -/
def Eng.failAttempt (i : Nat) (t : TtEntry) (e : Eng) : TtEntry × Eng :=
  let p := t.port.getD 16
  let n := KV.get 0 t.fails p + 1
  let t := { t with fails := KV.put t.fails p n }
  let e := { e with tt := KV.put e.tt i t }
  if n = 3 && p < 16 && (e.port p).link = 2 && !e.excl.any (fun x => x.chip == t.hdr.dst && x.port == p) then
    (t, { e with excl := e.excl ++ [Exclusion.mk t.hdr.dst p (e.now + 10000000)] }.raise 0x0108 (arg1 (some p) t.hdr.dst) none 0)
  else (t, e)

/-- Sends an entry's chunk again under a new generation, or leaves it unsent while no path leads there. -/
def Eng.resend (m : Mem) (i : Nat) (t : TtEntry) (timeout : Bool) (e : Eng) : Eng :=
  let hdr := { t.hdr with cflags := setBit t.hdr.cflags 1 true }
  if !e.canSend hdr || t.awaits then { e with tt := KV.put e.tt i { t with unsent := true } }
  else
    let e := { e with ttGen := KV.put e.ttGen i ((KV.get 0 e.ttGen i + 1) % 16) }
    let id := e.ttId i
    let o : OutMsg := ⟨t.cmd, { hdr with chunkId := id }, t.src⟩
    let (e, port) := e.emit o id (e.payload m o) none
    let e := match port with
      | some p => e.bump (Reg.slcReplay p) (if timeout then 16 else 0) 16 1
      | none => e
    ({ e with tt := KV.put e.tt i { t with hdr := { hdr with chunkId := id }, port := port, attempts := t.attempts + 1
                                           sentNs := e.now, unsent := false } }).raise 0x0106 (arg1 port t.hdr.dst) none 0

/-- A chunk that failed is replayed; on three ports or eight attempts its destination is suspected. -/
def Eng.replay (m : Mem) (i : Nat) (timeout : Bool) (e : Eng) : Eng :=
  match KV.find e.tt i with
  | none => e
  | some t =>
    let (t, e) := e.failAttempt i t
    if t.fails.length ≥ 3 || (t.fails.map (·.2)).sum ≥ 8 then
      if t.hdr.dst = e.chip then e.resend m i t timeout
      else (e.raise 0x0109 (arg1 t.port t.hdr.dst) none 0).suspectChip t.hdr.dst
    else e.resend m i t timeout

/-- Entries left unsent for want of a path go when one is there. -/
def Eng.resendUnsent (m : Mem) (e : Eng) : Eng :=
  (e.tt.filter (fun kt => kt.2.unsent && !kt.2.awaits)).foldl (fun (e : Eng) kt => e.resend m kt.1 kt.2 true) e

/-! ### Bursts (R177, R178, R181) -/

/-- Where byte `p` of a chunk's stream is read from: its address, the bytes of its row from it on, and the bytes of the row on
the wire and in HBM; none for bytes that the engine forms itself. -/
def Eng.readFrom (e : Eng) (h : ChunkHdr) (s : ChunkSrc) (p : Nat) : Option (Nat × Nat × Nat × Nat) :=
  let c := e.cfgOf h.slot
  let w := max 1 (wireLen (h.wfmt % 16) c.d)
  let row (lists n : Nat) (addr : Nat → Option (Nat × Nat)) : Option (Nat × Nat × Nat × Nat) :=
    let base := lists * lineUp (4 * n)
    if p < base then none
    else (addr ((p - base) / w)).map (fun a => (a.1 + (p - base) % w * a.2 / w, w - (p - base) % w, w, a.2))
  let source (k lists : Nat) (bwd : Bool) := (e.workById k).bind (fun r =>
    let l := r.pairsFor (e.streamDest h r)
    row lists l.length (fun j =>
      let t := ((l[j]?).bind (fun i => (r.pairs[i]?).map (·.token))).getD 0
      match (if bit h.cflags 1 then none else bufRow (r.stageOf bwd) w t) with
      | some a => some (a, w)
      | none => some ((if bwd then r.bwdDy else r.rows) + t * c.rowBytes, c.rowBytes)))
  let host (slot step lists : Nat) (bwd : Bool) := (e.role slot step).bind (fun r =>
    let l := r.placesFor h.dst
    row lists l.length (fun j => (l[j]?).bind (fun x =>
      (rowAddr (e.runRows c) c.rowBytes true (if bwd then x.2.2.1.bwdRuns else x.2.2.1.runs) x.2.1).map (fun a => (a, c.rowBytes)))))
  match s with
  | .copy a => some (a + (p - h.offset), h.offset + h.plen - p, 1, 1)
  | .dispatch k => source k 1 false
  | .bwdDispatch k => source k 2 true
  | .ret slot step => host slot step 1 false
  | .bwdReturn slot step => host slot step 2 true
  | .bytes _ => none
  | .frame _ _ => none

/-- Bytes of a job's next burst: no more than reaches the next 4 KiB boundary of an HBM address that it reads or writes, or the
end of the row it is in (log 41, DEDUCED). -/
def Eng.burstLen (e : Eng) : Job → Nat
  | .chunk h s left =>
    let p := h.offset + (h.plen - left)
    match e.readFrom h s p with
    | some (a, rest, wire, hbm) => min left (max 1 (min rest ((4096 - a % 4096) * wire / max 1 hbm)))
    | none => min left (4096 - p % 4096)
  | .copy src dst left => min left (min (4096 - src % 4096) (4096 - dst % 4096))

/-- Whether a channel has a burst ready: its polder issues, or its work is a collective's, which a parked polder's goes on with
(chapter 12), in no other polder's window (R313), and a new chunk has a free entry to go to. -/
def Eng.channelReady (e : Eng) (c : Channel) : Bool :=
  match c.jobs with
  | [] => false
  | .copy _ _ _ :: _ => e.mayIssue c.polder
  | .chunk h _ left :: _ =>
    (e.mayIssue c.polder || (h.kind == 6 && e.windowOk c.polder && e.flt.recovery != some .compute)) && (left < h.plen || e.tt.length < 4096)

/-- The channel that the arbiter grants: round-robin among the highest priority, every 16th grant to the longest waiter
(log 63, DESIGN CHOICE). -/
def Eng.arbitrate (e : Eng) : Option Nat :=
  let l := e.chans.filter (fun kc => e.channelReady kc.2)
  if e.arbCount % 16 = 15 then
    (l.foldl (fun (a : Option (Nat × Nat)) kc => match a with
      | none => some (kc.1, kc.2.since)
      | some b => if kc.2.since < b.2 then some (kc.1, kc.2.since) else some b) none).map (·.1)
  else
    let top := l.foldl (fun a kc => max a kc.2.prio) 0
    let k := (l.filter (fun kc => kc.2.prio == top)).map (·.1)
    (k.find? (fun i => e.arbLast < i)).or k.head?

/-- One burst of the granted channel's first piece of work (R178; log 63, DESIGN CHOICE). -/
def Eng.burst (m : Mem) (e : Eng) : Eng :=
  match e.arbitrate with
  | none => e
  | some ch =>
    match KV.find e.chans ch with
    | none => e
    | some c =>
      match c.jobs with
      | [] => e
      | job :: rest =>
        let n := e.burstLen job
        let lost := (e.chans.filter (fun kc => kc.1 != ch && e.channelReady kc.2)).map (·.1)
        let e := lost.foldl (fun (e : Eng) k => e.bump32 (Reg.shuChWait k) 1) e
        let e := (e.bump64 (Reg.shuChBytes ch) n)
        let set (jobs : List Job) (e : Eng) : Eng :=
          { e with chans := KV.put e.chans ch { c with jobs := jobs, since := e.now }, arbCount := (e.arbCount + 1) % 16, arbLast := ch }
        match job with
        | .copy src dst left =>
          let e := ((e.store dst (e.rd m src n)).accHbm c.polder (2 * n))
          set (if left ≤ n then rest else .copy (src + n) (dst + n) (left - n) :: rest) e
        | .chunk h s left =>
          let e := e.accHbm c.polder n
          if left ≤ n then
            let o : OutMsg := ⟨c.cmd, h, s⟩
            (set rest e).sendNew o (e.payload m o)
          else set (.chunk h s (left - n) :: rest) e

end Sys2Proof.Machine
end

