-- ==== Sys2Proof/Machine/Collect.lean ====
section
/-! DEFINITION. The collective unit (chapter 12) and barriers (R334 to R336): trees (R278), the form handshake (R276), count
sweeps (R283), broadcast and reduction (R284 to R288), switch reduction (R290, R291), aborts (R293). -/

namespace Sys2Proof.Machine

/-! ### Trees (R278, R280) -/

/-- A level list: its root first, the other nodes in the order given. -/
def headed (r : Nat) (l : List Nat) : List Nat := r :: l.filter (· != r)

/-- Level list of a chip's tray, and the tray's leader. -/
def trayNodes (ms : List Nat) (root x : Nat) : List Nat :=
  let l := ms.filter (fun c => c / 16 == x / 16)
  headed (if root / 16 = x / 16 then root else l.headD x) l
def trayHead (ms : List Nat) (root x : Nat) : Nat := (trayNodes ms root x).headD x

/-- Level list of a chip's rack, and the rack's leader. -/
def rackNodes (ms : List Nat) (root x : Nat) : List Nat :=
  let l := ((ms.filter (fun c => c / 128 == x / 128)).map (trayHead ms root)).eraseDups
  headed (if root / 128 = x / 128 then root else l.headD x) l
def rackHead (ms : List Nat) (root x : Nat) : Nat := (rackNodes ms root x).headD x

/-- Level list of the hall. -/
def hallNodes (ms : List Nat) (root : Nat) : List Nat := headed root (ms.map (rackHead ms root)).eraseDups

/-- The levels a chip has a place in, with their lists. -/
def nodeLevels (ms : List Nat) (root x : Nat) : List (Nat × List Nat) :=
  let t := trayNodes ms root x
  if t.headD x ≠ x then [(0, t)]
  else
    let r := rackNodes ms root x
    if r.headD x ≠ x then [(0, t), (1, r)] else [(0, t), (1, r), (2, hallNodes ms root)]

/-- Parent position of a position in tree A or B. -/
def parentPos (b : Bool) (n i : Nat) : Nat :=
  if b then (let k := (n - i - 1) / 2; if k = 0 then 0 else n - k) else (i - 1) / 2

/-- Position of a chip in a level list. -/
def posIn (l : List Nat) (x : Nat) : Nat := l.findIdx (· == x)

/-- A chip's parent with the level, none at the root. -/
def parentOf (b : Bool) (ms : List Nat) (root x : Nat) : Option (Nat × Nat × Nat) :=
  ((nodeLevels ms root x).find? (fun l => posIn l.2 x != 0)).map (fun l =>
    (l.1, posIn l.2 x, l.2.getD (parentPos b l.2.length (posIn l.2 x)) root))

/-- A chip's children with their levels, in tree order. -/
def childrenOf (b : Bool) (ms : List Nat) (root x : Nat) : List (Nat × Nat) :=
  (nodeLevels ms root x).flatMap (fun l =>
    let p := posIn l.2 x
    ((List.range l.2.length).filter (fun i => 1 ≤ i && parentPos b l.2.length i == p)).map (fun i => (l.1, l.2.getD i 0)))

/-- A chip's own position in its list of a level (Table 12-2, POS). -/
def posAt (ms : List Nat) (root x lv : Nat) : Nat := match (nodeLevels ms root x).find? (fun l => l.1 == lv) with
  | some l => posIn l.2 x
  | none => 0

/-- Greatest depth of each level's lists, times the level's latency in ns (R335). -/
def treeLatency (ms : List Nat) (root : Nat) : Nat :=
  let deep (f : Nat → List Nat) (l : List Nat) : Nat := l.foldl (fun a x => max a (Nat.log2 (f x).length)) 0
  deep (trayNodes ms root) ms * 900 + deep (rackNodes ms root) (ms.map (trayHead ms root)).eraseDups * 2000 +
  Nat.log2 (hallNodes ms root).length * 5500

/-! ### Edges and chunks (R279, R288) -/

/-- A chip's Overlock version as this engine knows it (R183). -/
def Eng.chipVersion (e : Eng) (c : Nat) : Nat := if c = e.chip then e.ownVersion else match KV.get 0 e.peerVer c with
  | 0 => 2
  | v => v

/-- Endpoint version of an edge. -/
def Eng.edgeVersion (e : Eng) (a b : Nat) : Nat := min (e.chipVersion a) (e.chipVersion b)

/-- The group's chunk size (R279). -/
def Eng.groupChunk (e : Eng) (ms : List Nat) (root : Nat) : Nat :=
  let low (b : Bool) := ms.any (fun x => match parentOf b ms root x with
    | some (_, _, p) => e.edgeVersion x p ≤ 2
    | none => false)
  if low false || low true then min e.topo.chunk 32768 else e.topo.chunk

/-- Every edge of this chip in either tree, for any root, has version 4 (R288). -/
def Eng.factorEdges (e : Eng) (ms : List Nat) : Bool :=
  ms.all (fun root => [false, true].all (fun b =>
    (match parentOf b ms root e.chip with
     | some (_, _, p) => e.edgeVersion e.chip p ≥ 4
     | none => true) &&
    (childrenOf b ms root e.chip).all (fun c => e.edgeVersion e.chip c.2 ≥ 4)))

/-- A group's root chip of an operation. -/
def Group.rootChip (g : Group) (i : Nat) : Nat := g.members.getD i 0

/-! ### Messages (R281, Table 12-2) -/

/-- Header of a collective chunk from this chip. -/
def Eng.collHdr (e : Eng) (g : Nat) (epoch seq op dst polder : Nat) : ChunkHdr :=
  { kind := 6, epoch := epoch, step := seq, src := e.chip, dst := dst, slot := g, polder := polder, op := op, pleatLen := 64 }

/-- Sends a chunk of the collective kind. -/
def Eng.collSend (cmd : Nat) (h : ChunkHdr) (payload : List Byte) (e : Eng) : Eng :=
  e.sendNew ⟨cmd, { h with plen := payload.length }, .bytes payload⟩ payload

/-- A message from this chip to its children in tree A, one each, with its level and its sender's position (Table 12-2). -/
def Eng.tellKids (ms : List Nat) (h : ChunkHdr) (payload : List Byte) (e : Eng) : Eng :=
  let root := ms.headD 0
  (childrenOf false ms root e.chip).foldl (fun (e : Eng) k =>
    e.collSend noCmd { h with dst := k.2, place := k.1, pos := posAt ms root e.chip k.1 } payload) e

/-- A count record's bytes (Table 12-3), and back (log 20, DESIGN CHOICE). -/
def CountRec.bytes (r : CountRec) : List Byte :=
  fitTo 64 (leBytes 8 r.total ++ leBytes 8 r.capacity ++ leBytes 8 r.base ++ leBytes 4 r.members ++ leBytes 1 r.err ++
    leBytes 2 r.dDiv ++ leBytes 2 r.fDiv ++ leBytes 1 r.efmt ++ leBytes 2 r.expert)
def CountRec.ofBytes (l : List Byte) : CountRec :=
  { total := rdLE l 0 8, capacity := rdLE l 8 8, base := rdLE l 16 8, members := rdLE l 24 4, err := rdLE l 28 1, dDiv := rdLE l 29 2
    fDiv := rdLE l 31 2, efmt := rdLE l 33 1, expert := rdLE l 34 2 }

/-- No chip ID: an ABORT that originates here comes from no neighbour. -/
def noChip : Nat := 2 ^ 17

/-- ABORT along both trees of a group: to the parent and the children in each (R293; log 59, DESIGN CHOICE). -/
def Eng.sendAborts (g : Nat) (except : Nat) (e : Eng) : Eng :=
  let x := e.group g
  let root := x.rootChip 0
  [false, true].foldl (fun (e : Eng) b =>
    let up := match parentOf b x.members root e.chip with
      | some (lv, _, p) => [(lv, p)]
      | none => []
    ((up ++ childrenOf b x.members root e.chip).filter (fun k => k.2 != except && !e.isLost k.2)).foldl (fun (e : Eng) k =>
      e.collSend noCmd { e.collHdr g x.epoch x.seq 8 k.2 x.owner with
        place := k.1 + b.toNat * 4, pos := posAt x.members root e.chip k.1 } []) e) e

/-! ### Ending operations (R293, R295, R336) -/

/-- Every open BARRIER of a group completes CANCELLED (R336). -/
def Eng.cancelBarriers (g : Nat) (e : Eng) : Eng :=
  let x := e.group g
  let open_ := x.barriers.filter (·.started)
  let e := open_.foldl (fun (e : Eng) b => (e.raise 0x0A0C (argA g x.epoch b.bseq) (some x.owner) 0).complete b.cmd stCancelled) e
  e.setGroup g (fun x => { x with barriers := [] })

/-- Bytes that the spec leaves undefined become free values (log 4, DESIGN CHOICE). -/
def Eng.scribble (a n : Nat) (e : Eng) : Eng :=
  { e.store a ((List.range n).map (fun i => Config.freeByte (e.freeCtr + i))) with freeCtr := e.freeCtr + n }

/-- What an operation that ends without success has written is undefined (Table 12-7). -/
def Eng.spoil (o : CollOp) (e : Eng) : Eng := o.written.foldl (fun (e : Eng) w => e.scribble w.1 w.2) e

/-- Every operation in flight of a group ends with a status; its chunks are discarded. -/
def Eng.endOps (g st : Nat) (e : Eng) : Eng :=
  let ops := (e.group g).ops
  let e := ops.foldl (fun (e : Eng) o => ((e.dropChunks o.cmd).spoil o).complete o.cmd st) e
  e.setGroup g (fun x => { x with ops := [], early := [] })

/-- A group breaks: operations and barriers cancelled, ABORT sent on, state BROKEN (R293); the event where a chip was lost
or a peer's ABORT came (log 42, DEDUCED). -/
def Eng.breakGroup (g : Nat) (event : Option Nat) (except : Nat) (e : Eng) : Eng :=
  let x := e.group g
  let e := if except = noChip then e.bump Reg.colAborts 0 16 1 else e
  let e := ((e.endOps g stCancelled).cancelBarriers g).sendAborts g except
  let e := match x.form with
    | some f => (e.setGroup g (fun x => { x with form := none })).complete f.cmd stCancelled
    | none => e
  let e := e.setGroup g (fun x => { x with st := .broken })
  match event with
  | some n => e.raise n (argA g x.epoch x.seq) (some x.owner) 0
  | none => e

/-- A group dissolves (R277). -/
def Eng.dissolve (g : Nat) (e : Eng) : Eng :=
  let e := (e.endOps g stCancelled).cancelBarriers g
  let e := match (e.group g).form with
    | some f => e.complete f.cmd stCancelled
    | none => e
  e.setGroup g (fun _ => {})

/-! ### The form handshake (R276, R294) -/

/-- FORM_UP payload: CRC, COUNT, the factor check, and whether a value of the subtree differs (log 20, DESIGN CHOICE). -/
def formBytes (crc count : Nat) (factor differs : Bool) : List Byte :=
  fitTo 64 (leBytes 4 crc ++ leBytes 4 count ++ leBytes 1 factor.toNat ++ leBytes 1 differs.toNat)

/-- CRC over a member list as it lies in memory. -/
def listCrc (ms : List Nat) : Nat := (crc32c (ms.flatMap (leBytes 4))).toNat

/-- The handshake's outcome reaches this member; its children are told (Table 12-1; log 20, DESIGN CHOICE). -/
def Eng.formOutcome (g : Nat) (ok factor : Bool) (e : Eng) : Eng :=
  let x := e.group g
  match x.form with
  | none => e
  | some f =>
    let e := e.tellKids x.members (e.collHdr g x.epoch 0 7 0 x.owner) (fitTo 64 (leBytes 1 ok.toNat ++ leBytes 1 factor.toNat))
    if ok then
      let re := x.st == .reforming
      let next := if re then x.epoch else 1
      let e := e.setGroup g (fun x => { x with st := .formed, epoch := next, seq := 0, bseq := 0, factorOk := factor, form := none })
      let e := (e.cmds.map (·.id)).foldl (fun (e : Eng) id => e.numberBarrier id) e
      let e := e.raise (if re then 0x0A04 else 0x0A01) (argA g next 0) (some x.owner) 0
      (if re then e.voidPromise else e).complete f.cmd stOk
    else
      let early := x.early
      ((e.setGroup g (fun _ => { early := early })).raise 0x0A02 (argA g x.epoch 0) (some x.owner) 0).complete f.cmd stBad

/-- The handshake goes on as far as the FORM_UPs held allow (log 20, DESIGN CHOICE). -/
def Eng.formStep (g : Nat) (e : Eng) : Eng :=
  let x := e.group g
  match x.form with
  | none => e
  | some f =>
    let kids := (childrenOf false x.members (x.rootChip 0) e.chip).map (·.2)
    if f.sent || !kids.all (fun c => (KV.find f.ups c).isSome) then e
    else
      let ups := kids.filterMap (KV.find f.ups)
      let n := x.members.length
      let differs := ups.any (fun u => u.1 != f.crc || u.2.1 != n)
      let factor := f.factor && ups.all (fun u => u.2.2)
      let e := e.setGroup g (fun x => { x with form := some { f with sent := true } })
      match parentOf false x.members (x.rootChip 0) e.chip with
      | some (lv, pos, p) =>
        e.collSend noCmd { e.collHdr g x.epoch 0 6 p x.owner with place := lv, pos := pos } (formBytes (if differs then f.crc + 2 ^ 31 else f.crc) n factor differs)
      | none => e.formOutcome g (!differs) factor

/-- A FORM_UP of a child. -/
def Eng.takeFormUp (h : ChunkHdr) (payload : List Byte) (e : Eng) : Eng :=
  let differs := rdLE payload 9 1 != 0
  let v : Nat × Nat × Bool := (if differs then 2 ^ 32 else rdLE payload 0 4, rdLE payload 4 4, rdLE payload 8 1 != 0)
  (e.setGroup h.slot (fun x => { x with form := x.form.map (fun f => { f with ups := KV.put f.ups h.src v }) })).formStep h.slot

/-! ### Operations (R283 to R288) -/

/-- DTYPE of an operation's chunks (Table 12-2): of a BCAST, which has none, a value that no REDUCE has, by which a count sweep
tells the two apart (R283; log 59, DESIGN CHOICE). -/
def CollOp.kindField (o : CollOp) : Nat := if o.reduce then o.dtype else 255

/-- Bytes of an operation's stream at one member. -/
def CollOp.streamLen (o : CollOp) : Nat := if o.reduce && o.dtype = 1 then 2 * o.len else o.len

/-- Changes an operation of a group. -/
def Eng.setOp (g seq : Nat) (f : CollOp → CollOp) (e : Eng) : Eng :=
  e.setGroup g (fun x => { x with ops := updFirst (fun o => o.seq == seq) f x.ops })

/-- Stores into BUF or OUT of an operation. -/
def Eng.storeOp (g : Nat) (o : CollOp) (a : Nat) (b : List Byte) (e : Eng) : Eng :=
  (e.storeFor o.polder a b).setOp g o.seq (fun o => { o with written := o.written ++ [(a, b.length)] })

/-- An operation of a group. -/
def Eng.op? (e : Eng) (g seq : Nat) : Option CollOp := (e.group g).ops.find? (fun o => o.seq == seq)

/-- Factor header fields of a member's BUF (Table 12-4): rows, D_DIV, F_DIV, EFMT, EXPERT. -/
def Eng.factorHdr (m : Mem) (e : Eng) (a : Nat) : Nat × Nat × Nat × Nat × Nat :=
  (e.rdNat m a 4, e.rdNat m (a + 4) 2, e.rdNat m (a + 6) 2, e.rdNat m (a + 16) 1, e.rdNat m (a + 18) 2)

/-- Element size of an EFMT. -/
def efmtSize (x : Nat) : Nat := if x = 1 then 4 else 2

/-- This member's own count record of an operation. -/
def Eng.ownCount (m : Mem) (e : Eng) (o : CollOp) : CountRec :=
  if o.reduce && o.dtype = 2 then
    let h := e.factorHdr m o.buf
    { total := h.1, members := 1, dDiv := h.2.1, fDiv := h.2.2.1, efmt := h.2.2.2.1, expert := h.2.2.2.2 }
  else { total := o.len, members := 1 }

/-- A member's record with its children's, the first difference in ERR (log 42, DEDUCED). -/
def mergeCounts (factor : Bool) (own : CountRec) (ups : List CountRec) : CountRec :=
  ups.foldl (fun a u => { a with
    total := if factor then a.total + u.total else a.total
    members := a.members + u.members
    err := if a.err != 0 then a.err else if u.err != 0 then u.err
      else if factor then (if (u.dDiv, u.fDiv, u.efmt, u.expert) != (own.dDiv, own.fDiv, own.efmt, own.expert) then 4 else 0)
      else if u.total != own.total then 1 else 0 }) own

/-- The tray of this chip uses a switch for an operation (R290); `detm` demands fixed order. -/
def Eng.switchTray (e : Eng) (ms : List Nat) (root : Nat) (detm : Bool) : Bool :=
  let t := trayNodes ms root e.chip
  let head := t.headD 0
  let others := if head = e.chip then t.drop 1 else [head]
  bit (e.reg Reg.colCtrl) 0 && t.length ≥ 3 && others.all (fun c =>
    !(e.linkPorts c).isEmpty && (e.linkPorts c).all (fun p => e.portSwred p && (!detm || ((e.port p).fixedOrder && decide ((e.port p).negVer ≥ 4)))))

/-- Key under which the sum of a tray's switch is held. -/
def switchKey : Nat := 2 ^ 17

/-- Parent and children of a node for dense data: the tray is one line where it uses the switch. -/
def Eng.redParent (e : Eng) (sw b : Bool) (ms : List Nat) (root : Nat) : Option (Nat × Nat × Nat) :=
  let t := trayNodes ms root e.chip
  if sw && t.headD 0 != e.chip then some (0, posIn t e.chip, t.headD 0) else parentOf b ms root e.chip
def Eng.redChildren (e : Eng) (sw b : Bool) (ms : List Nat) (root : Nat) : List (Nat × Nat) :=
  let t := trayNodes ms root e.chip
  if sw then (if t.headD 0 = e.chip then (t.drop 1).map (fun c => (0, c)) else []) ++
    (childrenOf b ms root e.chip).filter (fun c => c.1 != 0)
  else childrenOf b ms root e.chip

/-- Binary32 values of a chunk. -/
def f32s (l : List Byte) : List F32 := (Sys2Proof.groups 4 l.length l).map (fun b => BitVec.ofNat 32 (leNat b))

/-- This member's own contribution to chunk bytes [off, off + n) of the stream (R285). -/
def Eng.ownPart (m : Mem) (e : Eng) (o : CollOp) (off n : Nat) : List F32 :=
  if o.dtype = 1 then unpackPlain fmtBF16 (n / 4) (e.rd m (o.buf + off / 2) (n / 2)) else f32s (e.rd m (o.buf + off) n)

/-- Inputs of a chunk. -/
def CollOp.input (o : CollOp) (chip c : Nat) : Option (List Byte) := (o.inputs.find? (fun x => x.1 == chip && x.2.1 == c)).map (·.2.2)

/-- The sum of a chunk, once every input is there (R285, R290). -/
def Eng.chunkSum (m : Mem) (e : Eng) (g : Nat) (o : CollOp) (c off n : Nat) : Option (List F32) :=
  let x := e.group g
  let root := x.rootChip o.root
  let sw := e.switchTray x.members root o.detm
  let kids := e.redChildren sw (c % 2 = 1) x.members root
  let whole := if sw then o.input switchKey c else none
  let kids := if whole.isSome then kids.filter (fun k => k.1 != 0) else kids
  let base := match whole with
    | some b => f32s b
    | none => e.ownPart m o off n
  if kids.all (fun k => (o.input k.2 c).isSome) then
    some ((kids.filterMap (fun k => o.input k.2 c)).foldl (fun s b => (s.zip (f32s b)).map (fun p => fadd p.1 p.2)) base)
  else none

/-- The parts of a stream. -/
def Eng.opCuts (e : Eng) (g : Nat) (o : CollOp) : List (Nat × Nat) :=
  let x := e.group g
  if o.len = 0 then [] else cuts o.streamLen (e.groupChunk x.members (x.rootChip o.root))

/-- Data header of an operation. -/
def Eng.dataHdr (e : Eng) (g : Nat) (o : CollOp) (op dst c off : Nat) (sw : Bool) (lv pos : Nat) : ChunkHdr :=
  let x := e.group g
  { e.collHdr g x.epoch o.seq op dst o.polder with
    wfmt := if op = 4 then 8 else 0
    offset := off, pleatLen := if op = 5 then o.len else o.streamLen, place := lv + (c % 2) * 4 + sw.toNat * 8, dtype := o.kindField
    root := o.root, pos := pos, chunkIdx := c, cflags := o.detm.toNat * 4 }

/-- Dense chunks whose sum is complete and not yet sent: to the parent, to the switch, or into OUT (R285, R291). -/
def Eng.reduceStep (m : Mem) (g seq : Nat) (e : Eng) : Eng :=
  match e.op? g seq with
  | none => e
  | some o =>
    if !o.reduce || o.dtype = 2 then e
    else
      let x := e.group g
      let root := x.rootChip o.root
      let sw := e.switchTray x.members root o.detm
      (e.opCuts g o).zipIdx.foldl (fun (e : Eng) p =>
        let (off, n) := p.1
        let c := p.2
        match e.op? g seq with
        | none => e
        | some o =>
          let head := sw && (trayNodes x.members root e.chip).headD 0 = e.chip
          let toSwitch := sw && !o.refused.contains c && !o.landed.contains c && (o.input switchKey c).isNone
          let e := if head && toSwitch then
              let b := (e.ownPart m o off n).flatMap f32Bytes
              ((e.setOp g seq (fun o => { o with landed := o.landed ++ [c] })).collSend o.cmd (e.dataHdr g o 4 e.chip c off true 0 0) b)
            else e
          if o.emitted.contains c then e
          else if head && !o.refused.contains c && (o.input switchKey c).isNone then e
          else match e.chunkSum m g o c off n with
            | none => e
            | some s =>
              let e := e.setOp g seq (fun o => { o with emitted := o.emitted ++ [c] })
              match e.redParent sw (c % 2 = 1) x.members root with
              | some (lv, pos, dst) =>
                let h := e.dataHdr g o 4 dst c off (sw && lv = 0 && !o.refused.contains c) lv pos
                let b := s.flatMap f32Bytes
                if (e.redChildren sw (c % 2 = 1) x.members root).isEmpty then
                  e.addJobs o.cmd [.chunk { h with plen := b.length } (.bytes b) b.length]
                else e.collSend o.cmd h b
              | none =>
                if o.dtype = 1 then e.storeOp g o (o.out + off / 2) (packPlain fmtBF16 s)
                else e.storeOp g o (o.out + off) (s.flatMap f32Bytes)) e

/-- Sizes of the two regions of a factor pair (R287). -/
def factorRegions (rows dDiv fDiv efmt : Nat) : Nat × Nat :=
  (lineUp (rows * dDiv * 256 * efmtSize efmt), lineUp (rows * fDiv * 256 * efmtSize efmt))

/-- Chunks of a factor pair: source and OUT offset, length; cut from the start of X, none spanning both regions. -/
def factorCuts (buf n dDiv fDiv efmt base total cs : Nat) : List (Nat × Nat × Nat) :=
  let xb := n * dDiv * 256 * efmtSize efmt
  let hb := n * fDiv * 256 * efmtSize efmt
  let xa := 64 + base * dDiv * 256 * efmtSize efmt
  let ha := 64 + lineUp (total * dDiv * 256 * efmtSize efmt) + base * fDiv * 256 * efmtSize efmt
  (cuts xb cs).map (fun p => (buf + 64 + p.1, xa + p.1, p.2)) ++
  (cuts hb cs).map (fun p => (buf + 64 + lineUp xb + p.1, ha + p.1, p.2))

/-- Data that a member sends of its own: the root's broadcast, or its factor rows after COUNT_DOWN. -/
def Eng.sendOwn (m : Mem) (g seq : Nat) (e : Eng) : Eng :=
  match e.op? g seq with
  | none => e
  | some o =>
    let x := e.group g
    let root := x.rootChip o.root
    if o.dataSent then e
    else if !o.reduce then
      if root ≠ e.chip then e
      else
        let e := e.setOp g seq (fun o => { o with dataSent := true })
        (e.opCuts g o).zipIdx.foldl (fun (e : Eng) p =>
          (childrenOf (p.2 % 2 = 1) x.members root e.chip).foldl (fun (e : Eng) k =>
            e.addJobs o.cmd [.chunk { e.dataHdr g o 3 k.2 p.2 p.1.1 false k.1 0 with plen := p.1.2 } (.copy (o.buf + p.1.1)) p.1.2]) e) e
    else if o.dtype = 2 then
      match o.down with
      | none => e
      | some d =>
        let h := e.factorHdr m o.buf
        let cs := e.groupChunk x.members root
        let e := e.setOp g seq (fun o => { o with dataSent := true })
        (factorCuts o.buf h.1 h.2.1 h.2.2.1 h.2.2.2.1 d.base d.total cs).zipIdx.foldl (fun (e : Eng) p =>
          let (src, dst, n) := p.1
          if root = e.chip then e.storeOp g o (o.out + dst) (e.rd m src n)
          else match parentOf (p.2 % 2 = 1) x.members root e.chip with
            | some (lv, pos, par) =>
              e.addJobs o.cmd [.chunk { e.dataHdr g o 5 par p.2 dst false lv pos with plen := n } (.copy src) n]
            | none => e) e
    else e

/-- An operation is over: its record, and its place in the group. -/
def Eng.endOp (g seq st : Nat) (e : Eng) : Eng :=
  match e.op? g seq with
  | none => e
  | some o => (e.setGroup g (fun x => { x with ops := x.ops.filter (fun o => o.seq != seq) })).complete o.cmd st

/-- Completes an operation whose work is done (R284, R285, R287): a BCAST at another member than the root once every chunk has
landed, else once what this member has sent is acknowledged; in factor mode the root has every row (log 59, DESIGN CHOICE). -/
def Eng.finishOp (m : Mem) (g seq : Nat) (e : Eng) : Eng :=
  match e.op? g seq with
  | none => e
  | some o =>
    let x := e.group g
    let root := x.rootChip o.root
    let n := (e.opCuts g o).length
    match o.down with
    | none => e
    | some d =>
      if d.err ≠ 0 then e
      else if !o.reduce && root ≠ e.chip then (if o.landed.length = n then e.endOp g seq stOk else e)
      else if e.chunksOpen o.cmd then e
      else if !o.reduce then (if o.dataSent then e.endOp g seq stOk else e)
      else if o.dtype = 2 then
        let h := e.factorHdr m o.buf
        let row := (h.2.1 + h.2.2.1) * 256 * efmtSize h.2.2.2.1
        let kids := (o.ups.map (fun u => u.2.total)).sum
        if !o.dataSent then e
        else if root ≠ e.chip then e.endOp g seq stOk
        else if o.factorBytes < kids * row then e
        else (e.storeFor o.polder o.out (fitTo 64 (leBytes 4 d.total ++ leBytes 2 h.2.1 ++ leBytes 2 h.2.2.1 ++ leBytes 8 d.capacity ++
            leBytes 1 h.2.2.2.1 ++ zeros 1 ++ leBytes 2 h.2.2.2.2))).endOp g seq stOk
      else if o.emitted.length = n then e.endOp g seq stOk else e

/-- COUNT_DOWN at this node: its children are told; an error ends the operation (R283). -/
def Eng.countDown (m : Mem) (g seq : Nat) (d : CountRec) (e : Eng) : Eng :=
  match e.op? g seq with
  | none => e
  | some o =>
    let x := e.group g
    let root := x.rootChip o.root
    let own := e.ownCount m o
    let kids := childrenOf false x.members root e.chip
    let start : Eng × Nat := (e, d.base + own.total)
    let (e, _) := kids.foldl (fun (acc : Eng × Nat) k =>
      let t := (KV.get {} o.ups k.2).total
      (acc.1.collSend noCmd { acc.1.collHdr g x.epoch seq 2 k.2 o.polder with
        dtype := o.kindField, root := o.root, place := k.1, pos := posAt x.members root acc.1.chip k.1 }
        ({ d with base := acc.2 } : CountRec).bytes, acc.2 + t)) start
    if d.err ≠ 0 then
      let tell (n : Nat) (e : Eng) : Eng := e.raise n (argA g x.epoch seq) (some o.polder) 0
      let e := if root ≠ e.chip then e else tell 0x0A06 (if d.err = 3 then tell 0x0A0A e else e)
      ((e.dropChunks o.cmd).spoil o).endOp g seq stBad
    else ((e.setOp g seq (fun o => { o with down := some d })).sendOwn m g seq).finishOp m g seq

/-- The count sweep goes on as far as the COUNT_UPs held allow. -/
def Eng.countStep (m : Mem) (g seq : Nat) (e : Eng) : Eng :=
  match e.op? g seq with
  | none => e
  | some o =>
    let x := e.group g
    let root := x.rootChip o.root
    let kids := (childrenOf false x.members root e.chip).map (·.2)
    if o.upSent || !kids.all (fun c => (KV.find o.ups c).isSome) then e
    else
      let factor := o.reduce && o.dtype = 2
      let r := mergeCounts factor (e.ownCount m o) (kids.filterMap (KV.find o.ups))
      let e := e.setOp g seq (fun o => { o with upSent := true })
      match parentOf false x.members root e.chip with
      | some (lv, pos, p) =>
        e.collSend noCmd { e.collHdr g x.epoch seq 1 p o.polder with dtype := o.kindField, root := o.root, place := lv, pos := pos } r.bytes
      | none =>
        let cap := if factor then e.rdNat m (o.out + 8) 8 else 0
        let reg := factorRegions r.total r.dDiv r.fDiv r.efmt
        let err := if r.err ≠ 0 then r.err else if factor && 64 + reg.1 + reg.2 > cap then 3 else 0
        e.countDown m g seq { r with capacity := cap, base := 0, err := err }

/-- Everything an operation can do now. -/
def Eng.opStep (m : Mem) (g seq : Nat) (e : Eng) : Eng :=
  ((((e.countStep m g seq).sendOwn m g seq).reduceStep m g seq)).finishOp m g seq

/-- A COUNT_UP of a child: an operation of another kind, root or type is ERR 2 (Table 12-3; log 42, DEDUCED;
log 59, DESIGN CHOICE). -/
def Eng.takeCountUp (m : Mem) (h : ChunkHdr) (payload : List Byte) (e : Eng) : Eng :=
  match e.op? h.slot h.step with
  | none => e
  | some o =>
    let r := CountRec.ofBytes payload
    let r := if (h.root != o.root || h.dtype != o.kindField) && r.err = 0 then { r with err := 2 } else r
    (e.setOp h.slot h.step (fun o => { o with ups := KV.put o.ups h.src r })).opStep m h.slot h.step

/-- A duplicate chunk (R200; log 41, DEDUCED). -/
def Eng.dupChunk (port : Option Nat) (chip : Nat) (e : Eng) : Eng :=
  (match port with
   | some p => e.bump32 (Reg.slcDupChunk p) 1
   | none => e).raise 0x010A (arg1 port chip) none 0

/-- Header under which a FACTOR_DATA chunk goes on to this node's parent in the chunk's tree; none at the root (R287;
log 59, DESIGN CHOICE). -/
def Eng.factorOn (e : Eng) (h : ChunkHdr) (len : Nat) : List ChunkHdr :=
  let x := e.group h.slot
  let root := x.rootChip h.root
  if h.op ≠ 5 || root = e.chip then []
  else match parentOf (bit h.place 2) x.members root e.chip with
    | some (lv, pos, p) => [{ h with src := e.chip, dst := p, pos := pos, place := lv + (bit h.place 2).toNat * 4, plen := len }]
    | none => []

/-- Headers of the copies of a BCAST_DATA or FACTOR_DATA chunk that this node forwards: to its children, or to its parent
(R284, R287). -/
def Eng.forwards (e : Eng) (h : ChunkHdr) (len : Nat) (o : CollOp) : List ChunkHdr :=
  let x := e.group h.slot
  let root := x.rootChip o.root
  if h.op = 3 then
    (childrenOf (h.chunkIdx % 2 = 1) x.members root e.chip).map (fun k =>
      { e.dataHdr h.slot o 3 k.2 h.chunkIdx h.offset false k.1 (posAt x.members root e.chip k.1) with plen := len })
  else e.factorOn h len

/-- The entry under which a chunk has been forwarded by cut-through, waiting for its good copy. -/
def TtEntry.forwarded (t : TtEntry) (cmd : Nat) (k : ChunkHdr) : Bool :=
  t.awaits && t.cmd == cmd && t.hdr.dst == k.dst && t.hdr.op == k.op && t.hdr.offset == k.offset

/-- A chunk that fails its check here has gone on by cut-through: what it was forwarded as keeps its PCRC (R282). -/
def Eng.forwardBad (h : ChunkHdr) (payload : List Byte) (o : CollOp) (e : Eng) : Eng :=
  let src : ChunkSrc := if h.op = 3 then .copy (o.buf + h.offset) else .bytes payload
  (e.forwards h payload.length o).foldl (fun (e : Eng) k =>
    if e.tt.length ≥ 4096 || !e.canSend k || e.tt.any (fun kt => kt.2.forwarded o.cmd k) then e
    else e.sendAs ⟨o.cmd, k, src⟩ payload (some h.pcrc)) e

/-- A good chunk is forwarded; where a bad one went before it, the NAK that it brings is answered with this one (R282). -/
def Eng.forward (h : ChunkHdr) (payload : List Byte) (src : ChunkSrc) (o : CollOp) (e : Eng) : Eng :=
  (e.forwards h payload.length o).foldl (fun (e : Eng) k =>
    if e.tt.any (fun kt => kt.2.forwarded o.cmd k) then
      { e with tt := e.tt.map (fun kt => if kt.2.forwarded o.cmd k then (kt.1, { kt.2 with awaits := false, src := src }) else kt) }
    else e.sendNew ⟨o.cmd, k, src⟩ payload) e

/-- A BCAST_DATA chunk lands in BUF and goes on to this node's children (R284). -/
def Eng.takeBcast (m : Mem) (port : Option Nat) (h : ChunkHdr) (payload : List Byte) (o : CollOp) (e : Eng) : Eng :=
  let g := h.slot
  if o.landed.contains h.chunkIdx then e.dupChunk port h.src
  else
    let e := (e.storeOp g o (o.buf + h.offset) payload).setOp g o.seq (fun o => { o with landed := o.landed ++ [h.chunkIdx] })
    (e.forward h payload (.copy (o.buf + h.offset)) o).finishOp m g o.seq

/-- What this member contributed to a switch slot needs no answer any more: the sum is there, or the slot was refused (R291;
log 59, DESIGN CHOICE). -/
def Eng.dropSwitch (cmd c : Nat) (e : Eng) : Eng :=
  let mine (k : Nat) (h : ChunkHdr) : Bool := k == cmd && h.kind == 6 && h.op == 4 && bit h.place 3 && h.chunkIdx == c
  { e with outq := e.outq.filter (fun o => !mine o.cmd o.hdr), tt := e.tt.filter (fun kt => !mine kt.2.cmd kt.2.hdr) }

/-- A REDUCE_DATA chunk: an input of this node, from a child or from the tray's switch; `sumBad` where the sum that it
completes fails its second check and is rebuilt (R285, R286). -/
def Eng.takeReduce (m : Mem) (port : Option Nat) (h : ChunkHdr) (payload : List Byte) (sumBad : Bool) (o : CollOp) (e : Eng) : Eng :=
  let g := h.slot
  let sw := bit h.place 3
  let key := if sw then switchKey else h.src
  if (o.input key h.chunkIdx).isSome then e.dupChunk port h.src
  else
    let before := o.emitted.length
    let e := e.setOp g o.seq (fun o => { o with inputs := o.inputs ++ [(key, h.chunkIdx, payload)] })
    let e := if sw then (e.bump Reg.colSw 0 16 1).dropSwitch o.cmd h.chunkIdx else e
    let e := e.reduceStep m g o.seq
    let grew := match e.op? g o.seq with
      | some o => decide (o.emitted.length > before)
      | none => false
    let e := if sumBad && grew then
        let e := e.bump32 Reg.colRebuilt 1
        if o.rebuiltRaised then e
        else (e.setOp g o.seq (fun o => { o with rebuiltRaised := true })).raise 0x0A08 (argA g (e.group g).epoch o.seq) (some o.polder) 0
      else e
    e.finishOp m g o.seq

/-- A FACTOR_DATA chunk: into the root's OUT, or on to the parent (R287). -/
def Eng.takeFactor (m : Mem) (port : Option Nat) (h : ChunkHdr) (payload : List Byte) (o : CollOp) (e : Eng) : Eng :=
  let g := h.slot
  let x := e.group g
  let root := x.rootChip o.root
  if o.landed.contains h.offset then e.dupChunk port h.src
  else
    let e := e.setOp g o.seq (fun o => { o with factorBytes := o.factorBytes + payload.length, landed := o.landed ++ [h.offset] })
    let e := if root = e.chip then e.storeOp g o (o.out + h.offset) payload else e.forward h payload (.bytes payload) o
    e.finishOp m g o.seq

/-- SW_REFUSED: the chunk goes to the level root, which forms the same linear sum (R291). -/
def Eng.takeRefused (m : Mem) (port : Option Nat) (h : ChunkHdr) (o : CollOp) (e : Eng) : Eng :=
  let g := h.slot
  if o.refused.contains h.chunkIdx then e
  else
    let n := match (e.opCuts g o)[h.chunkIdx]? with
      | some p => p.2
      | none => 0
    let e := (e.bump Reg.colSw 16 16 1).gauge gsSwitchRefused (port.getD 16) (some o.polder) n
    let e := if o.refusedRaised then e else e.raise 0x0A07 (argA g (e.group g).epoch o.seq) (some o.polder) 0
    let own := (trayNodes (e.group g).members ((e.group g).rootChip o.root) e.chip).headD 0 = e.chip
    let e := e.setOp g o.seq (fun o => { o with
      refused := o.refused ++ [h.chunkIdx], refusedRaised := true
      emitted := if own then o.emitted else o.emitted.filter (· != h.chunkIdx) })
    ((e.dropSwitch o.cmd h.chunkIdx).reduceStep m g o.seq).finishOp m g o.seq

/-- The level root asks every contributor for a chunk whose switch sum failed its check (R291). -/
def Eng.requestDirect (m : Mem) (port : Option Nat) (h : ChunkHdr) (o : CollOp) (e : Eng) : Eng :=
  let g := h.slot
  let x := e.group g
  let t := trayNodes x.members (x.rootChip o.root) e.chip
  let e := (t.drop 1).foldl (fun (e : Eng) c =>
    e.collSend noCmd { e.collHdr g x.epoch o.seq 9 c o.polder with chunkIdx := h.chunkIdx, root := o.root, dtype := o.kindField } []) e
  e.takeRefused m port h o

/-! ### Barriers (R334 to R336) -/

/-- Members and root of a barrier's group: the job for 0xFF. -/
def Eng.barrierMembers (e : Eng) (g : Nat) : List Nat :=
  if g = 255 then e.jobChips.filter (fun c => !e.isLost c) else (e.group g).members

/-- Changes a barrier of a group. -/
def Eng.setBarrier (g bseq : Nat) (f : Barrier → Barrier) (e : Eng) : Eng :=
  e.setGroup g (fun x => { x with barriers := updFirst (fun b => b.bseq == bseq) f x.barriers })

/-- A release time reaches this member: it is sent on down tree A; late, the member releases at once (R335, R336;
log 20, DESIGN CHOICE). -/
def Eng.barrierDown (g bseq t : Nat) (e : Eng) : Eng :=
  let x := e.group g
  let ms := e.barrierMembers g
  match x.barriers.find? (fun b => b.bseq == bseq) with
  | none => e
  | some b =>
    if b.trel.isSome then e
    else
      let e := e.tellKids ms (e.collHdr g x.epoch bseq 11 0 x.owner) (fitTo 64 (leBytes 8 t))
      let e := e.gauge gsBarrierSlack 0 (some x.owner) (t - e.now)
      e.setBarrier g bseq (fun b => { b with trel := some t })

/-- A barrier whose release time has come, or had passed when it arrived, completes (R335, R336). -/
def Eng.barrierGo (g bseq : Nat) (late : Bool) (e : Eng) : Eng :=
  let x := e.group g
  match x.barriers.find? (fun b => b.bseq == bseq) with
  | none => e
  | some b =>
    match b.trel with
    | none => e
    | some t =>
      let e := if late then (e.bump Reg.detBarrier 16 16 1).raise 0x0A0B (argA g x.epoch bseq) (some x.owner) 0 else e.reach t
      let e := e.bump Reg.detBarrier 0 16 1
      let e := e.setCmd b.cmd (fun c => { c with res := { c.res with
        time := some t, flags := c.res.flags + (if e.time.locked || e.time.root then 0 else 32) } })
      (e.setGroup g (fun x => { x with barriers := x.barriers.filter (fun b => b.bseq != bseq) })).complete b.cmd stOk

/-- A barrier goes on as far as the BARRIER_UPs held allow. -/
def Eng.barrierStep (g bseq : Nat) (e : Eng) : Eng :=
  let x := e.group g
  let ms := e.barrierMembers g
  let root := ms.headD 0
  match x.barriers.find? (fun b => b.bseq == bseq) with
  | none => e
  | some b =>
    let kids := (childrenOf false ms root e.chip).map (·.2)
    if !b.started || b.upSent || !kids.all b.ups.contains then e
    else
      let e := e.setBarrier g bseq (fun b => { b with upSent := true })
      match parentOf false ms root e.chip with
      | some (lv, pos, p) => e.collSend noCmd { e.collHdr g x.epoch bseq 10 p x.owner with place := lv, pos := pos } (zeros 64)
      | none => e.barrierDown g bseq (e.now + treeLatency ms root + 2000)

/-- A BARRIER_UP of a child, its own barrier fetched here or not. -/
def Eng.takeBarrierUp (h : ChunkHdr) (e : Eng) : Eng :=
  let x := e.group h.slot
  let e := if x.barriers.any (fun b => b.bseq == h.step) then e
    else e.setGroup h.slot (fun x => { x with barriers := x.barriers ++ [{ bseq := h.step, cmd := noCmd }] })
  (e.setBarrier h.slot h.step (fun b => { b with ups := b.ups ++ [h.src] })).barrierStep h.slot h.step

end Sys2Proof.Machine
end

