-- ==== Sys2Proof/Machine/Takeover.lean ====
section
/-! DEFINITION. Losing a peer chip (R363 to R366): claims, the substitute's rebuilding, re-landing, and what a source drops
where no substitute exists; notices (R362). -/

namespace Sys2Proof.Machine

/-! ### Claims (R365) -/

/-- A claim record: the bid, and the answer it had. -/
def RouteWork.claimRec (w : RouteWork) (b : SrcBid) : BidRec :=
  let r := w.bidRec b
  match b.answer with
  | none => r
  | some a => { r with bflags := r.bflags + 2, answer := a }

/-- The last round whose END a source has sent. -/
def RouteWork.endedRound (w : RouteWork) : Nat := match w.phase with
  | .areaWait => 0
  | .scoring => 0
  | _ => w.round

/-- Claim frames for the bids of a step addressed to `x`: one frame or more for each round, then the claim END, whose
ROUND is the last round ended. -/
def Eng.sendClaims (w : RouteWork) (x dst : Nat) (e : Eng) : Eng :=
  let mine := w.bids.filter (fun b => b.dest == x && b.answer != some resUnreach)
  let e := [1, 2, 3].foldl (fun (e : Eng) r =>
    let l := (mine.filter (fun b => b.round == r)).map w.claimRec
    (Sys2Proof.groups 4092 l.length l).foldl (fun (e : Eng) p =>
      e.sendFrame noCmd w.polder { w.frame e.chip dst r 0 p.length with kind := 3 } (p.flatMap BidRec.bytes)) e) e
  e.sendFrame noCmd w.polder { w.frame e.chip dst w.endedRound (1 + w.lastSent.toNat * 2) 0 with kind := 3 } []

/-! ### Re-landing (R365 step 3) -/

/-- Whether a step's rows are still to be held (R26). -/
def Eng.rowsHeld (e : Eng) (w : RouteWork) : Bool := if e.consentClass w.polder then !w.doneBwd else !w.done

/-- Sends a pleat's chunks again, to the chip that stands in its host's place. -/
def Eng.resendPleat (m : Mem) (w : RouteWork) (x d : Nat) (bwd : Bool) (e : Eng) : Eng :=
  match w.pleats.find? (fun p => p.dest == x) with
  | none => e
  | some p =>
    let c := e.cfgOf w.slot
    let code := e.wireCode c d
    let cmd := if bwd then w.bwdCmd.getD noCmd else w.cmd
    let len := streamLen (if bwd then 2 else 1) p.pairs (wireLen code c.d)
    let h : ChunkHdr := { kind := if bwd then 3 else 1, wfmt := code + (if bit c.wireFmt 4 then 16 else 0)
                          epoch := if bwd then w.bwdEpoch else w.epoch, step := w.step, src := e.chip, dst := d, slot := w.slot, polder := w.polder }
    let jobs := e.streamJobs h (if bwd then w.bwdDetm else w.detm) (bwd && !bit c.wireFmt 4) len (if bwd then .bwdDispatch w.cmd else .dispatch w.cmd)
    if e.chans.any (fun kc => kc.2.cmd == cmd) then e.addJobs cmd jobs
    else jobs.foldl (fun (e : Eng) j => match j with
      | .chunk h s _ => (let o : OutMsg := ⟨cmd, h, s⟩; e.sendNew o (e.payload m o))
      | .copy _ _ _ => e) e

/-- Whether a chunk belongs to a step's dispatch. -/
def ChunkSrc.ofWork (cmd : Nat) : ChunkSrc → Bool
  | .dispatch w => w == cmd
  | .bwdDispatch w => w == cmd
  | _ => false

/-- Chunks of a step's dispatch that wait to leave for a chip are dropped: its rows are about to be sent again. -/
def Eng.dropToward (cmd x : Nat) (e : Eng) : Eng :=
  { e with
    outq := e.outq.filter (fun o => !(o.hdr.dst == x && o.src.ofWork cmd))
    tt := e.tt.filter (fun kt => !(kt.2.hdr.dst == x && kt.2.src.ofWork cmd))
    chans := e.chans.map (fun kc => (kc.1, { kc.2 with jobs := kc.2.jobs.filter (fun j => match j with
      | .chunk h s _ => !(h.dst == x && s.ofWork cmd)
      | .copy _ _ _ => true) })) }

/-- A source's step goes over to the chip that stands in for `x`: claims, then its rows, or a void list where they are
gone. -/
def Eng.stepTakeover (m : Mem) (w : RouteWork) (x d : Nat) (e : Eng) : Eng :=
  let e := (e.dropToward w.cmd x).sendClaims w x d
  if !(w.phase == .sending || w.phase == .sent) then e
  else if e.rowsHeld w then
    let e := e.resendPleat m w x d false
    if w.bwdCmd.isSome then e.resendPleat m w x d true else e
  else
    let tags := w.tags (w.pairsFor x)
    if tags.isEmpty then e else e.sendVoid w d tags

/-! ### The substitute (R365, Table 15-7) -/


/-- The lost host whose experts of a slot this chip takes over. -/
def Eng.standsFor (e : Eng) (slot : Nat) : Option Nat :=
  (e.flt.lost.filterMap id).find? (fun x => e.substitute slot x == some e.chip)

/-- The takeover of a step, if one is under way. -/
def Eng.takeover? (e : Eng) (slot step : Nat) : Option Takeover :=
  e.flt.takeovers.find? (fun t => t.slot == slot && t.step == step)

/-- Places of an expert out of the grants claimed; a place no one claimed lies between them. -/
def claimedPlaces (l : List HeldBid) (j : Nat) : List Place :=
  let mine := l.filter (fun b => bit b.bid.bflags 1 && bit b.bid.answer 31 && b.bid.answer % 2 ^ 26 / 2 ^ 24 == j)
  let n := mine.foldl (fun a b => max a (b.bid.answer % 2 ^ 24 + 1)) 0
  (List.range n).map (fun i => match mine.find? (fun b => b.bid.answer % 2 ^ 24 == i) with
    | some b => { src := b.src, token := b.bid.token, rank := b.bid.rank, alt := bit b.bid.bflags 0 }
    | none => { src := unclaimed, token := 0, rank := 0 })

/-- A claimed bid as the host would have held it. -/
def HeldBid.plain (b : HeldBid) : HeldBid := { b with bid := { b.bid with bflags := b.bid.bflags % 2, answer := 0 } }

/-- Rebuilds the host role of a step from its claims: adopted in normal mode, recomputed round by round under DETM. -/
def Eng.rebuildRole (t : Takeover) (e : Eng) : Eng :=
  let old := e.role t.slot t.step
  match (old.map (·.polder)).or (e.slotPolder t.slot) with
  | none => e
  | some polder =>
    let tokens := match e.works.find? (fun w => w.slot == t.slot && w.step == t.step) with
      | some w => w.tokens
      | none => 0
    let detm := match old with
      | some h => h.detm
      | none => t.detm
    let base : HostRole := match old with
      | some h => h
      | none => { slot := t.slot, step := t.step, polder := polder, rslot := (e.slotOf polder).getD 0, cap := 0, detm := detm
                  epoch := (e.lslot t.slot).epoch, startNs := e.now, tlayer := e.tLayer t.slot tokens }
    let cap := if base.experts.isEmpty then e.capacity polder t.slot tokens else base.cap
    let adopt := !(detm || (e.cfgOf t.slot).expertChoice)
    let ex : KV HostExpert := (e.localExperts t.slot).map (fun je =>
      let x : HostExpert := (KV.find base.experts je.1).getD { expert := je.2 }
      (je.1, if adopt then { x with places := claimedPlaces t.claims je.1 } else x))
    let refusedOnes := t.claims.filter (fun b => bit b.bid.bflags 1 && !bit b.bid.answer 31)
    let fresh := base.experts.isEmpty || base.reserving
    let r : HostRole := { base with
      cap := cap, experts := ex, reserving := fresh, sources := t.ends
      heldBids := if adopt then (t.claims.filter (fun b => !bit b.bid.bflags 1)).map HeldBid.plain else t.claims.map HeldBid.plain
      refusedList := if adopt then refusedOnes.map (fun b => (b.src, b.bid.token, b.bid.rank)) else [] }
    let e := if old.isSome then e.setRole t.slot t.step (fun _ => r) else { e with roles := e.roles ++ [r] }
    let e := { e with flt.takeovers := e.flt.takeovers.filter (fun x => !(x.slot == t.slot && x.step == t.step)) }
    let (ok, e) := if fresh then e.tryReserve t.slot t.step else (true, e)
    let e := if ok then e.reserveSettled t.slot t.step else e
    if e.flt.takeovers.any (fun x => x.lost == t.lost) then e else e.raise 0x0115 (arg1 none t.lost) none 0

/-- Rebuilds a step once every member that is not lost has sent its claim END. -/
def Eng.tryRebuild (slot step : Nat) (e : Eng) : Eng :=
  match e.takeover? slot step with
  | none => e
  | some t =>
    if e.jobChips.all (fun c => e.lostFor slot c || c == t.lost && c != e.chip || (KV.find t.ends c).isSome) then e.rebuildRole t else e

/-- Opens a takeover for a step. -/
def Eng.openTakeover (lost slot step : Nat) (detm : Bool) (e : Eng) : Eng :=
  if (e.takeover? slot step).isSome then e
  else { e with flt.takeovers := e.flt.takeovers ++ [{ lost := lost, slot := slot, step := step, detm := detm }] }

/-- A claim frame, or a bid frame of a member that opens the step after the loss, joins a takeover. -/
def Eng.joinTakeover (h : FitHdr) (recs : List BidRec) (e : Eng) : Eng :=
  let add (t : Takeover) : Takeover :=
    let fresh := (recs.map (fun b => (⟨h.src, h.round, h.epoch, b⟩ : HeldBid))).filter (fun b =>
      !t.claims.any (fun q => q.src == b.src && q.bid.token == b.bid.token && q.bid.rank == b.bid.rank))
    let ends := if bit h.fflags 0 then KV.put t.ends h.src
        { endRound := h.round, last := bit h.fflags 1, cancelled := bit h.fflags 2, epoch := h.epoch } else t.ends
    let gone := bit h.fflags 0 && bit h.fflags 2
    { t with claims := if gone then t.claims.filter (fun b => b.src != h.src) else t.claims ++ fresh, ends := ends }
  ({ e with flt.takeovers := updFirst (fun t => t.slot == h.slot && t.step == h.step) add e.flt.takeovers }).tryRebuild h.slot h.step

/-! ### Losing a chip (R363, R364) -/

/-- Slots whose panel map has a valid panel on a chip. -/
def Eng.slotsOn (e : Eng) (x : Nat) : List Nat :=
  ((e.panelMaps.filter (fun km => km.2.any (fun kp => kp.2.valid && trayChip kp.2.primary (chipPos x) == x &&
    field kp.2.active (4 * chipPos x) 4 != 0))).map (·.1))

/-- What is on its way to a chip is forgotten (log 31, DEDUCED). -/
def Eng.forgetChip (x : Nat) (e : Eng) : Eng :=
  { e with
    tt := e.tt.filter (fun kt => kt.2.hdr.dst != x)
    outq := e.outq.filter (fun o => o.hdr.dst != x)
    acks := KV.del e.acks x
    chans := e.chans.map (fun kc => (kc.1, { kc.2 with jobs := kc.2.jobs.filter (fun j => match j with
      | .chunk h _ _ => h.dst != x
      | .copy _ _ _ => true) })) }

/-- As a host: the places granted to `x` are voided, and rounds that waited for it close (R363 step 2). -/
def Eng.hostLoses (x : Nat) (e : Eng) : Eng :=
  (e.roles.map (fun r => (r.slot, r.step))).foldl (fun (e : Eng) k =>
    let e := e.setRole k.1 k.2 (fun h => { h with heldBids := h.heldBids.filter (fun b => b.src != x) })
    ((e.voidPlaces k.1 k.2 (fun p => p.src == x)).closeRounds k.1 k.2 3).checkReady k.1 k.2) e

/-- As a source with no substitute for `x`: open bids are refused ABSENT, pairs whose returns are missing are dropped
(R364). -/
def Eng.sourceDrops (m : Mem) (w : RouteWork) (x : Nat) (e : Eng) : Eng :=
  let e := e.setWork w.cmd (fun w => { w with bids := w.bids.map (fun b =>
    if b.dest = x && b.answer.isNone then { b with answer := some resAbsent } else b) })
  let missing (bwd : Bool) : List Nat := (w.pairs.zipIdx.filter (fun p => p.1.dest == x && p.1.awaited &&
    (w.areaOf bwd).live && !(w.areaOf bwd).got.contains p.2)).map (·.2)
  let e := (missing false).foldl (fun (e : Eng) i => e.dropPair w.cmd false i) e
  let e := (missing true).foldl (fun (e : Eng) i => e.dropPair w.cmd true i) e
  ((e.advanceSource w.cmd 4).settleCombine w.cmd).settleCombineBwd m w.cmd

/-- Running commands of a step whose pairs or bids lie on `x` are marked as taken over (R366). -/
def Eng.markTaken (w : RouteWork) (x : Nat) (e : Eng) : Eng :=
  if w.bids.any (fun b => b.dest == x) then
    { e with cmds := e.cmds.map (fun c =>
        if c.polder = w.polder && c.d.slot = w.slot && c.d.step = w.step && c.phase == .running && !c.done then { c with peerLost := true } else c) }
  else e

/-- Slots with the lost hosts for which a chip stands in there. -/
def Eng.standIns (e : Eng) (x : Nat) : List (Nat × Nat) :=
  (e.panelMaps.map (·.1)).flatMap (fun s => ((e.flt.lost.filterMap id).filter (fun y => e.substitute s y == some x)).map (fun y => (s, y)))

/-- Applies LOST for a chip (R363). A chip lost while it stands in for others is not replaced: their experts become absent
(log 61, DESIGN CHOICE). -/
def Eng.applyLost (m : Mem) (x : Nat) (e : Eng) : Eng :=
  let stood := e.standIns x
  let lost := match e.flt.lost.findIdx? (· == none) with
    | some i => e.flt.lost.set i (some x)
    | none => e.flt.lost ++ [some x]
  let e := { e with flt.lost := lost, flt.holds := KV.del e.flt.holds x, flt.lostClear := e.flt.lostClear.filter (fun k => k % 2 ^ 17 != x) }
  let e := (e.forgetChip x).raise 0x0113 (arg1 none x) none 0
  let e := e.hostLoses x
  let e := ((List.range 64).filter (fun g => (e.group g).st != .unformed && (e.group g).members.contains x)).foldl
    (fun (e : Eng) g => e.breakGroup g (some 0x0A05) noChip) e
  let e := if e.jobChips.contains x then e.cancelBarriers 255 else e
  let slots := e.slotsOn x
  let mine := slots.filter (fun s => e.substitute s x == some e.chip)
  let e := if mine.isEmpty then e else e.raise 0x0114 (arg1 none x) none 0
  let e := mine.foldl (fun (e : Eng) s => (e.roles.filter (fun r => r.slot == s && r.experts.isEmpty)).foldl
    (fun (e : Eng) r => e.openTakeover x s r.step r.detm) e) e
  let e := if slots.any (fun s => (e.substitute s x).isNone) || !stood.isEmpty then e.raise 0x0116 (arg1 none x) none 0 else e
  let e := (e.works.filter (fun w => slots.contains w.slot)).foldl (fun (e : Eng) w => match e.substitute w.slot x with
    | some d => (e.markTaken w x).stepTakeover m w x d
    | none => e.sourceDrops m w x) e
  stood.foldl (fun (e : Eng) sy => (e.works.filter (fun w => w.slot == sy.1)).foldl (fun (e : Eng) w => e.sourceDrops m w sy.2) e) e

/-! ### Holds (R359 to R361) -/

/-- HOLD for a chip. -/
def Eng.applyHold (x : Nat) (e : Eng) : Eng :=
  if e.isLost x || x = e.chip then e
  else
    let h := KV.get {} e.flt.holds x
    let e := e.toldHold x
    { e with flt.holds := KV.put e.flt.holds x { h with noticed := true } }.releaseEntries x

/-- Hosts of a slot that a chip serves: itself and the lost ones it stands in for. -/
def Eng.servedBy (e : Eng) (slot x : Nat) : List Nat := x :: (e.flt.lost.filterMap id).filter (fun y => e.substitute slot y == some x)

/-- Whether a step of a source is still open toward a host: bids without an answer, pairs awaited, or, where the source
sent it no bid, the step itself. -/
def RouteWork.awaits (w : RouteWork) (x : Nat) : Bool :=
  if w.bids.any (fun b => b.dest == x) then
    !(w.phase == .sending || w.phase == .sent) || w.pairs.zipIdx.any (fun p => p.1.dest == x && p.1.awaited &&
      ((w.area.live && !w.area.got.contains p.2) || (w.bwdArea.live && !w.bwdArea.got.contains p.2)))
  else !w.done

/-- A hold ends: what waits is sent again. After a HOLD for the chip's compute reset, every step that is still open
toward the chip sends it its claims and rows again (R357, R359). -/
def Eng.endHold (m : Mem) (x : Nat) (e : Eng) : Eng :=
  match KV.find e.flt.holds x with
  | none => e
  | some h =>
    let e := { e with flt.holds := KV.del e.flt.holds x }.raise 0x0111 (arg1 none x) none 0
    let e := if h.noticed then
        e.works.foldl (fun (e : Eng) w => ((e.servedBy w.slot x).filter (fun y =>
          w.awaits y && (w.bids.any (fun b => b.dest == y) || (e.slotsOn y).contains w.slot))).foldl (fun (e : Eng) y => e.stepTakeover m w y x) e) e
      else e
    e.pump m

/-- CLEAR: the entry leaves the list now, and each slot's lookups at its next boundary (log 18, DEDUCED). -/
def Eng.applyClear (x : Nat) (e : Eng) : Eng :=
  if e.isLost x then
    { e with
      flt.lost := e.flt.lost.map (fun l => if l == some x then none else l)
      flt.lostClear := e.flt.lostClear ++ e.slotCfg.map (fun kc => kc.1 * 2 ^ 17 + x) }
  else e

end Sys2Proof.Machine
end

