-- ==== Sys2Proof/Machine/Teardown.lean ====
section
/-! DEFINITION. Ending a polder's work: commands cancelled (R85, R204), host roles closed (R311), teardown (R311). -/

namespace Sys2Proof.Machine

/-! ### Cancelling one command -/

/-- Gives up what a command holds or does, before its record (R85, R167, R204, R210; log 42, DEDUCED). -/
def Eng.undoCmd (c : Cmd) (e : Eng) : Eng :=
  let op := c.d.opcode
  let e := e.endWait (.area c.id)
  if op = opRoute then (if c.err.isSome then e else if c.phase == .held then e.routeAborted c else e.cancelRoute c)
  else if op = opCombine then e.setCmd c.id (fun c => { c with res := { c.res with digest := 0 } })
  else if c.phase == .held then e
  else if op = opRouteBwd then
    match e.works.find? (fun w => w.bwdCmd == some c.id) with
    | some w => (((e.dropChunks c.id).releaseArea w.cmd true).releaseStage w.cmd true).setWork w.cmd (fun w => { w with bwdCmd := none })
    | none => e
  else if op = opReturn then e.dropChunks c.id
  else if op = opReturnBwd then e.dropChunks c.id
  else if op = opAdmit then { e with bob.seqs := e.bob.seqs.filter (fun s => s.cmd != c.id || s.admitted) }
  else if op = opBarrier then
    e.setGroup c.d.group (fun x => { x with barriers := x.barriers.filter (fun b => b.cmd != c.id) })
  else if op = opTack then { e with tacks := e.tacks.map (fun t => { t with cmds := t.cmds.filter (· != c.id) }) }
  else e.dropChunks c.id

/-- A command ends before its work is done. -/
def Eng.stopCmd (id status : Nat) (e : Eng) : Eng :=
  match e.cmd? id with
  | none => e
  | some c => if c.done then e else (e.undoCmd c).complete id status

/-- Every command of a polder ends; FENCEs first, since what they wait for is about to end. -/
def Eng.stopPolder (polder : Nat) (e : Eng) : Eng :=
  let l := e.cmds.filter (fun c => c.polder == polder && !c.done)
  ((l.filter (fun c => c.d.opcode == opFence) ++ l.filter (fun c => c.d.opcode != opFence)).map (·.id)).foldl
    (fun (e : Eng) id => e.stopCmd id stCancelled) e

/-! ### Closing host roles (R311 step 4) -/

/-- A return stream that says of every row that it cannot be read. -/
def unreadableStream (h : HostRole) (dest code d : Nat) (bwd : Bool) : List Byte :=
  let l := h.placesFor dest
  wordList (l.map (fun p => tagOf p.1 p.2.1 + 2 ^ 31)) ++ (if bwd then wordList (l.map (fun _ => 0)) else []) ++
  zeros (l.length * wireLen code d)

/-- Closes a host role: pending bids refused ABSENT, every source with grants told that its rows are unreadable. -/
def Eng.closeRole (h : HostRole) (e : Eng) : Eng :=
  let c := e.cfgOf h.slot
  let bids := h.heldBids
  let e := ((bids.map (fun b => (b.src, b.round, b.epoch))).eraseDups).foldl (fun (e : Eng) k =>
    e.sendGrants h.polder h.slot h.step k.1 k.2.1 k.2.2 ((bids.filter (fun b => (b.src, b.round, b.epoch) == k)).map
      (fun b => ⟨b.bid.token, b.bid.rank, resAbsent⟩))) e
  let bwd := h.returnSent
  let e := if h.returnSent && !h.bwdStarted then e
    else
      let srcs := sortBy (fun (a b : Nat) => a ≤ b) ((h.placesOf.filter (fun p => !p.2.2.2.void)).map (fun p => p.2.2.2.src)).eraseDups
      srcs.foldl (fun (e : Eng) d =>
        let code := e.wireCode c d
        let b := unreadableStream h d code c.d bwd
        let hd : ChunkHdr := { kind := if bwd then 4 else 2, wfmt := code, epoch := (KV.get {} h.sources d).epoch, step := h.step
                               src := e.chip, dst := d, slot := h.slot, polder := h.polder }
        (e.streamJobs hd h.detm false b.length (.bytes b)).foldl (fun (e : Eng) j => match j with
          | .chunk k _ n =>
            let part := (b.drop k.offset).take n
            e.sendNew ⟨noCmd, k, .bytes part⟩ part
          | .copy _ _ _ => e) e) e
  e.endRole h.slot h.step

/-- Closes what a polder has open as host and source, on its template's slots. -/
def Eng.closeWork (polder : Nat) (e : Eng) : Eng :=
  let e := (e.roles.filter (fun h => h.polder == polder)).foldl (fun (e : Eng) h => e.closeRole h) e
  let e := ((e.works.filter (fun w => w.polder == polder)).map (·.cmd)).foldl (fun (e : Eng) k => e.dropWork k) e
  match e.template polder with
  | none => e
  | some t => { e with lslots := e.lslots.map (fun kl =>
      if t.slotBase ≤ kl.1 && kl.1 < t.slotBase + t.slotCount then (kl.1, { kl.2 with steps := [], routeSteps := [], endedRoles := [] }) else kl) }

/-! ### Queues (R250) -/

/-- Queues of a polder's template that are configured. -/
def Eng.polderQueues (e : Eng) (polder : Nat) : List Nat := match e.template polder with
  | none => []
  | some t => (e.spool.cfg.map (·.1)).filter (fun q => t.queueBase ≤ q && q < t.queueBase + t.queueCount)

/-- Flushes a polder's queues and what waits for them. -/
def Eng.flushPolder (polder : Nat) (e : Eng) : Eng :=
  (e.polderQueues polder).foldl (fun (e : Eng) q => e.flushAll q) e

/-! ### Epochs -/

/-- Advances the epoch of a slot (R85). -/
def Eng.nextEpoch (slot : Nat) (e : Eng) : Eng := e.setLslot slot (fun l => { l with epoch := (l.epoch + 1) % 2 ^ 16 })

/-- Layer slots of a polder's template. -/
def Eng.polderSlots (e : Eng) (polder : Nat) : List Nat := match e.template polder with
  | none => []
  | some t => (List.range t.slotCount).map (fun i => t.slotBase + i)

/-! ### Teardown (R311) -/

/-- Tears a polder down in its slot (log 43, DEDUCED). -/
def Eng.tearNow (rslot cause tag : Nat) (e : Eng) : Eng :=
  let polder := (e.pslot rslot).polder
  let e := e.stopPolder polder
  let e := (e.polderSlots polder).foldl (fun (e : Eng) s => e.nextEpoch s) e
  let e := e.closeWork polder
  let e := ((List.range 64).filter (fun g => (e.group g).st != .unformed && (e.group g).owner == polder)).foldl (fun (e : Eng) g =>
    (e.breakGroup g none noChip).dissolve g) e
  let e := (e.flushPolder polder).forceRelease polder
  let e := e.setPslot rslot (fun p => { p with st := .faulted, fault := cause, faultTag := tag, teardown := none, pend := none })
  e.raise 0x0556 (arg5 0 polder rslot) (some polder) tag

/-- A fault attributed to a polder: the command at fault, if it is still running, completes POLDER_FAULT; a transition in
progress ends first. -/
def Eng.tearDown (polder cause tag : Nat) (cmd : Option Nat) (e : Eng) : Eng :=
  match e.slotOf polder with
  | none => e
  | some s =>
    let e := match cmd with
      | some id => e.stopCmd id stPolderFault
      | none => e
    match (e.pslot s).st with
    | .running => e.tearNow s cause tag
    | .parked => e.tearNow s cause tag
    | .faulted => e
    | .empty => e
    | .destroying => e
    | _ => e.setPslot s (fun p => { p with teardown := some (p.teardown.getD (cause, tag)) })

end Sys2Proof.Machine
end

