-- ==== Sys2Proof/Machine/Route.lean ====
section
/-! DEFINITION. The start of a ROUTE and of a ROUTE_BWD (R79, R161, R165, R203, R206), and combine areas that wait for
buffers (R203, R267). -/

namespace Sys2Proof.Machine

/-- Tokens of a command: the INDIRECT count where there is one (R81). -/
def Cmd.tokens (c : Cmd) : Nat := c.count.getD c.d.count

/-- A source role as its ROUTE starts it. -/
def Eng.newWork (e : Eng) (c : Cmd) (phase : SrcPhase) (a : Area) : RouteWork :=
  { cmd := c.id, polder := c.polder, slot := c.d.slot, step := c.d.step, epoch := c.epoch, detm := c.detm, seed := c.seed
    tag := c.d.tag, tokens := c.tokens, rows := c.d.a, mask := c.d.c, routes := c.d.b, wgen := (e.lslot c.d.slot).wgen
    phase := phase, area := a, roundNs := e.now }

/-- Puts a source role in the place of the one its command had. -/
def Eng.putWork (w : RouteWork) (e : Eng) : Eng := { e with works := e.works.filter (fun x => x.cmd != w.cmd) ++ [w] }

/-- The event of a wait for a combine area, and the wait itself. -/
def Eng.areaWait (c : Cmd) (bwd : Bool) (pool : Nat) (e : Eng) : Eng :=
  if e.bob.waits.any (fun w => w.who == .area c.id) then e
  else
    let l := (areaParts (e.cfgOf c.d.slot) c.tokens c.detm bwd (e.consentClass c.polder)).flatten
    (e.noteWait { pools := l.map (·.1), who := .area c.id, polder := c.polder, slot := c.d.slot, tag := c.d.tag, since := e.now }).raise
      0x0475 (arg4 c.d.slot pool 1) (some c.polder) c.d.tag

/-- Takes a ROUTE's combine area and starts its roles, or waits for buffers (R203). -/
def Eng.routeGo (m : Mem) (c : Cmd) (e : Eng) : Eng :=
  let cfg := e.cfgOf c.d.slot
  match e.takeArea c.id c.polder cfg c.tokens c.detm false with
  | .quota p =>
    ((((e.bobQuotaEvent c.polder c.d.slot p c.d.tag).dropWork c.id).routeAborted c).endWait (.area c.id)).complete c.id stQuota
  | .wait p => (e.putWork (e.newWork c .areaWait {})).areaWait c false p
  | .got a e =>
    let e := (e.endWait (.area c.id)).putWork (e.newWork c .scoring a)
    let e := e.startRole c.d.slot c.d.step c.polder c.tokens c.d.tag e.detm
    let e := e.setLslot c.d.slot (fun l => { l with
      rot := if cfg.rotated then rotationKey c.seed c.d.slot c.d.step else 0, lastRound := 1 })
    if c.tokens = 0 then e.endSelection m c.id else e

/-- A ROUTE starts: of its slot's earlier steps of its parity the saved router state goes, and with it everything that is kept
of a step whose areas are released, or whose number it uses again (R204; log 56, DESIGN CHOICE). -/
def Eng.retireSteps (c : Cmd) (e : Eng) : Eng :=
  (e.works.filter (fun w => w.slot == c.d.slot && w.step % 2 == c.d.step % 2 && w.cmd != c.id)).foldl (fun (e : Eng) w =>
    if w.step ≠ c.d.step && (w.area.live || w.bwdArea.live) then
      (e.releaseSaved w.cmd).setWork w.cmd (fun w => { w with superseded := true })
    else e.dropWork w.cmd) e

/-- The ROUTE's own checks, then its start (R100, R152, R161; log 9, DEDUCED; log 63, DESIGN CHOICE). -/
def Eng.startRoute (m : Mem) (c : Cmd) (e : Eng) : Eng :=
  if e.noChannels c then (e.routeAborted c).complete c.id stQuota
  else if c.count == some 0 then (e.routeAborted c).complete c.id stOk
  else
    match e.imageCheck m c with
    | .fault e => e.tearDown c.polder 0x0630 c.d.tag (some c.id)
    | .fail st e => (e.routeAborted c).complete c.id st
    | .ok e =>
      (e.retireSteps c).routeGo m c

/-! ### ROUTE_BWD (R79, R206) -/

/-- Whether a route record in HBM is the one of a step: SLOT, STEP, TOKENS (R79; log 63, DESIGN CHOICE). -/
def Eng.recordMatches (m : Mem) (e : Eng) (addr : Nat) (c : Cmd) : Bool :=
  let h := e.rd m addr 64
  rdLE h 0 1 == c.d.slot && rdLE h 4 4 == c.d.step && rdLE h 8 4 == c.tokens

/-- Takes the backward area and the wire stage and sends the backward pleats, or waits. -/
def Eng.routeBwdGo (m : Mem) (c : Cmd) (w : RouteWork) (e : Eng) : Eng :=
  let cfg := e.cfgOf c.d.slot
  match e.takeArea c.id c.polder cfg w.tokens c.detm true with
  | .quota p => ((e.bobQuotaEvent c.polder c.d.slot p c.d.tag).endWait (.area c.id)).complete c.id stQuota
  | .wait p => e.areaWait c true p
  | .got a e =>
    let w' := { w with
      bwdArea := a, bwdCmd := some c.id, bwdEpoch := c.epoch, bwdDetm := c.detm, bwdSeed := c.seed, bwdDy := c.d.a
      bwdDropped := 0, bwdCombineCmd := none, doneBwd := false, raised := w.raised.filter (· < 2 ^ 16) }
    (((e.endWait (.area c.id)).setWork w.cmd (fun _ => w')).takeStage m w.cmd true).pleatJobs w' c.id c.epoch c.detm true

/-- Wire stages that wait try again (R184; log 34, DEDUCED). -/
def Eng.retryStages (m : Mem) (e : Eng) : Eng :=
  (e.bob.waits.filterMap (fun w => match w.who with
    | .stage id => some id
    | _ => none)).foldl (fun (e : Eng) id => e.takeStage m id false) e

/-- Commands whose combine area waits try again (R203; log 34, DEDUCED). -/
def Eng.retryAreas (m : Mem) (e : Eng) : Eng :=
  (e.bob.waits.filterMap (fun w => match w.who with
    | .area id => some id
    | _ => none)).foldl (fun (e : Eng) id => match e.cmd? id with
    | none => e.endWait (.area id)
    | some c =>
      if c.done then e.endWait (.area id)
      else if c.d.opcode = opRoute then (if e.mayIssue c.polder then e.routeGo m c else e)
      else if c.d.opcode = opRouteBwd then
        match e.workOf c.polder c.d.slot c.d.step with
        | some w => if e.mayIssue c.polder then e.routeBwdGo m c w else e
        | none => e
      else e) e

end Sys2Proof.Machine
end

