-- ==== Sys2Proof/Machine/Messages.lean ====
section
/-! DEFINITION. Control messages of KIND 6 (Table 12-2): what each does (R276, R283, R291, R293, R335), and the list of tacks
that a notice adds to (R390). -/

namespace Sys2Proof.Machine

/-! ### Tacks (R390) -/

/-- Inserts a tack into the pending list, ascending in T; none where it is full. -/
def Eng.addTack (t : Nat) (scope : Bool) (cmds : List Nat) (e : Eng) : Option Eng :=
  if e.tacks.any (fun k => k.t == t) then
    some { e with tacks := e.tacks.map (fun k => if k.t = t then { k with scope := k.scope || scope, cmds := k.cmds ++ cmds } else k) }
  else if e.tacks.length ≥ 8 then none
  else some { e with tacks := insertBy (fun (a b : Tack) => a.t ≤ b.t) { t := t, scope := scope, cmds := cmds, due := decide (t < e.now) } e.tacks }

/-- A TACK notice to the chips below this one in tree A of the job (log 20, DESIGN CHOICE). -/
def Eng.passTack (t polder : Nat) (e : Eng) : Eng :=
  e.tellKids (e.barrierMembers 255) (e.collHdr 255 0 0 12 0 polder) (fitTo 64 (leBytes 8 t))

/-- A tack notice: passed on, then inserted or dropped. -/
def Eng.takeTack (t polder : Nat) (e : Eng) : Eng :=
  let e := e.passTack t polder
  match e.addTack t true [] with
  | some e => e
  | none => (e.bump32 Reg.gauTackDrop 1).raise 0x05B1 (arg5 0 0 0) none 0

/-! ### Messages -/

/-- Whether a chunk is one of KIND 6 that the collective unit or the control island takes itself. -/
def ChunkHdr.isControl (h : ChunkHdr) : Bool := h.kind == 6 && !(h.op == 3 || h.op == 4 || h.op == 5)

/-- A message that came before this member's own command (log 42, DEDUCED). -/
def Eng.holdEarly (h : ChunkHdr) (payload : List Byte) (e : Eng) : Eng :=
  e.setGroup h.slot (fun x => { x with early := x.early ++ [(h, payload)] })

/-- FORM_UP: into the handshake under way, or kept for one to come. -/
def Eng.getFormUp (h : ChunkHdr) (payload : List Byte) (e : Eng) : Eng :=
  let x := e.group h.slot
  if olderEpoch x.epoch h.epoch then e
  else if x.form.isSome && x.epoch = h.epoch then e.takeFormUp h payload
  else e.holdEarly h payload

/-- COUNT_UP: into its operation, or kept for it. -/
def Eng.getCountUp (m : Mem) (h : ChunkHdr) (payload : List Byte) (e : Eng) : Eng :=
  let x := e.group h.slot
  if olderEpoch x.epoch h.epoch then e
  else if x.epoch ≠ h.epoch then e.holdEarly h payload
  else if x.st != .formed then e
  else if (e.op? h.slot h.step).isSome then e.takeCountUp m h payload
  else if toSigned 32 (h.step + 2 ^ 32 - x.seq % 2 ^ 32) < 0 then e
  else e.holdEarly h payload

/-- COUNT_DOWN of an operation in flight. -/
def Eng.getCountDown (m : Mem) (h : ChunkHdr) (payload : List Byte) (e : Eng) : Eng :=
  let x := e.group h.slot
  if x.st == .formed && x.epoch = h.epoch then
    match e.op? h.slot h.step with
    | some o => if o.upSent && o.down.isNone then e.countDown m h.slot h.step (CountRec.ofBytes payload) else e
    | none => e
  else e

/-- ABORT: the group breaks here too, and its other neighbours are told. -/
def Eng.getAbort (h : ChunkHdr) (e : Eng) : Eng :=
  let x := e.group h.slot
  let e := e.bump Reg.colAborts 16 16 1
  if x.epoch = h.epoch && (x.st == .formed || x.st == .forming || x.st == .reforming) then e.breakGroup h.slot (some 0x0A09) h.src else e

/-- BARRIER_UP of a barrier not yet over (log 42, DEDUCED). -/
def Eng.getBarrierUp (h : ChunkHdr) (e : Eng) : Eng :=
  let x := e.group h.slot
  let fits := h.slot = 255 || (x.st == .formed && x.epoch = h.epoch)
  if h.slot ≠ 255 && !olderEpoch x.epoch h.epoch && x.epoch ≠ h.epoch then e.holdEarly h []
  else if !fits then e
  else if x.barriers.any (fun b => b.bseq == h.step && b.cmd != noCmd) || 0 ≤ toSigned 32 (h.step + 2 ^ 32 - x.bseq % 2 ^ 32) ||
      e.cmds.any (fun c => !c.done && c.d.opcode == opBarrier && c.d.group == h.slot && c.bseq == some h.step) then
    (if (match x.barriers.find? (fun b => b.bseq == h.step) with
      | some b => b.ups.contains h.src
      | none => false) then e else e.takeBarrierUp h)
  else e

/-- BARRIER_DOWN: told on; where its time has passed, this member releases at once. -/
def Eng.getBarrierDown (h : ChunkHdr) (payload : List Byte) (e : Eng) : Eng :=
  let t := rdLE payload 0 8
  let x := e.group h.slot
  if h.slot ≠ 255 && !(x.st == .formed && x.epoch = h.epoch) then e
  else
    let e := e.barrierDown h.slot h.step t
    if e.now > t then e.barrierGo h.slot h.step true else e

/-- A control message that passed its checks. -/
def Eng.takeControl (m : Mem) (port : Option Nat) (h : ChunkHdr) (payload : List Byte) (e : Eng) : Eng :=
  match h.op with
  | 1 => e.getCountUp m h payload
  | 2 => e.getCountDown m h payload
  | 6 => e.getFormUp h payload
  | 7 => if (e.group h.slot).epoch = h.epoch then e.formOutcome h.slot (rdLE payload 0 1 != 0) (rdLE payload 1 1 != 0) else e
  | 8 => e.getAbort h
  | 9 => match (if (e.group h.slot).epoch = h.epoch then e.op? h.slot h.step else none) with
    | some o => e.takeRefused m port h o
    | none => e
  | 10 => e.getBarrierUp h
  | 11 => e.getBarrierDown h payload
  | 12 => e.takeTack (rdLE payload 0 8) h.polder
  | _ => e

/-- Messages kept for a group are looked at again. -/
def Eng.replayEarly (m : Mem) (e : Eng) : Eng :=
  ((e.groups.filter (fun kg => !kg.2.early.isEmpty)).map (·.1)).foldl (fun (e : Eng) g =>
    (e.group g).early.foldl (fun (e : Eng) hp => e.takeControl m none hp.1 hp.2) (e.setGroup g (fun x => { x with early := [] }))) e

end Sys2Proof.Machine
end

