-- ==== Sys2Proof/Machine/Sluice.lean ====
section
/-! DEFINITION. Arrival through the Sluice ports and the Spool (R190, R232 to R240, R244 to R247), what each consumer takes
and when (R161, R167, R169, R174, R198, R200, R208, R281 to R291), and what settles after every step of the data path. -/

namespace Sys2Proof.Machine

/-! ### Which queue a packet goes to (Table 10-2) -/

/-- Queue class of a packet; none for a kind that has no queue. -/
def RxPkt.qclass : RxPkt → Option Nat
  | .chunk _ h _ => match h.kind with
    | 1 | 3 | 5 | 7 => some 0
    | 2 | 4 => some 2
    | 6 => some 4
    | _ => none
  | _ => some 3

/-- Template whose range holds a slot. -/
def Eng.slotTemplate (e : Eng) (slot : Nat) : Option Nat := e.pat.bind (fun p =>
  (p.templates.find? (fun kt => kt.2.slotBase ≤ slot && slot < kt.2.slotBase + kt.2.slotCount)).map (·.1))

/-- Template number whose queues a packet uses: that of its layer slot; its sender's polder's for COPY and collectives. -/
def Eng.pktTemplate (e : Eng) : RxPkt → Option Nat
  | .chunk _ h _ => if h.kind = 5 ∨ h.kind = 6 then some (h.polder % 16) else e.slotTemplate h.slot
  | .bid _ _ h _ => e.slotTemplate h.slot
  | .grant _ _ h _ => e.slotTemplate h.slot
  | .claim _ _ h _ => e.slotTemplate h.slot

/-- The queue of a packet that comes: the lowest of its class that its polder's packets use (log 6, DESIGN CHOICE). -/
def Eng.pktQueue (e : Eng) (p : RxPkt) : Option Nat := p.qclass.bind (fun cl => (e.classQueues cl (e.pktTemplate p)).head?)

/-- Virtual channel that a packet comes on (Table 8-3). -/
def Eng.rxVc (e : Eng) : RxPkt → Nat
  | .chunk _ h _ => e.vcOf h.polder h
  | _ => 3

/-! ### Whether a consumer takes a packet now -/

/-- The polder that a packet works for, where it is resident. -/
def Eng.pktPolder (e : Eng) : RxPkt → Option Nat
  | .chunk _ h _ => if h.kind = 5 ∨ h.kind = 6 then (if (e.slotOf h.polder).isSome then some h.polder else none) else e.slotPolder h.slot
  | .bid _ _ h _ => e.slotPolder h.slot
  | .grant _ _ h _ => e.slotPolder h.slot
  | .claim _ _ h _ => e.slotPolder h.slot

/-- Core-island units work for a polder: it runs and its window allows it; a FAULTED polder's packets are taken to be
turned away. -/
def Eng.mayTake (e : Eng) (p : Option Nat) : Bool :=
  match p with
  | none => true
  | some x => match e.slotOf x with
    | none => true
    | some s => match (e.pslot s).st with
      | .faulted => true
      | .running => e.windowOk x
      | _ => false

/-- A polder is torn down. -/
def Eng.torn (e : Eng) (p : Option Nat) : Bool := match p.bind e.slotOf with
  | some s => (e.pslot s).st == .faulted
  | none => false

/-- Whether a collective data chunk can be taken: of an operation whose COUNT_UP has gone, or old. -/
def Eng.collReady (e : Eng) (h : ChunkHdr) : Bool :=
  let g := e.group h.slot
  if g.st == .formed && g.epoch = h.epoch then
    match e.op? h.slot h.step with
    | some o => o.upSent
    | none => toSigned 32 (h.step + 2 ^ 32 - g.seq % 2 ^ 32) < 0
  else if g.st == .formed || g.st == .broken || g.st == .reforming then
    toSigned 16 (h.epoch + 2 ^ 16 - g.epoch) < 0 || (g.st == .broken && g.epoch = h.epoch)
  else false

/-- Whether the consumer takes a packet now. -/
def Eng.pktReady (e : Eng) (p : RxPkt) : Bool :=
  let pol := e.pktPolder p
  match p with
  | .chunk _ h _ => match h.kind with
    | 1 | 7 => e.torn pol || e.roleEnded h.slot h.step || (match e.role h.slot h.step with
      | some r => !r.reserving && (e.takeover? h.slot h.step).isNone
      | none => false)
    | 3 => e.torn pol || e.roleEnded h.slot h.step || (match e.role h.slot h.step with
      | some r => r.bwdStarted
      | none => false)
    | 2 | 4 => e.mayTake pol
    | 6 => ChunkHdr.isControl h || (e.collReady h && (h.op != 4 || e.windowOk (e.group h.slot).owner))
    | _ => true
  | .bid _ _ h _ => e.mayTake pol && (e.torn pol || (e.takeover? h.slot h.step).isSome || (e.role h.slot h.step).isSome || e.roleEnded h.slot h.step)
  | .claim _ _ h _ => e.mayTake pol && (e.torn pol || (e.takeover? h.slot h.step).isSome || (e.role h.slot h.step).isSome ||
      (e.standsFor h.slot).isSome || !(e.localExperts h.slot).isEmpty)
  | .grant _ _ _ _ => e.mayTake pol

/-! ### What each consumer does (R190) -/

/-- Landing tags of a void list. -/
def voidTags (h : ChunkHdr) (payload : List Byte) : List Nat :=
  (Sys2Proof.groups 4 payload.length (payload.take h.pleatLen)).map (fun b => leNat b % 2 ^ 26)

/-- A dispatch chunk at its host. -/
def Eng.takeDispatch (port : Option Nat) (h : ChunkHdr) (payload : List Byte) (e : Eng) : Eng :=
  match e.role h.slot h.step with
  | none => e
  | some r =>
    let e := if seenPart h r.streams then e.dupChunk port h.src else e
    let e := e.setRole h.slot h.step (fun r => { r with streams := addPart h payload r.streams })
    match (e.role h.slot h.step).bind (fun r => findStream h r.streams) with
    | some s => (e.landStream h.slot h.step false true h.offset payload.length s).checkReady h.slot h.step
    | none => e

/-- A backward dispatch chunk at its host (R174, R215; log 55, DESIGN CHOICE). -/
def Eng.takeBwdDispatch (m : Mem) (port : Option Nat) (h : ChunkHdr) (payload : List Byte) (e : Eng) : Eng :=
  match e.role h.slot h.step with
  | none =>
    let rows := rowsEnding 2 h.pleatLen (wireLen (h.wfmt % 16) (e.cfgOf h.slot).d) h.offset h.plen
    let e := if (e.lslot h.slot).bwdReleased.contains h.step then e
      else (e.setLslot h.slot (fun l => { l with bwdReleased := (h.step :: l.bwdReleased).take 8 })).raise 0x0455 (arg4 h.slot 0 rows)
        (e.slotPolder h.slot) 0
    if h.src = e.chip then
      match e.works.find? (fun w => w.slot == h.slot && w.step == h.step) with
      | some w => e.setWork w.cmd (fun w => { w with bwdDropped := w.bwdDropped + rows })
      | none => e
    else e
  | some r =>
    let e := if seenPart h r.streams then e.dupChunk port h.src else e
    let e := e.setRole h.slot h.step (fun r => { r with streams := addPart h payload r.streams })
    match (e.role h.slot h.step).bind (fun r => findStream h r.streams) with
    | some s => (e.landStream h.slot h.step true true h.offset payload.length s).checkBwdReady m h.slot h.step
    | none => e

/-- A void list at its host (R167, R191; log 38, DEDUCED). -/
def Eng.takeVoid (m : Mem) (h : ChunkHdr) (payload : List Byte) (e : Eng) : Eng :=
  match e.role h.slot h.step with
  | none => e
  | some r =>
    let tags := voidTags h payload
    let e := tags.foldl (fun (e : Eng) t => match r.place t with
      | some p => e.voidPlaces h.slot h.step (fun q => q.src == h.src && q.src == p.src && q.token == p.token && q.rank == p.rank)
      | none => e) e
    (e.checkReady h.slot h.step).checkBwdReady m h.slot h.step

/-- A collective data chunk. Factor data that comes when this member has completed the operation still goes on to its parent (R287;
log 59, DESIGN CHOICE). -/
def Eng.takeColl (m : Mem) (port : Option Nat) (h : ChunkHdr) (payload : List Byte) (sumBad : Bool) (e : Eng) : Eng :=
  let g := e.group h.slot
  match (if g.st == .formed && g.epoch = h.epoch then e.op? h.slot h.step else none) with
  | none =>
    if !(g.st == .formed && g.epoch = h.epoch) then e
    else match e.factorOn h payload.length with
      | [] => e.dupChunk port h.src
      | l => l.foldl (fun (e : Eng) k => e.sendNew ⟨noCmd, k, .bytes payload⟩ payload) e
  | some o =>
    if h.op = 3 then e.takeBcast m port h payload o
    else if h.op = 4 then e.takeReduce m port h payload sumBad o
    else if h.op = 5 then e.takeFactor m port h payload o
    else e

/-- A COPY chunk's bytes land at OFFSET; a replay of one that has landed is a duplicate (R200; log 30, DEDUCED). -/
def Eng.landCopy (port : Option Nat) (h : ChunkHdr) (payload : List Byte) (e : Eng) : Eng :=
  let key := h.src * 4096 + h.chunkId % 4096
  let e := if bit h.cflags 1 && KV.find e.copies key == some h.offset then e.dupChunk port h.src else e
  { e.storeFor h.polder h.offset payload with copies := KV.put e.copies key h.offset }

/-- Bytes of a chunk read before its PCRC is known go to their landing places, where nothing counts them as landed (R190, R239). -/
def Eng.landPart (h : ChunkHdr) (payload : List Byte) (e : Eng) : Eng :=
  if h.kind = 5 then e.storeFor h.polder h.offset payload
  else if h.kind = 1 ∨ h.kind = 3 then
    match (e.role h.slot h.step).bind (fun r => findStream h (addPart h payload r.streams)) with
    | some s => e.landStream h.slot h.step (h.kind == 3) false h.offset payload.length s
    | none => e
  else e

/-- A chunk that passed its checks; one for a role that has ended has landed before (R200; log 41, DEDUCED). -/
def Eng.takeChunk (m : Mem) (port : Option Nat) (h : ChunkHdr) (payload : List Byte) (sumBad : Bool) (e : Eng) : Eng :=
  let torn := e.torn (e.pktPolder (.chunk port h payload))
  let old := torn || e.roleEnded h.slot h.step
  match h.kind with
  | 1 => if torn then e else if old then e.dupChunk port h.src else e.takeDispatch port h payload
  | 7 => if old then e else e.takeVoid m h payload
  | 3 => e.takeBwdDispatch m port h payload
  | 2 => e.takeReturn h payload port false
  | 4 => e.takeReturn h payload port true
  | 5 => e.landCopy port h payload
  | 6 => if ChunkHdr.isControl h then (e.takeControl m port h payload).replayEarly m else e.takeColl m port h payload sumBad
  | _ => e

/-- A frame of bids or claims that passed its check. -/
def Eng.takeBidFrame (claim : Bool) (h : FitHdr) (recs : List BidRec) (e : Eng) : Eng :=
  let pol := e.slotPolder h.slot
  let polder := pol.getD 0
  if (KV.find (e.lslot h.slot).srcEpochs h.src).any (fun x => olderEpoch x h.epoch) then e
  else
  let e := e.setLslot h.slot (fun l => { l with srcEpochs := KV.put l.srcEpochs h.src h.epoch })
  if e.torn pol then (if claim then e else e.refuseAbsent polder h recs)
  else if (e.takeover? h.slot h.step).isSome then e.joinTakeover h recs
  else if claim then
    match e.role h.slot h.step with
    | some r => if r.experts.isEmpty then
        match e.standsFor h.slot with
        | some x => (e.openTakeover x h.slot h.step (bit h.fflags 3)).joinTakeover h recs
        | none => e
      else e
    | none => (e.openTakeover ((e.standsFor h.slot).getD e.chip) h.slot h.step (bit h.fflags 3)).joinTakeover h recs
  else if (e.role h.slot h.step).isSome then e.takeBids h recs
  else e.refuseAbsent polder h recs

/-- Whether a packet passes the check of its payload (R190). -/
def RxPkt.sound : RxPkt → Bool
  | .chunk _ h payload => pcrcOk h payload
  | _ => true

/-- The consumer's work on a packet, its Spool words sound: check, answer, effect (R190, R198, R237); a chunk that fails may
have been passed on by cut-through, `cut` (R282). -/
def Eng.pktDo (m : Mem) (p : RxPkt) (cut sumBad : Bool) (e : Eng) : Eng :=
  match p with
  | .chunk port h payload =>
    if !p.sound then
      let e := match port with
        | some q => e.bump (Reg.slcCrcFail q) 0 16 1
        | none => e
      let e := e.raise 0x0105 (arg1 port h.src) none 0
      match (if h.kind = 6 then e.op? h.slot h.step else none) with
      | some o =>
        if h.op = 4 && bit h.place 3 then e.requestDirect m port h o
        else (if cut then e.forwardBad h payload o else e).nakTo p
      | none => e.nakTo p
    else (e.takeChunk m port h payload sumBad).ackTo h.src h.chunkId
  | .bid _ i h recs => (e.takeBidFrame false h recs).ackTo h.src i
  | .claim _ i h recs => (e.takeBidFrame true h recs).ackTo h.src i
  | .grant _ i h recs => (e.takeGrants h recs).ackTo h.src i

/-! ### Reading a queue (R236 to R239, R244 to R247) -/

/-- Kinds for which cut-through is honoured (Table 10-2, R282). -/
def RxPkt.cuts : RxPkt → Bool
  | .chunk _ h _ => h.kind == 1 || h.kind == 3 || h.kind == 5 || h.kind == 7 || (h.kind == 6 && (h.op == 3 || h.op == 5))
  | _ => false

/-- Whether a packet is read by cut-through once `n` of its words are there (R238; log 19, DEDUCED). -/
def Eng.cutsThrough (e : Eng) (q n : Nat) (x : RxPkt) : Bool :=
  x.cuts && (match KV.find e.spool.cfg q with
    | some c => bit c.qflags 0 && decide (8 * c.ctCells ≤ n)
    | none => false)

/-- The first word of a packet that cannot be read, and whether it is metadata: as it came, or as a scrub found its cell. -/
def Eng.firstBad (e : Eng) (q i : Nat) (p : SPkt) : Option (Nat × Bool) :=
  let cell := (((e.squeue q).pktCells i).findIdx? (fun c => e.spool.bad.contains c)).map (fun j => 8 * (p.granted - p.held + j))
  let came := match p.rd with
    | .badData w => some (w, false)
    | .badMeta w => some (w, true)
    | _ => none
  match cell, came with
  | some c, some (w, b) => if c < w then some (c, false) else some (w, b)
  | some c, none => some (c, false)
  | none, x => x

/-- The words of a packet read by cut-through land before its end is known (R239; log 19, DEDUCED). -/
def Eng.landSome (x : RxPkt) (words : Nat) (e : Eng) : Eng := match x with
  | .chunk _ h b => e.landPart h (b.take (64 * (words - 1)))
  | _ => e

/-- Whether a chunk stays in its cells when it is read: an input of a sum that is still to be built (R286). -/
def Eng.keepsCells (e : Eng) (x : RxPkt) : Bool := match x with
  | .chunk _ h _ => h.kind == 6 && h.op == 4 && x.sound && (match e.op? h.slot h.step with
    | some o => (e.group h.slot).epoch == h.epoch && (o.input (if bit h.place 3 then switchKey else h.src) h.chunkIdx).isNone
    | none => false)
  | _ => false

/-- The consumer reads a whole packet: an uncorrectable word discards it, an uncorrectable metadata word breaks its queue. -/
def Eng.takeWhole (m : Mem) (q i : Nat) (p : SPkt) (x : RxPkt) (sumBad : Bool) (e : Eng) : Eng :=
  let cut := e.cutsThrough q p.words x
  let cells := (e.squeue q).pktCells i
  let early (n : Nat) (e : Eng) : Eng := if cut then e.landSome x n else e
  match e.firstBad q i p with
  | some (w, true) =>
    let cell := cells.getD (w / 8 - (p.granted - p.held)) (cells.headD 0)
    ((early w e).spoolBad cell).breakQueue q (some cell)
  | some (w, false) =>
    let cell := cells.getD (w / 8 - (p.granted - p.held)) (cells.headD 0)
    (((early w e).spoolBad cell).consume q i).nakTo x
  | none =>
    let e := match p.rd with
      | .corrected again => e.spoolCorrected (cells.headD 0) again
      | _ => e
    let e := if x.sound then e else early p.words e
    (if e.keepsCells x then e.keepPkt q i else e.consume q i).pktDo m x cut sumBad

/-- The consumer takes what comes next in a queue, if it can: a packet ended with PSTAT 2 is discarded without an answer, an
unfinished one is read as far as it has come where cut-through is honoured (R236, R238). What stands behind a packet that must wait
waits too (log 19, DEDUCED). -/
def Eng.takeHead (m : Mem) (q : Nat) (sumBad : Bool) (e : Eng) : Option Eng :=
  let s := e.squeue q
  match (if s.sweeping then none else s.pkts.findIdx? (fun p => !p.kept && !p.leaves)) with
  | none => none
  | some i =>
    match s.pkts[i]? with
    | none => none
    | some p =>
      match p.item with
      | .tx _ _ _ _ _ _ => none
      | .rx _ x =>
        if p.aborted then some (e.consume q i)
        else if !e.pktReady x then none
        else if p.ended then some (e.takeWhole m q i p x sumBad)
        else if e.cutsThrough q p.written x && p.read < p.written then some ((e.landSome x p.written).readTo q i p.written)
        else none

/-- Takes what a queue has, in order, as far as its consumer can. -/
def Eng.drainQueue (m : Mem) (q : Nat) (sumBad : Bool) : Nat → Eng → Eng
  | 0, e => e
  | fuel + 1, e => match e.takeHead m q sumBad with
    | some e => Eng.drainQueue m q sumBad fuel e
    | none => e

/-- Every queue is read, and what the ports hold gets its cells as they become free, round after round
(log 49, DEDUCED). -/
def Eng.drainRounds (m : Mem) (sumBad : Bool) : Nat → Eng → Eng
  | 0, e => e
  | n + 1, e =>
    let e := (e.spool.queues.map (·.1)).foldl (fun (e : Eng) q => e.drainQueue m q sumBad (e.squeue q).pkts.length) e
    if e.spool.held.isEmpty then e else Eng.drainRounds m sumBad n e.grantHeld
def Eng.drainAll (m : Mem) (sumBad : Bool) (e : Eng) : Eng := e.drainRounds m sumBad (e.spool.held.length + 2)

/-- Whether an input chunk of a sum may be needed again: until the sum built from it has been acknowledged (R286). -/
def Eng.inputNeeded (e : Eng) (x : RxPkt) : Bool := match x with
  | .chunk _ h _ =>
    let same (k : ChunkHdr) : Bool := k.kind == 6 && k.op == 4 && k.slot == h.slot && k.step == h.step && k.chunkIdx == h.chunkIdx
    match (if (e.group h.slot).epoch = h.epoch then e.op? h.slot h.step else none) with
    | some o => !o.emitted.contains h.chunkIdx || e.tt.any (fun kt => same kt.2.hdr) || e.outq.any (fun o => same o.hdr) ||
        e.chans.any (fun kc => kc.2.jobs.any (fun j => match j with
          | .chunk k _ _ => same k
          | _ => false))
    | none => false
  | _ => false

/-! ### Settling -/

/-- Marks the commands whose last chunk has left (Table 3-12). -/
def Eng.markSent (e : Eng) : Eng :=
  { e with cmds := e.cmds.map (fun c =>
      if c.phase == .running && !c.sentLast && (c.d.opcode == opRoute || c.d.opcode == opRouteBwd) && !e.chunksUnsent c.id &&
          (match e.works.find? (fun w => if c.d.opcode = opRoute then w.cmd == c.id else w.bwdCmd == some c.id) with
           | some w => c.d.opcode == opRouteBwd || w.phase == .sending || w.phase == .sent
           | none => false) then { c with sentLast := true } else c) }

/-- Status of a command that sent its rows. -/
def sendStatus (c : Cmd) (degraded : Bool) : Nat := if degraded then stDegraded else if c.peerLost then stPeerLost else stOk

/-- Ends the command if the data path has finished its work. Which rows of a ROUTE_BWD other chips have discarded is a free
value: the spec gives no message that tells their source (R174; log 55, DESIGN CHOICE). -/
def Eng.settleCmd (id : Nat) (e : Eng) : Eng :=
  match e.cmd? id with
  | none => e
  | some c =>
    if c.done || c.phase != .running || e.chunksOpen id then e
    else
      let op := c.d.opcode
      if op = opRoute then
        match e.workById id with
        | some w =>
          if w.phase == .sending then
            let lost := !w.void.isEmpty || w.sel.any (fun p => bit p.2.rflags 1)
            ((e.releaseStage id false).setWork id (fun w => { w with phase := .sent })).complete id (sendStatus c lost)
          else e
        | none => e
      else if op = opRouteBwd then
        match e.works.find? (fun w => w.bwdCmd == some id) with
        | some w =>
          let far := ((w.pleats.filter (fun p => e.destOf w.slot p.dest != some e.chip)).map (·.pairs)).sum
          let (lost, e) := if far = 0 then (0, e) else (let (v, e) := e.free; (v.toNat % (far + 1), e))
          let n := w.bwdDropped + lost
          ((e.setCmd id (fun c => { c with res := { c.res with dropped := n } })).releaseStage w.cmd true).complete id (sendStatus c (decide (n > 0)))
        | none => e
      else if op = opReturn then (e.endReturn c.d.slot c.d.step false).complete id (sendStatus c false)
      else if op = opReturnBwd then (e.endReturn c.d.slot c.d.step true).complete id (sendStatus c false)
      else if op = opCopy then e.complete id (sendStatus c false)
      else e

/-- Collective operations go on. -/
def Eng.settleOps (m : Mem) (e : Eng) : Eng :=
  e.groups.foldl (fun (e : Eng) kg => kg.2.ops.foldl (fun (e : Eng) o => e.finishOp m kg.1 o.seq) e) e

/-- Backward host roles that begin: fitting is closed, and the chip's own ROUTE_BWD runs or a backward chunk is at hand
(R174; log 33, DEDUCED). -/
def Eng.wantBwd (e : Eng) : Eng :=
  let atHand (h : HostRole) : Bool := e.spool.queues.any (fun kq => kq.2.pkts.any (fun p => match p.item with
    | .rx _ (.chunk _ c _) => c.kind == 3 && c.slot == h.slot && c.step == h.step
    | _ => false))
  (e.roles.filter (fun h => h.closed && !h.bwdWanted &&
    (e.works.any (fun w => w.slot == h.slot && w.step == h.step && w.bwdCmd.isSome) || atHand h))).foldl
      (fun (e : Eng) h => e.startBwd h.slot h.step) e

/-- One round of everything that can go on (log 49, DEDUCED). -/
def Eng.settleOnce (m : Mem) (sumBad : Bool) (e : Eng) : Eng :=
  let e := (e.spool.queues.map (·.1)).foldl (fun (e : Eng) q => e.produce q) e
  let e := (((e.pump m).resendUnsent m).wantBwd).drainAll m sumBad
  let e := (e.retryAreas m).retryStages m
  let e := (e.roles.map (fun r => (r.slot, r.step))).foldl (fun (e : Eng) k => (e.checkReady k.1 k.2).checkBwdReady m k.1 k.2) e
  let e := (e.works.map (·.cmd)).foldl (fun (e : Eng) k => (e.settleCombine k).settleCombineBwd m k) e
  let e := e.markSent
  let e := (e.cmds.map (·.id)).foldl (fun (e : Eng) id => e.settleCmd id) e
  let e := e.settleOps m
  e.releaseKept (fun x => !e.inputNeeded x)

/-- What a step of the data path leads to at once (log 49, DEDUCED). -/
def Eng.settle (m : Mem) (e : Eng) : Eng := ((e.settleOnce m false).settleOnce m false).markBlocked

/-! ### Arrival (R190, R232) -/

/-- Whether a packet can arrive on its port: trained and up, or local (log 13, DEDUCED). -/
def Eng.arrives (e : Eng) (port : Option Nat) : Bool := match port with
  | none => true
  | some p => e.portPresent p && (e.port p).link == 2

/-- Whether a packet's header passes its check on arrival. -/
def RxPkt.headerOk : RxPkt → Bool
  | .chunk _ h _ => hcrcOk h
  | .bid _ _ h l => frameOk h (l.flatMap BidRec.bytes)
  | .claim _ _ h l => frameOk h (l.flatMap BidRec.bytes)
  | .grant _ _ h l => frameOk h (l.flatMap GrantRec.bytes)

/-- Destination of a packet. -/
def RxPkt.dst : RxPkt → Nat
  | .chunk _ h _ => h.dst
  | .bid _ _ h _ => h.dst
  | .claim _ _ h _ => h.dst
  | .grant _ _ h _ => h.dst

/-- Whether a packet is early: its host role has not started (R161; log 40, DEDUCED). -/
def Eng.early (e : Eng) : RxPkt → Bool
  | .chunk _ h _ => h.kind == 1 && (e.role h.slot h.step).isNone && !e.roleEnded h.slot h.step
  | .bid _ _ h _ => (e.role h.slot h.step).isNone && !e.roleEnded h.slot h.step && (e.takeover? h.slot h.step).isNone
  | _ => false

/-- A checked packet reaches its queue, or more of one that is there (log 51, DEDUCED). -/
def Eng.toQueue (p : RxPkt) (rd : SpoolRead) (e : Eng) : Eng :=
  if e.begun p then e.goesOn p rd
  else match e.pktQueue p with
  | none => e.raise 0x0481 (arg4 0 8191 1) none 0
  | some q =>
    let e := if e.early p then e.bump32 Reg.fitEarlyBids 1 else e
    let e := match e.pktPolder p with
      | some x => if p.port.isSome then e.accLink x p.sender.1 (64 * p.words) else e
      | none => e
    e.offer q (e.rxVc p) p rd

/-- A packet arrives: its header's check first, then its queue; out of ACTIVE it waits for the exit (R379). -/
def Eng.receive (p : RxPkt) (rd : SpoolRead) (e : Eng) : Eng :=
  if !e.arrives p.port || p.dst ≠ e.chip || e.flt.recovery == some .compute then e
  else
    let isChunk := match p with
      | .chunk _ _ _ => true
      | _ => false
    let e := match p.port with
      | some q => if isChunk && !e.begun p then e.bump64 (Reg.slcRxChunks q) 1 else e
      | none => e
    if !p.headerOk then
      let e := match p.port with
        | some q => e.bump (Reg.slcCrcFail q) 16 16 1
        | none => e
      e.raise 0x0105 (arg1 p.port p.sender.1) none 0
    else if e.pwr.cur ≠ 0 || e.pwr.trans then { e with pwr.rx := e.pwr.rx ++ [(p, rd)] }.wake
    else e.toQueue p rd

/-- A packet arrives and everything it leads to happens. -/
def Eng.arrive (m : Mem) (p : RxPkt) (rd : SpoolRead) (sumBad : Bool) (e : Eng) : Eng :=
  (((e.receive p rd).settleOnce m sumBad).settleOnce m false).markBlocked

end Sys2Proof.Machine
end

