-- ==== Sys2Proof/Machine/Faults.lean ====
section
/-! DEFINITION. Fault and gusset control (chapter 15): substitution (R346, R348), bays and dikes (R350 to R352), the fault
queue (R353, R354), compute reset (R355 to R357), and ready (R373). -/

namespace Sys2Proof.Machine

/-! ### Ready (R373) -/

/-- LINKS_DONE: every present port has left training. -/
def Eng.linksDone (e : Eng) : Bool :=
  e.boot.phase ≥ 2 && (List.range 16).all (fun p => !e.portPresent p || (e.port p).link != 1)

/-- The conditions of ready. -/
def Eng.readyNow (e : Eng) : Bool :=
  e.linksDone && e.loader.st == .applied && e.flt.recovery != some .compute && !e.flt.failed

/-- READY follows its conditions; the first rise fixes TWK_ENG_BOOT_NS and opens CAPABILITY (R349, R374). -/
def Eng.updateReady (e : Eng) : Eng :=
  if e.readyNow && !e.boot.ready then
    let first := !e.boot.everReady
    let e := { e with boot := { e.boot with ready := true, everReady := true
                                            bootNs := if first then (e.now - e.boot.porNs) % 2 ^ 32 else e.boot.bootNs } }
    (e.raise 0x0905 (arg9 e.pwr.cur 0) none 0).setReplace
  else if !e.readyNow && e.boot.ready then
    ({ e with boot.ready := false }).raise 0x0906 (arg9 e.pwr.cur 0) none 0
  else e

/-! ### Events of fault control -/

/-- A fault event, shown in TWK_FLT_LAST (log 61, DESIGN CHOICE). -/
def Eng.fltEvent (code : Nat) (bay dike quarter pos : Option Nat) (e : Eng) : Eng :=
  (e.setReg Reg.fltLast (code * 2 ^ 16 + bay.getD 255 * 256 + dike.getD 255)).raise code (arg6 bay dike quarter pos) none 0

/-- Posts a quarter's logical map (R347). -/
def Eng.postMap (q : Nat) (e : Eng) : Eng := e.post (.map q (e.reg (Reg.fltQmapLo q)) (e.reg (Reg.fltQmapHi q)))

/-! ### Gussets (R346, R348) -/

/-- The gusset that takes a failed position's logical cluster: of two free ones that outside its dike, else the lower. -/
def Eng.chooseGusset (e : Eng) (q pos : Nat) : Option Nat :=
  if bit (e.reg Reg.fltCtrl) 0 then
    let free := (e.freeGussets q).filter (· != pos)
    let outside := free.filter (fun g => bayOf q g / 6 != bayOf q pos / 6)
    if free.length = 2 && outside.length = 1 then outside.head? else free.head?
  else none

/-- The logical cluster whose map entry names a position. -/
def Eng.mappedAt (e : Eng) (q pos : Nat) : Option Nat := (List.range 16).find? (fun n => e.position q n == pos)

/-- The logical cluster at a position that is out of use goes to a gusset, or is marked absent. -/
def Eng.replaceCluster (q pos : Nat) (e : Eng) : Eng :=
  match e.mappedAt q pos with
  | none => e
  | some n =>
    match e.chooseGusset q pos with
    | some g =>
      (((e.setQmapByte q n (g + 64)).bump Reg.fltCount 0 8 1).postMap q).fltEvent 0x0601 (some (bayOf q pos)) none (some q) (some pos)
    | none =>
      if bit (e.qmapByte q n) 7 then e
      else ((e.setQmapByte q n (setBit (e.qmapByte q n) 7 true)).postMap q).fltEvent 0x0602 (some (bayOf q pos)) none (some q) (some pos)

/-- A cluster has failed: its position is marked, its logical cluster replaced. -/
def Eng.clusterFailed (q pos : Nat) (e : Eng) : Eng :=
  ((e.setReg (Reg.fltFailed q) (setBit (e.reg (Reg.fltFailed q)) pos true)).replaceCluster q pos).updateReplace

/-! ### Bays and dikes (R15, R350 to R352) -/

/-- Clusters of a bay: quarter and position. -/
def Eng.bayClusters (e : Eng) (b : Nat) : List (Nat × Nat) :=
  (if b < 18 then [(0, b), (2, b)] else [(1, b - 18), (3, b - 18)]).filter (fun c => c.1 < e.quarterCount)

/-- Bays of a dike. -/
def dikeBays (d : Nat) : List Nat := (List.range 6).map (fun i => 6 * d + i)

/-- A Spool bank of a bay under reset is absent for the time: queues with cells in it are flushed (R249, R252). -/
def Eng.bankDown (b : Nat) (e : Eng) : Eng :=
  if e.bankPresent b then { e.loseFrames b with spool.absent := e.spool.absent ++ [b] }.breakBank b else e

/-- A bank comes back empty. -/
def Eng.bankUp (b : Nat) (e : Eng) : Eng :=
  if e.flt.banksAbsent.contains b then e
  else
    let rows := (List.range 4096).filter (fun r => e.pinned b ≤ r && !e.spool.retired.contains (r * 48 + b))
    { e with
      spool.absent := e.spool.absent.filter (· != b)
      spool.banks := updAt e.spool.banks b (fun k =>
        if e.spool.retired.any (fun c => c % 48 == b) then { k with fresh := 4096, freed := rows } else { k with fresh := e.pinned b, freed := [] }) }

/-- A bay goes out of use for good: its banks leave, its clusters are replaced (R350). -/
def Eng.bayGone (b : Nat) (e : Eng) : Eng :=
  let e := (bayBanks b).foldl (fun (e : Eng) k =>
    let e := { e with flt.banksAbsent := if e.flt.banksAbsent.contains k then e.flt.banksAbsent else e.flt.banksAbsent ++ [k] }
    if e.bankPresent k then e.bankLost k else e) e
  (e.bayClusters b).foldl (fun (e : Eng) c => e.replaceCluster c.1 c.2) e

/-- Contains a bay (R351). -/
def Eng.containBay (b : Nat) (e : Eng) : Eng :=
  let e := { e with flt.baysReset := e.flt.baysReset.filter (· != b)
                    flt.baysContained := if e.flt.baysContained.contains b then e.flt.baysContained else e.flt.baysContained ++ [b] }
  (((e.fltEvent 0x0605 (some b) (some (b / 6)) none none).bayGone b).updateReplace).updateReady

/-- Contains a dike (R352). -/
def Eng.containDike (d : Nat) (e : Eng) : Eng :=
  let e := { e with flt.dikesReset := e.flt.dikesReset.filter (· != d)
                    flt.dikesContained := if e.flt.dikesContained.contains d then e.flt.dikesContained else e.flt.dikesContained ++ [d] }
  (((dikeBays d).foldl (fun (e : Eng) b => e.bayGone b) (e.fltEvent 0x0607 none (some d) none none)).updateReplace).updateReady

/-- A kept Pattern copy exists (R58). -/
def Eng.keptCopy (e : Eng) : Bool := e.loader.kept && e.reg Reg.patKeep != 0

/-- Leaves a bay unconfigured (R51, R58): it counts as contained. -/
def Eng.unconfigure (b : Nat) (e : Eng) : Eng :=
  let u := setBit e.loader.baysUncfg b true
  let e := { e with loader.baysUncfg := u
                    flt.baysContained := if e.flt.baysContained.contains b then e.flt.baysContained else e.flt.baysContained ++ [b] }
  ((e.raise 0x0705 (2 ^ 8 * 255 + 2 ^ 16 * u) none 0).bayGone b).updateReplace

/-- ARG of class 0x07. -/
def Loader.arg (l : Loader) : Nat := l.err + l.errSection * 2 ^ 8 + l.baysUncfg * 2 ^ 16

/-- The kept copy fails its check again (R57). -/
def Eng.keptFails (code sec : Nat) (e : Eng) : Eng :=
  let e := { e with loader := { e.loader with st := .rejected, err := code, errSection := sec } }
  (e.raise 0x070A e.loader.arg none 0).updateReady

/-- A bay comes back from its reset, its blocks applied again from the kept copy once that has passed its check
(R57, R58; log 48, DEDUCED). -/
def Eng.bayBack (m : Mem) (b : Nat) (e : Eng) : Eng :=
  if e.keptCopy then
    match e.verifyKept (e.rd m (e.reg Reg.patKeep) e.loader.keptLen) e.loader.keptMissing with
    | .err code sec => e.keptFails code sec
    | .ok q _ =>
      let e := { e with pat := e.pat.map (fun p => p.withBay q b) }
      let e := (bayBanks b).foldl (fun (e : Eng) k => e.bankUp k) e
      let e := if b % 6 = 1 then (e.lslots.filter (fun kl => kl.2.cached)).foldl (fun (e : Eng) kl => e.fillCache m kl.1) e else e
      (e.bayClusters b).foldl (fun (e : Eng) c =>
        if bit (e.reg (Reg.fltFailed c.1)) c.2 && (e.logicalAt c.1 c.2).isSome then e.replaceCluster c.1 c.2 else e) e
  else e.unconfigure b

/-! ### Compute reset: what is cleared (R355) -/

/-- Registers held as plain storage that survive a compute reset (R432): RWS, the port island's, and those their chapters
name (log 13, DEDUCED). -/
def surviveReg (off : Nat) : Bool :=
  [Reg.patKeep, Reg.patId, Reg.ctColmap0, Reg.ctColmap1, Reg.bobTable, Reg.fltCount, Reg.engMode, Reg.pwrDeepSave, Reg.evtBase,
    Reg.evtCfg, Reg.evtMask, Reg.evtTail, Reg.evtHead, Reg.gauResets, Reg.engReplace].contains off ||
  (0xC0100 ≤ off && off < 0xC0180) || (0xF0020 ≤ off && off < 0xF0080) || (0x90000 ≤ off && off < 0xA0000) ||
  (0xC0 ≤ off && off < 0x100)

/-- Whether a ROUTE has written its FINAL record. -/
def RouteWork.final (w : RouteWork) : Bool := match w.phase with
  | .sorting => true
  | .sending => true
  | .sent => true
  | _ => false

/-- Whether an unacknowledged message is sent again after a compute reset, from its record (Table 15-6). -/
def Eng.outlives (e : Eng) (o : OutMsg) : Bool :=
  match o.src with
  | .dispatch _ => true
  | .bwdDispatch _ => true
  | .copy _ => true
  | .ret _ _ => false
  | .bwdReturn _ _ => false
  | .bytes _ => o.hdr.kind != 6
  | .frame f _ =>
    if f.kind = 2 then (match e.role f.slot f.step with
      | some r => r.ready
      | none => true)
    else e.works.any (fun w => w.slot == f.slot && w.step == f.step && w.final)

/-- A step's source role that had not written its FINAL record starts over from its scores (Table 15-6). -/
def RouteWork.restart (w : RouteWork) : RouteWork :=
  match w.phase with
  | .scoring => { w with tilesDone := [], sel := [] }
  | .fitting => { w with phase := .scoring, tilesDone := [], sel := [], round := 1, lastSent := false, bids := [], pairs := []
                         order := [], pleats := [], void := [], unreach := 0 }
  | _ => w

/-- A host role without READY gives its buffers back and waits for its sources' claims (Table 15-6). -/
def Eng.unready (r : HostRole) (e : Eng) : Eng :=
  (e.engDecAll (r.held e.fmt1)).setRole r.slot r.step (fun r =>
    { r with experts := [], reserving := true, nomem := false, failed := false, sources := [], heldBids := [], roundClosed := 0
             closed := false, streams := [], gtable := none, groups := 0, refusedList := [] })

/-- Clears what a compute reset clears (Table 15-4, R395, R432; log 13, DEDUCED). -/
def Eng.clearCompute (e : Eng) : Eng :=
  let keep := (e.tt.map (fun kt => OutMsg.mk kt.2.cmd kt.2.hdr kt.2.src) ++ e.outq).filter e.outlives
  let e := (e.roles.filter (fun r => !r.ready)).foldl (fun (e : Eng) r => e.unready r) e
  { e with
    regs := e.regs.filter (fun kv => surviveReg kv.1)
    loader := { kept := e.loader.kept, keptLen := e.loader.keptLen, keptMissing := e.loader.keptMissing, baysUncfg := e.loader.baysUncfg }
    tt := [], ttGen := [], copies := [], ttFullSince := none, ttFullBy := none, outq := keep, arbCount := 0, arbLast := 63
    chans := e.chans.map (fun kc => (kc.1, { kc.2 with jobs := kc.2.jobs.filter (fun j => match j with
      | .chunk h s _ => e.outlives ⟨kc.2.cmd, h, s⟩
      | .copy _ _ _ => true) }))
    lslots := e.lslots.map (fun kl => (kl.1, { kl.2 with tlayer := 0, cap := 0, rot := 0, lastRound := 0 }))
    works := e.works.map RouteWork.restart
    groups := e.groups.map (fun kg => (kg.1, { kg.2 with early := [] }))
    spool := { banks := e.spool.banks.map (fun b => { b with fresh := 4096, freed := [], scrubbed := [] })
               absent := e.flt.banksAbsent, faulty := e.spool.faulty, retired := e.spool.retired }
    ports := e.ports.map (fun p => { p with queue := [], deficit := List.replicate 8 0, groups := [], budget := 0 })
    gauges := e.gauges.map (fun kg => (kg.1, { bind := kg.2.bind, clearedAt := e.now }))
    wcache := [], tables := [{}, {}], outs := [], savedSums := [], bob := { e.bob with refused := false }
    experts := [], srcs := [], tacks := [], bank0 := none, bank1 := none, lastBank := 1, latches := 0, diag := none
    mgmtAddr := 0, mgmtWide := false, mirror := zeros 640
    pwr := { accesses := e.pwr.accesses }
    evt := { e.evt with armed := true, resetHeld := e.evt.held ++ e.evt.resetHeld, held := [] } }

/-- The fault record that stands for a recovery cut short. -/
def Recovery.record : Recovery → Option FaultRec
  | .substitution q p => some (.cluster q p)
  | .bay b => some (.bay b)
  | .dike d => some (.dike d)
  | .compute => none

/-- A compute reset starts: what ran is put back as its fault record (R354, R356; log 13, DEDUCED). -/
def Eng.startCompute (e : Eng) : Eng :=
  let back := (e.flt.recovery.bind Recovery.record).toList
  let e := e.clearCompute
  let e := { e with flt.queue := back ++ e.flt.queue.filter (fun (r : FaultRec) => r != FaultRec.compute), flt.recovery := some .compute, flt.baysReset := []
                    flt.dikesReset := [] }
  let e := e.setReg Reg.engFunc (if e.is3S then 0x37 else 0x3F)
  let e := ((e.bump Reg.fltCount 24 8 1).bump32 Reg.gauResets 1).post .holdRequest
  (e.fltEvent 0x0608 none none none none).updateReady

/-! ### The queue (R353, R354) -/

/-- A unit half is absent: marked, told, counted in the replacement level (R343, R348). -/
def Eng.unitAbsent (bay event : Nat) (e : Eng) : Eng :=
  let e := e.fltEvent 0x0602 (some bay) (some (bay / 6)) none none
  (if event = 0 then e else e.raise event (arg6 (some bay) (some (bay / 6)) none none) none 0).updateReplace

/-- Bay of a unit's half: Hem, Selector with fitting, Pleater or Seamer. -/
def unitBay (unit half : Nat) : Nat := match unit with
  | 0 => hemBay half
  | 1 => selBay half
  | 2 => pltBay half
  | _ => semBay half

/-- Whether a half is marked absent. -/
def Eng.halfAbsent (e : Eng) (unit half : Nat) : Bool := match unit with
  | 0 => e.flt.hemAbsent.contains half
  | 1 => e.flt.selAbsent.contains half
  | 2 => e.flt.pltAbsent.contains half
  | _ => e.flt.semAbsent.contains half

/-- Marks a half absent (R343, R348). -/
def Eng.markHalf (unit half : Nat) (e : Eng) : Eng :=
  match unit with
  | 0 => { e with flt.hemAbsent := e.flt.hemAbsent ++ [half] }.unitAbsent (hemBay half) 0x0630
  | 1 => ({ e with flt.selAbsent := e.flt.selAbsent ++ [half] }.unitAbsent (selBay half) 0x0640).raise 0x0650
      (arg6 (some (selBay half)) (some (selBay half / 6)) none none) none 0
  | 2 => { e with flt.pltAbsent := e.flt.pltAbsent ++ [half] }.unitAbsent (pltBay half) 0x0651
  | _ => { e with flt.semAbsent := e.flt.semAbsent ++ [half] }.unitAbsent (semBay half) 0x0670

/-- Marks a cutting table absent, its fourth column failed (R113). -/
def Eng.markTable (t : Nat) (e : Eng) : Eng :=
  ({ e with flt.ctAbsent := e.flt.ctAbsent ++ [t] }.clearTable t).unitAbsent (ctBay t) 0

/-- Dike of a fault. -/
def FaultRec.within : FaultRec → Option Nat
  | .cluster q p => some (bayOf q p / 6)
  | .half u h => some (unitBay u h / 6)
  | .table t => some (ctBay t / 6)
  | .bay b => some (b / 6)
  | .dike d => some d
  | .compute => none

/-- Order of a recovery in the queue (Table 15-2). -/
def FaultRec.order : FaultRec → Nat
  | .compute => 1
  | .bay _ => 3
  | .dike _ => 3
  | _ => 2

/-- The tables of bays under reset hold nothing any more (R116). -/
def Eng.clearTablesOf (bays : List Nat) (e : Eng) : Eng :=
  ((List.range 2).filter (fun t => bays.contains (ctBay t))).foldl (fun (e : Eng) t => e.clearTable t) e

/-- A bay reset starts (R351). -/
def Eng.startBay (b : Nat) (e : Eng) : Eng :=
  let e := { e with flt.recovery := some (.bay b), flt.baysReset := e.flt.baysReset ++ [b] }.wake
  let e := (e.bump Reg.fltCount 8 8 1).fltEvent 0x0604 (some b) (some (b / 6)) none none
  ((bayBanks b).foldl (fun (e : Eng) k => e.bankDown k) (e.clearTablesOf [b])).updateReplace

/-- A dike reset starts (R352). -/
def Eng.startDike (d : Nat) (e : Eng) : Eng :=
  let e := { e with flt.recovery := some (.dike d), flt.baysReset := e.flt.baysReset.filter (fun b => b / 6 != d)
                    flt.dikesReset := e.flt.dikesReset ++ [d] }.wake
  let e := (e.bump Reg.fltCount 16 8 1).fltEvent 0x0606 none (some d) none none
  (((dikeBays d).flatMap bayBanks).foldl (fun (e : Eng) k => e.bankDown k) (e.clearTablesOf (dikeBays d))).updateReplace

/-- A queued recovery of what is contained, absent or already in reset has nothing left to do. -/
def Eng.covered (e : Eng) : FaultRec → Bool
  | .bay b => e.bayDown b
  | .half u h => e.halfAbsent u h
  | .table t => e.flt.ctAbsent.contains t
  | .dike d => e.flt.dikesContained.contains d
  | _ => false

/-- The entry of the queue whose recovery comes next (Table 15-2). -/
def Eng.nextFault (e : Eng) : Option FaultRec :=
  (e.flt.queue.find? (fun r => r.order == 1)).or ((e.flt.queue.find? (fun r => r.order == 2)).or e.flt.queue.head?)

/-- Marks units absent as long as that comes next; nothing more is waited for (Table 15-2). -/
def Eng.markUnits : Nat → Eng → Eng
  | 0, e => e
  | n + 1, e => match e.nextFault with
    | some (.half u h) => Eng.markUnits n ({ e with flt.queue := e.flt.queue.filter (· != FaultRec.half u h) }.markHalf u h)
    | some (.table t) => Eng.markUnits n ({ e with flt.queue := e.flt.queue.filter (· != FaultRec.table t) }.markTable t)
    | _ => e

/-- Starts the next recovery of the queue, when none runs and no power state is being entered or left (R376). -/
def Eng.nextRecovery (e : Eng) : Eng :=
  if e.flt.recovery.isSome || e.pwr.trans then e
  else
    let e := { e with flt.queue := e.flt.queue.filter (fun r => !e.covered r) }
    let e := e.markUnits e.flt.queue.length
    match e.nextFault with
    | none => e
    | some r =>
      let e := { e with flt.queue := e.flt.queue.erase r }
      match r with
      | .compute => e.startCompute
      | .cluster q p => { e with flt.recovery := some (.substitution q p) }
      | .half u h => e.markHalf u h
      | .table t => e.markTable t
      | .bay b => e.startBay b
      | .dike d => e.startDike d

/-- A compute reset has failed (Table 15-3). -/
def Eng.computeFails (e : Eng) : Eng :=
  let e := { e with flt.failed := true, flt.recovery := none }
  ((e.fltEvent 0x060A none none none none).post .computeFailed).updateReady

/-- A detected fault takes the first row of Table 15-3 that it matches (log 61, DESIGN CHOICE). -/
def Eng.addFault (r : FaultRec) (e : Eng) : Eng :=
  if r = .compute then (if e.flt.recovery = some .compute then e.computeFails else e.startCompute)
  else if e.flt.queue.length ≥ 64 then (if e.flt.recovery = some .compute then e else e.startCompute)
  else
    let escalate (d : Nat) : Eng := (e.fltEvent 0x060B none (some d) none none).startDike d
    match e.flt.recovery with
    | some (.substitution q p) => if r.within = some (bayOf q p / 6) then escalate (bayOf q p / 6)
        else { e with flt.queue := e.flt.queue ++ [r] }
    | some (.bay b) => if r.within = some (b / 6) then escalate (b / 6) else { e with flt.queue := e.flt.queue ++ [r] }
    | some (.dike d) => if r.within = some d then ({ e with flt.recovery := none }.containDike d).nextRecovery
        else { e with flt.queue := e.flt.queue ++ [r] }
    | _ => { e with flt.queue := e.flt.queue ++ [r] }.nextRecovery

/-- A requested reset takes its place in the queue (R376); during a transition of the power state it waits. A full queue
brings a compute reset, as it does for a fault (log 61, DESIGN CHOICE). -/
def Eng.requestReset (r : FaultRec) (e : Eng) : Eng :=
  let e := e.wake
  if r = .compute && (e.flt.recovery = some .compute || e.flt.queue.contains .compute) then e
  else if e.flt.queue.length ≥ 64 then (if e.flt.recovery = some .compute then e else e.startCompute)
  else { e with flt.queue := e.flt.queue ++ [r] }.nextRecovery

/-! ### Recovering the work (R357) -/

/-- Commands that a compute reset ends: collectives, barriers and tacks. -/
def Eng.cancelCollectives (e : Eng) : Eng :=
  let e := ((e.groups.filter (fun kg => !kg.2.ops.isEmpty || kg.2.form.isSome)).map (·.1)).foldl (fun (e : Eng) g => e.breakGroup g none noChip) e
  let e := (e.groups.map (·.1)).foldl (fun (e : Eng) g => e.cancelBarriers g) e
  let tacks := (e.cmds.filter (fun c => c.d.opcode == opTack && c.phase == .running && !c.done)).map (·.id)
  tacks.foldl (fun (e : Eng) id => e.complete id stCancelled) { e with tacks := [] }

/-- The work that a compute reset interrupted goes on, once the Pattern is applied again (Table 15-6; log 13, DEDUCED). -/
def Eng.recoverWork (m : Mem) (e : Eng) : Eng :=
  let e := (e.lslots.filter (fun kl => kl.2.cached)).foldl (fun (e : Eng) kl => e.fillCache m kl.1) e
  let lost := e.flt.latchedLost
  let e := lost.foldl (fun (e : Eng) x => e.applyLost m x) { e with flt.latchedLost := [] }
  let e := e.cancelCollectives
  let e := { e with flt.takeovers := e.flt.takeovers.map (fun (t : Takeover) => { t with claims := [], ends := [] }) }
  let mine := e.roles.filter (fun r => !r.ready && r.experts.isEmpty)
  let e := mine.foldl (fun (e : Eng) r => e.openTakeover e.chip r.slot r.step r.detm) e
  let e := (e.works.filter (fun w => mine.any (fun r => r.slot == w.slot && r.step == w.step))).foldl (fun (e : Eng) w =>
    e.stepTakeover m w e.chip e.chip) e
  let e := (e.cmds.filter (fun c => c.phase == .running && !c.done && (c.d.opcode == opReturn || c.d.opcode == opReturnBwd))).foldl
    (fun (e : Eng) c =>
      let bwd := c.d.opcode == opReturnBwd
      e.startReturn m c bwd) e
  let held := e.evt.resetHeld
  let e := held.foldl (fun (e : Eng) r => (e.evtPush r).2) { e with evt.resetHeld := [] }
  (e.post .resumeRequest).settle m

end Sys2Proof.Machine
end

