-- ==== Sys2Proof/Machine/Loader.lean ====
section
/-! DEFINITION. The Pattern loader (chapter 2): staging, broadcast and repair (R47 to R52), verification, apply (R46, R251),
reload and the kept copy (R57 to R59). -/

namespace Sys2Proof.Machine

/-! ### The staged image -/

/-- Frame `n` of what this engine holds: of a broadcast's frames, or of its local image. -/
def Loader.frame? (l : Loader) (n : Nat) : Option (List Byte) :=
  match KV.find l.frames n with
  | some b => some b
  | none => if n * 4096 < l.image.length then some ((l.image.drop (n * 4096)).take 4096) else none

/-- Frames still lacking. -/
def Loader.missing (l : Loader) : List Nat := (List.range l.total).filter (fun n => (KV.find l.frames n).isNone)

/-- The bytes of the image as far as they are held, zero elsewhere. -/
def Loader.gathered (l : Loader) : List Byte :=
  let all := (List.range l.total).flatMap (fun n => match KV.find l.frames n with
    | some b => if n + 1 = l.total then b else fitTo 4096 b
    | none => zeros 4096)
  if l.missing.contains (l.total - 1) && (KV.find l.frames 0).isSome then fitTo (min (rdLE all 8 4) 16777216) all else all

/-- TOPOLOGY out of what is staged, once its bytes are held. -/
def Loader.topo? (l : Loader) : Option Topology :=
  if (KV.find l.frames 0).isNone then none
  else
    let img := l.gathered
    match (patSections img).find? (fun s => s.stype == secTopology) with
    | some s => if rangeMissing l.missing s.off s.len then none else some (parseTopology (s.bytes img) {}).pat.topo
    | none => none

/-- Frames that the loader area can stage (R231, R249). -/
def Eng.stageFrames (e : Eng) : Nat := if e.spool.absent.isEmpty then 4096 else 683 * e.banksPresent.length / 8

/-- Banks that frame `n` lands in (R49, R249). -/
def Eng.frameBanks (e : Eng) (n : Nat) : List Nat :=
  let p := e.banksPresent
  (List.range 8).filterMap (fun j => p[(8 * n + j) % p.length]?)

/-- Whether a frame can be staged now: its cells exist and their wave has passed (R372). -/
def Eng.stages (e : Eng) (n : Nat) : Bool :=
  n < e.stageFrames && (e.frameBanks n).all (fun b => e.boot.wavesDone.contains (b / 8))

/-! ### The tree (R47) -/

/-- A chip that can lead: not lost, and nothing holds toward it (log 26, DEDUCED). -/
def Eng.leads (e : Eng) (c : Nat) : Bool := c == e.chip || (!e.isLost c && !e.holding c)

/-- The leader of a tray and of a rack (log 26, DEDUCED). -/
def Eng.trayLeader (e : Eng) (rack tray : Nat) : Option Nat :=
  ((List.range 16).map (fun p => rack * 128 + tray * 16 + p)).find? e.leads
def Eng.rackLeader (e : Eng) (t : Topology) (rack : Nat) : Option Nat :=
  (bitsOf 8 (KV.get 0 t.trayMask rack)).head?.bind (e.trayLeader rack)

/-- The other members of this chip's tray, and the leaders of the other trays of its rack. -/
def Eng.trayMates (e : Eng) : List Nat := ((List.range 16).map (fun p => e.chip / 16 * 16 + p)).filter (· != e.chip)
def Eng.rackMates (e : Eng) (t : Topology) : List Nat :=
  ((bitsOf 8 (KV.get 0 t.trayMask (chipRack e.chip))).filter (· != chipTray e.chip)).filterMap (e.trayLeader (chipRack e.chip))

/-- Where the root of a broadcast sends its frames. -/
def Eng.rootDests (e : Eng) (t : Topology) : List Nat :=
  ((KV.keys t.trayMask).filter (· != chipRack e.chip)).filterMap (e.rackLeader t) ++ e.rackMates t ++ e.trayMates

/-- Whether this chip leads its tray, and its rack. -/
def Eng.leadsTray (e : Eng) : Bool := e.trayLeader (chipRack e.chip) (chipTray e.chip) == some e.chip
def Eng.leadsRack (e : Eng) (t : Topology) : Bool := e.rackLeader t (chipRack e.chip) == some e.chip

/-- Where frames from `src` go on: to the tray unless they came from it, to the rack if they came from outside. -/
def Eng.relayTray (e : Eng) (src : Nat) : List Nat := if src / 16 != e.chip / 16 && e.leadsTray then e.trayMates else []
def Eng.relayRack (e : Eng) (src : Nat) (t : Option Topology) : List Nat :=
  match t with
  | some t => if chipRack src != chipRack e.chip && e.leadsRack t then e.rackMates t else []
  | none => []

/-- The chip above this one in the tree: that which its frames came from, or the leader that takes its place
(log 26, DEDUCED). -/
def Eng.above (e : Eng) : Option Nat :=
  match e.loader.parent.filter e.leads with
  | some p => some p
  | none =>
    if e.leadsTray then (e.loader.topo?.bind (fun t => e.rackLeader t (chipRack e.chip))).filter (· != e.chip)
    else e.trayLeader (chipRack e.chip) (chipTray e.chip)

/-! ### Sending frames (R48) -/

/-- A frame with its check. -/
def sealPat (h : PatHdr) (payload : List Byte) : PatHdr := { h with crc := (crc32c (h.bytes28 ++ payload)).toNat }

/-- Sends a frame over the management route. -/
def Eng.sendPat (dst : Nat) (h : PatHdr) (payload : List Byte) (e : Eng) : Eng := e.send none 7 (.pattern dst (sealPat h payload) payload)

/-- Identity of the image this engine holds. -/
def Loader.patternId (l : Loader) : Nat := l.firstId.getD (rdLE l.image 16 8)

/-- Frame count of the image this engine holds. -/
def Loader.count (l : Loader) : Nat := if l.total = 0 then ceilDiv l.image.length 4096 else l.total

/-- Sends frame `n` of what is held, with the given flags. -/
def Eng.sendFrameNo (dst n flags : Nat) (e : Eng) : Eng :=
  match e.loader.frame? n with
  | none => e
  | some b => e.sendPat dst { patternId := e.loader.patternId, seq := n, total := e.loader.count, plen := b.length, fflags := flags } b

/-- Sends the END frame (log 52, DESIGN CHOICE). -/
def Eng.sendEnd (dst : Nat) (e : Eng) : Eng :=
  e.sendPat dst { patternId := e.loader.patternId, seq := e.loader.count, total := e.loader.count, plen := 0, fflags := 1 } []

/-- TOPOLOGY of the image that a root sends. -/
def Loader.rootTopo (l : Loader) : Topology := match l.staged with
  | some p => p.topo
  | none => {}

/-- The root's next frame, END after the last (R47, R52); its copies are paced to 100 bytes a nanosecond. -/
def Eng.rootSend (e : Eng) : Eng :=
  let l := e.loader
  let dests := e.rootDests l.rootTopo
  if l.sendNext < l.count then
    let e := dests.foldl (fun (e : Eng) d => e.sendFrameNo d l.sendNext 0) e
    { e with loader := { e.loader with sendNext := l.sendNext + 1
                                       sendDebt := dests.length * (32 + (match l.frame? l.sendNext with
                                         | some b => b.length
                                         | none => 0)) } }
  else
    let e := dests.foldl (fun (e : Eng) d => e.sendEnd d) e
    { e with loader := { e.loader with sending := false, endNs := e.now } }

/-- One nanosecond of a root's sending. -/
def Eng.rootTick (e : Eng) : Eng :=
  if e.loader.sending then
    if e.loader.sendDebt > 100 then { e with loader := { e.loader with sendDebt := e.loader.sendDebt - 100 } } else e.rootSend
  else e

/-! ### Reports (R52) -/


/-- Closes TWK_PAT_HALL_STATUS. -/
def Eng.closeHall (e : Eng) : Eng :=
  if e.loader.hallClosed then e
  else { e with loader := { e.loader with hallClosed := true, hallBadCount := e.loader.rootTopo.jobChips - e.loader.hallOk.length } }

/-- The root counts a member's report. -/
def Eng.countReport (chip : Nat) (applied : Bool) (e : Eng) : Eng :=
  let l := e.loader
  if l.hallClosed || l.hallOk.contains chip || l.hallBad.contains chip || !(l.rootTopo.hasTray (chipRack chip) (chipTray chip)) then e
  else
    let e := { e with loader := if applied then { l with hallOk := l.hallOk ++ [chip] } else { l with hallBad := l.hallBad ++ [chip] } }
    if e.loader.hallOk.length + e.loader.hallBad.length ≥ l.rootTopo.jobChips then e.closeHall else e

/-- Codes of Table 2-12. -/
def LoaderState.code : LoaderState → Nat
  | .empty => 0 | .receiving => 1 | .repair => 2 | .verifying => 3
  | .applying => 4 | .applied => 5 | .rejected => 6 | .incomplete => 7

/-- A member's final state (its code of Table 2-12) is counted at the root and passed up the tree elsewhere (R52). -/
def Eng.takeReport (chip st : Nat) (e : Eng) : Eng :=
  if !e.loader.hallClosed then e.countReport chip (st == 5)
  else match e.above with
    | some u => e.send none 7 (.patReport u chip st)
    | none => e

/-- This engine's final state goes up the tree, or into the root's own count. -/
def Eng.reportState (e : Eng) : Eng :=
  if !e.loader.hallClosed || e.loader.parent.isSome then e.takeReport e.chip e.loader.st.code else e

/-! ### Ends of a load -/

/-- Any polder is resident. -/
def Eng.anyResident (e : Eng) : Bool := e.pld.slots.any (fun p => p.st != .empty)

/-- Starts a local load (R33, R46, R58); a length that no image has is refused at once (log 25, DEDUCED). -/
def Eng.loadNow (m : Mem) (e : Eng) : Eng :=
  let l := e.loader
  let refuse (e : Eng) : Eng := { e with loader := { e.loader with loadRefused := true } }
  let src := e.reg Reg.patSrc
  let len := e.reg Reg.patLen
  if (if l.reloadNeeded then e.rdNat m (src + 16) 8 ≠ e.reg Reg.patId else e.anyResident) then refuse e
  else
    let base : Loader :=
      { kept := l.kept, keptLen := l.keptLen, keptMissing := l.keptMissing, reloadNeeded := l.reloadNeeded, loadRefused := l.loadRefused
        reload := l.reloadNeeded, bcast := bit (e.reg Reg.patCtrl) 1, src := src, len := len, baysUncfg := l.baysUncfg
        crcFails := l.crcFails, foreign := l.foreign, hallOk := l.hallOk, hallBadCount := l.hallBadCount }
    if len % 64 ≠ 0 || len < 64 || len > 16777216 then
      let e := { e with loader := { base with st := .rejected, err := 0x03 } }
      (e.raise 0x0702 e.loader.arg none 0).updateReady
    else { e with loader := { base with st := .receiving, localRead := true } }.updateReady

/-- A LOAD written while the image was being verified or applied is carried out now (corner cases). -/
def Eng.runPendLoad (m : Mem) (e : Eng) : Eng :=
  if e.loader.loadPend then { e with loader := { e.loader with loadPend := false } }.loadNow m else e

/-- Verification or staging has failed. -/
def Eng.rejectLoad (m : Mem) (st : LoaderState) (err sec event : Nat) (e : Eng) : Eng :=
  let e := { e with loader := { e.loader with st := st, err := err, errSection := sec, staged := none } }
  (((e.raise event e.loader.arg none 0).reportState).updateReady).runPendLoad m

/-! ### Apply (R46, R51, R251, R258, R320) -/

/-- A bay that a later load configures is no longer lost. -/
def Eng.configureBay (b : Nat) (e : Eng) : Eng :=
  if bit e.loader.baysUncfg b then
    let e := { e with loader.baysUncfg := setBit e.loader.baysUncfg b false
                      flt.baysContained := e.flt.baysContained.filter (· != b)
                      flt.banksAbsent := e.flt.banksAbsent.filter (fun k => !(bayBanks b).contains k) }
    let e := (bayBanks b).foldl (fun (e : Eng) k => e.bankUp k) e
    ((e.bayClusters b).foldl (fun (e : Eng) c => match e.mappedAt c.1 c.2 with
      | some n => if bit (e.reg (Reg.fltFailed c.1)) c.2 then e else (e.setQmapByte c.1 n (setBit (e.qmapByte c.1 n) 7 false)).postMap c.1
      | none => e) e).updateReplace
  else e

/-- Starts the zeroing of a slot's bound bias vector (R152). -/
def Eng.zeroBias (slot : Nat) (e : Eng) : Eng :=
  if (e.lslot slot).bias = 0 then e else e.setLslot slot (fun l => { l with biasZeroing := true })

/-- The Pattern with every resident polder's piece in place (R54). -/
def Eng.withPieces (e : Eng) (p : Pattern) : Pattern := e.pld.pieces.foldl (fun (p : Pattern) kp => p.withPiece kp.2) p

/-- Applies a verified Pattern. A re-application after a compute reset leaves pieces, bias values, consent edits and
bindings as they stand (R57, R58); a full load starts them over (R59). -/
def Eng.applyPattern (p : Pattern) (bays : List Nat) (again : Bool) (e : Eng) : Eng :=
  let e := (e.spool.queues.map (·.1)).foldl (fun (e : Eng) q => e.flushAll q) e
  let e := { e with pat := some p }
  let e := if again then { e with spool.cfg := (e.withPieces p).queues }
    else
      let e := (e.pld.evicted.map (·.polder)).foldl (fun (e : Eng) x => e.forceRelease x) e
      let e : Eng := { e with groups := [], pld := { e.pld with evicted := [], pieces := [], quarantine := [] }, slotCfg := p.slots, panelMaps := p.panels }
      let e : Eng := { e with spool.cfg := p.queues, lslots := e.lslots.map (fun (kl : Nat × LSlot) => (kl.1, { kl.2 with cached := false, loading := false })) }
      let e := e.bobInitTable (e.bob.entries.any (fun kv => kv.2.st == .orphan))
      (e.lslots.map (·.1)).foldl (fun (e : Eng) s => e.zeroBias s) e
  let e := { e with spool.queues := [] }.carve
  let e := (e.setReg Reg.patVersion (p.major * 2 ^ 16 + p.minor)).setReg Reg.patId p.patternId
  let e := ((List.range 36).filter (fun b => !bays.contains b)).foldl (fun (e : Eng) b => e.configureBay b) e
  bays.foldl (fun (e : Eng) b => if bit e.loader.baysUncfg b then e else e.unconfigure b) e

/-- The kept copy is verified again and applied (R57). Says whether it was (log 48, DEDUCED). -/
def Eng.reapplyKept (m : Mem) (e : Eng) : Bool × Eng :=
  let img := e.rd m (e.reg Reg.patKeep) e.loader.keptLen
  match e.verifyKept img e.loader.keptMissing with
  | .err code sec => (false, e.keptFails code sec)
  | .ok p bays =>
    let e := e.applyPattern p bays true
    let e := { e with loader := { e.loader with st := .applied } }
    (true, e.raise 0x0701 e.loader.arg none 0)

/-! ### Receiving (R49 to R51) -/

/-- Whom a leader asks for a frame that its tray lacks: a rack leader the lowest other tray of the rack whose leader has not
asked for it itself, else the chip above. -/
def Eng.outsideTray (e : Eng) (dst n : Nat) : Option Nat :=
  match e.loader.topo? with
  | some t => (if e.leadsRack t then
      (e.rackMates t).find? (fun c => c != dst && !(KV.get [] e.loader.wants c).contains n) else none).or e.above
  | none => e.above

/-- Sends a chip the frames it lacks: from this engine's own copy, from a tray member that holds them, or from outside the
tray. -/
def Eng.serveTray (dst : Nat) (seqs : List Nat) (e : Eng) : Eng :=
  let mates := e.trayMates.filter (· != dst)
  let holder (n : Nat) : Option Nat := mates.find? (fun c => match KV.find e.loader.bitmaps c with
    | some lacks => !lacks.contains n
    | none => false)
  let own := seqs.filter (fun n => (e.loader.frame? n).isSome && dst != e.chip)
  let rest := seqs.filter (fun n => !own.contains n)
  let e := own.foldl (fun (e : Eng) n => e.sendFrameNo dst n 2) e
  let asks : List (Nat × Nat) := rest.filterMap (fun n => ((holder n).or (e.outsideTray dst n)).map (fun c => (c, n)))
  let e := if dst = e.chip || rest.isEmpty then e
    else { e with loader := { e.loader with wants := KV.upd [] e.loader.wants dst (fun l => (l ++ rest).eraseDups) } }
  ((asks.map (·.1)).eraseDups).foldl (fun (e : Eng) c =>
    e.send none 7 (.patRequest c ((asks.filter (fun a => a.1 == c)).map (·.2)))) e

/-- Serves a request that came up or down the tree: from the own copy, the lowest other tray of the rack whose leader has
not asked for the frame itself, or from above. -/
def Eng.serveRack (src : Nat) (seqs : List Nat) (e : Eng) : Eng :=
  let own := seqs.filter (fun n => (e.loader.frame? n).isSome)
  let rest := seqs.filter (fun n => !own.contains n)
  let e := own.foldl (fun (e : Eng) n => e.sendFrameNo src n 2) e
  match e.loader.topo? with
  | none => e
  | some t =>
    if rest.isEmpty || !e.leadsRack t then e
    else
      let e := { e with loader := { e.loader with wants := KV.upd [] e.loader.wants src (fun l => (l ++ rest).eraseDups) } }
      let asks : List (Nat × Nat) := rest.filterMap (fun n => (e.outsideTray src n).map (fun c => (c, n)))
      ((asks.map (·.1)).eraseDups).foldl (fun (e : Eng) c =>
        e.send none 7 (.patRequest c ((asks.filter (fun a => a.1 == c)).map (·.2)))) e

/-- A repair round starts: the bitmap goes to the tray leader; a leader looks for its own frames (R50). -/
def Eng.startRound (e : Eng) : Eng :=
  let e := { e with loader := { e.loader with st := .repair, repairRound := e.loader.repairRound + 1, lastNs := e.now } }
  let lacks := e.loader.missing
  if e.leadsTray && !(match e.loader.parent with
      | some p => p / 16 == e.chip / 16
      | none => false) then e.serveTray e.chip lacks
  else match e.above with
    | some u => e.send none 7 (.patBitmap u ((List.range e.loader.total).filter (fun n => !lacks.contains n)))
    | none => e

/-- Reception ends: what is whole is verified, what is not is repaired. -/
def Eng.endReceiving (e : Eng) : Eng :=
  if e.loader.missing.isEmpty && e.loader.total > 0 then { e with loader := { e.loader with st := .verifying } } else e.startRound

/-- A frame held is passed on to those that asked for it. -/
def Eng.passWanted (n : Nat) (e : Eng) : Eng :=
  let dests := (e.loader.wants.filter (fun kw => kw.2.contains n)).map (·.1)
  let e := dests.foldl (fun (e : Eng) c => e.sendFrameNo c n 2) e
  { e with loader := { e.loader with wants := e.loader.wants.map (fun kw => (kw.1, kw.2.filter (· != n))) } }

/-- A frame that passed its checks (R49): held, counted, forwarded. -/
def Eng.holdFrame (src : Nat) (h : PatHdr) (payload : List Byte) (e : Eng) : Eng :=
  let l := e.loader
  let known := l.topo?
  let repair := bit h.fflags 1
  let e := { e with loader := { l with
    st := if l.st == LoaderState.empty then .receiving else l.st
    firstId := some h.patternId, parent := some (l.parent.getD src), total := h.total
    frames := KV.put l.frames h.seq payload, lastNs := e.now
    received := satAdd 16 l.received 1, repaired := if repair then satAdd 16 l.repaired 1 else l.repaired } }
  let e := if repair then e.raise 0x0703 e.loader.arg none 0 else e
  let e := if repair then e
    else
      let rack := e.relayRack src e.loader.topo?
      let e := (e.relayTray src).foldl (fun (e : Eng) d => e.sendFrameNo d h.seq 0) e
      let now := if known.isSome then [h.seq] else KV.keys e.loader.frames
      rack.foldl (fun (e : Eng) d => now.foldl (fun (e : Eng) n => e.sendFrameNo d n 0) e) e
  let e := e.passWanted h.seq
  if e.loader.st == .repair && e.loader.missing.isEmpty then { e with loader := { e.loader with st := .verifying } } else e

/-- A frame's header word passes the loader's class 6 queue (R234, R240); a full pool does not hold it up (R231). -/
def Eng.passFrame (e : Eng) : Eng := match e.loaderQueue with
  | some q => (e.through q).getD e
  | none => e

/-- A frame with a Spool word that cannot be read is treated as missing; one corrected is told (R244, R246). -/
def Eng.readFrame (seq : Nat) (rd : SpoolRead) (hold : Eng → Eng) (e : Eng) : Eng :=
  let cell := (e.loaderCells seq).headD 0
  match rd with
  | .badData _ => e.spoolBad cell
  | .badMeta _ => e.spoolBad cell
  | .corrected again => hold (e.spoolCorrected cell again)
  | _ => hold e

/-- A Pattern frame arrives (R49; log 25, DEDUCED; log 52, DESIGN CHOICE). -/
def Eng.patFrame (src : Nat) (h : PatHdr) (payload : List Byte) (rd : SpoolRead) (e : Eng) : Eng :=
  let l := e.loader
  let foreign (e : Eng) : Eng := { e with loader := { e.loader with foreign := satAdd 16 e.loader.foreign 1 } }
  if !e.boot.powered || e.boot.phase < 2 || (!l.sending && (l.st == .applied || l.st == .incomplete || l.st == .rejected)) then e
  else if (sealPat h payload).crc ≠ h.crc then { e with loader := { l with crcFails := satAdd 16 l.crcFails 1 } }
  else if l.sending || l.localRead || (match l.firstId with
      | some i => decide (i ≠ h.patternId) || decide (h.total ≠ l.total)
      | none => l.reloadNeeded && decide (h.patternId ≠ e.reg Reg.patId)) then foreign e
  else if bit h.fflags 0 then
    if l.st == .empty || l.st == .receiving then
      let e := { e with loader := { l with st := .receiving, firstId := some h.patternId, parent := some (l.parent.getD src), total := h.total, lastNs := e.now } }
      let e := (e.relayTray src ++ e.relayRack src e.loader.topo?).foldl (fun (e : Eng) d => e.sendEnd d) e
      e.endReceiving
    else e
  else if (KV.find l.frames h.seq).isSome || h.seq ≥ h.total || h.total > 4096 || payload.length ≠ h.plen || h.plen > 4096 then foreign e
  else if !(l.st == .empty || l.st == .receiving || l.st == .repair) || !e.stages h.seq then e
  else e.passFrame.readFrame h.seq rd (fun e => e.holdFrame src h payload)

/-- The third repair round has ended (R51). -/
def Eng.endRepair (m : Mem) (e : Eng) : Eng :=
  if onlyBlocksMissing e.loader.gathered e.loader.missing then { e with loader := { e.loader with st := .verifying } }
  else e.rejectLoad m .incomplete 0x09 255 0x0704

/-! ### Verification and apply as the loader's own steps -/

/-- Frames held in loader-area cells that a scrub could not read. -/
def Eng.badFrames (e : Eng) : List Nat :=
  if e.loader.localRead then []
  else (KV.keys e.loader.frames).filter (fun n => (e.loaderCells n).any (fun c => e.spool.bad.contains c))

/-- Verification reads the frames: one that cannot be read is missing again, and is repaired (R246, Table 10-5). -/
def Eng.dropFrames (e : Eng) : Eng :=
  let l := e.badFrames
  let e := l.foldl (fun (e : Eng) n =>
    let cells := e.loaderCells n
    { (cells.filter (fun c => e.spool.bad.contains c)).foldl (fun (e : Eng) c => e.spoolBad c) e with
      loader := { e.loader with frames := KV.del e.loader.frames n }
      spool.bad := e.spool.bad.filter (fun c => !cells.contains c) }) e
  if e.loader.repairRound < 3 then e.startRound else { e with loader := { e.loader with st := .repair } }

/-- Verification ends (R33). -/
def Eng.verifyStaged (m : Mem) (e : Eng) : Eng :=
  if !e.badFrames.isEmpty then e.dropFrames
  else
  let l := e.loader
  let img := if l.localRead then l.image else l.gathered
  let missing := if l.localRead then [] else l.missing
  match e.verifyImage .full none img missing with
  | .err code sec => e.rejectLoad m .rejected code sec 0x0702
  | .ok p bays =>
    let root := l.localRead && l.bcast
    let e := { e with loader := { l with st := .applying, staged := some p, stagedBays := bays, sending := root, sendNext := 0, sendDebt := 0
                                         hallClosed := if root then false else l.hallClosed, hallOk := if root then [] else l.hallOk
                                         hallBad := [], hallBadCount := if root then 0 else l.hallBadCount } }
    if root then e.rootSend else e

/-- Apply ends (R46, R57; log 52, DESIGN CHOICE). -/
def Eng.applyStaged (m : Mem) (e : Eng) : Eng :=
  let l := e.loader
  match l.staged with
  | none => e
  | some p =>
    let again := l.reload || l.reloadNeeded
    let e := e.applyPattern p l.stagedBays again
    let e := { e with loader := { e.loader with st := .applied, reloadNeeded := false, reload := false, err := 0, errSection := 255 } }
    let e := e.raise 0x0701 e.loader.arg none 0
    let img := if l.localRead then l.image else l.gathered
    let e := if e.reg Reg.patKeep = 0 then { e with loader := { e.loader with kept := false } }
      else { e.store (e.reg Reg.patKeep) img with loader := { e.loader with kept := true, keptLen := img.length
                                                                            keptMissing := if l.localRead then [] else l.missing } }
    let e := if again then e.recoverWork m else e
    ((e.reportState).updateReady).runPendLoad m

end Sys2Proof.Machine
end

