-- ==== Sys2Proof/Machine/Polders.lean ====
section
/-! DEFINITION. Polders (chapter 13): slot commands (R299 to R307), Tide windows (R312, R313), step boundaries, consent and
edits (R56, R153, R154, R269, R315 to R317), slowdown (R319). -/

namespace Sys2Proof.Machine

/-! ### Ranges of a template -/

/-- Puts the entries of one table in the place of another's, over a range of keys. -/
def overRange {α : Type} (lo n : Nat) (src dst : KV α) : KV α :=
  (src.filter (fun kv => lo ≤ kv.1 && kv.1 < lo + n)).foldl (fun m kv => KV.put m kv.1 kv.2)
    (dst.filter (fun kv => !(lo ≤ kv.1 && kv.1 < lo + n)))

/-- Entries of a table over a range of keys. -/
def inRange {α : Type} (lo n : Nat) (m : KV α) : KV α := m.filter (fun kv => lo ≤ kv.1 && kv.1 < lo + n)

/-- Layer slots and panel maps of a template's range as a Pattern gives them. -/
def Eng.rangeSlots (t : Template) (p : Pattern) (e : Eng) : Eng :=
  { e with slotCfg := overRange t.slotBase t.slotCount p.slots e.slotCfg, panelMaps := overRange t.slotBase t.slotCount p.panels e.panelMaps }

/-- Queues of a template's range as a table gives them. -/
def Eng.rangeQueues (t : Template) (q : KV QueueCfg) (e : Eng) : Eng :=
  { e with spool.cfg := overRange t.queueBase t.queueCount q e.spool.cfg }

/-- A polder's template while a Pattern is applied. -/
def Eng.appliedTemplate (e : Eng) (polder : Nat) : Option Template := if e.loader.st == .applied then e.template polder else none

/-! ### Slot commands (Table 13-5) -/

def pcCreate : Nat := 1
def pcDestroy : Nat := 2
def pcPark : Nat := 3
def pcUnpark : Nat := 4
def pcEvict : Nat := 5
def pcRestore : Nat := 6

/-- State that a transition leads to. -/
def PldState.target : PldState → PldState
  | .creating => .running
  | .parking => .parked
  | .unparking => .running
  | .evicting => .empty
  | .restoring => .parked
  | .destroying => .empty
  | s => s

/-- Whether a command applies in a stable state. -/
def pcApplies (op : Nat) (st : PldState) : Bool :=
  if op = pcCreate ∨ op = pcRestore then st == .empty
  else if op = pcPark then st == .running
  else if op = pcUnpark ∨ op = pcEvict then st == .parked
  else if op = pcDestroy then st == .running || st == .parked || st == .faulted
  else false

/-- State that a command brings about. -/
def pcEffect (op : Nat) : PldState :=
  if op = pcCreate ∨ op = pcUnpark then .running else if op = pcRestore ∨ op = pcPark then .parked else .empty

/-- RESULT of a slot. -/
def Eng.slotResult (slot st : Nat) (e : Eng) : Eng := e.setPslot slot (fun p => { p with result := st })

/-- TWK_PLD_SAVE_NEED (R301; log 24, DESIGN CHOICE). -/
def saveNeedOf (t : Template) : Nat := ceilDiv (65536 + 10518528 + t.cellQuota * 528 + t.queueCount * 32 + t.ringQuota * 16) 4096

/-- The save area's places for the working state, which PARK writes, and for the residency, which EVICT writes: the spec
gives their lengths and not what their bytes say (R303, R304; log 24, DESIGN CHOICE). -/
def Eng.saveWorking (save : Nat) (e : Eng) : Eng := e.scribble (save + 65536) 10518528
def Eng.saveResidency (save : Nat) (t : Template) (e : Eng) : Eng :=
  e.scribble (save + 65536 + 10518528) (t.cellQuota * 528 + t.queueCount * 32 + t.ringQuota * 16)

/-- A polder that is evicted. -/
def Eng.evicted? (e : Eng) (id : Nat) : Option Evicted := e.pld.evicted.find? (fun v => v.polder == id)

/-- Resident polders of the other slots. -/
def Eng.othersResident (e : Eng) (slot : Nat) (f : PldSlot → Bool) : Bool :=
  (List.range 16).any (fun s => s != slot && (e.pslot s).st != .empty && f (e.pslot s))

/-- A CREATE or RESTORE waits: its template is in use or in quarantine, or its ID is being destroyed (R300). -/
def Eng.idWaits (e : Eng) (slot id : Nat) : Bool :=
  e.othersResident slot (fun p => p.polder % 16 == id % 16) || e.pld.quarantine.any (fun q => q.1 == id % 16)

/-- A CREATE names an ID that is live elsewhere, or a RESTORE one that is resident or not live at all; one that is being
destroyed on another slot is waited for (R300). -/
def Eng.idLive (e : Eng) (slot op id : Nat) : Bool :=
  e.othersResident slot (fun p => p.polder == id && p.st != .destroying) ||
  (if op = pcCreate then (e.evicted? id).isSome
   else (e.evicted? id).isNone && !e.othersResident slot (fun p => p.polder == id && p.st == .destroying))

/-- CREATE (R301): the staged piece and the save address are checked, accounts and epochs start over. -/
def Eng.createSlot (m : Mem) (slot id : Nat) (t : Template) (e : Eng) : Eng :=
  let p := e.pslot slot
  let go (piece : Option PatternPiece) (e : Eng) : Eng :=
    if p.stageSave % 4096 ≠ 0 || p.stageSave = 0 || !e.marked p.stageSave 1 then e.slotResult slot stAlign
    else
      let inc := KV.get 0 e.pld.incarnations id + 1
      let e := { e with pld := { e.pld with incarnations := KV.put e.pld.incarnations id inc
                                            pieces := match piece with
                                              | some x => KV.put e.pld.pieces slot x
                                              | none => KV.del e.pld.pieces slot } }
      let e := e.setPslot slot (fun q =>
        { st := .creating, polder := id, result := q.result, save := q.stageSave, stageSave := q.stageSave, stagePiece := q.stagePiece
          stagePlen := q.stagePlen, stageClient := q.stageClient, client := q.stageClient % 2 ^ 16, saveNeed := saveNeedOf t, incarnation := inc })
      ((List.range t.slotCount).map (fun i => t.slotBase + i)).foldl (fun (e : Eng) s => e.setLslot s (fun l => { l with epoch := 1, srcEpochs := [] })) e
  if p.stagePlen = 0 then go none e
  else
    let img := e.rd m p.stagePiece p.stagePlen
    match e.verifyImage (.piece id) e.pat img [] with
    | .err code sec => (e.slotResult slot stBad).raise 0x0707 (code + sec * 2 ^ 8) (some id) 0
    | .ok q _ => go (some ⟨q.slots, q.panels, q.queues⟩) e

/-- DESTROY starts (R302): work ended, groups dissolved, queues flushed, buffers released, slots unbound
(log 43, DEDUCED). -/
def Eng.destroySlot (slot : Nat) (e : Eng) : Eng :=
  let id := (e.pslot slot).polder
  let e := e.setPslot slot (fun p => { p with st := .destroying, pend := none })
  let e := e.stopPolder id
  let e := { e with rings := e.rings.map (fun kg =>
      if kg.2.owner = id && kg.2.st != .detached then (kg.1, { kg.2 with st := .draining, pendAttach := none }) else kg) }
  let e := ((List.range 64).filter (fun g => (e.group g).st != .unformed && (e.group g).owner == id)).foldl
    (fun (e : Eng) g => (e.breakGroup g none noChip).dissolve g) e
  let e := ((e.closeWork id).flushPolder id).forceRelease id
  (e.polderSlots id).foldl (fun (e : Eng) s => e.setLslot s (fun l => { epoch := l.epoch })) e

/-- EVICT's quiescence (R304). -/
def Eng.quiet (e : Eng) (id : Nat) : Bool :=
  !e.roles.any (fun r => r.polder == id) && !e.works.any (fun w => w.polder == id && (w.area.live || w.bwdArea.live)) &&
  !(List.range 64).any (fun g => let x := e.group g
    x.owner == id && x.st != .unformed && (x.st == .formed || x.st == .broken || !x.ops.isEmpty || x.form.isSome)) &&
  !e.tt.any (fun kt => match e.cmd? kt.2.cmd with
    | some c => c.polder == id
    | none => kt.2.hdr.polder == id)

/-- Carries out a slot command in a stable state that it applies in (log 43, DEDUCED). -/
def Eng.runSlot (m : Mem) (slot op id : Nat) (e : Eng) : Eng :=
  let p := e.pslot slot
  let go := e.setPslot slot (fun p => { p with pend := none })
  if op = pcCreate ∨ op = pcRestore then
    match e.appliedTemplate id with
    | none => e.slotResult slot stBad
    | some t =>
      if e.idLive slot op id then e.slotResult slot stBad
      else if e.idWaits slot id then e.setPslot slot (fun p => { p with pend := some (op, id) })
      else if op = pcCreate then go.createSlot m slot id t
      else go.setPslot slot (fun p => { p with st := .restoring, polder := id, save := match e.evicted? id with
        | some v => v.save
        | none => 0 })
  else if op = pcPark then e.setPslot slot (fun p => { p with st := .parking })
  else if op = pcUnpark then e.setPslot slot (fun p => { p with st := .unparking })
  else if op = pcEvict then
    if e.quiet p.polder then e.setPslot slot (fun p => { p with st := .evicting })
    else (e.slotResult slot stBad).raise 0x0557 (arg5 0 p.polder slot) (some p.polder) 0
  else e.destroySlot slot

/-- A slot command as it is written (R300; log 43, DEDUCED). -/
def Eng.slotCommand (m : Mem) (slot op id : Nat) (e : Eng) : Eng :=
  let p := e.pslot slot
  if op = 0 || op > 6 then e
  else if p.st.target == p.st then
    if pcApplies op p.st then e.runSlot m slot op id
    else if p.pend.isSome && pcEffect op == p.st then e.setPslot slot (fun p => { p with pend := none })
    else e.slotResult slot stBad
  else if pcApplies op p.st.target then e.setPslot slot (fun p => { p with pend := some (op, id) })
  else if pcEffect op == p.st.target then e.setPslot slot (fun p => { p with pend := none })
  else e.slotResult slot stBad

/-- Latched CREATEs and RESTOREs are tried again once a template or an ID comes free (log 43, DEDUCED). -/
def Eng.retryLatched (m : Mem) (e : Eng) : Eng :=
  (List.range 16).foldl (fun (e : Eng) s => match (e.pslot s).st, (e.pslot s).pend with
    | .empty, some (op, id) => (e.setPslot s (fun p => { p with pend := none })).runSlot m s op id
    | _, _ => e) e

/-- A transition has ended: a latched teardown comes first, then the latched command (R300, corner cases). -/
def Eng.endTransition (m : Mem) (slot : Nat) (e : Eng) : Eng :=
  let p := e.pslot slot
  let e := match p.teardown with
    | some (cause, tag) => e.tearNow slot cause tag
    | none => match p.pend with
      | some (op, id) => (e.setPslot slot (fun p => { p with pend := none })).slotCommand m slot op id
      | none => e
  (e.retryLatched m).settle m

/-- CREATE ends (R301, R54). -/
def Eng.createEnd (m : Mem) (slot : Nat) (e : Eng) : Eng :=
  let p := e.pslot slot
  if p.st != .creating then e
  else
    let e := match e.pat, e.template p.polder with
      | some base, some t =>
        let x := match KV.find e.pld.pieces slot with
          | some q => base.withPiece q
          | none => base
        (e.rangeSlots t x).rangeQueues t x.queues
      | _, _ => e
    let e := (e.setPslot slot (fun p => { p with st := .running, result := 0 })).raise 0x0550 (arg5 0 p.polder slot) (some p.polder) 0
    let e := if (KV.find e.pld.pieces slot).isSome then e.raise 0x0706 e.loader.arg (some p.polder) 0 else e
    e.endTransition m slot

/-- A final accounting record (R302). -/
def finalRecord (a : Acc) (id client now unwritten : Nat) : List Byte :=
  leBytes 8 a.time ++ leBytes 8 a.tray ++ leBytes 8 a.rack ++ leBytes 8 a.hall ++ leBytes 8 a.hbm ++ leBytes 8 a.wait ++
  leBytes 8 (a.parks % 2 ^ 32 + a.evictions * 2 ^ 32) ++ leBytes 8 a.actual ++ leBytes 8 a.solo ++ leBytes 8 a.slowdown ++
  leBytes 1 id ++ zeros 1 ++ leBytes 2 client ++ zeros 4 ++ leBytes 8 now ++ leBytes 4 unwritten ++ zeros 28

/-- A slot that a polder has left; its staging registers stay (R298). -/
def PldSlot.emptied (p : PldSlot) : PldSlot :=
  { pend := p.pend, stageSave := p.stageSave, stagePiece := p.stagePiece, stagePlen := p.stagePlen, stageClient := p.stageClient }

/-- The full Pattern's entries stand again for a template (R54, R297). -/
def Eng.fullEntries (id : Nat) (queues : Bool) (e : Eng) : Eng :=
  match e.pat, e.template id with
  | some base, some t => let e := e.rangeSlots t base
    if queues then e.rangeQueues t base.queues else { e with spool.cfg := e.spool.cfg.filter (fun kc => !(t.queueBase ≤ kc.1 && kc.1 < t.queueBase + t.queueCount)) }
  | _, _ => e

/-- DESTROY ends (R302). -/
def Eng.destroyEnd (m : Mem) (slot : Nat) (e : Eng) : Eng :=
  let p := e.pslot slot
  if p.st != .destroying then e
  else
    let id := p.polder
    let lost := (e.cmds.filter (fun c => c.polder == id && !c.recorded)).length
    let mine := (e.rings.filter (fun kg => kg.2.owner == id && kg.2.st != .detached)).map (·.1)
    let e := mine.foldl (fun (e : Eng) r => ({ e with rings := KV.del e.rings r }).raise 0x0515 (arg5 r id slot) (some id) 0) e
    let e := { e with cmds := e.cmds.filter (fun c => c.polder != id), rings := e.rings.filter (fun kg => kg.2.owner != id)
                      pld := { e.pld with pieces := KV.del e.pld.pieces slot } }
    let e := e.store p.save (finalRecord p.acc id p.client e.now lost)
    let e := (e.fullEntries id true).setPslot slot (fun p => p.emptied)
    (e.raise 0x0551 (arg5 0 id slot) (some id) 0).endTransition m slot

/-- Destroys an evicted polder (R302); one whose RESTORE is under way is evicted no more (log 60, DESIGN CHOICE;
log 64, DESIGN CHOICE). -/
def Eng.destroyId (m : Mem) (id : Nat) (e : Eng) : Eng :=
  match (e.evicted? id).filter (fun _ => (e.slotOf id).isNone) with
  | none => e
  | some v =>
    let e := e.forceRelease id
    let lost := (v.cmds.filter (fun c => !c.recorded)).length
    let e := { e with pld := { e.pld with evicted := e.pld.evicted.filter (fun v => v.polder != id) }
                      rings := e.rings.filter (fun (kg : Nat × Ring) => !(v.rings.map (fun (r : Nat × Ring) => r.1)).contains kg.1) }
    let e := e.store v.save (finalRecord v.acc id v.client e.now lost)
    (e.raise 0x0551 (arg5 0 id 0) (some id) 0).retryLatched m

/-- PARK and UNPARK end (R303). -/
def Eng.parkEnd (m : Mem) (slot : Nat) (e : Eng) : Eng :=
  let p := e.pslot slot
  if p.st != .parking then e
  else (((e.saveWorking p.save).setPslot slot (fun p => { p with st := .parked, result := 0, acc := { p.acc with parks := (p.acc.parks + 1) % 2 ^ 32 } })).raise
    0x0552 (arg5 0 p.polder slot) (some p.polder) 0).endTransition m slot
def Eng.unparkEnd (m : Mem) (slot : Nat) (e : Eng) : Eng :=
  let p := e.pslot slot
  if p.st != .unparking then e
  else ((e.setPslot slot (fun p => { p with st := .running, result := 0 })).raise 0x0553 (arg5 0 p.polder slot) (some p.polder) 0).endTransition m slot

/-- EVICT ends (R304, R305): residency goes into the record of the evicted ID, the slot is free, the template in
quarantine (log 24, DESIGN CHOICE). -/
def Eng.evictEnd (m : Mem) (slot : Nat) (e : Eng) : Eng :=
  let p := e.pslot slot
  match (if p.st == .evicting then e.template p.polder else none) with
  | none => e
  | some t =>
    let id := p.polder
    let qs := inRange t.queueBase t.queueCount e.spool.queues
    let acc := { p.acc with evictions := (p.acc.evictions + 1) % 2 ^ 32 }
    let rings := e.rings.filter (fun kg => kg.2.owner == id && kg.2.st != .detached)
    let v : Evicted :=
      { polder := id, save := p.save, client := p.client, seed := p.seed, incarnation := p.incarnation, acc := acc, ringSel := p.ringSel
        wins := p.wins, results := p.results, fault := p.fault, faultTag := p.faultTag, consentErr := p.consentErr, saveNeed := p.saveNeed
        rings := rings, cmds := e.cmds.filter (fun c => c.polder == id)
        queues := (inRange t.queueBase t.queueCount e.spool.cfg).map (fun kc => (kc.1, (KV.get {} qs kc.1, kc.2)))
        slots := inRange t.slotBase t.slotCount e.lslots, piece := KV.find e.pld.pieces slot
        cfgs := inRange t.slotBase t.slotCount e.slotCfg, maps := inRange t.slotBase t.slotCount e.panelMaps }
    let e := qs.foldl (fun (e : Eng) kq => e.freeCells kq.1 kq.2.cells) (e.saveResidency p.save t)
    let e := { e with
      spool.queues := e.spool.queues.filter (fun kq => !(t.queueBase ≤ kq.1 && kq.1 < t.queueBase + t.queueCount))
      lslots := e.lslots.filter (fun kl => !(t.slotBase ≤ kl.1 && kl.1 < t.slotBase + t.slotCount))
      rings := e.rings.map (fun (kg : Nat × Ring) => if kg.2.owner = id && kg.2.st != RingState.detached then (kg.1, { held := true }) else kg)
      cmds := e.cmds.filter (fun c => c.polder != id)
      pld := { e.pld with evicted := e.pld.evicted ++ [v], pieces := KV.del e.pld.pieces slot
                          quarantine := e.pld.quarantine ++ [(id % 16, e.now + 60000)] } }
    let e := (e.fullEntries id false).setPslot slot (fun p => p.emptied)
    (e.raise 0x0554 (arg5 0 id slot) (some id) 0).endTransition m slot

/-- A template leaves quarantine (R305). -/
def Eng.quarantineOver (m : Mem) (t : Nat) (e : Eng) : Eng :=
  match e.pld.quarantine.find? (fun q => q.1 == t) with
  | none => e
  | some q =>
    let e := e.reach q.2
    let e := { e with pld := { e.pld with quarantine := e.pld.quarantine.filter (fun q => q.1 != t) } }
    (e.fullEntries t true).retryLatched m

/-- Cells for a queue that comes back. -/
def Eng.regainCells (q : Nat) (c : QueueCfg) (n : Nat) (e : Eng) : Eng := (List.range n).foldl (fun (e : Eng) _ => (e.takeCell q c).getD e) e

/-- RESTORE ends (R305; log 24, DESIGN CHOICE). -/
def Eng.restoreEnd (m : Mem) (slot : Nat) (e : Eng) : Eng :=
  let p := e.pslot slot
  match (if p.st == .restoring then e.evicted? p.polder else none), e.template p.polder with
  | some v, some t =>
    let id := p.polder
    let e := { e with
      pld := { e.pld with evicted := e.pld.evicted.filter (fun v => v.polder != id), pieces := match v.piece with
        | some x => KV.put e.pld.pieces slot x
        | none => e.pld.pieces }
      rings := v.rings.foldl (fun (m : KV Ring) (kg : Nat × Ring) => KV.put m kg.1 kg.2) e.rings
      cmds := sortBy (fun (a b : Cmd) => a.id ≤ b.id) (e.cmds ++ v.cmds.map (fun (c : Cmd) => { c with rslot := slot }))
      lslots := overRange t.slotBase t.slotCount v.slots e.lslots
      slotCfg := overRange t.slotBase t.slotCount v.cfgs e.slotCfg
      panelMaps := overRange t.slotBase t.slotCount v.maps e.panelMaps }
    let e := e.rangeQueues t (v.queues.map (fun (kq : Nat × (SQueue × QueueCfg)) => (kq.1, kq.2.2)))
    let e := v.queues.foldl (fun (e : Eng) (kq : Nat × (SQueue × QueueCfg)) =>
      let e := e.setQueue kq.1 (fun _ => { kq.2.1 with cells := [] })
      e.regainCells kq.1 kq.2.2 kq.2.1.cells.length) e
    let e := e.setPslot slot (fun p =>
      { p with st := .parked, result := 0, save := v.save, client := v.client, saveNeed := v.saveNeed, consentErr := v.consentErr, fault := v.fault
               faultTag := v.faultTag, acc := v.acc, seed := v.seed, incarnation := v.incarnation, ringSel := v.ringSel, wins := v.wins
               results := v.results })
    let e := (v.slots.filter (fun kl => kl.2.cached)).foldl (fun (e : Eng) kl => e.fillCache m kl.1) e
    (e.raise 0x0555 (arg5 0 id slot) (some id) 0).endTransition m slot
  | _, _ => e

/-! ### Tide (R312, R313) -/

/-- PERIOD in µs where windows are enforced, else 0. -/
def Eng.tidePeriod (e : Eng) : Nat := match e.pat with
  | some p => if bit (e.reg Reg.schCtrl) 0 then p.tidePeriod else 0
  | none => 0

/-- τ in µs. -/
def Eng.tau (e : Eng) : Nat := match e.pat with
  | some p => if p.tidePeriod = 0 then 0 else e.now / 1000 % p.tidePeriod
  | none => 0

/-- Valid Tide entries. -/
def Eng.tideEntries (e : Eng) : List TideEntry := match e.pat with
  | some p => p.tide.filter (·.valid)
  | none => []

/-- The active entry. -/
def Eng.tideActive (e : Eng) : Option TideEntry :=
  if e.tidePeriod = 0 then none else e.tideEntries.find? (fun t => t.start ≤ e.tau && e.tau < t.start + t.len)

/-- When an offset of the period, in µs, comes next. -/
def Eng.nextAt (e : Eng) (us : Nat) : Nat :=
  let p := e.tidePeriod * 1000
  let t := e.now / p * p + us * 1000
  if t ≥ e.now then t else t + p

/-- When the next window of a list opens. -/
def Eng.nextWindow (e : Eng) (l : List TideEntry) : Option Nat :=
  if e.tidePeriod = 0 then none
  else l.foldl (fun a t => some (match a with
    | none => e.nextAt t.start
    | some x => min x (e.nextAt t.start))) none

/-- A window opens. -/
def Eng.windowStart (m : Mem) (e : Eng) : Eng :=
  if e.pld.window.isSome || e.tidePeriod = 0 then e
  else
    let e := if e.tideActive.isSome then e else match e.nextWindow e.tideEntries with
      | some t => e.reach t
      | none => e
    match e.tideActive with
    | some t => { e with pld.window := some t.polder }.settle m
    | none => e

/-- A window closes; a micro-operation of its polder may run on for `ns`. -/
def Eng.windowEnd (m : Mem) (ns : Nat) (e : Eng) : Eng :=
  match e.pld.window with
  | none => e
  | some x =>
    let e := match e.tideActive with
      | some t => e.reach (e.nextAt (t.start + t.len))
      | none => e
    let e := { e with pld.window := none }
    let e := if ns = 0 then e else (e.gauge gsTideOverrun 0 (some x) ns).raise 0x055A (arg5 0 x ((e.slotOf x).getD 0)) (some x) 0
    e.settle m

/-! ### Step end (R315, R317) -/


/-- PROP_FREEBOARD (R317). -/
def Eng.propFreeboard (e : Eng) (slot : Nat) (h : HostSum) : Nat :=
  let c := e.cfgOf slot
  let d := h.experts.foldl (fun a je => max a je.2.demand) 0
  if h.experts.isEmpty || h.tlayer = 0 || c.k = 0 then 0
  else min 256 (max 64 (ceilDiv (64 * e.activeExperts slot * d) (c.k * h.tlayer)))

/-- The step summary (Table 13-9; log 27, DEDUCED). -/
def Eng.stepSummary (e : Eng) (slot : Nat) (i : StepInfo) (deadline : Nat) : List Byte :=
  let role := ((e.role slot i.step).map (·.summary)).or i.host
  let sel := match e.works.find? (fun w => w.slot == slot && w.step == i.step) with
    | some w => w.sel
    | none => []
  let rows (b : Nat) : Nat := (sel.filter (fun p => bit p.2.rflags b)).length
  let h : HostSum := role.getD {}
  leBytes 4 i.step ++ leBytes 1 slot ++ leBytes 1 (i.detm.toNat + (e.reservedClass i.polder).toNat * 2 + role.isSome.toNat * 4) ++
  leBytes 2 (e.propFreeboard slot h) ++ leBytes 4 i.tokens ++ leBytes 4 i.placed ++ leBytes 4 i.spilled ++ leBytes 4 i.dropped ++
  leBytes 4 (rows 1) ++ leBytes 4 (rows 0) ++ leBytes 4 h.tlayer ++ leBytes 4 h.cap ++ leBytes 4 h.refused ++
  leBytes 4 h.voided ++ leBytes 8 deadline ++ zeros 8 ++
  (List.range 4).flatMap (fun j => match KV.find h.experts j with
    | none => leBytes 2 0xFFFF ++ zeros 14
    | some x => leBytes 2 x.expert ++ zeros 2 ++ leBytes 4 x.granted ++ leBytes 4 x.demand ++ leBytes 4 x.spilledIn)

/-- DEADLINE of a step that only a consent ends (R325). -/
def noDeadline : Nat := 2 ^ 64 - 1

/-- STEP_END's work: the summary, the deadline, the end (R315, R325). It waits for this host's fitting to close, since the
summary tells its counts (log 27, DEDUCED). -/
def Eng.endStep (c : Cmd) (e : Eng) : Eng :=
  let slot := c.d.slot
  let e := if (e.stepInfo slot c.d.step).isSome then e
    else e.setLslot slot (fun l => { l with steps := l.steps ++ [{ step := c.d.step, inst := c.id, polder := c.polder, detm := c.detm }] })
  match e.stepInfo slot c.d.step with
  | none => e
  | some i =>
    if i.ended then e.complete c.id stBad
    else if (match e.role slot c.d.step with
        | some r => !r.closed && !r.experts.isEmpty
        | none => false) then e.setCmd c.id (fun c => { c with phase := .started })
    else
      let deadline := if e.reservedClass c.polder then 0 else if c.detm then noDeadline else e.now + e.topo.consentTo * 1000
      let e := if c.d.a = 0 then e else e.storeFor c.polder c.d.a (e.stepSummary slot i deadline)
      (e.setStep slot c.d.step (fun i => { i with ended := true, deadline := deadline, editAddr := c.d.b })).complete c.id stOk

/-! ### Consent (R316) -/

/-- The step of a slot whose STEP_END awaits consent. -/
def StepInfo.awaiting (i : StepInfo) : Bool := i.ended && !i.consented && !i.timedOut && !i.boundary && i.deadline != 0

/-- A consent that is ignored. -/
def Eng.consentIgnored (rslot : Nat) (e : Eng) : Eng :=
  let p := e.pslot rslot
  (e.setPslot rslot (fun p => { p with consentErr := setField p.consentErr 16 16 (satAdd 16 (field p.consentErr 16 16) 1) })).raise 0x0559
    (arg5 0 p.polder rslot) (some p.polder) 0

/-- A write of TWK_PLD_CONSENT. -/
def Eng.takeConsent (rslot : Nat) (wide : Bool) (v : Nat) (e : Eng) : Eng :=
  let p := e.pslot rslot
  if p.st == .empty then e
  else if !wide then e.consentIgnored rslot
  else
    let slot := field v 32 8
    match (e.lslot slot).steps.find? (fun i => i.awaiting && i.step == field v 0 32 && i.polder == p.polder) with
    | none => e.consentIgnored rslot
    | some i =>
      if e.now > i.deadline || !(e.polderSlots p.polder).contains slot then e.consentIgnored rslot
      else e.setStep slot i.step (fun i => { i with consented := true, edit := bit v 40 })

/-- DEADLINE passes without consent. -/
def Eng.consentLate (slot : Nat) (e : Eng) : Eng :=
  match (e.lslot slot).steps.find? (fun i => i.awaiting && i.deadline != noDeadline) with
  | none => e
  | some i =>
    let e := (e.reach i.deadline).setStep slot i.step (fun i => { i with timedOut := true })
    match e.slotOf i.polder with
    | none => e
    | some s => (e.setPslot s (fun p => { p with consentErr := setField p.consentErr 0 16 (satAdd 16 (field p.consentErr 0 16) 1) })).raise 0x0558
      (arg5 0 i.polder s) (some i.polder) 0

/-! ### Step boundary (R56, R153, R154, R269, R270) -/

/-- One edit record (Table 13-10); none rejects the edit. -/
def editOne (c : SlotCfg) (m : PanelMap) (r : List Byte) : Option (SlotCfg × PanelMap) :=
  match rdLE r 0 1 with
  | 1 => some ({ c with freeboard := rdLE r 1 2 }, m)
  | 2 => some ({ c with biasEta := BitVec.ofNat 32 (rdLE r 1 4) }, m)
  | 3 => some ({ c with biasClamp := BitVec.ofNat 32 (rdLE r 1 4) }, m)
  | 4 => some ({ c with ecCap := rdLE r 1 2 }, m)
  | 5 => if rdLE r 1 1 < c.panels then some (c, KV.put m (rdLE r 1 1) ⟨rdLE r 2 2, rdLE r 4 2, rdLE r 6 8⟩) else none
  | _ => none

/-- All records of a list, in order. -/
def editAll (c : SlotCfg) (m : PanelMap) : List (List Byte) → Option (SlotCfg × PanelMap)
  | [] => some (c, m)
  | r :: t => (editOne c m r).bind (fun cm => editAll cm.1 cm.2 t)

/-- Applies a step's edit list, or rejects it whole; gives the address of its count vector where it was applied
(log 64, DESIGN CHOICE). -/
def Eng.applyEdit (m : Mem) (slot : Nat) (i : StepInfo) (e : Eng) : Option Nat × Eng :=
  let h := e.rd m i.editAddr 64
  let n := rdLE h 6 2
  let counts := rdLE h 8 8
  let c := e.cfgOf slot
  let reject (e : Eng) : Option Nat × Eng := (none, e.raise 0x0709 e.loader.arg (some i.polder) 0)
  let recs := Sys2Proof.groups 16 n (e.rd m (i.editAddr + 64) (16 * n))
  let e := e.accHbm i.polder (64 + 16 * n)
  if rdLE h 0 4 ≠ i.step || rdLE h 4 1 ≠ slot || n > 1024 || counts % 64 ≠ 0 then reject e
  else
    match editAll c (e.panelMap slot) recs with
    | none => reject e
    | some (c', p') =>
      let fmt := match e.pat with
        | some p => p.major
        | none => 4
      if slotCfgOk fmt c' && panelMapOk e.topo p' then
        (some counts, { e with slotCfg := KV.put e.slotCfg slot c', panelMaps := KV.put e.panelMaps slot p' }.raise 0x0708 e.loader.arg (some i.polder) 0)
      else reject e

/-- The bias after one boundary (R153; log 63, DESIGN CHOICE). -/
def biasStep (c : SlotCfg) (target : F32) (count : Nat) (b : F32) : F32 :=
  let n : FVal := .fin false count 0
  let x := if n.lt (fval target) then fadd b c.biasEta else if (fval target).lt n then fsub b c.biasEta else fadd b (fmul fZero c.biasEta)
  let lo := fneg c.biasClamp
  let y := if flt x lo then lo else x
  if flt c.biasClamp y then c.biasClamp else y

/-- Updates a slot's bias vector from the job-wide counts. -/
def Eng.updateBias (m : Mem) (slot counts : Nat) (e : Eng) : Eng :=
  let c := e.cfgOf slot
  let map := e.panelMap slot
  let active (x : Nat) : Bool := match KV.find map (x / 64) with
    | some p => p.valid && bit p.active (x % 64)
    | none => false
  let all := (List.range (64 * c.panels)).filter active
  let v := e.rd m counts (256 * c.panels)
  let cnt (x : Nat) : Nat := rdLE v (4 * x) 4
  let total := (all.map cnt).sum
  let target := rn ((FVal.fin false total 0).div (.fin false (e.activeExperts slot) 0))
  let a := (e.lslot slot).bias
  let old := e.rd m a (256 * c.panels)
  let new := (List.range (64 * c.panels)).flatMap (fun x =>
    let b : F32 := BitVec.ofNat 32 (rdLE old (4 * x) 4)
    leBytes 4 (if active x then biasStep c target (cnt x) b else b).toNat)
  (e.store a new).accSlot slot (3 * 256 * c.panels)

/-- RETIREs of a slot's boundary (R270, R88; log 35, DEDUCED). -/
def Eng.doRetires (slot : Nat) (e : Eng) : Eng :=
  (e.cmds.filter (fun c => c.d.opcode == opRetire && c.d.slot == slot && c.phase == .running && !c.done)).foldl (fun (e : Eng) c =>
    match e.bob.seqs.find? (fun s => s.polder == c.polder && s.seq == c.d.seq && (s.admitted || s.deferred)) with
    | none => e.complete c.id stBad
    | some s =>
      let e := { e with bob.seqs := e.bob.seqs.filter (fun x => !(x.polder == c.polder && x.seq == c.d.seq)) }
      let e := if s.admitted then e.trimResv c.polder else e.complete s.cmd stCancelled
      e.complete c.id stOk) e

/-- An ADMIT of another slot, fetched earlier by the polder, is deferred: none passes it (R269; log 35, DEDUCED). -/
def Eng.behindDeferred (e : Eng) (s : BSeq) : Bool :=
  e.bob.seqs.any (fun x => x.polder == s.polder && x.slot != s.slot && x.deferred && !x.admitted && x.cmd < s.cmd)

/-- ADMITs of a slot's boundary, in admission order, up to the first that does not fit (R269, R88; log 35, DEDUCED). -/
def Eng.doAdmits : List BSeq → Bool → Eng → Eng
  | [], _, e => e
  | s :: t, stopped, e =>
    let stopped := stopped || e.behindDeferred s
    if !stopped && e.admitFits s then Eng.doAdmits t false ((e.admitNow s).complete s.cmd stOk)
    else
      let e := if s.deferred then e
        else
          let e := (e.recordDeferred s.cmd)
          let e := { e with bob.seqs := updFirst (fun x => x.polder == s.polder && x.seq == s.seq) (fun x => { x with deferred := true }) e.bob.seqs }
          if stopped then e else e.raise 0x0493 (arg4 s.slot 0 1) (some s.polder) 0
      Eng.doAdmits t true e

/-- A slot's step boundary: that of its first step that has ended and whose consent is settled (log 43, DEDUCED). -/
def Eng.stepBoundary (m : Mem) (slot : Nat) (e : Eng) : Eng :=
  match (e.lslot slot).steps.find? (fun i => i.ended && !i.boundary && !i.awaiting) with
  | none => e
  | some i =>
    let c := e.cfgOf slot
    let consent := e.consentClass i.polder
    let (counts, e) := if consent && i.consented && i.edit then e.applyEdit m slot i else (none, e)
    let e := if !consent || !c.biased || (e.lslot slot).bias = 0 then e
      else match counts.filter (· != 0) with
        | some a => (e.updateBias m slot a).raise 0x0541 (arg5 0 i.polder ((e.slotOf i.polder).getD 0)) (some i.polder) 0
        | none => (e.bump32 Reg.selBiasSkipped 1).raise 0x0542 (arg5 0 i.polder ((e.slotOf i.polder).getD 0)) (some i.polder) 0
    let e := e.doRetires slot
    let mine := sortBy (fun (a b : BSeq) => a.cmd ≤ b.cmd) (e.bob.seqs.filter (fun s => s.slot == slot && s.polder == i.polder && !s.admitted))
    let e := Eng.doAdmits mine false e
    let e := { e with flt.lostClear := e.flt.lostClear.filter (fun k => k / 2 ^ 17 != slot) }
    let e := e.setStep slot i.step (fun i => { i with boundary := true })
    e.settle m

/-! ### Slowdown (R319) -/

/-- SLOWDOWN from a millisecond's changes of ACC_ACTUAL and ACC_SOLO (R319); with no estimate to divide by, it stays where
nothing was counted, and is open where something was (log 22, DEDUCED). -/
def slowdownOf (old da ds : Nat) : Nat :=
  if ds ≠ 0 then min (256 * da / ds) 0xFFFF else if da = 0 then old else (Config.slowdownOfNoSolo da).toNat

/-- The millisecond's SLOWDOWN of one polder. -/
def Acc.slowStep (a : Acc) : Acc :=
  let da := (a.actual + 2 ^ 64 - a.lastActual) % 2 ^ 64
  let ds := (a.solo + 2 ^ 64 - a.lastSolo) % 2 ^ 64
  { a with lastActual := a.actual, lastSolo := a.solo, slowdown := slowdownOf a.slowdown da ds }

/-- Every resident polder's SLOWDOWN at the next millisecond of hall time. -/
def Eng.slowdowns (e : Eng) : Eng :=
  let e := e.reach (ceilDiv e.now 1000000 * 1000000)
  { e with pld.slots := e.pld.slots.map (fun p => if p.st == .empty then p else { p with acc := p.acc.slowStep }) }

end Sys2Proof.Machine
end

