-- ==== Sys2Proof/Machine/TimeBase.lean ====
section
/-! DEFINITION. The hall time base (R332, R333), the mode bit and seeds (R322, R329, R340), tacks (R390 to R392), and gauge
bindings, clears and samples (R384 to R387). -/

namespace Sys2Proof.Machine

/-! ### SYNC (R332, R333) -/

/-- A chip that can be a time parent: it can lead, and it has not left SYNC unanswered (log 26, DEDUCED). -/
def Eng.keepsTime (e : Eng) (c : Nat) : Bool := c == e.chip || (e.leads c && !e.time.skipped.contains c)

/-- The leader of a tray, the time root in its own (R47, R332). -/
def Eng.timeTrayHead (e : Eng) (rack tray : Nat) : Option Nat :=
  let r := Config.timeRootChip.toNat
  if chipRack r = rack && chipTray r = tray && e.keepsTime r then some r
  else ((List.range 16).map (fun p => rack * 128 + tray * 16 + p)).find? e.keepsTime

/-- The leader of a rack, the time root in its own. -/
def Eng.timeRackHead (e : Eng) (rack : Nat) : Option Nat :=
  let r := Config.timeRootChip.toNat
  if chipRack r = rack && e.keepsTime r then some r
  else ((bitsOf 8 (KV.get 0 e.topo.trayMask rack)).head?).bind (e.timeTrayHead rack)

/-- The time parent; none at the time root (log 26, DEDUCED). -/
def Eng.timeParent (e : Eng) : Option Nat :=
  if e.time.root then none
  else
    let tray := e.timeTrayHead (chipRack e.chip) (chipTray e.chip)
    let rack := e.timeRackHead (chipRack e.chip)
    ([tray, rack, some Config.timeRootChip.toNat].filterMap id).find? (· != e.chip)

/-- The 1 ms timer: an exchange with the parent starts (log 28, DEDUCED). -/
def Eng.syncStart (e : Eng) : Eng :=
  if !e.boot.powered then e
  else match e.timeParent with
    | none => e
    | some p => { e with time.asked := some (p, e.now * 1000) }.transmit (e.towards p) 7 64 (.sync { peer := p, reply := false, t1 := e.now * 1000 })

/-- TIME_LOCKED is cleared. -/
def Eng.timeUnlocked (e : Eng) : Eng := { e with time.locked := false }.raise 0x0190 (arg1 none 0) none 0

/-- An offset to the parent, in ps: before ready it sets the count once, afterwards it only slews the rate (log 28, DEDUCED;
log 64, DESIGN CHOICE). -/
def Eng.takeOffset (p : Nat) (d : Int) (e : Eng) : Eng :=
  let e := e.setReg Reg.detTimeOfs (ofSigned 32 d)
  let l := (d :: e.time.offsets).take 3
  let ns := if e.boot.ready || e.time.set then e.time.ns else (e.time.ns + d / 1000).toNat
  let e := { e with time := { e.time with ns := ns, offsets := l, lastReply := ns, asked := none, set := true } }
  let lock := l.length = 3 && l.all (fun (o : Int) => o.natAbs ≤ 250)
  if lock && !e.time.locked then { e with time.locked := true }.raise 0x0191 (arg1 none p) none 0
  else if !lock && e.time.locked then e.timeUnlocked
  else e

/-- A SYNC message, timestamped `at_` ps where it crossed the port edge: answered, or used (log 28, DEDUCED). -/
def Eng.syncTake (m : SyncMsg) (at_ : Nat) (e : Eng) : Eng :=
  if !e.boot.powered then e
  else if !m.reply then
    e.transmit (e.towards m.peer) 7 64 (.sync { peer := m.peer, reply := true, t1 := m.t1, t2 := at_ - m.corr, t3 := e.now * 1000 })
  else match e.time.asked with
    | none => e
    | some (p, t1) =>
      if m.peer = p && m.t1 = t1 then
        e.takeOffset p (Int.tdiv (((m.t2 : Int) - (t1 : Int)) - ((at_ : Int) - (m.corr : Int) - (m.t3 : Int))) 2)
      else e

/-- 100 ms without a reply: unlocked, and the next eligible parent is taken. -/
def Eng.syncLost (e : Eng) : Eng :=
  if !e.boot.powered then e
  else match e.timeParent with
    | none => e
    | some p =>
      let e := e.reach (e.time.lastReply + 100000000)
      let e := { e with time := { e.time with offsets := [], asked := none, lastReply := e.now, skipped := e.time.skipped ++ [p] } }
      (if e.timeParent.isNone || e.timeParent == some p then { e with time.skipped := [] } else e).timeUnlocked

/-- This chip becomes the hall's time root. -/
def Eng.becomeRoot (e : Eng) : Eng := { e with time := { e.time with root := true, locked := false, offsets := [], asked := none } }

/-! ### The mode and the seeds (R322, R329, R340) -/

/-- Some slot of a range has a step between its ROUTE and its STEP_END (log 29, DEDUCED). -/
def Eng.stepOpen (e : Eng) (p : Nat → Bool) : Bool :=
  e.lslots.any (fun kl => p kl.1 && kl.2.steps.any (fun i => !i.ended))

/-- A write of TWK_ENG_MODE: a change of DETM is told, and voids the promise of an open step (log 29, DEDUCED). -/
def Eng.writeMode (v : Nat) (e : Eng) : Eng :=
  if bit v 0 = e.detm then e
  else
    let e := (e.setReg Reg.engMode (v % 2)).raise 0x05A0 (arg5 0 0 0) none 0
    if e.stepOpen (fun _ => true) then e.voidPromise else e

/-- The seed of the slot that TWK_DET_SEED_SEL names. -/
def Eng.seedSlot (e : Eng) : Nat := field (e.reg Reg.detSeedSel) 0 4

/-- Bytes `byteOff` on of a 64-bit register after a write of one half, or of the whole. -/
def mergeHalf (old byteOff : Nat) (wide : Bool) (v : Nat) : Nat :=
  if wide then v % 2 ^ 64 else if byteOff = 0 then setField old 0 32 v else setField old 32 32 v

/-- A write of TWK_DET_SEED: of the polder in the selected slot (log 29, DEDUCED). -/
def Eng.writeSeed (byteOff : Nat) (wide : Bool) (v : Nat) (e : Eng) : Eng :=
  let s := e.seedSlot
  let p := e.pslot s
  let seed : W64 := BitVec.ofNat 64 (mergeHalf p.seed.toNat byteOff wide v)
  if p.st == .empty || seed = p.seed then e
  else
    let e := e.setPslot s (fun p => { p with seed := seed })
    if e.stepOpen ((e.polderSlots p.polder).contains ·) then e.voidPromise else e

/-! ### Tacks (R390 to R392) -/

/-- TACK's work: the list, the notice to the job's root. -/
def Eng.startTack (c : Cmd) (e : Eng) : Eng :=
  let t := c.d.a
  let scope := c.d.scope = 1
  match e.addTack t scope [c.id] with
  | none => e.complete c.id stBad
  | some e =>
    let root := (e.barrierMembers 255).headD e.chip
    if !scope then e
    else if root = e.chip then e.passTack t c.polder
    else e.collSend noCmd (e.collHdr 255 0 0 12 root c.polder) (fitTo 64 (leBytes 8 t))

/-- The bank a tack goes into (R392). -/
def Eng.tackBank (e : Eng) : Nat :=
  let v := field (e.reg Reg.gauView) 0 2
  if v = 1 then 1 else if v = 2 then 0 else 1 - e.lastBank

/-- The first pending tack latches: its bank, its event where it is late, its commands (log 11, DEDUCED). -/
def Eng.latch (e : Eng) : Eng :=
  match e.tacks with
  | [] => e
  | k :: rest =>
    let e := e.reach k.t
    let n := satAdd 16 e.latches 1
    let b : Shadow :=
      { t := k.t, scope := k.scope, late := k.due, latches := n, ns := e.now, regs := e.regs, gauges := e.gauges, experts := e.experts, srcs := e.srcs
        spool := e.spool, bob := e.bob, slots := e.pld.slots, tt := e.tt, loader := e.loader }
    let e := { e with tacks := rest, latches := n, lastBank := e.tackBank
                      bank0 := if e.tackBank = 0 then some b else e.bank0, bank1 := if e.tackBank = 1 then some b else e.bank1 }
    let e := if k.due then e.raise 0x05B0 (arg5 0 0 0) none 0 else e
    let at_ := if k.due then e.now else k.t
    k.cmds.foldl (fun (e : Eng) id => (e.setCmd id (fun c => { c with res := { c.res with time := some at_ } })).complete id stOk) e

/-! ### Gauges (R384 to R387) -/

/-- Sources that Table 17-1 lists. -/
def gaugeSources : List Nat := [1, 2, 3, 4, 5, 6, 7, 0x10, 0x11, 0x12, 0x13, 0x14, 0x15, 0x20, 0x21, 0x22, 0x23, 0x24]

/-- Whether an instance lies in a source's range and is there on this variant. -/
def Eng.gaugeInst (e : Eng) (src i : Nat) : Bool :=
  if src = gsCmdLatency ∨ src = gsCmdWait then v3Opcodes.contains i
  else if src = gsChunkRtt ∨ src = gsPortQueued ∨ src = gsSwitchRefused then i < e.portCount
  else if src = gsFittingRound then 1 ≤ i && i ≤ 3
  else if src = gsPowerExit then 1 ≤ i && i ≤ 4
  else if src = gsQueueHeld ∨ src = gsSpoolBpWait then i < 8192
  else if src = gsBobbinFree then i < 8
  else if src = gsHostReserveWait then i < 256
  else false

/-- The checks of a binding (R385; log 48, DEDUCED). -/
def Eng.bindOk (e : Eng) (v : Nat) : Bool :=
  let src := field v 0 16
  src = 0 ||
  (gaugeSources.contains src && (!bit v 39 || e.gaugeInst src (field v 40 13)) &&
   !(bit v 55 && [gsPoolFree, gsTtInflight, gsBobbinFree, gsPortQueued, gsPowerExit].contains src) && (src ≠ gsSlowdown || bit v 55))

/-- Fields of TWK_GAU_BIND (Table 17-5). -/
def bindMask : Nat := ofBits ((List.range 17) ++ (List.range 12).map (· + 24) ++ (List.range 14).map (· + 39) ++ (List.range 9).map (· + 55))

/-- Fields of a binding that a change of clears the values: all but ENABLE and PERIOD. -/
def bindKey (v : Nat) : Nat := setField (setField v 16 1 0) 24 8 0

/-- The gauge that TWK_GAU_SEL names. -/
def Eng.gaugeSel (e : Eng) : Nat := field (e.reg Reg.gauSel) 0 7
def Eng.gaugeAt (e : Eng) (g : Nat) : Gauge := KV.get {} e.gauges g

/-- A write of TWK_GAU_BIND. -/
def Eng.bindGauge (byteOff : Nat) (wide : Bool) (v : Nat) (e : Eng) : Eng :=
  let g := e.gaugeAt e.gaugeSel
  let b := Nat.land (mergeHalf g.bind byteOff wide v) bindMask
  if e.bindOk b then
    let g' := if bindKey b = bindKey g.bind then { g with bind := b } else { g with bind := b }.clear e.now
    { e with gauges := KV.put e.gauges e.gaugeSel g' }
  else (e.setReg Reg.gauStatus (setBit (e.reg Reg.gauStatus) 8 true)).raise 0x05B2 (arg5 0 0 0) none 0

/-- CLEAR of the selected gauge, and of all. -/
def Eng.clearGauge (g : Nat) (e : Eng) : Eng := { e with gauges := KV.put e.gauges g ((e.gaugeAt g).clear e.now) }
def Eng.clearGauges (e : Eng) : Eng := (List.range 128).foldl (fun (e : Eng) g => e.clearGauge g) e

/-- Cells held by the queues of a list. -/
def Eng.heldCells (e : Eng) (f : Nat → Bool) : Nat := ((e.spool.queues.filter (fun kq => f kq.1)).map (fun kq => kq.2.cells.length)).sum

/-- A level source's value for a binding, the sum over its instances where none is selected; none while its unit is off
(R384, R395). -/
def Eng.level (e : Eng) (bind : Nat) : Option Nat :=
  let src := field bind 0 16
  let inst := field bind 40 13
  let only := bit bind 39
  let deep := e.pwr.cur = 4
  if src = gsQueueHeld then
    if deep then none
    else some (e.heldCells (fun q => (!only || q == inst) && (!bit bind 55 || (match e.queueTemplate q with
      | some (t, _) => t == field bind 56 8 % 16 && (e.slotOf (field bind 56 8)).isSome
      | none => false))))
  else if src = gsPoolFree then if deep then none else some e.poolFree
  else if src = gsTtInflight then if deep then none else some e.tt.length
  else if src = gsBobbinFree then
    if deep then none else some (((List.range 8).filter (fun p => !only || p == inst)).map e.poolAvail).sum
  else if src = gsPortQueued then
    some (((List.range e.portCount).filter (fun p => !only || p == inst)).map (fun p => (e.port p).queued)).sum
  else if src = gsSlowdown then (e.slotOf (field bind 56 8)).map (fun s => (e.pslot s).acc.slowdown)
  else none

/-- Hall time reaches `us` microseconds: every level gauge whose period divides it samples (log 11, DEDUCED). -/
def Eng.sampleLevels (us : Nat) (e : Eng) : Eng :=
  if us * 1000 < e.now then e
  else
    let e := e.reach (us * 1000)
    { e with gauges := e.gauges.map (fun kg =>
      if kg.2.samples us then (match e.level kg.2.bind with
        | some x => (kg.1, kg.2.take x)
        | none => kg)
      else kg) }

end Sys2Proof.Machine
end

