-- ==== Sys2Proof/Machine/Control.lean ====
section
/-! DEFINITION. The start of the commands that open groups, operations and barriers (R275 to R294, R334). -/

namespace Sys2Proof.Machine

/-! ### Commands (R275, R277, R283, R294, R334) -/

/-- Why a BCAST, REDUCE or BARRIER cannot use its group (R275, R277). -/
def Eng.groupRefuses (e : Eng) (c : Cmd) : Option Nat :=
  let g := e.group c.d.group
  if g.st != .unformed && g.owner ≠ c.polder then some stPriv
  else if g.st != .formed || g.epoch ≠ c.d.groupEpoch then some stEpochStale
  else none

/-- A factor pair whose LEN its header does not give (R287). -/
def Eng.factorLenBad (m : Mem) (e : Eng) (buf len : Nat) : Bool :=
  let h := e.factorHdr m buf
  let r := factorRegions h.1 h.2.1 h.2.2.1 h.2.2.2.1
  len ≠ 64 + r.1 + r.2

/-- BCAST and REDUCE take their SEQ and begin the count sweep (R277, R283; log 42, DEDUCED); an INDIRECT length that is no
multiple of 64 is a misaligned address read from a record (R180; log 57, DESIGN CHOICE). -/
def Eng.startOp (m : Mem) (reduce : Bool) (c : Cmd) (e : Eng) : Eng :=
  let d := c.d
  let g := e.group d.group
  let len := c.count.getD d.len
  let dtype := if reduce then d.dtype else 0
  match e.groupRefuses c with
  | some st => e.complete c.id st
  | none =>
    if d.root ≥ g.members.length then e.complete c.id stBad
    else if len % 64 ≠ 0 then e.alignError (d.a + len) c
    else if dtype = 2 && !g.factorOk then e.complete c.id stVersion
    else
      let o : CollOp := { seq := g.seq, cmd := c.id, reduce := reduce, dtype := dtype, root := d.root, buf := d.a, out := d.out, len := len
                          detm := e.detm, polder := c.polder }
      let e := e.setGroup d.group (fun x => { x with seq := (x.seq + 1) % 2 ^ 32 })
      if dtype = 2 && e.factorLenBad m d.a len then e.complete c.id stBad
      else
        let e := e.setCmd c.id (fun c => { c with detm := e.detm })
        let e := e.setGroup d.group (fun x => { x with ops := x.ops ++ [o] })
        ((e.opStep m d.group o.seq).replayEarly m).settle m

/-- The chip IDs of a list in HBM; none where an entry is no chip ID (R275). -/
def Eng.chipList (m : Mem) (e : Eng) (a n : Nat) : Option (List Nat) :=
  let l := (Sys2Proof.groups 4 n (e.rd m a (4 * n))).map leNat
  if l.all (· < 2 ^ 17) then some l else none

/-- GROUP_FORM: the list is checked and the handshake starts (R275, R276). -/
def Eng.startForm (m : Mem) (c : Cmd) (e : Eng) : Eng :=
  let g := e.group c.d.group
  let t := e.topo
  match e.chipList m c.d.a c.d.members with
  | none => e.complete c.id stBad
  | some l =>
    if g.st != .unformed || !e.marked c.d.a (4 * c.d.members) || !ascending l || !l.contains e.chip || !l.all (fun x => t.hasTray (chipRack x) (chipTray x)) then e.complete c.id stBad
    else
      let f : Form := { cmd := c.id, startNs := e.now, crc := listCrc l, factor := e.factorEdges l }
      let e := e.setGroup c.d.group (fun x =>
        { st := .forming, owner := c.polder, membersAddr := c.d.a, members := l, form := some f, early := x.early })
      (((e.accHbm c.polder (4 * l.length)).formStep c.d.group).replayEarly m).settle m

/-- GROUP_REFORM: the chips named leave, the rest form again; while operations run it waits (R294; log 42, DEDUCED). -/
def Eng.startReform (m : Mem) (c : Cmd) (e : Eng) : Eng :=
  let g := e.group c.d.group
  if g.st != .unformed && g.owner ≠ c.polder then e.complete c.id stPriv
  else if g.epoch ≠ c.d.groupEpoch then e.complete c.id stEpochStale
  else if !(g.st == .formed || g.st == .broken) then e.complete c.id stBad
  else match e.chipList m c.d.a c.d.members with
    | none => e.complete c.id stBad
    | some out =>
      let l := g.members.filter (fun x => !out.contains x)
      if l.length < 2 then e.complete c.id stBad
      else if out.contains e.chip then (e.dissolve c.d.group).complete c.id stOk
      else if !g.ops.isEmpty then e.setCmd c.id (fun c => { c with phase := .started })
      else
        let f : Form := { cmd := c.id, startNs := e.now, crc := listCrc l, factor := e.factorEdges l }
        let next := if g.epoch = 65535 then 1 else g.epoch + 1
        let e := (e.cancelBarriers c.d.group).setGroup c.d.group (fun x =>
          { x with st := .reforming, epoch := next, excludeAddr := c.d.a, members := l, form := some f })
        (((e.accHbm c.polder (4 * c.d.members)).formStep c.d.group).replayEarly m).settle m

/-- A form handshake that a member has not answered in time (Table 12-1). -/
def Eng.formLate (g : Nat) (e : Eng) : Eng :=
  let x := e.group g
  match x.form with
  | none => e
  | some f =>
    let e := e.reach (f.startNs + field (e.reg Reg.colFormTo) 0 16 * 1000000)
    ((e.setGroup g (fun _ => {})).raise 0x0A03 (argA g x.epoch 0) (some x.owner) 0).complete f.cmd stCancelled

/-- BARRIER's work (R334, R335). -/
def Eng.startBarrier (m : Mem) (c : Cmd) (e : Eng) : Eng :=
  let g := c.d.group
  let bad := if g = 255 then (if c.d.groupEpoch ≠ 0 then some stEpochStale else none) else e.groupRefuses c
  match bad with
  | some st => e.complete c.id st
  | none =>
    let e := e.numberBarrier c.id
    match (e.cmd? c.id).bind (fun (c : Cmd) => c.bseq) with
    | none => e.complete c.id stEpochStale
    | some n =>
      let e := if g = 255 then e.setGroup 255 (fun x => { x with owner := c.polder }) else e
      let open_ (l : List Barrier) : List Barrier :=
        if l.any (fun b => b.bseq == n) then updFirst (fun (b : Barrier) => b.bseq == n) (fun b => { b with cmd := c.id, started := true }) l
        else l ++ [{ bseq := n, cmd := c.id, started := true }]
      let e := e.setGroup g (fun x => { x with barriers := open_ x.barriers })
      (e.barrierStep g n).settle m

end Sys2Proof.Machine
end

