-- ==== Sys2Proof/Machine/Weights.lean ====
section
/-! DEFINITION. Weight images and bias vectors of a layer slot as registers bind them (R99, R102, R152), the tables' check
columns and weight cache errors (R113, R114), the Hem unit's diagnostics and table scrub (R137, R138), and halves that
fail (R343). -/

namespace Sys2Proof.Machine

/-! ### Binding (R99, R102) -/

/-- A running command of a slot among the given opcodes. -/
def Eng.readersRun (e : Eng) (slot : Nat) (ops : List Nat) : Bool :=
  e.cmds.any (fun c => c.d.slot == slot && ops.contains c.d.opcode && c.phase != .held && !c.done)

/-- Weight commands of TWK_CT_WCMD (Table 4-10). -/
def wcBind : Nat := 1
def wcUnbind : Nat := 2
def wcInvalidate : Nat := 4

/-- Carries out a weight command of a slot (log 63, DESIGN CHOICE). -/
def Eng.weightNow (m : Mem) (kind slot addr : Nat) (e : Eng) : Eng :=
  let e := e.setLslot slot (fun l => { l with wpend := none })
  if kind = wcBind then
    let r := e.bindCheck m slot addr
    let e := e.setReg Reg.ctWstat (setField (e.reg Reg.ctWstat) 16 8 r)
    if r = stOk then
      let e := e.setLslot slot (fun l => { l with bound := true, boundAddr := addr, loading := true, cached := false })
      let polder := e.slotPolder slot
      e.raise 0x0520 (arg5 0 (polder.getD 0) ((polder.bind e.slotOf).getD 0)) polder 0
    else e.setLslot slot (fun l => { l with bound := false, loading := false, cached := false })
  else if kind = wcUnbind then e.setLslot slot (fun l => { l with bound := false, loading := false, cached := false })
  else e.setLslot slot (fun l => { l with cached := false, loading := false })

/-- A weight command written for the slot of TWK_CT_SLOT_SEL: carried out, or latched behind the image's readers. -/
def Eng.weightCmd (m : Mem) (kind : Nat) (e : Eng) : Eng :=
  let slot := field (e.reg Reg.ctSlotSel) 0 8
  let a := (e.lslot slot).wimg
  if e.readersRun slot [opScore, opRoute, opCombineBwd] then e.setLslot slot (fun l => { l with wpend := some (kind, a) })
  else e.weightNow m kind slot a

/-- A write of TWK_CT_WCMD: more than one bit set changes nothing. -/
def Eng.writeWcmd (m : Mem) (v : Nat) (e : Eng) : Eng :=
  match v % 8 with
  | 1 => e.weightCmd m wcBind
  | 2 => e.weightCmd m wcUnbind
  | 4 => e.weightCmd m wcInvalidate
  | _ => e

/-- The load of a bound slot's every-token part ends. -/
def Eng.bindFilled (m : Mem) (slot : Nat) (e : Eng) : Eng := if (e.lslot slot).loading then e.fillCache m slot else e

/-- A latched weight command is carried out once no reader runs. -/
def Eng.weightLatched (m : Mem) (slot : Nat) (e : Eng) : Eng :=
  match (e.lslot slot).wpend with
  | some (kind, a) => if e.readersRun slot [opScore, opRoute, opCombineBwd] then e else e.weightNow m kind slot a
  | none => e

/-! ### Bias vectors (R152) -/

/-- Binds a bias vector and starts to zero it; 0 unbinds. -/
def Eng.biasNow (slot a : Nat) (e : Eng) : Eng :=
  e.setLslot slot (fun l => { l with bias := a, biasZeroing := a != 0, biasPend := none })

/-- A write of TWK_SEL_BIASADDR for the slot of TWK_SEL_SLOT_SEL. -/
def Eng.writeBias (byteOff : Nat) (wide : Bool) (v : Nat) (e : Eng) : Eng :=
  let slot := field (e.reg Reg.selSlotSel) 0 8
  let a := mergeHalf (e.lslot slot).biasReg byteOff wide v
  let e := e.setLslot slot (fun l => { l with biasReg := a })
  if (!wide && byteOff = 0) || a % 64 ≠ 0 then e
  else if e.readersRun slot [opScore, opRoute] then e.setLslot slot (fun l => { l with biasPend := some a })
  else e.biasNow slot a

/-- The zeroing of a bound bias vector ends. -/
def Eng.biasZeroed (slot : Nat) (e : Eng) : Eng :=
  let l := e.lslot slot
  if l.biasZeroing then
    let n := 256 * (e.cfgOf slot).panels
    (if l.bias = 0 then e else (e.store l.bias (zeros n)).accSlot slot n).setLslot slot (fun l => { l with biasZeroing := false })
  else e

/-- A latched bias bind is carried out once no SCORE or ROUTE of the slot runs. -/
def Eng.biasLatched (slot : Nat) (e : Eng) : Eng :=
  match (e.lslot slot).biasPend with
  | some a => if e.readersRun slot [opScore, opRoute] then e else e.biasNow slot a
  | none => e

/-! ### Cutting tables (R113, R114) -/

/-- The column map register of a table. -/
def colmap (t : Nat) : Nat := if t = 0 then Reg.ctColmap0 else Reg.ctColmap1

/-- Entry of a spare column (Table 4-9). -/
def Eng.spare (e : Eng) (t i : Nat) : Nat := field (e.reg (colmap t)) (8 * i) 8

/-- The check column of a table, and the lowest idle spare. -/
def Eng.checker (e : Eng) (t : Nat) : Option Nat := (List.range 4).find? (fun i => bit (e.spare t i) 6)
def Eng.idleSpare (e : Eng) (t : Nat) : Option Nat :=
  (List.range 4).find? (fun i => !bit (e.spare t i) 7 && !bit (e.spare t i) 6 && !e.flt.ctRetired.contains (t, i))

/-- Spares that stand in for a column. -/
def Eng.sparesUsed (e : Eng) (t : Nat) : Nat := ((List.range 4).filter (fun i => bit (e.spare t i) 7)).length

/-- Sets a spare's entry. -/
def Eng.setSpare (t i v : Nat) (e : Eng) : Eng := e.setReg (colmap t) (setField (e.reg (colmap t)) (8 * i) 8 v)


/-- A column has failed: 64 is the check column itself. -/
def Eng.columnFails (t column i : Nat) (e : Eng) : Eng :=
  let arg := arg6 (some (ctBay t)) (some (ctBay t / 6)) none none
  if column < 64 && e.sparesUsed t ≥ 3 then (if e.flt.ctAbsent.contains t then e else e.addFault (.table t))
  else
    let next := e.idleSpare t
    let e := if column < 64 then e.setSpare t i (128 + column) else { e.setSpare t i 0 with flt.ctRetired := e.flt.ctRetired ++ [(t, i)] }
    let e := match next with
      | some j => e.setSpare t j 64
      | none => e
    let e := (e.post (.column t (e.reg (colmap t)))).raise 0x0621 arg none 0
    let e := if next.isNone then e.raise 0x0622 arg none 0 else e
    e.updateReplace


/-! ### Hem unit (R137, R138) and halves that fail (R343) -/

/-- Duplicated control state of a unit's half disagrees: a fault, whose recovery marks the half absent (R343, R353). -/
def Eng.halfFails (unit half : Nat) (e : Eng) : Eng := if e.halfAbsent unit half then e else e.addFault (.half unit half)

/-- A write of TWK_HEM_DIAG_CMD. -/
def Eng.writeDiag (v : Nat) (e : Eng) : Eng :=
  let st := e.reg Reg.hemDiagStatus
  if e.diag.isSome then e.setReg Reg.hemDiagStatus (setBit st 1 true)
  else
    let tables := e.pat.map (fun p => p.hem.tables)
    let askuc := bit v 8
    if !(e.hemPresent 0 || e.hemPresent 1) || field v 0 4 > 9 || (askuc && tables.isNone) then e.setReg Reg.hemDiagStatus (setBit st 2 true)
    else
      let h := if askuc then HemSet.askuc (tables.getD {}) else HemSet.native
      let x := hemFunc h (field v 0 4) (BitVec.ofNat 32 (e.reg Reg.hemDiagA)) (BitVec.ofNat 32 (e.reg Reg.hemDiagB))
      { e.setReg Reg.hemDiagStatus 0 with diag := some x.toNat }

/-- A write of a diagnostic operand. -/
def Eng.writeDiagArg (off v : Nat) (e : Eng) : Eng :=
  if e.diag.isSome then e.setReg Reg.hemDiagStatus (setBit (e.reg Reg.hemDiagStatus) 1 true) else e.setReg off v

/-- The diagnostic result leaves its lane. -/
def Eng.diagOut (e : Eng) : Eng := match e.diag with
  | some x => { e.setReg Reg.hemDiagOut x with diag := none }
  | none => e

/-- Words of the Hem tables that failed parity are repaired from the other half before their use, with the comparison or
without it; where it is on, words that differ are rewritten from the kept copy; without one, the half that cannot be repaired
is absent. -/
def Eng.scrubTables (repaired differ half : Nat) (e : Eng) : Eng :=
  if e.pat.isNone then e
  else
    let e := e.bump Reg.hemTblErr 0 16 repaired
    if differ = 0 || !bit (e.reg Reg.hemCtrl) 0 then e
    else if e.keptCopy then (e.bump Reg.hemTblErr 16 16 differ).raise 0x0331 0 none 0
    else e.halfFails 0 half

end Sys2Proof.Machine
end

