-- ==== Sys2Proof/Machine/FrontEnd.lean ====
section
/-! DEFINITION. The front end's edges: doorbells (R69, R70, R430), ring windows (R72 to R74), records acknowledged (R417,
R419, R434), lines read in error (R415, R368), and stalls (R89). -/

namespace Sys2Proof.Machine

/-! ### Access gate (R379) -/

/-- The engine is ACTIVE. -/
def Eng.active (e : Eng) : Bool := e.pwr.cur == 0 && !e.pwr.trans

/-- The engine is ACTIVE and not in a compute reset: an access to any block is answered at once. -/
def Eng.awake (e : Eng) : Bool := e.active && e.flt.recovery != some .compute

/-- An MMIO access waits for the exit, which it starts (log 12, DEDUCED). -/
def Eng.waitAccess (a : WaitingAccess) (e : Eng) : Eng := { e with pwr.accesses := e.pwr.accesses ++ [a] }.wake

/-! ### Doorbells (R69, R70, R430) -/

/-- The pattern-load state (R45). -/
def Eng.patternLoad (e : Eng) : Bool := e.loader.st != .applied

/-- A doorbell is dropped with DOORBELL_REJECTED. -/
def Eng.rejectDoorbell (ring : Nat) (e : Eng) : Eng :=
  let g := e.ring ring
  let polder := if g.st == .detached then none else some g.owner
  e.raise 0x0510 (arg5 ring (polder.getD 0) ((polder.bind e.slotOf).getD 0)) polder 0

/-- A write of the doorbell slot of a queue, in the order of Table 3-2 (log 52, DESIGN CHOICE). -/
def Eng.doorbell (queue byteOff : Nat) (wide : Bool) (v : Nat) (e : Eng) : Eng :=
  if !e.boot.powered then e
  else if !wide || byteOff ≠ 0 then e.rejectDoorbell 0
  else
    let r := field v 32 10
    let tail := field v 0 32
    let g := e.ring r
    let slot := (e.slotOf g.owner).getD 0
    if e.patternLoad then e.bump32 Reg.patDroppedDb 1
    else if g.st == .detached || g.win.queue ≠ queue then e.rejectDoorbell r
    else if g.st == .stopped || g.st == .draining then e.rejectDoorbell r
    else if toSigned 32 (idxSub tail g.tail) ≤ 0 then e.raise 0x0511 (arg5 r g.owner slot) (some g.owner) 0
    else if idxSub tail g.head > 2 ^ g.win.ringLog then
      (e.setRing r (fun g => { g with st := .stopped })).raise 0x0512 (arg5 r g.owner slot) (some g.owner) 0
    else (e.setRing r (fun g => { g with tail := tail })).wake

/-! ### Ring windows (R65, R72 to R74) -/

/-- The ring that a slot's window addresses, if the ring is the slot's polder's. -/
def Eng.windowRing (e : Eng) (slot : Nat) : Option Nat :=
  let p := e.pslot slot
  let g := e.ring p.ringSel
  if p.st != .empty && g.st != .detached && g.owner == p.polder then some p.ringSel else none

/-- ATTACH of the selected ring, or its latch while the ring drains (log 36, DEDUCED). -/
def Eng.attachRing (slot : Nat) (e : Eng) : Eng :=
  let p := e.pslot slot
  let w := KV.get {} p.wins p.ringSel
  if p.st == .empty then e
  else match e.windowRing slot with
    | some r => if (e.ring r).st == .draining then e.setRing r (fun g => { g with pendAttach := some (slot, w) }) else e.attachNow slot r w
    | none => e.attachNow slot p.ringSel w

/-- DETACH of the selected ring: what has not started completes CANCELLED (log 53, DESIGN CHOICE). -/
def Eng.detachRing (slot : Nat) (e : Eng) : Eng :=
  match e.windowRing slot with
  | none => e
  | some r =>
    if (e.ring r).st == .draining then e
    else
      let e := e.setRing r (fun g => { g with st := .draining })
      let e := ((e.cmds.filter (fun c => c.ring == r && c.phase == .held && !c.done)).map (·.id)).foldl
        (fun (e : Eng) id => e.stopCmd id stCancelled) e
      e.settleCancels.drainEnd r

/-- CLEAR_STOP of the selected ring. -/
def Eng.clearStop (slot : Nat) (e : Eng) : Eng :=
  match e.windowRing slot with
  | none => e
  | some r => if (e.ring r).st == .stopped then e.setRing r (fun g => { g with st := .attached, tail := g.head }) else e

/-- A write of TWK_PLD_RING_CMD: more than one bit set changes nothing. -/
def Eng.ringCmd (slot v : Nat) (e : Eng) : Eng :=
  match v % 8 with
  | 1 => e.attachRing slot
  | 2 => e.detachRing slot
  | 4 => e.clearStop slot
  | _ => e

/-- A write of TWK_PLD_CPL_HEAD. -/
def Eng.writeCplHead (m : Mem) (slot v : Nat) (e : Eng) : Eng :=
  match e.windowRing slot with
  | none => e
  | some r =>
    let g := e.ring r
    let d := toSigned 32 (idxSub v g.chead)
    if 0 ≤ d ∧ d ≤ toSigned 32 (idxSub g.ctail g.chead) then (e.advanceChead r v).settle m
    else e.raise 0x0517 (arg5 r g.owner slot) (some g.owner) 0

/-- No completion slot of a ring has been free for 100 µs while a command or a record waits for one (log 11, DEDUCED). -/
def Eng.cplStall (r : Nat) (e : Eng) : Eng :=
  let g := e.ring r
  match (if g.st == .detached || g.stalled then none else g.stallAt) with
  | none => e
  | some t => ((e.reach (t + 100000)).setRing r (fun g => { g with stalled := true })).raise 0x0516
      (arg5 r g.owner ((e.slotOf g.owner).getD 0)) (some g.owner) 0

/-! ### Event ring (R433 to R435) -/

/-- The VECTOR of the event ring is raised, and the ring disarmed. -/
def Eng.evtIrq (e : Eng) : Eng :=
  if bit (e.reg Reg.evtCfg) 16 && e.evt.armed then { e.irq (field (e.reg Reg.evtCfg) 24 6) with evt.armed := false } else e

/-- A write of TWK_EVT_HEAD (R65, R434). -/
def Eng.writeEvtHead (v : Nat) (e : Eng) : Eng :=
  let head := e.reg Reg.evtHead
  let tail := e.reg Reg.evtTail
  let d := toSigned 32 (idxSub v head)
  if 0 ≤ d ∧ d ≤ toSigned 32 (idxSub tail head) then
    let e := { e.setReg Reg.evtHead v with evt.armed := true }
    if v = tail then e else e.evtIrq
  else e.raise 0x0517 (arg5 0 0 0) none 0

/-- Fields of TWK_EVT_CFG (Table 20-4). -/
def evtCfgMask : Nat := ofBits ((List.range 6).map (· + 24) ++ [16] ++ List.range 5)

/-- The ring starts over (R433, R434). -/
def Eng.evtRestart (e : Eng) : Eng := { (e.setReg Reg.evtTail 0).setReg Reg.evtHead 0 with evt.armed := true }

/-- The ring is empty: nothing written and not consumed, nothing on its way (log 62, DESIGN CHOICE). -/
def Eng.evtEmpty (e : Eng) : Bool := e.reg Reg.evtTail == e.reg Reg.evtHead && e.evtQueued == 0

/-- A write of half, or all, of TWK_EVT_BASE (log 62, DESIGN CHOICE). -/
def Eng.writeEvtBase (byteOff : Nat) (wide : Bool) (v : Nat) (e : Eng) : Eng :=
  if e.evtEmpty then (e.setReg Reg.evtBase (mergeHalf (e.reg Reg.evtBase) byteOff wide v)).evtRestart else e

/-- A write of TWK_EVT_CFG: a new LOG2 restarts the ring, and is taken only while it is empty (log 62, DESIGN CHOICE). -/
def Eng.writeEvtCfg (v : Nat) (e : Eng) : Eng :=
  let v := Nat.land v evtCfgMask
  if field v 0 5 = field (e.reg Reg.evtCfg) 0 5 then e.setReg Reg.evtCfg v
  else if e.evtEmpty then (e.setReg Reg.evtCfg v).evtRestart
  else e

/-! ### Writes acknowledged (R417, R419) -/

/-- A completion slot of a ring is written. -/
def Eng.ringWrote (r : Nat) (irq : Bool) (e : Eng) : Eng :=
  match KV.find e.rings r with
  | none => e
  | some g =>
    let e := (e.accHbm g.owner 32).setRing r (fun g => { g with ctail := (g.ctail + 1) % 2 ^ 32 })
    if irq then e.irq g.win.vector else e

/-- The first record on its way to HBM is acknowledged: it is visible, and what follows from it happens. -/
def Eng.writeAck (m : Mem) (e : Eng) : Eng :=
  match e.wq with
  | [] => e
  | w :: rest =>
    let e := { e with wq := rest }
    match w.kind with
    | .completion r id irq =>
      let e := (e.store w.addr w.bytes).ringWrote r irq
      let e := match e.cmd? id with
        | some c => { e.gauge gsCmdLatency c.d.opcode (some c.polder) (e.now - c.fetchNs) with cmds := e.cmds.filter (fun c => c.id != id) }
        | none => e
      ((e.settleCancels.settleFences).drainEnd r).settle m
    | .deferred r irq => (e.store w.addr w.bytes).ringWrote r irq
    | .headWb r =>
      let g := e.ring r
      (e.store w.addr (w.bytes.take 4 ++ leBytes 4 g.ctail ++ zeros 56)).accHbm g.owner 64
    | .event =>
      let e := e.store w.addr w.bytes
      (e.setReg Reg.evtTail ((e.reg Reg.evtTail + 1) % 2 ^ 32)).evtIrq
    | .ready polder =>
      let e := (e.store w.addr w.bytes).accHbm polder w.bytes.length
      ((e.cmds.filter (fun c => c.polder == polder && c.phase == .held && !c.done)).map (·.id)).foldl (fun (e : Eng) id => e.pollWait m id) e
    | .line => e.store w.addr w.bytes

/-! ### Lines read in error (R368, R415) -/

/-- Pairs of a token whose row lies in a chunk that has still to leave or to be acknowledged (log 38, DEDUCED). -/
def Eng.rowsOut (e : Eng) (w : RouteWork) (token : Nat) : List Nat :=
  let c := e.cfgOf w.slot
  let hdrs := (e.tt.map (fun kt => (kt.2.hdr, kt.2.src))) ++ (e.outq.map (fun o => (o.hdr, o.src))) ++
    e.chans.flatMap (fun kc => kc.2.jobs.filterMap (fun j => match j with
      | .chunk h s _ => some (h, s)
      | .copy _ _ _ => none))
  (hdrs.filter (fun hs => hs.2.ofWork w.cmd)).flatMap (fun hs =>
    let h := hs.1
    let bwd := h.kind == 3
    let l := w.pairsFor (e.streamDest h w)
    let wl := wireLen (h.wfmt % 16) c.d
    let base := (if bwd then 2 else 1) * lineUp (4 * l.length)
    (l.zipIdx.filter (fun ik => (match w.pairs[ik.1]? with
      | some p => p.token == token && p.awaited
      | none => false) && h.offset < base + ik.2 * wl + wl && base + ik.2 * wl < h.offset + h.plen)).map (·.1)) |>.eraseDups

/-- A token row that cannot be read for sending (R191): zeros go out, the pairs are void, their hosts are told
(log 37, DEDUCED; log 38, DEDUCED; log 60, DESIGN CHOICE). -/
def Eng.voidRow (line : Nat) (c : Cmd) (token : Nat) (e : Eng) : Eng :=
  match e.works.find? (fun w => w.cmd == c.id || w.bwdCmd == some c.id) with
  | none => e
  | some w =>
    let l := e.rowsOut w token
    if l.isEmpty then e
    else
      let w' := { w with void := w.void ++ l, pairs := w.pairs.zipIdx.map (fun p =>
        if l.contains p.2 then { p.1 with pflags := setBit p.1.pflags 5 true } else p.1) }
      let e := (e.setWork w.cmd (fun _ => w')).writeRecord w.cmd true false
      let dests := (l.filterMap (fun i => (w.pairs[i]?).map (·.dest))).eraseDups
      let e := dests.foldl (fun (e : Eng) x => match e.destOf w.slot x with
        | some d => e.sendVoid w' d (w'.tags (l.filter (fun i => match w.pairs[i]? with
            | some p => p.dest == x
            | none => false)))
        | none => e) e
      l.foldl (fun (e : Eng) _ => e.voidPromise) (e.raiseHalf w.cmd (w.cmd != c.id) 0x0261 line)

/-- A line of a combine area that cannot be read (R214, R218): a staged row loses its pair, an accumulator its token
(log 37, DEDUCED). -/
def Eng.areaUnreadable (line slot step token : Nat) (e : Eng) : Eng :=
  match e.works.find? (fun w => w.slot == slot && w.step == step && (w.area.live || w.bwdArea.live)) with
  | none => e
  | some w =>
    let bwd := !w.area.live || (w.bwdArea.live && !(w.bwdArea.bufs ++ w.bwdArea.stageBufs).all (fun b =>
      !(b.addr ≤ line && line < b.addr + b.size)))
    let a := w.areaOf bwd
    let wl := wireLen ((e.cfgOf slot).wireFmt % 16) (e.cfgOf slot).d
    let e := (e.bump Reg.semUnreadable 0 16 1)
    let staged := (w.pairIdx token).filter (fun i => (KV.find a.stage i).isSome && !a.bad.contains i)
    let hit := staged.find? (fun i => match bufRow a.stageBufs wl (w.stageIndex i) with
      | some p => p ≤ line && line < p + wl
      | none => false)
    let e := if e.exactOrder w bwd && (!bwd || a.stageBufs.any (fun b => b.addr ≤ line && line < b.addr + b.size)) then
        match hit.or staged.head? with
        | some i => (e.setWork w.cmd (fun w => w.setArea bwd (fun a => { a with stage := KV.del a.stage i }))).dropPair w.cmd bwd i
        | none => e
      else (e.setWork w.cmd (fun w => w.setArea bwd (fun a => { a with
        badTokens := if a.badTokens.contains token then a.badTokens else a.badTokens ++ [token] }))).voidPromise
    e.raiseHalf w.cmd bwd 0x0270 line

/-- Announced descriptors of a ring's next request that lie ahead of the first that a line holds bytes of. -/
def Ring.aheadOf (g : Ring) (line : Nat) : Option Nat :=
  let size := descSize g.negMajor
  (List.range g.batch).find? (fun i =>
    let a := g.win.base + (g.head + i) % 2 ^ g.win.ringLog * size
    line < a + size && a < line + 64)

/-- A descriptor line that stays unreadable: what lies ahead of it in its request is fetched, and the ring stops at it
(R74, R415). -/
def Eng.descriptorBad (m : Mem) (line r : Nat) (e : Eng) : Eng :=
  let g := e.ring r
  match (if g.st == .attached then g.aheadOf line else none) with
  | none => e
  | some n =>
    let e := (List.range n).foldl (fun (e : Eng) _ => e.fetchOne m r) e
    (e.setRing r (fun g => { g with st := .stopped })).raise 0x0513 (arg5 r g.owner ((e.slotOf g.owner).getD 0)) (some g.owner) 0

/-- A line that stays unreadable after its one re-read: the last resort of Table 15-10 (log 37, DEDUCED). -/
def Eng.unreadable (m : Mem) (line : Nat) (what : ReadPurpose) (e : Eng) : Eng :=
  match what with
  | .descriptor r => e.descriptorBad m line r
  | .weight slot =>
    match e.slotPolder slot with
    | none => e
    | some polder =>
      let run := e.cmds.find? (fun c => c.d.slot == slot && c.polder == polder && c.phase == .running && !c.done &&
        [opScore, opRoute, opCombineBwd].contains c.d.opcode)
      let tag := (run.map (fun c => c.d.tag)).getD 0
      (e.raise 0x0222 line (some polder) tag).tearDown polder 0x0222 tag (run.map (·.id))
  | .rowScoring r idx token =>
    match e.cmds.find? (fun c => c.ring == r && c.idx == idx && !c.done && (c.d.opcode == opScore || c.d.opcode == opRoute)) with
    | some c => if c.badRows.contains token then e else e.setCmd c.id (fun c => { c with badRows := c.badRows ++ [token] })
    | none => e
  | .rowSending r idx token =>
    match e.cmds.find? (fun c => c.ring == r && c.idx == idx && !c.done && (c.d.opcode == opRoute || c.d.opcode == opRouteBwd)) with
    | some c => e.voidRow line c token
    | none => e
  | .area slot step token => e.areaUnreadable line slot step token
  | .returned slot step tag =>
    match (e.role slot step), (e.role slot step).bind (fun h => h.place tag) with
    | some h, some p =>
      let bwd := e.cmds.any (fun c => c.d.opcode == opReturnBwd && c.phase == .running && !c.done && c.d.slot == slot && c.d.step == step)
      let mark := if bwd then 0x10271 else 0x0271
      if (if bwd then p.bwdBad else p.bad) || p.void then e
      else
        let e := e.setRole slot step (fun h => h.setPlace tag (fun p => if bwd then { p with bwdBad := true } else { p with bad := true }))
        if h.raised.contains mark then e
        else (e.setRole slot step (fun h => { h with raised := mark :: h.raised })).raise 0x0271 line (some h.polder) h.tag
    | _, _ => e
  | .collective r idx =>
    match e.cmds.find? (fun c => c.ring == r && c.idx == idx && c.phase == .running && !c.done &&
        (c.d.opcode == opBcast || c.d.opcode == opReduce)) with
    | none => e
    | some c =>
      let (v, e) := e.free
      e.tearDown c.polder (v.toNat % 2 ^ 16) c.d.tag (some c.id)
  | .bobbin n =>
    if n < e.bufTotal && !(e.bentry n).retired then
      (e.retireBuf n).raise 0x0291 line none 0
    else e
  | .deepSave => e

/-- A corrected line is used; the blocks that count one do (R415, R114, R272). -/
def Eng.correctedLine (line : Nat) (what : ReadPurpose) (e : Eng) : Eng :=
  match what with
  | .weight _ => (e.bump Reg.wcErr 0 16 1).raise 0x0220 line none 0
  | .bobbin n =>
    let e := e.lineBack n
    if e.bob.correctedAt.all (fun t => t + 1000000 ≤ e.now) then { e with bob.correctedAt := some e.now }.raise 0x0290 line none 0 else e
  | _ => e

/-- An unreadable line of weights is fetched again: counted and told (R114). -/
def Eng.refetched (line : Nat) (what : ReadPurpose) (e : Eng) : Eng :=
  match what with
  | .weight _ => (e.bump Reg.wcErr 16 16 1).raise 0x0221 line none 0
  | _ => e

/-- A line returns from HBM, and, where it was unreadable, its one re-read. -/
def Eng.readReturn (m : Mem) (line : Nat) (stat retry : LineStat) (what : ReadPurpose) (e : Eng) : Eng :=
  match stat with
  | .ok => e
  | .corrected => e.correctedLine line what
  | .uncorrectable =>
    let e := e.refetched line what
    match retry with
    | .ok => e
    | .corrected => e.correctedLine line what
    | .uncorrectable => (e.unreadable m line what).settle m

end Sys2Proof.Machine
end

