-- ==== Sys2Proof/Machine/Power.lean ====
section
/-! DEFINITION. Bring-up (R370 to R374), links (R196, R421), resets from outside (R376, R425), bay faults (R351, R424), power
states (R377 to R381) and function enables (R382). -/

namespace Sys2Proof.Machine

/-! ### Bring-up (R370 to R372) -/

/-- ENG_PORST_N: all but Tape is at its reset values; what has left the engine has left it (R425; log 45, DEDUCED). -/
def Eng.powerOnReset (e : Eng) : Eng :=
  { wlog := e.wlog, freeCtr := e.freeCtr, tx := e.tx, irqs := e.irqs, rsp := e.rsp, posts := e.posts }

/-- Sets one map register of each quarter from the management controller's records. -/
def Eng.loadMaps (reg : Nat → Nat) (l : List Nat) (e : Eng) : Eng :=
  (l.take 4).zipIdx.foldl (fun (e : Eng) vi => e.setReg (reg vi.2) vi.1) e

/-- Power-good: phase 1 starts, and the management records are read (Table 16-1, R16, R113, R347). -/
def Eng.powerGood (r : BootRecords) (e : Eng) : Eng :=
  if e.boot.powered then e
  else
    let keys := (r.keys ++ List.replicate 4 ({} : KeySlot)).take 4
    let e := { e with boot := { e.boot with powered := true, phase := 1, porNs := e.now, record := r.variant, keys := keys }
                      flt := { e.flt with lost := (r.lost.take 256).map some } }
    let e := ((e.loadMaps Reg.fltQmapLo r.qmapLo).loadMaps Reg.fltQmapHi r.qmapHi).loadMaps Reg.fltFailed r.failed
    (e.setReg Reg.ctColmap0 (r.colmap0 % 2 ^ 32)).setReg Reg.ctColmap1 (r.colmap1 % 2 ^ 32)

/-- The variant record passes its check: signed under a trusted key slot, and naming a variant (R371). -/
def Eng.recordOk (e : Eng) (r : VariantRec) : Bool :=
  r.variant < 2 && (match e.boot.keys[r.keySlot]? with
    | some k => k.occupied && !k.revoked && edVerify k.key r.body r.sig
    | none => false)

/-- The first wave is released, the ports start training. -/
def Eng.startWaves (e : Eng) : Eng :=
  { e with boot := { e.boot with phase := 2, wavesReleased := [0], waveNs := e.now }
           ports := e.ports.zipIdx.map (fun pi => if pi.2 < e.portCount then { pi.1 with link := 1 } else pi.1) }

/-- Phase 1 ends (R371; log 5, DEDUCED). -/
def Eng.spineDone (e : Eng) : Eng :=
  if !e.boot.powered || e.boot.phase ≠ 1 then e
  else
    let ok := match e.boot.record with
      | some r => e.recordOk r
      | none => false
    let e := match (if ok then e.boot.record else none) with
      | some r => { e with boot := { e.boot with variant := r.variant, recRev := r.rev % 2 ^ 16, variantValid := true } }
      | none => e.raise 0x0907 (arg9 0 0) none 0
    let e := if e.is3S then e.setReg Reg.engFunc 0x37 else e
    (e.startWaves).updateReplace

/-- The 120 ms timer releases the next wave (log 11, DEDUCED). -/
def Eng.releaseWave (w : Nat) (e : Eng) : Eng :=
  if e.boot.phase < 2 || e.boot.wavesReleased.length ≥ 6 || w ≠ e.boot.wavesReleased.length then e
  else
    let e := e.reach (e.boot.waveNs + 120000000)
    { e with boot := { e.boot with wavesReleased := e.boot.wavesReleased ++ [w], waveNs := e.now } }

/-- A wave's self-tests end: bays that failed are contained, their dike where all six did (R372; log 5, DEDUCED;
log 14, DEDUCED). -/
def Eng.waveTested (w : Nat) (failed : List Nat) (e : Eng) : Eng :=
  if !e.boot.wavesReleased.contains w || e.boot.wavesDone.contains w then e
  else
    let e := if w = 5 then e.reach (e.boot.waveNs + 150000000) else e
    let bad := (dikeBays w).filter failed.contains
    let e := if bad.isEmpty then e else e.raise 0x0908 (arg9 e.pwr.cur 0) none 0
    let e := if bad.length = 6 then e.containDike w else bad.foldl (fun (e : Eng) b => e.containBay b) e
    { e with boot := { e.boot with wavesDone := e.boot.wavesDone ++ [w] } }.updateReady

/-- PHASE of TWK_ENG_STATUS (Table 16-9; log 14, DEDUCED). -/
def Eng.phase (e : Eng) : Nat :=
  if e.flt.recovery == some .compute then 5
  else if e.boot.ready then 4
  else if e.boot.phase ≥ 2 && e.boot.wavesDone.length = 6 && e.linksDone then 3
  else e.boot.phase

/-- IN_RESET (Table 16-9): power-on until the first ready, a bay, dike or compute reset, or a Pattern reload runs
(log 14, DEDUCED). -/
def Eng.inReset (e : Eng) : Bool :=
  e.boot.powered && (!e.boot.everReady || [LoaderState.receiving, .repair, .verifying, .applying].contains e.loader.st ||
    (match e.flt.recovery with
      | some (.bay _) => true
      | some (.dike _) => true
      | some .compute => true
      | _ => false))

/-! ### Links (R196, R421) -/

/-- Endpoint versions of the chips whose version is known; a change of one is a change of a condition of the promise
(R340). -/
def Eng.versions (e : Eng) : List (Nat × Nat) := e.peerVer.map (fun kv => (kv.1, e.endVersion kv.1))

/-- Tells a change of endpoint versions (log 41, DEDUCED). -/
def Eng.versionsSince (before : List (Nat × Nat)) (e : Eng) : Eng :=
  if (e.versions).any (fun kv => kv.2 ≠ KV.get 2 before kv.1) then e.voidPromise else e

/-- A port leaves training (log 6, DESIGN CHOICE; log 14, DEDUCED). -/
def Eng.linkTrained (m : Mem) (port : Nat) (up : Bool) (peerMin peerMax : Nat) (swred fixedOrder : Bool) (own peer : Nat) (e : Eng) : Eng :=
  if e.boot.phase < 2 || !e.portPresent port || (e.port port).link == 2 then e
  else if !up then (e.setPort port (fun p => { p with link := 0 })).updateReady
  else
    let before := e.versions
    let (lo, hi) := match e.portCfg port with
      | some c => (c.ovlMin, c.ovlMax)
      | none => (2, 4)
    let e := { e with boot := { e.boot with chipId := some own } }
    if max lo peerMin ≤ min hi peerMax then
      let e := e.setPort port (fun p => { p with link := 2, negVer := min hi peerMax, peerMax := peerMax, swred := swred, fixedOrder := fixedOrder })
      let e := (e.raise 0x0101 (arg1 (some port) peer) none 0).versionsSince before
      ((e.resendUnsent m).updateReady).settle m
    else
      let e := e.setPort port (fun p => { p with link := 3, negVer := 0, peerMax := peerMax, swred := false, fixedOrder := false })
      (e.raise 0x0102 (arg1 (some port) peer) none 0).updateReady

/-- Discovery reports a member's version (R183; log 41, DEDUCED). -/
def Eng.learnVersion (chip version : Nat) (e : Eng) : Eng :=
  if !e.boot.powered || chip = e.chip then e
  else
    let before := e.versions
    { e with peerVer := KV.put e.peerVer chip version }.versionsSince before

/-- A link goes down or comes up again (R360, R421). -/
def Eng.linkChange (m : Mem) (port : Nat) (up : Bool) (e : Eng) : Eng :=
  let p := e.port port
  if !e.boot.powered || !e.portPresent port || p.negVer = 0 then e
  else
    let before := e.versions
    if !up && p.link = 2 then
      let had := e.jobChips.filter (fun c => c != e.chip && (e.linkPorts c).contains port)
      let e := ((e.setPort port (fun p => { p with link := 0 })).abortPort port).losePort port
      let e := (e.raise 0x0103 (arg1 (some port) 0) none 0).versionsSince before
      ((had.filter (fun c => (e.linkPorts c).isEmpty)).foldl (fun (e : Eng) c => e.suspectChip c) e).settle m
    else if up && p.link = 0 then
      let e := e.setPort port (fun p => { p with link := 2 })
      let e := (e.raise 0x0104 (arg1 (some port) 0) none 0).versionsSince before
      (e.resendUnsent m).settle m
    else e

/-! ### Bay faults (R351, R424) -/

/-- A bay fault: within 10 s of the bay's last reset it is contained, else it takes its place in the queue. -/
def Eng.bayFault (b : Nat) (e : Eng) : Eng :=
  if e.flt.baysContained.contains b || e.flt.dikesContained.contains (b / 6) then e
  else if !e.flt.baysReset.contains b && (match KV.find e.flt.bayResetNs b with
      | some t => decide (e.now < t + 10000000000)
      | none => false) then e.containBay b
  else e.addFault (.bay b)

/-- Bays that an island serves: core and Spool all of them, the port island those with ports. -/
def Eng.islandBays (e : Eng) (island : Nat) : List Nat :=
  if island < 2 then List.range 36 else if island = 2 then ((List.range e.portCount).map portBay).eraseDups else []

/-- An island's clock is missing; without the control or time base clock the engine is reset. -/
def Eng.clockLost (island : Nat) (e : Eng) : Eng :=
  if !e.boot.powered then e
  else if island < 3 then (e.islandBays island).foldl (fun (e : Eng) b => e.bayFault b) e
  else e.requestReset .compute

/-- TWK_ENG_RESET: a bay that is absent, in reset or contained is not reset (R376). -/
def Eng.requestBay (b : Nat) (e : Eng) : Eng :=
  let e := e.wake
  if b ≥ 36 || e.bayDown b then e else e.requestReset (.bay b)

/-- A write of TWK_ENG_RESET. -/
def Eng.writeReset (v : Nat) (e : Eng) : Eng :=
  let e := if bit v 1 then e.requestBay (field v 8 6) else e.wake
  if bit v 0 then e.requestReset .compute else e

/-! ### Power states (R377 to R381) -/

/-- Exit latency and entry time of a state in ns (Table 16-3). -/
def exitNs : Nat → Nat
  | 0 => 0
  | 1 => 40
  | 2 => 2000
  | 3 => 25000
  | _ => 900000
def entryNs : Nat → Nat
  | 0 => 0
  | 1 => 10
  | 2 => 500
  | 3 => 5000
  | _ => 200000

/-- The deepest state whose exit latency a wake latency allows. -/
def deepestFor (tol : Nat) : Nat := (((List.range 5).filter (fun s => exitNs s ≤ tol)).getLast?).getD 0

/-- Tide entries of resident reserved-class polders. -/
def Eng.residentTide (e : Eng) : List TideEntry :=
  e.tideEntries.filter (fun t => t.valid && (e.slotOf t.polder).isSome && e.reservedClass t.polder)

/-- Limits of Table 16-4 that hold, with their causes (log 15, DEDUCED). -/
def Eng.powerLimits (e : Eng) : List (Nat × Nat) :=
  let one := !e.roles.isEmpty || e.works.any (fun w => w.area.live || w.bwdArea.live) || e.groups.any (fun kg => !kg.2.ops.isEmpty) || !e.tt.isEmpty
  let two := match e.nextWindow e.residentTide with
    | some t => some ((((List.range 5).filter (fun s => exitNs s + entryNs s ≤ t - e.now)).getLast?).getD 0)
    | none => none
  let three := e.anyResident || e.spool.queues.any (fun kq => !kq.2.cells.isEmpty && (match KV.find e.spool.cfg kq.1 with
    | some c => decide (c.qclass ≤ 4)
    | none => false))
  (if one then [(2, 1)] else []) ++ (match two with
    | some s => if s < 4 then [(s, 2)] else []
    | none => []) ++
  (if three then [(3, 3)] else []) ++ (if e.keptCopy then [] else [(2, 4)]) ++ (if e.reg Reg.pwrDeepSave = 0 then [(3, 5)] else [])

/-- LIMIT and LIMIT_CAUSE (Table 16-12): the deepest state now allowed, and which limit says so; 0 where the tolerance does
(log 15, DEDUCED). -/
def Eng.powerLimit (e : Eng) : Nat × Nat :=
  e.powerLimits.foldl (fun a l => if l.1 < a.1 then l else a) (deepestFor (e.reg Reg.wakeTol), 0)

/-- The engine is idle (R379): no micro-operation ready or running, nothing being fetched, landed, loaded or recovered. -/
def Eng.idle (e : Eng) : Bool :=
  !e.chans.any (fun kc => e.channelReady kc.2) && !e.outq.any (fun o => e.canSend o.hdr) && e.wq.isEmpty && !e.bob.busy && e.bob.fifo.isEmpty &&
  e.rings.all (fun kg => kg.2.st != .attached || kg.2.head == kg.2.tail) &&
  e.works.all (fun w => w.phase != .scoring && w.phase != .sorting) && !e.lslots.any (fun kl => kl.2.loading || kl.2.biasZeroing) &&
  [LoaderState.empty, .applied, .rejected, .incomplete].contains e.loader.st && !e.loader.sending && e.flt.recovery.isNone && e.diag.isNone &&
  e.pld.slots.all (fun p => p.st.target == p.st)

/-- Idleness has lasted four exit latencies of the next deeper state: its entry starts, where it is allowed
(log 15, DEDUCED). -/
def Eng.idleLong (e : Eng) : Eng :=
  if e.boot.powered && e.boot.ready && !e.pwr.trans && e.idle && e.pwr.cur < e.powerLimit.1 then
    { e with pwr.trans := true, pwr.target := e.pwr.cur + 1, pwr.transNs := e.now }
  else e

/-- The next window of a resident reserved-class polder is as far off as the exit takes: the exit starts. -/
def Eng.tideWake (e : Eng) : Eng :=
  let st := max e.pwr.cur e.pwr.target
  if st = 0 then e
  else match e.nextWindow e.residentTide with
    | some t => (e.reach (t - exitNs st)).wake
    | none => e

/-- A write of TWK_WAKE_TOL (R381). -/
def Eng.writeWakeTol (v : Nat) (e : Eng) : Eng :=
  let e := e.setReg Reg.wakeTol v
  if v < exitNs (max e.pwr.cur e.pwr.target) then e.wake else e

/-- What DEEP writes of the engine to HBM: 16 MiB whose content the spec does not lay out (R380; log 24, DESIGN CHOICE), and
the pool manager's stacks (R273). -/
def Eng.deepSave (e : Eng) : Eng := (e.scribble (e.reg Reg.pwrDeepSave) 16777216).tableBack

/-- An entry ends; a wake that came meanwhile starts the exit (log 11, DEDUCED). -/
def Eng.entryDone (e : Eng) : Eng :=
  if !e.pwr.trans || e.pwr.target = 0 then e
  else
    let s := e.pwr.target
    let e := e.reach (e.pwr.transNs + entryNs s)
    let e := if s = 4 then e.deepSave else e
    let e := { e with pwr := { e.pwr with cur := s, trans := false } }
    let pend := e.pwr.wakePend
    let e := { e with pwr.wakePend := false }.raise 0x0901 (arg9 s 0) none 0
    let e := if pend && !e.pwr.trans then { e with pwr := { e.pwr with trans := true, target := 0, transNs := e.now } } else e
    e.nextRecovery

/-- Records held meanwhile are written (R435). -/
def Eng.writeHeld (e : Eng) : Eng :=
  e.evt.held.foldl (fun (e : Eng) r => (e.evtPush r).2) { e with evt.held := [] }

/-- Chunks and frames that waited for the exit are taken in. -/
def Eng.takeWaiting (m : Mem) (e : Eng) : Eng :=
  let l := e.pwr.rx
  (l.foldl (fun (e : Eng) x => e.toQueue x.1 x.2) { e with pwr.rx := [] }).settle m

/-- An exit ends: state is restored and what waited goes on; a save area that cannot be read brings a compute reset (R380;
log 5, DEDUCED; log 11, DEDUCED; log 15, DEDUCED). -/
def Eng.exitDone (m : Mem) (saveReadable : Bool) (e : Eng) : Eng :=
  if !e.pwr.trans || e.pwr.target ≠ 0 then e
  else
    let s := e.pwr.cur
    let e := e.reach (e.pwr.transNs + exitNs s)
    let e := { e with pwr := { e.pwr with cur := 0, trans := false, wakePend := false } }
    let e := (e.gauge gsPowerExit s none (e.now - e.pwr.wakeNs)).raise 0x0902 (arg9 s 0) none 0
    let e := if s ≥ 2 then { e with spool.banks := e.spool.banks.map (fun b => { b with scrubbed := [] }) } else e
    let e := if s ≥ 3 then (e.lslots.filter (fun kl => kl.2.cached)).foldl (fun (e : Eng) kl => e.fillCache m kl.1)
        ((e.writeHeld.clearTable 0).clearTable 1) else e
    let e := if s = 4 && !saveReadable then (e.raise 0x0909 (arg9 s 0) none 0).requestReset .compute else e
    (e.takeWaiting m).nextRecovery

/-! ### Function enables (R382) -/

/-- Functions that are there: quarters 0 to 3, cutting tables 4 and 5. -/
def Eng.funcPresent (e : Eng) (f : Nat) : Bool := if f < 4 then decide (f < e.quarterCount) else e.ctPresent (f - 4)

/-- STATE of a function. -/
def Eng.funcSt (e : Eng) (f : Nat) : Nat := e.pwr.funcState.getD f 3

/-- A function changes its state. -/
def Eng.setFunc (f st : Nat) (e : Eng) : Eng :=
  { e with pwr.funcState := updAt e.pwr.funcState f (fun _ => st), pwr.funcNs := updAt e.pwr.funcNs f (fun _ => e.now) }

/-- One function is told its new enable. -/
def Eng.enableFunc (f : Nat) (on : Bool) (e : Eng) : Eng :=
  let pe := e.pwr.pendEnable.filter (· != f)
  let pd := e.pwr.pendDisable.filter (· != f)
  match e.funcSt f with
  | 3 => if on then e else e.setFunc f 1
  | 0 => if on then e.setFunc f 2 else e
  | 1 => { e with pwr.pendEnable := if on then pe ++ [f] else pe }
  | _ => { e with pwr.pendDisable := if on then pd else pd ++ [f] }

/-- A write of TWK_ENG_FUNC; it must leave a quarter and a cutting table. A refused one tells the functions that it would
have changed (log 15, DEDUCED). -/
def Eng.writeFunc (v : Nat) (e : Eng) : Eng :=
  let there := (List.range 6).filter e.funcPresent
  if !there.any (fun f => f < 4 && bit v f) || !there.any (fun f => f ≥ 4 && bit v f) then e.raise 0x0904 (arg9 e.pwr.cur (Nat.xor (v % 64) (e.reg Reg.engFunc % 64))) none 0
  else
    let e := e.setReg Reg.engFunc (ofBits (there.filter (bit v)))
    there.foldl (fun (e : Eng) f => e.enableFunc f (bit v f)) e

/-- A function has shut down or woken; what was latched meanwhile is carried out (log 5, DEDUCED; log 11, DEDUCED). -/
def Eng.funcDone (f : Nat) (e : Eng) : Eng :=
  let t := e.pwr.funcNs.getD f 0
  match e.funcSt f with
  | 1 =>
    let e := ((e.reach (t + if f < 4 then 20000 else 8000)).setFunc f 0).raise 0x0903 (arg9 e.pwr.cur (2 ^ f)) none 0
    if e.pwr.pendEnable.contains f then { e with pwr.pendEnable := e.pwr.pendEnable.filter (· != f) }.setFunc f 2 else e
  | 2 =>
    let e := ((e.reach (t + if f < 4 then 25000 else 12600)).setFunc f 3).raise 0x0903 (arg9 e.pwr.cur (2 ^ f)) none 0
    if e.pwr.pendDisable.contains f then { e with pwr.pendDisable := e.pwr.pendDisable.filter (· != f) }.setFunc f 1 else e
  | _ => e

end Sys2Proof.Machine
end

