-- ==== Sys2Proof/Machine/RegRead.lean ====
section
/-! DEFINITION. What the registers read (the register tables of chapters 2 to 20): which are 64 bits wide, the value of each,
shadow banks (R393), and one access (R418). -/

namespace Sys2Proof.Machine

/-! ### Widths (R418) -/

/-- 64-bit registers that stand alone. -/
def wideRegs : List Nat :=
  [Reg.patSrc, Reg.patId, Reg.patKeep, Reg.patBaysUncfg, Reg.patHallStatus, Reg.ctWimg, Reg.ctChecks, Reg.hemSlotcfg, Reg.selBiasaddr,
   Reg.pltShapeAddr, Reg.shuErrAddr, Reg.semLvAddr, Reg.semAreaBytes, Reg.splQcfg, Reg.splQstat, Reg.splQpkt, Reg.splPool] ++
  [Reg.splBanks, Reg.splCellMeta0, Reg.splCellMeta1, Reg.bobTable, Reg.bobResv, Reg.bobEntry, Reg.colGstat, Reg.colGmembers,
   Reg.colGexclude, Reg.detHalltime, Reg.detSeed, Reg.fltBays, Reg.fltNotice, Reg.pwrDeepSave, Reg.evtBase, Reg.evtLast] ++
  [Reg.schLive0, Reg.schLive0 + 8, Reg.schLive0 + 16, Reg.schLive0 + 24, Reg.gauBind, Reg.gauTackT0, Reg.gauTackT1, Reg.gauExpDemand,
   Reg.gauExpGranted, Reg.gauExpRefused, Reg.gauExpSpilledIn, Reg.gauExpVoided, Reg.gauExpLast, Reg.gauSrcPlaced, Reg.gauSrcSpilled,
   Reg.gauSrcDropped]

/-- 64-bit registers of a polder slot. -/
def wideSlotRegs : List Nat :=
  [Reg.pldSave, Reg.pldStageSave, Reg.pldStagePiece, Reg.pldConsent, Reg.pldRingBase, Reg.pldCplBase, Reg.pldRingHeadwb] ++
  (List.range 10).map (fun i => 0x48 + 8 * i)

/-- Whether a 64-bit register starts at an offset. -/
def isWide (off : Nat) : Bool :=
  if off / 0x10000 = 2 then wideSlotRegs.contains (off % 0x1000)
  else if 0x80000 ≤ off ∧ off < 0x84000 then off % 256 == 8
  else if 0x90000 ≤ off ∧ off < 0x94000 then off % 1024 == 8 || off % 1024 == 0x10 || off % 1024 == 0x18
  else if 0xC0100 ≤ off ∧ off < 0xC0180 then off % 16 == 0
  else if 0xF0040 ≤ off ∧ off < 0xF0080 then off % 8 == 0
  else if 0x101000 ≤ off ∧ off < 0x111000 then off % 8 == 0 && off % 512 < 0x28
  else if 0x200000 ≤ off ∧ off < 0x220000 then off % 16 == 0
  else if 0x400000 ≤ off ∧ off < 0x400280 then off % 8 == 0
  else wideRegs.contains off

/-- Number of a truth value's bit `i`. -/
def bitAt (i : Nat) (b : Bool) : Nat := if b then 2 ^ i else 0

/-! ### Values by block -/

/-- STATE of TWK_ENG_FUNC_STATUS. -/
def Eng.funcStates (e : Eng) : Nat :=
  ((List.range 6).map (fun f => if e.funcPresent f then e.funcSt f * 4 ^ f else 0)).sum

/-- Engine control and event ring. -/
def Eng.readCtl (e : Eng) (off : Nat) : Nat :=
  if off = Reg.engVersion then 0x00030000
  else if off = Reg.engVariant then e.boot.recRev * 2 ^ 16 + e.boot.variant
  else if off = Reg.engStatus then
    bitAt 0 e.boot.ready + bitAt 1 e.linksDone + bitAt 2 (e.loader.st == .applied) + bitAt 3 e.boot.variantValid + bitAt 4 e.inReset +
    e.phase * 2 ^ 8 + ofBits e.boot.wavesDone * 2 ^ 16
  else if off = Reg.engChipid then (match e.boot.chipId with
    | some c => 2 ^ 31 + c
    | none => 0)
  else if off = Reg.engFuncStatus then e.funcStates + ofBits e.pwr.pendEnable * 2 ^ 16 + ofBits e.pwr.pendDisable * 2 ^ 24
  else if off = Reg.pwrStatus then
    e.pwr.cur + bitAt 3 e.pwr.trans + (if e.pwr.trans then e.pwr.target else e.pwr.cur) * 2 ^ 4 + bitAt 8 e.pwr.wakePend +
    e.powerLimit.1 * 2 ^ 12 + e.powerLimit.2 * 2 ^ 16
  else if off = Reg.engBootNs then e.boot.bootNs
  else e.reg off


/-- Pattern loader. -/
def Eng.readPat (e : Eng) (off : Nat) : Nat :=
  let l := e.loader
  if off = Reg.patStatus then
    l.st.code + l.err * 2 ^ 8 + l.errSection * 2 ^ 16 + bitAt 24 l.loadPend + bitAt 25 l.reloadNeeded + l.repairRound * 2 ^ 26 +
    bitAt 28 e.keptCopy + bitAt 29 l.loadRefused
  else if off = Reg.patFrames then l.received * 2 ^ 16 + l.repaired
  else if off = Reg.patFrameErr then l.crcFails * 2 ^ 16 + l.foreign
  else if off = Reg.patBaysUncfg then l.baysUncfg
  else if off = Reg.patHallStatus then l.hallOk.length + l.hallBadCount * 2 ^ 18
  else if off = Reg.patKeystat then
    ofBits ((e.boot.keys.zipIdx.filter (fun k => k.1.occupied)).map (·.2)) + ofBits ((e.boot.keys.zipIdx.filter (fun k => k.1.revoked)).map (·.2)) * 2 ^ 4
  else e.reg off

/-- STATE codes of Table 3-6. -/
def RingState.code : RingState → Nat
  | .detached => 0 | .attached => 1 | .stopped => 2 | .draining => 3

/-- An accounting counter of a slot (Table 13-11). -/
def Acc.at (a : Acc) (off : Nat) : Nat :=
  match (off - 0x48) / 8 with
  | 0 => a.time
  | 1 => a.tray
  | 2 => a.rack
  | 3 => a.hall
  | 4 => a.hbm
  | 5 => a.wait
  | 6 => a.evictions * 2 ^ 32 + a.parks
  | 7 => a.actual
  | 8 => a.solo
  | _ => a.slowdown

/-- The ring window of a slot (Tables 3-3 to 3-6). -/
def Eng.readWindow (e : Eng) (slot o : Nat) : Nat :=
  let p := e.pslot slot
  let w := KV.get {} p.wins p.ringSel
  let g : Ring := match e.windowRing slot with
    | some r => e.ring r
    | none => {}
  if o = Reg.pldRingSel then p.ringSel
  else if o = Reg.pldRingBase then w.base
  else if o = Reg.pldRingCfg then w.cfg
  else if o = Reg.pldRingQueue then w.queue
  else if o = Reg.pldCplBase then w.cplBase
  else if o = Reg.pldRingHeadwb then w.headWb
  else if o = Reg.pldRingStatus then
    g.st.code + bitAt 4 g.pendAttach.isSome + KV.get 0 p.results p.ringSel * 2 ^ 8 + g.negMinor * 2 ^ 16 + g.negMajor * 2 ^ 24
  else if o = Reg.pldRingHead then g.head
  else if o = Reg.pldRingTail then g.tail
  else if o = Reg.pldCplHead then g.chead
  else if o = Reg.pldCplTail then g.ctail
  else 0

/-- A polder slot's registers; an EMPTY slot shows its status and staging registers only (R298). -/
def Eng.readSlot (e : Eng) (slot o : Nat) : Nat :=
  let p := e.pslot slot
  if o = Reg.pldStatus then
    p.st.code + (match p.pend with
      | some (op, _) => op * 2 ^ 8
      | none => 0) + bitAt 12 (p.st != .empty && e.quiet p.polder) + (if p.st == .empty then 0 else p.polder * 2 ^ 16) + p.result * 2 ^ 24
  else if o = Reg.pldStageSave then p.stageSave
  else if o = Reg.pldStagePiece then p.stagePiece
  else if o = Reg.pldStagePlen then p.stagePlen
  else if o = Reg.pldStageClient then p.stageClient
  else if p.st == .empty then 0
  else if o = Reg.pldSave then p.save
  else if o = Reg.pldClient then p.client
  else if o = Reg.pldSaveNeed then p.saveNeed
  else if o = Reg.pldConsentErr then p.consentErr
  else if o = Reg.pldFault then p.fault * 2 ^ 16
  else if o = Reg.pldFaultTag then p.faultTag
  else if 0x48 ≤ o ∧ o ≤ 0x90 ∧ o % 8 = 0 then p.acc.at o
  else e.readWindow slot o

/-- A polder is live: resident or evicted (R297). -/
def Eng.live (e : Eng) (id : Nat) : Bool := (e.slotOf id).isSome || (e.evicted? id).isSome

/-- Scheduling. -/
def Eng.readSch (e : Eng) (off : Nat) : Nat :=
  if off = Reg.schTide then
    e.tau + (match e.tideActive with
      | some t => 2 ^ 23 + t.polder * 2 ^ 24
      | none => 0)
  else if off = Reg.schQuarantine then ofBits (e.pld.quarantine.map (·.1))
  else if Reg.schLive0 ≤ off ∧ off < Reg.schLive0 + 32 ∧ off % 8 = 0 then
    ofBits ((List.range 64).filter (fun i => e.live (64 * ((off - Reg.schLive0) / 8) + i)))
  else e.reg off

/-- Cutting tables and weight cache. -/
def Eng.readCt (e : Eng) (off : Nat) : Nat :=
  let l := e.lslot (field (e.reg Reg.ctSlotSel) 0 8)
  if off = Reg.ctStatus then
    bitAt 0 (e.ctPresent 0) + bitAt 1 (e.ctPresent 1) + ofBits ((List.range 6).filter e.slicePresent) * 2 ^ 4 +
    (4 - e.sparesUsed 0) * 2 ^ 16 + (4 - e.sparesUsed 1) * 2 ^ 20
  else if off = Reg.ctWimg then l.wimg
  else if off = Reg.ctWstat then
    bitAt 0 l.bound + bitAt 1 l.cached + bitAt 2 l.loading + bitAt 3 l.wpend.isSome + field (e.reg Reg.ctWstat) 16 8 * 2 ^ 16
  else if off = Reg.ctWgen then (if l.cached then l.wgen else 0)
  else e.reg off

/-- Hem unit. -/
def Eng.readHem (e : Eng) (off : Nat) : Nat :=
  let s := field (e.reg Reg.hemSlotSel) 0 8
  if off = Reg.hemStatus then bitAt 0 (e.hemPresent 0) + bitAt 1 (e.hemPresent 1)
  else if off = Reg.hemTblrev then (match e.pat with
    | some p => p.hem.rev
    | none => 0)
  else if off = Reg.hemSlotcfg then
    bitAt 8 (e.askuc s) + (match e.pat.bind (fun p => KV.find p.hem.slots s) with
      | some (eps, norm) => norm % 4 + eps % 2 ^ 32 * 2 ^ 32
      | none => 0)
  else if Reg.hemLayermode0 ≤ off ∧ off < Reg.hemLayermode0 + 32 then
    ofBits ((List.range 32).filter (fun i => e.askuc (8 * (off - Reg.hemLayermode0) + i)))
  else if off = Reg.hemDiagStatus then bitAt 0 e.diag.isSome + field (e.reg off) 1 2 * 2
  else e.reg off

/-- Selector and fitting. -/
def Eng.readSel (e : Eng) (off : Nat) : Nat :=
  let s := field (e.reg Reg.selSlotSel) 0 8
  let l := e.lslot s
  let host (f : HostRole → Bool) : Bool := e.roles.any (fun h => h.slot == s && f h)
  if off = Reg.selStatus then
    bitAt 0 (e.selPresent 0) + bitAt 1 (e.selPresent 1) + bitAt 2 (e.lslots.any (fun kl => kl.2.biasPend.isSome)) +
    bitAt 3 (e.lslots.any (fun kl => kl.2.biasZeroing))
  else if off = Reg.selBiasaddr then l.biasReg
  else if off = Reg.selRot then l.rot
  else if off = Reg.fitTlayer then l.tlayer
  else if off = Reg.fitCap then l.cap
  else if off = Reg.fitStatus then
    bitAt 0 (e.selPresent 0) + bitAt 1 (e.selPresent 1) + bitAt 2 (host (fun h => h.detm && !h.heldBids.isEmpty)) +
    bitAt 3 (host (fun h => h.reserving)) + l.lastRound * 2 ^ 4
  else e.reg off

/-- Pleater and route tables. -/
def Eng.readPlt (e : Eng) (off : Nat) : Nat :=
  if off = Reg.pltShapeAddr then (e.lslot (field (e.reg Reg.pltSlotSel) 0 8)).shapeAddr
  else if off = Reg.pltStatus then bitAt 0 (e.pltPresent 0) + bitAt 1 (e.pltPresent 1) + e.topo.matrixFmt % 16 * 2 ^ 8
  else if off = Reg.pltRtData then
    let v := e.reg Reg.pltRtSel
    match e.pat with
    | none => 0
    | some p => if bit v 11 then (if field v 0 10 < 128 then KV.get 0 p.chipRoute (field v 0 10) else 0) else KV.get 0 p.rackRoute (field v 0 10)
  else e.reg off

/-- Shuttle. -/
def Eng.readShu (e : Eng) (off : Nat) : Nat :=
  if off < 0x84000 ∧ off % 256 = 0 then
    match KV.find e.chans (off % 0x10000 / 256) with
    | some c => 1 + bitAt 1 (e.channelReady c) + c.prio % 8 * 2 ^ 8 + c.ring * 2 ^ 14 + c.polder * 2 ^ 24
    | none => 0
  else if off = Reg.shuTtStatus then e.tt.length + field (e.reg off) 16 13 * 2 ^ 16
  else e.reg off

/-- Sluice ports. -/
def Eng.readSlc (e : Eng) (off : Nat) : Nat :=
  let p := off % 0x10000 / 1024
  if off < 0x94000 then
    if p ≥ e.portCount then 0
    else if off % 1024 = 0 then
      let x := e.port p
      (if e.portPresent p then x.link else 4) + bitAt 4 (e.portSwred p) + bitAt 5 x.fixedOrder + x.negVer * 2 ^ 8 + x.peerMax * 2 ^ 12
    else if off % 1024 = 8 then (match e.portCfg p with
      | some c => c.vcWeight
      | none => 0)
    else e.reg off
  else if off = Reg.slcPeerver then
    let c := field (e.reg Reg.slcPeerverSel) 0 17
    KV.get 0 e.peerVer c * 2 ^ 4 + e.endVersion c
  else if off = Reg.slcExcluded then e.excl.length
  else e.reg off

/-- Bytes of the buffers of an area. -/
def Area.bytes (a : Area) : Nat := ((a.bufs ++ a.bits ++ a.stageBufs ++ a.saved).map (·.size)).sum

/-- Seamer. -/
def Eng.readSem (e : Eng) (off : Nat) : Nat :=
  if off = Reg.semStatus then
    bitAt 0 (e.semPresent 0) + bitAt 1 (e.semPresent 1) + bitAt 2 (e.bob.waits.any (fun w => match w.who with
      | .area _ => true
      | _ => false))
  else if off = Reg.semLvAddr then (e.lslot (field (e.reg Reg.semSlotSel) 0 8)).lvAddr
  else if off = Reg.semAreaBytes then (e.works.map (fun w => w.area.bytes + w.bwdArea.bytes)).sum
  else e.reg off

/-- Spool. -/
def Eng.readSpl (e : Eng) (off : Nat) : Nat :=
  let q := field (e.reg Reg.splQsel) 0 13
  let cell := field (e.reg Reg.splCellSel) 0 18
  if off = Reg.splQcfg then (match KV.find e.spool.cfg q with
    | some c => c.word
    | none => 7)
  else if off = Reg.splQstat then e.qstat q
  else if off = Reg.splQpkt then (e.squeue q).pktIn % 2 ^ 32 + (e.squeue q).pktOut % 2 ^ 32 * 2 ^ 32
  else if off = Reg.splPool then e.poolFree + e.spineFree * 2 ^ 32
  else if off = Reg.splBanks then ofBits e.banksPresent
  else if off = Reg.splRetired then e.spool.retired.length
  else if off = Reg.splCellMeta0 then (if cell < 196608 then e.cellMeta cell else 0)
  else if off = Reg.splCellMeta1 then (if cell < 196608 then (Config.metaCheck (e.cellMeta cell)).toNat * 2 ^ 40 else 0)
  else if off = Reg.splScrub then e.spool.scrubPasses
  else if off = Reg.splBpStall then e.bpStall
  else e.reg off

/-- Bobbin pool manager. -/
def Eng.readBob (e : Eng) (off : Nat) : Nat :=
  let polder := field (e.reg Reg.bobPolderSel) 0 8
  let pool := field (e.reg Reg.bobPoolSel) 0 3
  let seqs (f : BSeq → Bool) : Nat := (e.bob.seqs.filter (fun s => s.polder == polder && f s)).length
  if off = Reg.bobStatus then e.bobStatus
  else if off = Reg.bobHeld then e.bobH polder pool
  else if off = Reg.bobResv then e.bobR polder pool + e.bobU polder pool * 2 ^ 32
  else if off = Reg.bobSeqs then seqs (·.admitted) + seqs (·.deferred) * 2 ^ 16
  else if off = Reg.bobOrphan then (e.bob.entries.filter (fun kv => kv.2.st == .orphan)).length
  else if off = Reg.bobEntry then
    let n := field (e.reg Reg.bobQuery) 0 22
    if n < e.bufTotal then e.entryWord n else 0
  else if 0xC0100 ≤ off ∧ off < 0xC0180 ∧ off % 16 = 12 then
    let p := (off - 0xC0100) / 16
    e.poolAvail p + (e.bob.waits.filter (fun w => w.pools.contains p)).length % 512 * 2 ^ 23
  else e.reg off

/-- STATE codes of Table 12-10. -/
def GroupState.code : GroupState → Nat
  | .unformed => 0 | .forming => 1 | .formed => 2 | .broken => 3 | .reforming => 4

/-- Collective unit. -/
def Eng.readCol (e : Eng) (off : Nat) : Nat :=
  let g := e.group (field (e.reg Reg.colGroupSel) 0 6)
  let of_ := (List.range 64).map e.group
  let root := g.rootChip 0
  let mates := (trayNodes g.members root e.chip).filter (· != e.chip)
  if off = Reg.colStatus then (of_.filter (fun x => x.st != .unformed)).length + (of_.map (fun x => x.ops.length)).sum * 2 ^ 8
  else if g.st == .unformed && [Reg.colGstat, Reg.colGmembers, Reg.colGexclude, Reg.colGseq, Reg.colGflags].contains off then
    (if off = Reg.colGstat then g.epoch * 2 ^ 12 else 0)
  else if off = Reg.colGstat then
    g.st.code + g.owner * 2 ^ 4 + g.epoch * 2 ^ 12 + posIn g.members e.chip * 2 ^ 28 + g.members.length * 2 ^ 46
  else if off = Reg.colGmembers then g.membersAddr
  else if off = Reg.colGexclude then g.excludeAddr
  else if off = Reg.colGseq then g.seq
  else if off = Reg.colGflags then
    bitAt 0 g.factorOk + bitAt 1 (e.switchTray g.members root false) +
    bitAt 2 (!mates.isEmpty && mates.all (fun c => !(e.linkPorts c).isEmpty && (e.linkPorts c).all (fun p => (e.port p).fixedOrder))) +
    g.ops.length * 2 ^ 8 + e.groupChunk g.members root / 4096 * 2 ^ 16
  else e.reg off

/-- Determinism and time base. -/
def Eng.readDet (e : Eng) (off : Nat) : Nat :=
  if off = Reg.detStatus then bitAt 0 e.detm + bitAt 1 e.time.locked + bitAt 2 e.time.root + bitAt 3 (bit (e.reg off) 3)
  else if off = Reg.detHalltime then e.now % 2 ^ 64
  else if off = Reg.detSeed then (if (e.pslot e.seedSlot).st == .empty then 0 else (e.pslot e.seedSlot).seed.toNat)
  else if off = Reg.detTimeParent then e.timeParent.getD 0
  else e.reg off

/-- RECOVERY codes of Table 15-13. -/
def Eng.recoveryCode (e : Eng) : Nat :=
  match e.flt.recovery with
  | some (.substitution _ _) => 1
  | some (.bay _) => 2
  | some (.dike _) => 3
  | some .compute => 4
  | none => if e.flt.takeovers.isEmpty then 0 else 5

/-- Fault and gusset control. -/
def Eng.readFlt (e : Eng) (off : Nat) : Nat :=
  let absent := (0xF0020 ≤ off && off < 0xF0030 && (off - 0xF0020) / 4 ≥ e.quarterCount) ||
    (0xF0040 ≤ off && off < 0xF0080 && (off - 0xF0040) / 16 ≥ e.quarterCount)
  if absent then 0
  else if off = Reg.fltStatus then bitAt 0 e.flt.failed + bitAt 1 e.degraded + e.recoveryCode * 2 ^ 8 + min e.flt.queue.length 64 * 2 ^ 16
  else if off = Reg.fltBays then ofBits e.containedBays
  else if off = Reg.fltDikes then ofBits e.flt.dikesContained + ofBits e.flt.dikesReset * 2 ^ 8
  else if off = Reg.fltNoticeSeq then e.flt.nseq
  else if off = Reg.fltLost then (match (e.flt.lost[field (e.reg Reg.fltLostSel) 0 8]?).join with
    | some c => 2 ^ 31 + c
    | none => 0)
  else if off = Reg.fltHold then (e.flt.holds.filter (fun kh => e.holding kh.1)).length
  else e.reg off

/-- TWK_GAU_TACK_INFO of a bank. -/
def bankInfo (b : Option Shadow) : Nat :=
  match b with
  | some s => 1 + bitAt 1 s.scope + bitAt 2 s.late + s.latches * 2 ^ 16
  | none => 0

/-- A gauge record (Table 17-8). -/
def Gauge.at (g : Gauge) (o : Nat) : Nat :=
  if o = 0 then g.count
  else if o = 8 then g.sum
  else if o = 16 then g.min
  else if o = 24 then g.max
  else if o = 32 then g.clearedAt
  else if 0x100 ≤ o ∧ o % 4 = 0 then KV.get 0 g.bins ((o - 0x100) / 4)
  else 0

/-- Gauges and counters. -/
def Eng.readGau (e : Eng) (off : Nat) : Nat :=
  let sel := e.reg Reg.gauExpSel
  let x : ExpCnt := KV.get {} e.experts (sel % 1024)
  let s : SrcCnt := KV.get {} e.srcs (field sel 2 8)
  if 0x101000 ≤ off ∧ off < 0x111000 then (e.gaugeAt ((off - 0x101000) / 512)).at (off % 512)
  else if off = Reg.gauBind then (e.gaugeAt e.gaugeSel).bind
  else if off = Reg.gauStatus then
    (e.gauges.filter (fun kg => bit kg.2.bind 16)).length + bitAt 8 (bit (e.reg off) 8)
  else if off = Reg.gauTackT0 then (match e.bank0 with
    | some b => b.t
    | none => 0)
  else if off = Reg.gauTackT1 then (match e.bank1 with
    | some b => b.t
    | none => 0)
  else if off = Reg.gauTackInfo0 then bankInfo e.bank0
  else if off = Reg.gauTackInfo1 then bankInfo e.bank1
  else if off = Reg.gauTackPend then e.tacks.length
  else if off = Reg.gauExpDemand then x.demand
  else if off = Reg.gauExpGranted then x.granted
  else if off = Reg.gauExpRefused then x.refused
  else if off = Reg.gauExpSpilledIn then x.spilledIn
  else if off = Reg.gauExpVoided then x.voided
  else if off = Reg.gauExpLast then x.lastGranted % 2 ^ 32 + x.lastStep % 2 ^ 32 * 2 ^ 32
  else if off = Reg.gauSrcPlaced then s.placed
  else if off = Reg.gauSrcSpilled then s.spilled
  else if off = Reg.gauSrcDropped then s.dropped
  else e.reg off

/-- The value of the register at an offset, 32 or 64 bits; 0 where there is none (log 16, DEDUCED). -/
def Eng.readLive (e : Eng) (off : Nat) : Nat :=
  match off / 0x10000 with
  | 0 => e.readCtl off
  | 1 => e.readPat off
  | 2 => e.readSlot (off % 0x10000 / 0x1000) (off % 0x1000)
  | 3 => e.readSch off
  | 4 => e.readCt off
  | 5 => e.readHem off
  | 6 => e.readSel off
  | 7 => e.readPlt off
  | 8 => e.readShu off
  | 9 => e.readSlc off
  | 10 => e.readSem off
  | 11 => e.readSpl off
  | 12 => e.readBob off
  | 13 => e.readCol off
  | 14 => e.readDet off
  | 15 => e.readFlt off
  | 16 => e.readGau off
  | 17 => e.readGau off
  | 64 => if off < 0x400280 then rdLE e.mirror (off - 0x400000) (if isWide off then 8 else 4) else 0
  | _ => 0

/-! ### Shadow banks (R393) -/

/-- Counters that stand alone (Table 17-2; log 17, DEDUCED). -/
def counterRegs : List Nat :=
  [Reg.patFrames, Reg.patFrameErr, Reg.patDroppedDb, Reg.wcErr, Reg.ctChecks, Reg.ctMismatch, Reg.hemClamped, Reg.hemNonfinite, Reg.hemTblErr,
   Reg.selNumericRow, Reg.selMaskedRow, Reg.selInfRow, Reg.selZeroWeight, Reg.selBiasSkipped, Reg.fitRefused, Reg.fitDropped] ++
  [Reg.fitUnreachable, Reg.fitEarlyBids, Reg.fitVoided, Reg.shuErr, Reg.semStale, Reg.semTagMismatch, Reg.semUnreadable, Reg.semNodot,
   Reg.semLowvis, Reg.splQpkt, Reg.splPool, Reg.splEcc, Reg.splRetired, Reg.splFlushed, Reg.splBpStall, Reg.splScrub] ++
  [Reg.bobDf, Reg.bobResvShort, Reg.colSw, Reg.colRebuilt, Reg.colAborts, Reg.schOffhome, Reg.detBarrier, Reg.detVoids, Reg.detHalltime,
   Reg.fltCount, Reg.evtLost, Reg.gauTackDrop, Reg.gauResets, Reg.gauExpDemand, Reg.gauExpGranted, Reg.gauExpRefused] ++
  [Reg.gauExpSpilledIn, Reg.gauExpVoided, Reg.gauExpLast, Reg.gauSrcPlaced, Reg.gauSrcSpilled, Reg.gauSrcDropped]

/-- Whether a register is a counter of Table 17-2 (log 17, DEDUCED). -/
def isCounter (off : Nat) : Bool :=
  if off / 0x10000 = 2 then off % 0x1000 == Reg.pldConsentErr || (0x48 ≤ off % 0x1000 && off % 0x1000 ≤ 0x90)
  else if 0x80000 ≤ off ∧ off < 0x84000 then off % 256 == 8 || off % 256 == 16
  else if 0x90000 ≤ off ∧ off < 0x94000 then off % 1024 ≥ 0x10
  else if 0x101000 ≤ off ∧ off < 0x111000 then true
  else if 0xC0 ≤ off ∧ off < 0x100 then true
  else counterRegs.contains off

/-- The shadow bank that a port's view selects, if it selects one (log 17, DEDUCED). -/
def Eng.viewBank (mgmt : Bool) (e : Eng) : Option (Option Shadow) :=
  match field (e.reg (if mgmt then Reg.gauViewMgt else Reg.gauView)) 0 2 with
  | 1 => some e.bank0
  | 2 => some e.bank1
  | _ => none

/-- The engine with its counters as a bank holds them. -/
def Eng.asOf (e : Eng) (b : Shadow) : Eng :=
  { e with
    regs := KV.put (KV.put b.regs Reg.splQsel (e.reg Reg.splQsel)) Reg.gauExpSel (e.reg Reg.gauExpSel)
    gauges := b.gauges, experts := b.experts, srcs := b.srcs, spool := b.spool, bob := b.bob
    pld.slots := b.slots, tt := b.tt, loader := b.loader, time.ns := b.ns }

/-- A counter out of a bank; an empty bank holds zeros (log 17, DEDUCED). -/
def Eng.shadowed (e : Eng) (b : Option Shadow) (off : Nat) : Nat :=
  match b with
  | some b => (e.asOf b).readLive off
  | none => 0

/-- The value of the register at an offset as a port sees it (log 17, DEDUCED). -/
def Eng.readView (mgmt : Bool) (e : Eng) (off : Nat) : Nat :=
  match e.viewBank mgmt with
  | none => e.readLive off
  | some b =>
    if isCounter off then e.shadowed b off
    else if off = Reg.splQstat then setField (e.readLive off) 20 36 (field (e.shadowed b off) 20 36)
    else if off = Reg.shuTtStatus then setField (e.readLive off) 0 13 (field (e.shadowed b off) 0 13)
    else e.readLive off

/-! ### One access (R418) -/

/-- A 32-bit read. -/
def Eng.read32 (mgmt : Bool) (e : Eng) (off : Nat) : Nat :=
  if isWide off then e.readView mgmt off % 2 ^ 32
  else if off ≥ 4 && isWide (off - 4) then e.readView mgmt (off - 4) / 2 ^ 32 % 2 ^ 32
  else e.readView mgmt off % 2 ^ 32

/-- What reading a register clears (Tables 8-8, 10-8). -/
def Eng.readClears (off : Nat) (e : Eng) : Eng :=
  if off = Reg.shuTtStatus then e.setReg off 0
  else if off = Reg.splQstat then (if (e.squeue (field (e.reg Reg.splQsel) 0 13)).broken then
      e.setQueue (field (e.reg Reg.splQsel) 0 13) (fun q => { q with broken := false }) else e)
  else e

/-- Whether an access has a width and place that R418 accepts. -/
def accessOk (off : Nat) (wide : Bool) : Bool := off % (if wide then 8 else 4) == 0 && off < 0x800000

/-- A read: its value, and the engine after it (log 16, DEDUCED). -/
def Eng.readAccess (mgmt : Bool) (off : Nat) (wide : Bool) (e : Eng) : Nat × Eng :=
  if !accessOk off wide then (0, e)
  else if !wide then (e.read32 mgmt off, e.readClears off)
  else if isWide off then (e.readView mgmt off % 2 ^ 64, e.readClears off)
  else
    let lo := e.read32 mgmt off
    let e := e.readClears off
    (lo + e.read32 mgmt (off + 4) * 2 ^ 32, e.readClears (off + 4))

end Sys2Proof.Machine
end

