-- ==== Sys2Proof/Machine/RegWrite.lean ====
section
/-! DEFINITION. What a write of each register does (the register tables of chapters 2 to 20), notices (R362), and accesses of
the two ports (R379, R418, R431, R437). -/

namespace Sys2Proof.Machine

/-! ### Access types (R11, R431) -/

/-- W1C fields of a register written `v`: a field whose every bit is written 1 becomes 0. -/
def w1c (old v : Nat) (fields : List (Nat × Nat)) : Nat :=
  fields.foldl (fun o f => if field v f.1 f.2 = 2 ^ f.2 - 1 then setField o f.1 f.2 0 else o) old

/-- Fields of a register held in two counters of 16 bits, and of one of 32. -/
def halves : List (Nat × Nat) := [(0, 16), (16, 16)]
def whole : List (Nat × Nat) := [(0, 32)]

/-- W1C counters held as plain storage (log 16, DEDUCED). -/
def w1cFields (off : Nat) : List (Nat × Nat) :=
  if 0x90000 ≤ off ∧ off < 0x94000 then
    (if off % 1024 = 0x20 ∨ off % 1024 = 0x28 then halves else if off % 1024 = 0x24 ∨ off % 1024 = 0x2C then whole else [])
  else if [Reg.wcErr, Reg.ctMismatch, Reg.hemTblErr, Reg.shuErr, Reg.semUnreadable, Reg.semLowvis, Reg.splEcc, Reg.splFlushed, Reg.bobDf,
      Reg.colSw, Reg.colAborts, Reg.detBarrier, Reg.evtLost].contains off then halves
  else if [Reg.patDroppedDb, Reg.hemClamped, Reg.hemNonfinite, Reg.selNumericRow, Reg.selMaskedRow, Reg.selInfRow, Reg.selZeroWeight,
      Reg.selBiasSkipped, Reg.fitRefused, Reg.fitDropped, Reg.fitUnreachable, Reg.fitEarlyBids, Reg.fitVoided].contains off then whole
  else if [Reg.semStale, Reg.semTagMismatch, Reg.semNodot, Reg.splBpStall, Reg.bobResvShort, Reg.colRebuilt, Reg.schOffhome, Reg.detVoids,
      Reg.gauTackDrop].contains off then whole
  else []

/-- Writable bits of the registers that only store what is written (log 16, DEDUCED; log 62, DESIGN CHOICE). -/
def plainMask (off : Nat) : Nat :=
  if [Reg.patSrc, Reg.patKeep, Reg.pwrDeepSave].contains off then 2 ^ 64 - 1
  else if [Reg.patLen, Reg.fltCount, Reg.ctColmap0, Reg.ctColmap1].contains off then 2 ^ 32 - 1
  else if off = Reg.bobQuery then 0xFDFFFFFF
  else if [Reg.ctSlotSel, Reg.hemSlotSel, Reg.selSlotSel, Reg.pltSlotSel, Reg.semSlotSel, Reg.bobPolderSel, Reg.fltLostSel].contains off then 0xFF
  else if [Reg.ctCtrl, Reg.schCtrl, Reg.fltCtrl, Reg.gauView].contains off then 3
  else if [Reg.hemCtrl, Reg.colCtrl].contains off then 1
  else if off = Reg.pltRtSel then 0xBFF
  else if off = Reg.slcAckTo ∨ off = Reg.gauExpSel then 0x3FF
  else if off = Reg.slcPeerverSel then 0x1FFFF
  else if off = Reg.splQsel then 0x1FFF
  else if off = Reg.splCellSel then 0x3FFFF
  else if off = Reg.bobPoolSel then 7
  else if off = Reg.colGroupSel then 0x3F
  else if off = Reg.colFormTo then 0xFFFF
  else if off = Reg.detSeedSel then 0xF
  else if off = Reg.gauSel then 0x7F
  else if off = Reg.evtMask then 0x7FE
  else 0

/-! ### Notices (R362, R363) -/

/-- Whether a notice is newer than the last one applied (log 18, DEDUCED). -/
def Eng.newer (e : Eng) (nseq : Nat) : Bool := !e.flt.nseqAny || decide (toSigned 16 (nseq + 2 ^ 16 - e.flt.nseq % 2 ^ 16) > 0)

/-- A notice of a kind for a chip, in NSEQ order (log 18, DEDUCED). -/
def Eng.notice (nseq : Nat) (f : Eng → Eng) (e : Eng) : Eng :=
  if !e.boot.powered then e
  else
    let e := e.wake
    if e.newer nseq then f { e with flt := { e.flt with nseq := nseq % 2 ^ 16, nseqAny := true } } else e

/-- LOST: during a compute reset it waits; with the list full it starts one (log 13, DEDUCED; log 18, DEDUCED). -/
def Eng.noticeLost (m : Mem) (x : Nat) (e : Eng) : Eng :=
  if x = e.chip || e.isLost x then e
  else if e.flt.recovery = some .compute then { e with flt.latchedLost := e.flt.latchedLost ++ [x] }
  else if e.flt.lost.length ≥ 256 && !e.flt.lost.contains none then (e.addFault .compute)
  else (e.applyLost m x).settle m

/-- A write of TWK_FLT_NOTICE (log 16, DEDUCED; log 18, DEDUCED). -/
def Eng.writeNotice (m : Mem) (v : Nat) (e : Eng) : Eng :=
  let x := field v 0 17
  let n := field v 48 16
  match field v 32 8 with
  | 1 => e.notice n (fun e => e.applyHold x)
  | 2 => e.notice n (fun e => (e.endHold m x).settle m)
  | 3 => e.notice n (fun e => e.noticeLost m x)
  | 4 => e.notice n (fun e => e.applyClear x)
  | 5 => e.notice n (fun e => e.suspectChip x)
  | _ => e

/-! ### Registers with effects of their own -/

/-- A write of TWK_PAT_CTRL's LOAD (R45, corner cases): latched while an image is verified or applied. -/
def Eng.writeLoad (m : Mem) (e : Eng) : Eng :=
  if e.loader.st == .verifying || e.loader.st == .applying then { e with loader := { e.loader with loadPend := true } } else e.loadNow m

/-- ABORT ends a broadcast begun here. -/
def Eng.abortSend (e : Eng) : Eng := { e with loader := { e.loader with sending := false } }

/-- A write of TWK_PAT_CTRL. -/
def Eng.writePatCtrl (m : Mem) (v : Nat) (e : Eng) : Eng :=
  let e := e.setReg Reg.patCtrl (bitAt 1 (bit v 1))
  let e := if bit v 2 then e.abortSend else e
  if bit v 0 then e.writeLoad m else e

/-- INIT of the buffer table (R258). -/
def Eng.initBob (e : Eng) : Eng := if e.heldAny || !e.configValid then e.bobRefuse else e.bobInitTable false

/-- A write of TWK_BOB_CTRL (log 35, DEDUCED). -/
def Eng.writeBobCtrl (v : Nat) (e : Eng) : Eng :=
  let e := e.setReg Reg.bobCtrl (v % 2)
  if bit v 1 then e.initBob else e

/-- Registers of the pool configuration (R259). -/
def isPoolReg (off : Nat) : Bool := off == Reg.bobTable || (0xC0100 ≤ off && off < 0xC0180 && (off % 16 == 0 || off % 16 == 8))

/-- A write of TWK_BOB_TABLE or a pool register: refused while a buffer is in use, else the table starts over once the
configuration is valid (R258, R259); TWK_BOB_TABLE is 4,096 B aligned (log 58, DESIGN CHOICE). -/
def Eng.writePool (off byteOff : Nat) (wide : Bool) (v : Nat) (e : Eng) : Eng :=
  if e.heldAny then e.bobRefuse
  else
    let new := mergeHalf (e.reg off) byteOff wide v
    let e := e.setReg off (if off = Reg.bobTable then new / 4096 * 4096 else if off % 16 = 8 then v % 2 ^ 23 else new)
    if e.poolsValid then e.bobInitTable false else e

/-- A write of a queue's configuration, in the pattern-load state only (R11, R432). -/
def Eng.writeQcfg (byteOff : Nat) (wide : Bool) (v : Nat) (e : Eng) : Eng :=
  if !e.patternLoad then e
  else
    let q := field (e.reg Reg.splQsel) 0 13
    let old := match KV.find e.spool.cfg q with
      | some c => c.word
      | none => 7
    match QueueCfg.ofWord (mergeHalf old byteOff wide v) with
    | some c => { e with spool.cfg := KV.put e.spool.cfg q c }
    | none => { e with spool.cfg := KV.del e.spool.cfg q }

/-- A write of the ring window of a slot that is not EMPTY. -/
def Eng.writeWindow (m : Mem) (slot o byteOff : Nat) (wide : Bool) (v : Nat) (e : Eng) : Eng :=
  let p := e.pslot slot
  let win (f : RingWindow → RingWindow) : Eng := e.setPslot slot (fun p => { p with wins := KV.upd {} p.wins p.ringSel f })
  let w := KV.get {} p.wins p.ringSel
  if o = Reg.pldRingSel then e.setPslot slot (fun p => { p with ringSel := v % 1024 })
  else if o = Reg.pldRingBase then win (fun x => { x with base := mergeHalf w.base byteOff wide v })
  else if o = Reg.pldRingCfg then win (fun x => { x with cfg := setBit (v % 2 ^ 32) 30 false })
  else if o = Reg.pldRingQueue then win (fun x => { x with queue := v % 2 ^ 13 })
  else if o = Reg.pldCplBase then win (fun x => { x with cplBase := mergeHalf w.cplBase byteOff wide v })
  else if o = Reg.pldRingHeadwb then win (fun x => { x with headWb := mergeHalf w.headWb byteOff wide v })
  else if o = Reg.pldRingCmd then (e.ringCmd slot v).settle m
  else if o = Reg.pldCplHead then e.writeCplHead m slot v
  else e

/-- A write of a polder slot's register. -/
def Eng.writeSlot (m : Mem) (counters : Bool) (slot o byteOff : Nat) (wide : Bool) (v : Nat) (e : Eng) : Eng :=
  let p := e.pslot slot
  if o = Reg.pldCmd then e.slotCommand m slot (v % 16) (field v 16 8)
  else if o = Reg.pldStageSave then e.setPslot slot (fun p => { p with stageSave := mergeHalf p.stageSave byteOff wide v })
  else if o = Reg.pldStagePiece then e.setPslot slot (fun p => { p with stagePiece := mergeHalf p.stagePiece byteOff wide v })
  else if o = Reg.pldStagePlen then e.setPslot slot (fun p => { p with stagePlen := v % 2 ^ 32 })
  else if o = Reg.pldStageClient then e.setPslot slot (fun p => { p with stageClient := v % 2 ^ 16 })
  else if p.st == .empty then e
  else if o = Reg.pldConsent then e.takeConsent slot wide v
  else if o = Reg.pldConsentErr then (if counters then e.setPslot slot (fun p => { p with consentErr := w1c p.consentErr v halves }) else e)
  else e.writeWindow m slot o byteOff wide v

/-- Registers that only the management port writes (R437). -/
def isMgmtReg (off : Nat) : Bool := off == Reg.fltNotice || off == Reg.gauViewMgt || (0xF0020 ≤ off && off < 0xF0080)

/-- A write of a register that only the management port writes: maps and masks at bring-up, notices, its view
(Table 15-11; log 16, DEDUCED). -/
def Eng.writeMgmt (m : Mem) (off byteOff : Nat) (wide : Bool) (v : Nat) (e : Eng) : Eng :=
  if off = Reg.fltNotice then (if wide then e.writeNotice m v else e)
  else if off = Reg.gauViewMgt then e.setReg off (v % 4)
  else if e.boot.everReady then e
  else if off < 0xF0040 then
    (if off % 4 = 0 && (off - 0xF0020) / 4 < e.quarterCount then (e.setReg off (v % 2 ^ 18)).updateReplace else e)
  else if off % 8 = 0 && (off - 0xF0040) / 16 < e.quarterCount then
    (e.setReg off (Nat.land (mergeHalf (e.reg off) byteOff wide v) 0xDFDFDFDFDFDFDFDF)).updateReplace
  else e

/-- A write of the register at an offset: half of a 64-bit one from `byteOff` on, or all of it. `counters` tells that the
port's view shows live counters (R393; log 16, DEDUCED). -/
def Eng.writeVal (m : Mem) (mgmt : Bool) (off byteOff : Nat) (wide : Bool) (v : Nat) (e : Eng) : Eng :=
  let counters := (e.viewBank mgmt).isNone
  let layer (sel : Nat) : Nat := field (e.reg sel) 0 8
  if isMgmtReg off then (if mgmt then e.writeMgmt m off byteOff wide v else e)
  else if off / 0x10000 = 2 then e.writeSlot m counters (off % 0x10000 / 0x1000) (off % 0x1000) byteOff wide v
  else if isPoolReg off then (e.writePool off byteOff wide v).settle m
  else if off = Reg.patCtrl then e.writePatCtrl m v
  else if off = Reg.patStatus then (if bit v 29 then { e with loader := { e.loader with loadRefused := false } } else e)
  else if off = Reg.patFrameErr then
    (if counters then { e with loader := { e.loader with crcFails := if field v 16 16 = 0xFFFF then 0 else e.loader.crcFails
                                                         foreign := if field v 0 16 = 0xFFFF then 0 else e.loader.foreign } } else e)
  else if off = Reg.schDestroyId then e.destroyId m (v % 256)
  else if off = Reg.ctWimg then e.setLslot (layer Reg.ctSlotSel) (fun l => { l with wimg := mergeHalf l.wimg byteOff wide v })
  else if off = Reg.ctWcmd then e.writeWcmd m v
  else if off = Reg.hemDiagCmd then e.writeDiag v
  else if off = Reg.hemDiagA ∨ off = Reg.hemDiagB then e.writeDiagArg off (v % 2 ^ 32)
  else if off = Reg.selBiasaddr then e.writeBias byteOff wide v
  else if off = Reg.fitTlayer then e.setLslot (layer Reg.selSlotSel) (fun l => { l with tlayer := v % 2 ^ 32 })
  else if off = Reg.pltShapeAddr then e.setLslot (layer Reg.pltSlotSel) (fun l => { l with shapeAddr := mergeHalf l.shapeAddr byteOff wide v })
  else if off = Reg.semLvAddr then e.setLslot (layer Reg.semSlotSel) (fun l => { l with lvAddr := mergeHalf l.lvAddr byteOff wide v })
  else if off = Reg.splQcfg then e.writeQcfg byteOff wide v
  else if off = Reg.bobCtrl then (e.writeBobCtrl v).settle m
  else if off = Reg.bobStatus then (if bit v 1 then { e with bob.refused := false } else e)
  else if off = Reg.engMode then e.writeMode v
  else if off = Reg.engReset then e.writeReset v
  else if off = Reg.engFunc then e.writeFunc v
  else if off = Reg.wakeTol then e.writeWakeTol (v % 2 ^ 32)
  else if off = Reg.detStatus then (if bit v 3 then e.setReg off (setBit (e.reg off) 3 false) else e)
  else if off = Reg.detSeed then e.writeSeed byteOff wide v
  else if off = Reg.evtBase then e.writeEvtBase byteOff wide v
  else if off = Reg.evtCfg then e.writeEvtCfg v
  else if off = Reg.evtHead then e.writeEvtHead (v % 2 ^ 32)
  else if off = Reg.gauBind then e.bindGauge byteOff wide v
  else if off = Reg.gauCmd then
    let e := if bit v 0 then e.clearGauge e.gaugeSel else e
    if bit v 1 then e.clearGauges else e
  else if off = Reg.gauStatus then (if bit v 8 then e.setReg off (setBit (e.reg off) 8 false) else e)
  else if !(w1cFields off).isEmpty then
    (if counters && !(0x90000 ≤ off && off < 0x94000 && (off - 0x90000) / 1024 ≥ e.portCount) then
      let e := if off = Reg.splBpStall then e.bpSettle else e
      e.setReg off (w1c (e.reg off) v (w1cFields off)) else e)
  else if plainMask off ≠ 0 then
    let x := Nat.land (if isWide off then mergeHalf (e.reg off) byteOff wide v else v) (plainMask off)
    let e := e.setReg off x
    if off = Reg.ctColmap0 ∨ off = Reg.ctColmap1 then e.updateReplace else e
  else e

/-! ### Accesses (R379, R418, R437) -/

/-- A 32-bit write. -/
def Eng.write32 (m : Mem) (mgmt : Bool) (off v : Nat) (e : Eng) : Eng :=
  if isWide off then e.writeVal m mgmt off 0 false v
  else if off ≥ 4 && isWide (off - 4) then e.writeVal m mgmt (off - 4) 4 false v
  else e.writeVal m mgmt off 0 false v

/-- A write; doorbells act on a 64-bit write of their low half only (R69, R418; log 16, DEDUCED). -/
def Eng.writeAccess (m : Mem) (mgmt : Bool) (off : Nat) (wide : Bool) (v : Nat) (e : Eng) : Eng :=
  if !accessOk off wide then e
  else if 0x200000 ≤ off ∧ off < 0x220000 then e.doorbell ((off - 0x200000) / 16) (off % 16) wide v
  else if !wide then e.write32 m mgmt off (v % 2 ^ 32)
  else if isWide off then e.writeVal m mgmt off 0 true v
  else (e.write32 m mgmt off (v % 2 ^ 32)).write32 m mgmt (off + 4) (v / 2 ^ 32 % 2 ^ 32)

/-- Blocks whose accesses end no idleness: engine control, gauges, determinism, the Tape mirror; doorbells look after
themselves (R379, R430; log 12, DEDUCED). -/
def quietBlock (off : Nat) (write : Bool) : Bool :=
  let b := off / 0x10000
  (b == 0 && !(write && (off == Reg.engFunc || off == Reg.engReset))) || b == 14 || (16 ≤ b && b < 34) || b == 64

/-- Whether an MMIO access waits for an exit to ACTIVE, or the end of a compute reset (log 12, DEDUCED). -/
def Eng.accessWaits (e : Eng) (off : Nat) (wide write : Bool) : Bool :=
  !(if off = Reg.engReset then e.active else e.awake) && accessOk off wide && !(quietBlock off write && (!wide || isWide off || quietBlock (off + 4) write))

/-- Answers a read. -/
def Eng.answer (mgmt : Bool) (off : Nat) (wide : Bool) (e : Eng) : Eng :=
  let (v, e) := e.readAccess mgmt off wide
  { e with rsp := e.rsp ++ [⟨mgmt, off, v⟩] }

/-- An MMIO read: answered, or kept until the exit that it starts has ended (log 12, DEDUCED). -/
def Eng.mmioRead (off : Nat) (wide : Bool) (e : Eng) : Eng :=
  if !e.boot.powered then e
  else if e.accessWaits off wide false then e.waitAccess ⟨false, off, wide, none⟩
  else e.answer false off wide

/-- A read of the management port, from the address last set (R437; log 12, DEDUCED). -/
def Eng.mgmtRead (e : Eng) : Eng := if e.boot.powered then e.answer true e.mgmtAddr e.mgmtWide else e

/-- An MMIO write: carried out, or kept until the exit that it starts has ended (log 12, DEDUCED). -/
def Eng.mmioWrite (m : Mem) (off : Nat) (wide : Bool) (v : Nat) (e : Eng) : Eng :=
  if !e.boot.powered then e
  else if e.accessWaits off wide true then e.waitAccess ⟨false, off, wide, some v⟩
  else e.writeAccess m false off wide v

/-- A write of the management port: the address, then the value (R437; log 12, DEDUCED). -/
def Eng.mgmtWrite (m : Mem) (off : Nat) (wide : Bool) (v : Nat) (e : Eng) : Eng :=
  if e.boot.powered then { e with mgmtAddr := off, mgmtWide := wide }.writeAccess m true off wide v else e

/-- Accesses that waited are carried out, in order (log 12, DEDUCED). -/
def Eng.serveAccesses (m : Mem) (e : Eng) : Eng :=
  if e.awake then
    e.pwr.accesses.foldl (fun (e : Eng) a => match a.value with
      | some v => e.writeAccess m a.port a.off a.wide v
      | none => e.answer a.port a.off a.wide) { e with pwr.accesses := [] }
  else e

end Sys2Proof.Machine
end

