-- ==== Sys2Proof/Machine/RowsBoot.lean ====
section
/-! DEFINITION. Commands of bring-up, links, clocks and resets (chapters 8, 15 and 16), and of the Pattern loader (chapter 2). -/

namespace Sys2Proof.Machine

/-- A fault that the Spool has found in itself is one of the engine control block (R248). -/
def Eng.takeCorrupt (e : Eng) : Eng :=
  if e.spool.corrupt then { e with spool.corrupt := false }.addFault .compute else e

/-- Carries out a command of the engine, which does nothing before power-good (log 5, DEDUCED). -/
def State.onPower (s : State) (f : Mem → Eng → Eng) : Host.Outcome State Fault Refusal :=
  s.apply (fun m e => if e.boot.powered then (f m e).takeCorrupt else e)

/-! ### Bring-up (R370 to R373) -/

/-- POWER_GOOD (R370). -/
def execPowerGood (r : BootRecords) (s : State) : Host.Outcome State Fault Refusal := s.apply (fun _ e => e.powerGood r)

/-- SPINE_PHASE_DONE (R370, R371). -/
def execSpinePhaseDone (s : State) : Host.Outcome State Fault Refusal := s.apply (fun _ e => e.spineDone)

/-- WAVE_RELEASE (R372). -/
def execWaveRelease (wave : Nat) (s : State) : Host.Outcome State Fault Refusal := s.onPower (fun _ e => e.releaseWave wave)

/-- WAVE_SELFTEST_DONE (R372). -/
def execWaveSelftestDone (wave : Nat) (failedBays : List Nat) (s : State) : Host.Outcome State Fault Refusal :=
  s.onPower (fun _ e => e.waveTested wave failedBays)

/-- LINK_TRAINED (R196). -/
def execLinkTrained (port : Nat) (up : Bool) (peerMin peerMax : Nat) (swred fixedOrder : Bool) (ownChip peerChip : Nat) (s : State) :
    Host.Outcome State Fault Refusal :=
  s.onPower (fun m e => e.linkTrained m port up peerMin peerMax swred fixedOrder ownChip peerChip)

/-- PEER_VERSION_LEARNED (R183). -/
def execPeerVersionLearned (chip version : Nat) (s : State) : Host.Outcome State Fault Refusal :=
  s.onPower (fun _ e => e.learnVersion chip version)

/-- LINK_STATE_CHANGE (R421). -/
def execLinkStateChange (port : Nat) (up : Bool) (s : State) : Host.Outcome State Fault Refusal :=
  s.onPower (fun m e => e.linkChange m port up)

/-- CLOCK_MISSING (R424). -/
def execClockMissing (island : Nat) (s : State) : Host.Outcome State Fault Refusal := s.onPower (fun _ e => e.clockLost island)

/-- ENG_PORST_N (R425). -/
def execEngPorstN (s : State) : Host.Outcome State Fault Refusal := s.apply (fun _ e => e.powerOnReset)

/-- ENG_CRST_N (R425). -/
def execEngCrstN (s : State) : Host.Outcome State Fault Refusal := s.onPower (fun _ e => e.requestReset .compute)

/-! ### The Pattern loader (R33, R45 to R52) -/

/-- LOAD, with BCAST or without (R33, R45). -/
def execLoad (bcast : Bool) (s : State) : Host.Outcome State Fault Refusal :=
  s.onPower (fun m e => e.mmioWrite m Reg.patCtrl false (1 + 2 * bcast.toNat))

/-- ABORT (R47). -/
def execAbort (s : State) : Host.Outcome State Fault Refusal := s.onPower (fun m e => e.mmioWrite m Reg.patCtrl false 4)

/-- The read of a local image ends; phase 3 follows phases 2a and 2b (Table 16-1). -/
def Eng.localRead (m : Mem) (e : Eng) : Eng :=
  let l := e.loader
  if l.st == .receiving && l.localRead && e.boot.wavesDone.length = 6 && e.linksDone then
    { e with loader := { l with st := .verifying, image := e.rd m l.src l.len } }
  else e

/-- LOCAL_READ_COMPLETE (R33). -/
def execLocalReadComplete (s : State) : Host.Outcome State Fault Refusal := s.onPower (fun m e => e.localRead m)

/-- VERIFY_DONE (R33). -/
def execVerifyDone (s : State) : Host.Outcome State Fault Refusal :=
  s.onPower (fun m e => if e.loader.st == .verifying then e.verifyStaged m else e)

/-- APPLY_DONE (R46, R51, R57). -/
def execApplyDone (s : State) : Host.Outcome State Fault Refusal :=
  s.onPower (fun m e => if e.loader.st == .applying then (e.applyStaged m).settle m else e)

/-- PATTERN_FRAME (R49). -/
def execPatternFrame (src : Nat) (h : PatHdr) (payload : Received) (s : State) : Host.Outcome State Fault Refusal :=
  s.onPower (fun _ e => e.patFrame src h payload.bytes payload.read)

/-- Two milliseconds without a frame end a reception (R50). -/
def Eng.framesStop (e : Eng) : Eng :=
  let l := e.loader
  if l.st == .receiving && !l.localRead && l.total > 0 then (e.reach (l.lastNs + 2000000)).endReceiving else e

/-- FRAME_TIMEOUT (R50). -/
def execFrameTimeout (s : State) : Host.Outcome State Fault Refusal := s.onPower (fun _ e => e.framesStop)

/-- A bitmap posted to its tray leader: the frames it lacks are served (R50). -/
def Eng.takeBitmap (src : Nat) (missing : List Nat) (e : Eng) : Eng :=
  if e.leadsTray then { e with loader := { e.loader with bitmaps := KV.put e.loader.bitmaps src missing } }.serveTray src missing else e

/-- REPAIR_BITMAP (R50). -/
def execRepairBitmap (src : Nat) (missing : List Nat) (s : State) : Host.Outcome State Fault Refusal :=
  s.onPower (fun _ e => e.takeBitmap src missing)

/-- REPAIR_REQUEST (R50). -/
def execRepairRequest (src : Nat) (seqs : List Nat) (s : State) : Host.Outcome State Fault Refusal :=
  s.onPower (fun _ e => e.serveRack src seqs)

/-- A repair round of 20 ms ends: three rounds at most (R50, R51; log 11, DEDUCED). -/
def Eng.roundOver (m : Mem) (e : Eng) : Eng :=
  if e.loader.st == .repair then
    let e := e.reach (e.loader.lastNs + 20000000)
    if e.loader.repairRound < 3 then e.startRound else e.endRepair m
  else e

/-- REPAIR_ROUND_TIMEOUT (R50, R51). -/
def execRepairRoundTimeout (s : State) : Host.Outcome State Fault Refusal := s.onPower (fun m e => e.roundOver m)

/-- STATE_REPORT (R52). -/
def execStateReport (chip st : Nat) (s : State) : Host.Outcome State Fault Refusal := s.onPower (fun _ e => e.takeReport chip st)

/-- 100 ms after END the root's count closes (R52; log 11, DEDUCED). -/
def Eng.hallLate (e : Eng) : Eng :=
  if !e.loader.hallClosed && !e.loader.sending then (e.reach (e.loader.endNs + 100000000)).closeHall else e

/-- HALL_STATUS_TIMEOUT (R52). -/
def execHallStatusTimeout (s : State) : Host.Outcome State Fault Refusal := s.onPower (fun _ e => e.hallLate)

/-- Marks a trusted key slot revoked. -/
def Eng.revokeKey (k : Nat) (e : Eng) : Eng := { e with boot := { e.boot with keys := updAt e.boot.keys k (fun x => { x with revoked := true }) } }

/-- KEY_SLOT_REVOKED (R32). -/
def execKeySlotRevoked (keySlot : Nat) (s : State) : Host.Outcome State Fault Refusal := s.onPower (fun _ e => e.revokeKey keySlot)

/-- TIME_ROOT_DESIGNATED (R332). -/
def execTimeRootDesignated (s : State) : Host.Outcome State Fault Refusal := s.onPower (fun _ e => e.becomeRoot)

end Sys2Proof.Machine
end

