-- ==== Sys2Proof/Machine/RowsFront.lean ====
section
/-! DEFINITION. Commands of the front end (chapter 3, chapter 19): doorbells, rings, fetching, starting, records, and the
operations NOP, FENCE and CANCEL. -/

namespace Sys2Proof.Machine

/-- MMIO offset of a polder slot's register. -/
def slotReg (slot off : Nat) : Nat := 0x20000 + 0x1000 * slot + off

/-! ### Doorbells, fetching, starting (R68 to R70, R80 to R84) -/

/-- DOORBELL (R70). -/
def execDoorbell (queue byteOff : Nat) (wide : Bool) (value : Nat) (s : State) : Host.Outcome State Fault Refusal :=
  s.onPower (fun _ e => e.doorbell queue byteOff wide value)

/-- Descriptors come in only while the engine works, its Pattern stands and the ring's polder runs (R68, R303, R379). -/
def Eng.fetchNow (m : Mem) (r : Nat) (e : Eng) : Eng :=
  let run := match e.slotOf (e.ring r).owner with
    | some s => (e.pslot s).st == .running
    | none => false
  if e.awake && !e.patternLoad && run then e.fetchRing m r else e

/-- DESCRIPTOR_FETCH (R68, R75 to R81). -/
def execDescriptorFetch (ring : Nat) (s : State) : Host.Outcome State Fault Refusal := s.onPower (fun m e => e.fetchNow m ring)

/-- Identity of the command at an index of a ring that has not ended. -/
def Eng.openAt (e : Eng) (r idx : Nat) : Option Nat := (e.cmds.find? (fun c => c.ring == r && c.idx == idx && !c.done)).map (·.id)

/-- WAIT_POLL (R80, R81; log 36, DEDUCED). -/
def execWaitPoll (ring idx : Nat) (s : State) : Host.Outcome State Fault Refusal :=
  s.onPower (fun m e => match e.openAt ring idx with
    | some id => e.tryStart m id
    | none => e)

/-- DEPENDENCY_RELEASED (R82 to R84; log 36, DEDUCED). -/
def execDependencyReleased (ring idx : Nat) (s : State) : Host.Outcome State Fault Refusal :=
  s.onPower (fun m e => match e.openAt ring idx with
    | some id => e.tryStart m id
    | none => e)

/-- COMPLETION_STALL (R89). -/
def execCompletionStall (ring : Nat) (s : State) : Host.Outcome State Fault Refusal := s.onPower (fun _ e => e.cplStall ring)

/-! ### Ring windows (R65, R72 to R74) -/

/-- TWK_PLD_CPL_HEAD (R65). -/
def execCplHead (slot value : Nat) (s : State) : Host.Outcome State Fault Refusal :=
  s.onPower (fun m e => e.mmioWrite m (slotReg slot Reg.pldCplHead) false value)

/-- ATTACH (R72). -/
def execAttach (slot : Nat) (s : State) : Host.Outcome State Fault Refusal :=
  s.onPower (fun m e => e.mmioWrite m (slotReg slot Reg.pldRingCmd) false 1)

/-- DETACH (R73). -/
def execDetach (slot : Nat) (s : State) : Host.Outcome State Fault Refusal :=
  s.onPower (fun m e => e.mmioWrite m (slotReg slot Reg.pldRingCmd) false 2)

/-- CLEAR_STOP (R74). -/
def execClearStop (slot : Nat) (s : State) : Host.Outcome State Fault Refusal :=
  s.onPower (fun m e => e.mmioWrite m (slotReg slot Reg.pldRingCmd) false 4)

/-! ### The memory system (R415, R417) -/

/-- MEMORY_WRITE_ACK (R417). -/
def execMemoryWriteAck (s : State) : Host.Outcome State Fault Refusal := s.onPower (fun m e => e.writeAck m)

/-- MEMORY_READ_RETURN (R415). -/
def execMemoryReadReturn (line : Nat) (stat retry : LineStat) (what : ReadPurpose) (s : State) : Host.Outcome State Fault Refusal :=
  s.onPower (fun m e => e.readReturn m line stat retry what)

/-! ### NOP, FENCE, CANCEL (R83, R85, R86) -/

/-- NOP (R86). -/
def execNop (ring idx : Nat) (s : State) : Host.Outcome State Fault Refusal :=
  s.onPower (fun m e => e.runCmd m ring idx opNop (fun c e => e.complete c.id stOk))

/-- FENCE (R83). -/
def execFence (ring idx : Nat) (s : State) : Host.Outcome State Fault Refusal :=
  s.onPower (fun m e => e.runCmd m ring idx opFence (fun _ e => e.settleFences))

/-- Operations that name a layer slot and that a CANCEL ends (R85). -/
def cancellable (op : Nat) : Bool :=
  [opScore, opRoute, opCombine, opReturn, opRouteBwd, opReturnBwd, opCombineBwd, opStepEnd, opAdmit, opRetire].contains op

/-- A fetched CANCEL acts, whatever stands ahead of it: its slots' epochs advance, their earlier commands end, commands
fetched after it take the new epoch (R85; log 36, DEDUCED; log 63, DESIGN CHOICE). -/
def Eng.cancelNow (m : Mem) (c : Cmd) (e : Eng) : Eng :=
  match c.err with
  | some st => e.complete c.id st
  | none =>
    let slots := if c.d.scope = 0 then [c.d.slot] else e.polderSlots c.polder
    let e := slots.foldl (fun (e : Eng) s => e.nextEpoch s) e
    let e := { e with cmds := e.cmds.map (fun (x : Cmd) =>
      if x.polder == c.polder && x.id > c.id && slots.contains x.d.slot then { x with epoch := (e.lslot x.d.slot).epoch } else x) }
    let ids := (e.cmds.filter (fun x => x.polder == c.polder && x.id < c.id && !x.done && cancellable x.d.opcode &&
      slots.contains x.d.slot)).map (·.id)
    let e := e.setCmd c.id (fun c => { c with phase := .running, cancels := ids, startNs := e.now })
    let e := ids.foldl (fun (e : Eng) id => e.stopCmd id stCancelled) e
    e.settleCancels.settle m

/-- CANCEL (R85); that of a polder that does not run waits (chapter 13, corner cases; log 36, DEDUCED). -/
def execCancel (ring idx : Nat) (s : State) : Host.Outcome State Fault Refusal :=
  s.onPower (fun m e => match e.cmdAt ring idx opCancel with
    | some c => if c.phase == .held && !c.done && e.polderRuns c.polder && e.flt.recovery != some .compute then e.cancelNow m c else e
    | none => e)

end Sys2Proof.Machine
end

