-- ==== Sys2Proof/Machine/Tables.lean ====
section
/-! DEFINITION. The passes of the cutting tables (R90, R93 to R95, R104, R105, R113, R114): what a table or a band works on
next, its stationary and shadow weights, the partial sums of its columns, and the check column. -/

namespace Sys2Proof.Machine

/-! ### What there is to score (R104 to R106) -/

/-- Elements of a segment: 64 in a table and 16 in a band, twice as many in the FP8 formats (R90, R95). -/
def segLen (wfmt : Nat) (band : Bool) : Nat := (if band then 16 else 64) * (if wfmt = 0 then 1 else 2)

/-- Inputs of a stage, and its blocks of 64 outputs (R103, R106). -/
def stageWidth (c : SlotCfg) (stage : Nat) : Nat := if stage = 0 then c.d else stageInputs c
def stageBlocks (c : SlotCfg) (stage : Nat) : Nat :=
  if stage = 0 then 2 * c.rhidDiv else if c.hier then ceilDiv c.panels 64 else c.panels

/-- Commands that the tables score for, in the order of their fetch; a command of one token is on the bypass (R111). -/
def Eng.scorers (e : Eng) : List Cmd :=
  e.cmds.filter (fun c => (c.d.opcode == opScore || c.d.opcode == opRoute) && c.phase == .running && !c.done && e.mayIssue c.polder &&
    !(c.tokens == 1 && bit (e.reg Reg.ctCtrl) 0))

/-- Tiles of a command that the Selector has not finished. -/
def Eng.openTiles (e : Eng) (c : Cmd) : List Nat :=
  let left (done : List Nat) : List Nat := (List.range (ceilDiv c.tokens (e.cfgOf c.d.slot).tile)).filter (fun i => !done.contains i)
  if c.d.opcode = opScore then left c.tilesDone
  else match e.workById c.id with
    | some w => if w.phase == .scoring then left w.tilesDone else []
    | none => []

/-- Rows of a tile that are scored: unmasked and readable (R104, R115). -/
def Eng.openRows (m : Mem) (e : Eng) (c : Cmd) (tile : Nat) : List Nat :=
  (tileTokens (e.cfgOf c.d.slot) c.tokens tile).filter (fun t =>
    !(c.d.c ≠ 0 && bit (leNat (e.rd m (c.d.c + t / 8) 1)) (t % 8)) && !c.badRows.contains t)

/-- Whether every block of a stage has left the taps for a tile. -/
def Eng.stageDone (e : Eng) (c : Cmd) (tile stage : Nat) : Bool :=
  (List.range (stageBlocks (e.cfgOf c.d.slot) stage)).all (fun b => e.outs.any (fun o => o.1 == (⟨c.id, tile, stage, b, 0⟩ : PassJob)))

/-- The operand that a stage takes of a token's row (R91, R103). -/
def Eng.stageOperand (m : Mem) (e : Eng) (x : ScoreCtx) (c : Cmd) (stage t : Nat) : Operand :=
  let p := x.prepare t (e.rd m (c.d.a + t * x.cfg.rowBytes) x.cfg.rowBytes)
  if stage = 0 then p.x else p.op

/-- Unbanded jobs of a tile: the hidden layer, then the panel stage or the flat blocks, which wait for it; CT0 takes the
even column blocks and CT1 the odd ones, either all of them where the other is absent (R104; log 54, DESIGN CHOICE). -/
def Eng.wholeJobs (e : Eng) (t : Nat) (c : Cmd) (tile : Nat) : List PassJob :=
  let cfg := e.cfgOf c.d.slot
  let stage := if cfg.twoLayer && !e.stageDone c tile 0 then 0 else 1
  ((List.range (stageBlocks cfg stage)).filter (fun b => b % 2 == t || !e.ctPresent (1 - t))).map (fun b => ⟨c.id, tile, stage, b, 0⟩)

/-- Pairs of a tile in token, then panel order, once its panel stage is done (R105). -/
def Eng.tilePairs (m : Mem) (e : Eng) (c : Cmd) (tile : Nat) : List PassJob :=
  let x := e.scoreCtx m c (e.cfgOf c.d.slot)
  if !x.cfg.hier || !e.stageDone c tile 1 then []
  else (e.openRows m c tile).flatMap (fun t =>
    let z := x.panelLogits t (e.stageOperand m x c 1 t)
    if z.any isNaN then [] else (x.pick z).map (fun p => ⟨c.id, tile, 2, p, t⟩))

/-- Pairs dealt to a band: to the eight bands of both tables in turn, or to the four of the one left (R105; log 54, DESIGN CHOICE). -/
def Eng.bandJobs (m : Mem) (e : Eng) (t b : Nat) (c : Cmd) (tile : Nat) : List PassJob :=
  ((e.tilePairs m c tile).zipIdx.filter (fun p =>
    if e.ctPresent (1 - t) then p.2 % 8 == 4 * t + b else p.2 % 4 == b)).map (·.1)

/-- Every job of a table or of one of its bands that has not left the taps, in order (log 54, DESIGN CHOICE). -/
def Eng.passJobs (m : Mem) (e : Eng) (t : Nat) (band : Option Nat) : List PassJob :=
  (e.scorers.flatMap (fun c => (e.openTiles c).flatMap (fun i => match band with
    | none => e.wholeJobs t c i
    | some b => e.bandJobs m t b c i))).filter (fun j => !e.outs.any (fun o => o.1 == j))

/-! ### Stationary and shadow weights (R93, R94) -/

/-- The weights of one output of a job; a column past the last output holds zeros. -/
def ScoreCtx.columnOf (x : ScoreCtx) (rd : Nat → Nat → List Byte) (j : PassJob) (col : Nat) : Operand :=
  if j.stage = 0 then x.hiddenRow (64 * j.block + col)
  else if j.stage = 1 && x.cfg.hier then
    (if 64 * j.block + col < x.cfg.panels then x.panelRow (64 * j.block + col) else weightRow x.img.wfmt (stageInputs x.cfg) [])
  else x.expertRow rd j.block col

/-- Whether a segment is the last of its job. -/
def ScoreCtx.lastSeg (x : ScoreCtx) (band : Bool) (j : PassJob) (seg : Nat) : Bool :=
  decide (stageWidth x.cfg j.stage ≤ (seg + 1) * segLen x.img.wfmt band)

/-- The segment at which a job goes on: where a pre-emption left it, else its first. -/
def Eng.firstSeg (e : Eng) (j : PassJob) : Nat := ((e.savedSums.find? (fun p => p.job == j)).map (·.seg)).getD 0

/-- Fills a set of weight registers for a segment of a job. -/
def Eng.fillCells (m : Mem) (e : Eng) (band : Bool) (j : PassJob) (seg : Nat) : Option CellWeights :=
  (e.cmd? j.cmd).map (fun c =>
    let x := e.scoreCtx m c (e.cfgOf c.d.slot)
    let n := segLen x.img.wfmt band
    ⟨j, seg, (List.range 64).map (fun i => (x.columnOf (fun a l => e.rd m a l) j i).slice (seg * n) n)⟩)

/-- What follows the stationary weights: the next segment of their job, else the next job. -/
def Eng.nextFill (m : Mem) (e : Eng) (band : Bool) (jobs : List PassJob) (w : Option CellWeights) : Option CellWeights :=
  let other (l : List PassJob) : Option CellWeights := l.head?.bind (fun j => e.fillCells m band j (e.firstSeg j))
  match w with
  | none => other jobs
  | some w => (e.cmd? w.job.cmd).bind (fun c =>
    if (e.scoreCtx m c (e.cfgOf c.d.slot)).lastSeg band w.job w.seg then other (jobs.filter (· != w.job))
    else e.fillCells m band w.job (w.seg + 1))

/-- Drops weights of work that is not to be done now, and keeps the partial sums of a job that was pre-empted (R94). -/
def Eng.settleCells (jobs : List PassJob) (k : Cells) (e : Eng) : Cells × Eng :=
  match k.stat with
  | none => ({}, e)
  | some w =>
    if jobs.contains w.job then ({ k with shadow := k.shadow.filter (fun s => jobs.contains s.job) }, e)
    else
      let open_ := (e.cmd? w.job.cmd).any (fun c => !c.done && (e.openTiles c).contains w.job.tile)
      ({}, if open_ && !k.sums.isEmpty then { e with savedSums := e.savedSums ++ [⟨w.job, w.seg, k.sums⟩] } else e)

/-- The columns' partial sums after a segment of every row has run down them (R90, R92). -/
def Eng.runSegment (m : Mem) (e : Eng) (band : Bool) (w : CellWeights) (sums : KV (List (F32 × F32))) : KV (List (F32 × F32)) :=
  match e.cmd? w.job.cmd with
  | none => sums
  | some c =>
    let x := e.scoreCtx m c (e.cfgOf c.d.slot)
    let n := segLen x.img.wfmt band
    let rows := if w.job.stage = 2 then [w.job.token] else e.openRows m c w.job.tile
    rows.map (fun t =>
      let o := (e.stageOperand m x c w.job.stage t).slice (w.seg * n) n
      (t, (w.cols.zip (KV.get (List.replicate 64 (fZero, fZero)) sums t)).map (fun p =>
        accRun x.cfg.askuc x.img.wfmt (w.seg * n) p.2 p.1 o)))

/-- Loads the registers before a pass: the stationary ones where they are empty, and the shadow. -/
def Eng.loadCells (m : Mem) (e : Eng) (band : Bool) (jobs : List PassJob) (k : Cells) : Cells :=
  let k := if k.stat.isSome then k else
    let w := e.nextFill m band jobs none
    { stat := w, sums := (w.bind (fun w => (e.savedSums.find? (fun p => p.job == w.job)).map (·.sums))).getD [] }
  if k.shadow.isSome then k else { k with shadow := k.stat.bind (fun w => e.nextFill m band jobs (some w)) }

/-- One pass over a table or band: the segment runs, what is complete leaves the taps, the shadow swaps in. -/
def Eng.advanceCells (m : Mem) (band : Bool) (jobs : List PassJob) (k : Cells) (e : Eng) : Cells × Eng :=
  match k.stat with
  | none => (k, e)
  | some w =>
    let sums := e.runSegment m band w k.sums
    let last := (e.cmd? w.job.cmd).all (fun c => (e.scoreCtx m c (e.cfgOf c.d.slot)).lastSeg band w.job w.seg)
    let e := { e with savedSums := e.savedSums.filter (fun p => p.job != w.job) }
    let e := if last then { e with outs := e.outs ++ [(w.job, sums.map (fun p => (p.1, p.2.map (·.1))))] } else e
    let next := k.shadow.filter (fun s => last == (s.job != w.job))
    ({ stat := next
       shadow := next.bind (fun s => e.nextFill m band (jobs.filter (· != w.job)) (some s))
       sums := if last then (next.bind (fun s => (e.savedSums.find? (fun p => p.job == s.job)).map (·.sums))).getD [] else sums }, e)

/-- The cells that a pass ran in. -/
def CutTable.cells (c : CutTable) : Option Nat → Cells
  | none => c.whole
  | some b => c.bands.getD b {}

/-- Replaces them. -/
def CutTable.setCells (c : CutTable) (band : Option Nat) (k : Cells) : CutTable :=
  match band with
  | none => { c with whole := k }
  | some b => { c with bands := updAt c.bands b (fun _ => k) }

/-- A table, and its replacement. -/
def Eng.table (e : Eng) (t : Nat) : CutTable := e.tables.getD t {}
def Eng.setTable (t : Nat) (f : CutTable → CutTable) (e : Eng) : Eng := { e with tables := updAt e.tables t f }

/-- Outputs and sums of commands that have ended, or of tiles that are selected, are gone. -/
def Eng.pruneOuts (e : Eng) : Eng :=
  let live (j : PassJob) : Bool := (e.cmd? j.cmd).any (fun c => !c.done && (e.openTiles c).contains j.tile)
  { e with outs := e.outs.filter (fun o => live o.1), savedSums := e.savedSums.filter (fun p => live p.job) }

/-- A table that turns to its bands, or back to one array, gives up what its cells held in the other arrangement, the partial
sums kept (R95; log 54, DESIGN CHOICE). -/
def Eng.turnTable (t : Nat) (band : Option Nat) (e : Eng) : Eng :=
  let others : List (Option Nat) := if band.isSome then [none] else (List.range 4).map some
  others.foldl (fun (e : Eng) b =>
    let (k, e) := e.settleCells [] ((e.table t).cells b)
    e.setTable t (fun c => c.setCells b k)) e

/-- The work of one pass of a table or band; a pass to be run again leaves it as it is, its weights fetched again where they
were unreadable (log 54, DESIGN CHOICE). -/
def Eng.passWork (m : Mem) (t : Nat) (band : Option Nat) (again refetch : Bool) (e : Eng) : Eng :=
  let e := e.pruneOuts.turnTable t band
  let jobs := e.passJobs m t band
  let (k, e) := e.settleCells jobs ((e.table t).cells band)
  let k := e.loadCells m band.isSome jobs (if refetch then { k with stat := k.stat.bind (fun w => e.fillCells m band.isSome w.job w.seg) } else k)
  let (k, e) := if again then (k, e) else e.advanceCells m band.isSome jobs k
  e.setTable t (fun c => c.setCells band k)

/-! ### The check column and the pass's end (R113, R114) -/

/-- The check column's comparison on a pass: whether the pass is run again, and the engine with what the comparison brought.
It watches column (passes mod 64); the first mismatch runs the pass again, the second names what failed: the column, or the
check column itself (`checker`; log 54, DESIGN CHOICE). -/
def Eng.checkPass (t : Nat) (mismatch checker : Bool) (e : Eng) : Bool × Eng :=
  let col := (e.table t).passes % 64
  match (if bit (e.reg Reg.ctCtrl) 1 then e.checker t else none) with
  | none => (false, e.setTable t (fun c => { c with missed := none }))
  | some i =>
    let e := e.bump64 Reg.ctChecks 1
    if !mismatch then (false, e.setTable t (fun c => { c with missed := none }))
    else
      let e := (e.bump Reg.ctMismatch (16 * t) 16 1).raise 0x0620 (arg6 (some (ctBay t)) (some (ctBay t / 6)) none none) none 0
      if (e.table t).missed = some col then (false, (e.setTable t (fun c => { c with missed := none })).columnFails t (if checker then 64 else col) i)
      else (true, e.setTable t (fun c => { c with missed := some col }))

/-- A pass of a table, or of one of its bands, ends. -/
def Eng.passDone (m : Mem) (t : Nat) (band : Option Nat) (mismatch checker : Bool) (wc : LineStat) (line : Nat) (e : Eng) : Eng :=
  if !e.ctPresent t then e
  else
    match wc with
    | .uncorrectable => ((e.bump Reg.wcErr 16 16 1).raise 0x0221 line none 0).passWork m t band true true
    | _ =>
      let e := if wc = .corrected then (e.bump Reg.wcErr 0 16 1).raise 0x0220 line none 0 else e
      let (again, e) := e.checkPass t mismatch checker
      let e := e.passWork m t band again false
      let e := if again then e else e.setTable t (fun c => { c with passes := c.passes + 1 })
      if e.ctPresent t then e else e.clearTable t

end Sys2Proof.Machine
end

