-- ==== Sys2Proof/Machine/RowsCmds.lean ====
section
/-! DEFINITION. Commands of the data path that a ring brings, and what each leads to (chapters 3, 6 to 9, 11 and 13). -/

namespace Sys2Proof.Machine

/-! ### Scoring and routing (R115, R146, R155, R161, R165, R168) -/

/-- SCORE's checks; its tiles are scored one by one, and one of no token has nothing left to do (R155). -/
def Eng.scoreNow (m : Mem) (c : Cmd) (e : Eng) : Eng :=
  match e.imageCheck m c with
  | .fault e => e.tearDown c.polder 0x0630 c.d.tag (some c.id)
  | .fail st e => e.complete c.id st
  | .ok e =>
    let e := e.setLslot c.d.slot (fun l => { l with rot := (e.scoreCtx m c (e.cfgOf c.d.slot)).rho })
    if c.tokens = 0 then e.complete c.id stOk else e

/-- One tile of a SCORE: its rows scored and their records written; the last completes the command (R115, R155, Table 3-13; log 51, DEDUCED). -/
def Eng.scoreTile (m : Mem) (c : Cmd) (tile : Nat) (e : Eng) : Eng :=
  let cfg := e.cfgOf c.d.slot
  let toks := tileTokens cfg c.tokens tile
  if toks.isEmpty || c.tilesDone.contains tile then e
  else
    let (sel, raised, e) := e.scoreRows m c cfg toks c.raised
    let size := scoreSize cfg c.d.outKind
    let e := sel.foldl (fun (e : Eng) p => e.storeFor c.polder (c.d.b + p.1 * size) (scoreRecord cfg c.d.outKind p.2)) (e.dropOuts c.id tile)
    let bad := (sel.filter (fun p => bit p.2.rflags 1)).length
    let gone := c.gone + (sel.map (fun p => p.2.zeroWeight)).sum
    let r := { c.res with placed := c.res.placed + (toks.length - bad), dropped := c.res.dropped + bad }
    let e := e.setCmd c.id (fun c => { c with tilesDone := c.tilesDone ++ [tile], raised := raised, gone := gone, res := r })
    if c.tilesDone.length + 1 < ceilDiv c.tokens cfg.tile then e
    else
      let e := if gone > 0 then e.raise 0x0440 (arg4 c.d.slot 0 gone) (some c.polder) c.d.tag else e
      e.complete c.id (if r.dropped > 0 then stDegraded else stOk)

/-- SCORE (R155). -/
def execScore (ring idx : Nat) (s : State) : Host.Outcome State Fault Refusal :=
  s.onPower (fun m e => e.runCmd m ring idx opScore (fun c e => (e.scoreNow m c).settle m))

/-- ROUTE (R161, R165, R203). -/
def execRoute (ring idx : Nat) (s : State) : Host.Outcome State Fault Refusal :=
  s.onPower (fun m e => e.runCmd m ring idx opRoute (fun c e => (e.startRoute m c).settle m))

/-- The ROUTE under way at an index of a ring, where its polder issues. -/
def Eng.runningRoute (e : Eng) (r idx : Nat) : Option Cmd :=
  (e.cmdAt r idx opRoute).filter (fun c => c.phase == .running && e.mayIssue c.polder)

/-- The SCORE under way at an index of a ring, where its polder issues. -/
def Eng.runningScore (e : Eng) (r idx : Nat) : Option Cmd :=
  (e.cmdAt r idx opScore).filter (fun c => c.phase == .running && e.mayIssue c.polder)

/-- TILE_SELECTED (R146, R149, R150, R155). -/
def execTileSelected (ring idx tile : Nat) (s : State) : Host.Outcome State Fault Refusal :=
  s.onPower (fun m e => match e.runningRoute ring idx with
    | some c => (e.selectTile m c tile).settle m
    | none => match e.runningScore ring idx with
      | some c => (e.scoreTile m c tile).settle m
      | none => e)

/-- TABLE_PASS (R93, R113, R114). -/
def execTablePass (table : Nat) (band : Option Nat) (mismatch checker : Bool) (wc : LineStat) (line : Nat) (s : State) : Host.Outcome State Fault Refusal :=
  s.onPower (fun m e => e.passDone m table band mismatch checker wc line)

/-- PLEAT_SORT_DONE (R168 to R170). -/
def execPleatSortDone (ring idx : Nat) (s : State) : Host.Outcome State Fault Refusal :=
  s.onPower (fun m e => match e.runningRoute ring idx with
    | some c => if (e.workById c.id).any (fun w => w.phase == .sorting) then (e.pleat c.id).settle m else e
    | none => e)

/-- BURST_GRANT (R178). -/
def execBurstGrant (s : State) : Host.Outcome State Fault Refusal := s.onPower (fun m e => (e.burst m).settle m)

/-! ### Combine and the backward pass (R205, R212, R215, R217, R218) -/

/-- COMBINE's checks: its step's area and route record (R79, R212; log 56, DESIGN CHOICE; log 60, DESIGN CHOICE). -/
def Eng.combineNow (m : Mem) (c : Cmd) (e : Eng) : Eng :=
  match e.workOf c.polder c.d.slot c.d.step with
  | none => e.complete c.id stBad
  | some w =>
    if !e.recordMatches m c.d.b c || !w.area.live || (w.combineCmd.bind e.cmd?).any (fun x => !x.done) then e.complete c.id stBad
    else ((e.setWork w.cmd (fun w => { w with combineCmd := some c.id })).setCmd c.id (fun c => { c with detm := w.detm })).accHbm c.polder 64

/-- COMBINE (R212). -/
def execCombine (ring idx : Nat) (s : State) : Host.Outcome State Fault Refusal :=
  s.onPower (fun m e => e.runCmd m ring idx opCombine (fun c e => (e.combineNow m c).settle m))

/-- RETURN (R205). -/
def execReturn (ring idx : Nat) (s : State) : Host.Outcome State Fault Refusal :=
  s.onPower (fun m e => e.runCmd m ring idx opReturn (fun c e => (e.startReturn m c false).settle m))

/-- ROUTE_BWD's checks (R79; log 63, DESIGN CHOICE). -/
def Eng.routeBwdNow (m : Mem) (c : Cmd) (e : Eng) : Eng :=
  match e.workOf c.polder c.d.slot c.d.step with
  | none => e.complete c.id stBad
  | some w => if !e.recordMatches m c.d.b c || w.bwdArea.live || w.superseded then e.complete c.id stBad else e.routeBwdGo m c w

/-- ROUTE_BWD (R203, R215). -/
def execRouteBwd (ring idx : Nat) (s : State) : Host.Outcome State Fault Refusal :=
  s.onPower (fun m e => e.runCmd m ring idx opRouteBwd (fun c e => (e.routeBwdNow m c).settle m))

/-- RETURN_BWD (R217). -/
def execReturnBwd (ring idx : Nat) (s : State) : Host.Outcome State Fault Refusal :=
  s.onPower (fun m e => e.runCmd m ring idx opReturnBwd (fun c e => (e.startReturn m c true).settle m))

/-- COMBINE_BWD's checks: its step's areas, route record and weight image of the same GEN; a changed GEN gives up the saved
state (R79, R100, R204, R218; log 37, DEDUCED; log 39, DEDUCED; log 56, DESIGN CHOICE; log 60, DESIGN CHOICE). -/
def Eng.combineBwdNow (m : Mem) (c : Cmd) (e : Eng) : Eng :=
  match e.workOf c.polder c.d.slot c.d.step with
  | none => e.complete c.id stBad
  | some w =>
    if !e.recordMatches m c.d.b c || !w.bwdArea.live || w.superseded || (w.bwdCombineCmd.bind e.cmd?).any (fun x => !x.done) then
      e.complete c.id stBad
    else match e.imageCheck m c with
      | .fault e => e.tearDown c.polder 0x0630 c.d.tag (some c.id)
      | .fail st e => e.complete c.id st
      | .ok e => if (e.lslot c.d.slot).wgen ≠ w.wgen then e.complete c.id stBad
        else ((e.setWork w.cmd (fun w => { w with bwdCombineCmd := some c.id })).setCmd c.id (fun c => { c with detm := w.bwdDetm })).accHbm c.polder 64

/-- COMBINE_BWD (R218, R221, R222). -/
def execCombineBwd (ring idx : Nat) (s : State) : Host.Outcome State Fault Refusal :=
  s.onPower (fun m e => e.runCmd m ring idx opCombineBwd (fun c e => (e.combineBwdNow m c).settle m))

/-! ### COPY (R177) -/

/-- COPY's length: INDIRECT gives it in 64 B lines (Table 3-11). -/
def Cmd.copyLen (c : Cmd) : Nat := match c.count with
  | some n => 64 * n
  | none => c.d.c

/-- COPY's work: one local piece, or the chunks to another chip; a lost chip is sent nothing (log 31, DEDUCED;
log 63, DESIGN CHOICE). -/
def Eng.startCopy (c : Cmd) (e : Eng) : Eng :=
  let len := c.copyLen
  let src := c.d.a
  let dst := c.d.b
  if len = 0 then e
  else if !c.d.remote then
    (e.setCmd c.id (fun c => { c with res := { c.res with bytes := c.res.bytes + len } })).addJobs c.id [.copy src dst len]
  else
    let chip := c.d.dstChip
    if e.isLost chip then e
    else
      let cs := cuts len (e.chunkMax chip)
      let jobs := cs.zipIdx.map (fun p =>
        let h : ChunkHdr := { kind := 5, epoch := c.epoch, src := e.chip, dst := chip, slot := c.d.slot, step := c.d.step, polder := c.polder, plen := p.1.2
                              offset := (dst + p.1.1) % 2 ^ 64, pleatLen := len % 2 ^ 32
                              cflags := chunkFlags (decide (p.2 + 1 = cs.length)) c.detm false }
        Job.chunk h (.copy (src + p.1.1)) p.1.2)
      (e.noteSent c.id len chip).addJobs c.id jobs

/-- COPY (R177). -/
def execCopy (ring idx : Nat) (s : State) : Host.Outcome State Fault Refusal :=
  s.onPower (fun m e => e.runCmd m ring idx opCopy (fun c e => (e.startCopy c).settle m))

/-! ### STEP_END, TACK (R315, R390) -/

/-- STEP_END (R315). -/
def execStepEnd (ring idx : Nat) (s : State) : Host.Outcome State Fault Refusal :=
  s.onPower (fun m e => e.runCmd m ring idx opStepEnd (fun c e => (e.endStep c).settle m))

/-- TACK (R390). -/
def execTack (ring idx : Nat) (s : State) : Host.Outcome State Fault Refusal :=
  s.onPower (fun m e => e.runCmd m ring idx opTack (fun c e => (e.startTack c).settle m))

/-! ### ADMIT, RETIRE, RELEASE (R264, R268, R270) -/

/-- ADMIT's checks; it then waits for its slot's boundary (R268, R269; log 35, DEDUCED). -/
def Eng.admitNew (c : Cmd) (e : Eng) : Eng :=
  let mine := e.bob.seqs.filter (fun x => x.polder == c.polder)
  if !e.reservedClass c.polder then e.complete c.id stBad
  else if mine.any (fun x => x.seq == c.d.seq) then e.complete c.id stBad
  else if mine.length ≥ 4096 then e.complete c.id stQuota
  else if (List.range 8).any (fun p => decide (e.bobQ c.polder p < c.d.resv.getD p 0)) then e.complete c.id stQuota
  else { e with bob.seqs := e.bob.seqs ++ [{ polder := c.polder, seq := c.d.seq, slot := c.d.slot, resv := c.d.resv, cmd := c.id }] }

/-- ADMIT (R268). -/
def execAdmit (ring idx : Nat) (s : State) : Host.Outcome State Fault Refusal :=
  s.onPower (fun m e => e.runCmd m ring idx opAdmit (fun c e => (e.admitNew c).settle m))

/-- RETIRE's check of its class; the rest is done at the slot's boundary (R268, R270; log 35, DEDUCED). -/
def Eng.retireNew (c : Cmd) (e : Eng) : Eng := if e.reservedClass c.polder then e else e.complete c.id stBad

/-- RETIRE (R270). -/
def execRetire (ring idx : Nat) (s : State) : Host.Outcome State Fault Refusal :=
  s.onPower (fun m e => e.runCmd m ring idx opRetire (fun c e => (e.retireNew c).settle m))

/-- RELEASE's work (R264, R265). -/
def Eng.releaseNow (c : Cmd) (e : Eng) : Eng :=
  let gen := field c.d.handle 26 6
  let n := c.d.relCount
  match e.releaseRange c.d.handle n with
  | none => e.complete c.id stBad
  | some l =>
    if n > 1 && gen ≠ 0 then e.complete c.id stBad
    else
      let (st, df, e) := Eng.releaseAll (some c.polder) (n = 1) gen l (0, 0, e)
      let e := if df > 0 then e.raise 0x0490 (arg4 0 (field c.d.handle 22 3) df) (some c.polder) c.d.tag else e
      let e := e.complete c.id st
      if df > 0 && bit (e.reg Reg.bobCtrl) 0 then e.tearDown c.polder 0x0490 c.d.tag none else e

/-- RELEASE (R264, R265). -/
def execRelease (ring idx : Nat) (s : State) : Host.Outcome State Fault Refusal :=
  s.onPower (fun m e => e.runCmd m ring idx opRelease (fun c e => (e.releaseNow c).settle m))

/-! ### Collectives and barriers (R275, R283 to R287, R294, R334) -/

/-- BCAST (R283, R284). -/
def execBcast (ring idx : Nat) (s : State) : Host.Outcome State Fault Refusal :=
  s.onPower (fun m e => e.runCmd m ring idx opBcast (fun c e => (e.startOp m false c).settle m))

/-- REDUCE (R283, R285, R287). -/
def execReduce (ring idx : Nat) (s : State) : Host.Outcome State Fault Refusal :=
  s.onPower (fun m e => e.runCmd m ring idx opReduce (fun c e => (e.startOp m true c).settle m))

/-- GROUP_FORM (R275, R276). -/
def execGroupForm (ring idx : Nat) (s : State) : Host.Outcome State Fault Refusal :=
  s.onPower (fun m e => e.runCmd m ring idx opGroupForm (fun c e => (e.startForm m c).settle m))

/-- GROUP_REFORM (R294). -/
def execGroupReform (ring idx : Nat) (s : State) : Host.Outcome State Fault Refusal :=
  s.onPower (fun m e => e.runCmd m ring idx opGroupReform (fun c e => (e.startReform m c).settle m))

/-- BARRIER (R334, R335). -/
def execBarrier (ring idx : Nat) (s : State) : Host.Outcome State Fault Refusal :=
  s.onPower (fun m e => e.runCmd m ring idx opBarrier (fun c e => (e.startBarrier m c).settle m))

end Sys2Proof.Machine
end

