-- ==== Sys2Proof/Machine/RowsWire.lean ====
section
/-! DEFINITION. Commands that the Sluice ports bring, the host's reservation timers, and the transfer table's timers
(chapters 7 to 9 and 12). -/

namespace Sys2Proof.Machine

/-- A chunk arrives (R190, R232, R281; log 41, DEDUCED). -/
def Eng.arriveChunk (m : Mem) (port : Option Nat) (h : ChunkHdr) (payload : List Byte) (rd : SpoolRead) (sumBad : Bool) (e : Eng) : Eng :=
  e.arrive m (.chunk port h payload) rd sumBad

/-! ### Fitting frames and the reservation (R160, R163 to R166, R326, R365) -/

/-- BID_FRAME (R166). -/
def execBidFrame (port : Option Nat) (chunkId : Nat) (h : FitHdr) (recs : List BidRec) (rd : SpoolRead) (s : State) :
    Host.Outcome State Fault Refusal :=
  s.onPower (fun m e => e.arrive m (.bid port chunkId h recs) rd false)

/-- GRANT_FRAME (R165). -/
def execGrantFrame (port : Option Nat) (chunkId : Nat) (h : FitHdr) (recs : List GrantRec) (rd : SpoolRead) (s : State) :
    Host.Outcome State Fault Refusal :=
  s.onPower (fun m e => e.arrive m (.grant port chunkId h recs) rd false)

/-- CLAIM_FRAME (R365). -/
def execClaimFrame (port : Option Nat) (chunkId : Nat) (h : FitHdr) (recs : List BidRec) (rd : SpoolRead) (s : State) :
    Host.Outcome State Fault Refusal :=
  s.onPower (fun m e => e.arrive m (.claim port chunkId h recs) rd false)

/-- The role of a step whose reservation is still unmet. -/
def Eng.unmet (e : Eng) (slot step : Nat) : Option HostRole :=
  (e.role slot step).filter (fun h => h.reserving && !h.nomem && !h.experts.isEmpty && e.flt.recovery != some .compute)

/-- The 10 µs timer tries a reservation again, forward or backward (R160, R174; log 33, DEDUCED). -/
def Eng.reserveAgain (slot step : Nat) (e : Eng) : Eng :=
  match e.unmet slot step with
  | none => if (e.role slot step).any (fun h => h.bwdWanted) && e.flt.recovery != some .compute then e.startBwd slot step else e
  | some h =>
    let e := e.reach (h.startNs + 10000 * max 1 (ceilDiv (e.now - h.startNs) 10000))
    let (met, e) := e.tryReserve slot step
    if met then e.reserveSettled slot step else e

/-- RESERVE_RETRY (R160). -/
def execReserveRetry (slot step : Nat) (s : State) : Host.Outcome State Fault Refusal :=
  s.onPower (fun m e => (e.reserveAgain slot step).settle m)

/-- After 1 ms HOST_RESERVE_FAILED is raised, once; in normal mode the bids are refused NOMEM, under DETM the host waits on
(R160, R326; log 33, DEDUCED). -/
def Eng.reserveLate (slot step : Nat) (e : Eng) : Eng :=
  match e.unmet slot step with
  | none => e
  | some h =>
    let e := e.reach (h.startNs + 1000000)
    let e := if h.raised.contains 0x0453 then e
      else (e.setRole slot step (fun h => { h with raised := 0x0453 :: h.raised })).raise 0x0453 (arg4 slot 0 1) (some h.polder) h.tag
    if h.detm then e
    else ((e.endWait (.host slot step false)).setRole slot step (fun h => { h with nomem := true, reserving := false })).reserveSettled slot step

/-- RESERVE_TIMEOUT (R160, R326). -/
def execReserveTimeout (slot step : Nat) (s : State) : Host.Outcome State Fault Refusal :=
  s.onPower (fun m e => (e.reserveLate slot step).settle m)

/-! ### Chunks (R190, R191, R208, R215, R218) -/

/-- DISPATCH_CHUNK (R190). -/
def execDispatchChunk (port : Option Nat) (h : ChunkHdr) (payload : List Byte) (rd : SpoolRead) (s : State) : Host.Outcome State Fault Refusal :=
  s.onPower (fun m e => e.arriveChunk m port h payload rd false)

/-- VOID_LIST (R191). -/
def execVoidList (port : Option Nat) (h : ChunkHdr) (payload : List Byte) (rd : SpoolRead) (s : State) : Host.Outcome State Fault Refusal :=
  s.onPower (fun m e => e.arriveChunk m port h payload rd false)

/-- RETURN_CHUNK (R208). -/
def execReturnChunk (port : Option Nat) (h : ChunkHdr) (payload : List Byte) (rd : SpoolRead) (s : State) : Host.Outcome State Fault Refusal :=
  s.onPower (fun m e => e.arriveChunk m port h payload rd false)

/-- BACKWARD_DISPATCH_CHUNK (R215). -/
def execBackwardDispatchChunk (port : Option Nat) (h : ChunkHdr) (payload : List Byte) (rd : SpoolRead) (s : State) :
    Host.Outcome State Fault Refusal :=
  s.onPower (fun m e => e.arriveChunk m port h payload rd false)

/-- BACKWARD_RETURN_CHUNK (R218). -/
def execBackwardReturnChunk (port : Option Nat) (h : ChunkHdr) (payload : List Byte) (rd : SpoolRead) (s : State) :
    Host.Outcome State Fault Refusal :=
  s.onPower (fun m e => e.arriveChunk m port h payload rd false)

/-- COPY_CHUNK (R177). -/
def execCopyChunk (port : Option Nat) (h : ChunkHdr) (payload : List Byte) (rd : SpoolRead) (s : State) : Host.Outcome State Fault Refusal :=
  s.onPower (fun m e => e.arriveChunk m port h payload rd false)

/-! ### The transfer table (R197 to R199) -/

/-- ACK (R197, R198). -/
def execAck (chip : Nat) (ids : List Nat) (s : State) : Host.Outcome State Fault Refusal :=
  s.onPower (fun m e => (ids.foldl (fun (e : Eng) i => e.ackOne chip i) e).settle m)

/-- NAK (R199). -/
def execNak (chip id : Nat) (s : State) : Host.Outcome State Fault Refusal :=
  s.onPower (fun m e => match e.ttNamed chip id with
    | some it => (e.replay m it.1 false).settle m
    | none => e)

/-- An entry has had no answer for TWK_SLC_ACK_TO (R199). -/
def Eng.ackLate (m : Mem) (i : Nat) (e : Eng) : Eng :=
  match KV.find e.tt i with
  | none => e
  | some t =>
    if t.unsent then e
    else
      let e := e.reach (t.sentNs + field (e.reg Reg.slcAckTo) 0 10 * 1000)
      (e.raise 0x0107 (arg1 t.port t.hdr.dst) none 0).replay m i true

/-- ACK_TIMEOUT (R199). -/
def execAckTimeout (entry : Nat) (s : State) : Host.Outcome State Fault Refusal :=
  s.onPower (fun m e => (e.ackLate m entry).settle m)

/-- An exclusion's 10 ms have passed (R199). -/
def Eng.includePath (m : Mem) (chip port : Nat) (e : Eng) : Eng :=
  match e.excl.find? (fun x => x.chip == chip && x.port == port) with
  | none => e
  | some x => { e.reach x.endNs with excl := e.excl.filter (fun y => !(y.chip == chip && y.port == port)) }.resendUnsent m

/-- PATH_EXCLUSION_EXPIRY (R199). -/
def execPathExclusionExpiry (chip port : Nat) (s : State) : Host.Outcome State Fault Refusal :=
  s.onPower (fun m e => (e.includePath m chip port).settle m)

/-- ACK_COALESCE_TIMEOUT (R198). -/
def execAckCoalesceTimeout (chip : Nat) (s : State) : Host.Outcome State Fault Refusal :=
  s.onPower (fun _ e => match KV.find e.acks chip with
    | some a => (e.reach (a.since + 1000)).sendAcks chip
    | none => e)

/-! ### Collective messages (R276, R283 to R287, R291, R293) -/

/-- FORM_UP (R276). -/
def execFormUp (port : Option Nat) (h : ChunkHdr) (payload : Received) (s : State) : Host.Outcome State Fault Refusal :=
  s.onPower (fun m e => e.arriveChunk m port h payload.bytes payload.read false)

/-- FORM_DOWN (R276). -/
def execFormDown (port : Option Nat) (h : ChunkHdr) (payload : Received) (s : State) : Host.Outcome State Fault Refusal :=
  s.onPower (fun m e => e.arriveChunk m port h payload.bytes payload.read false)

/-- FORM_TIMEOUT (R276). -/
def execFormTimeout (group : Nat) (s : State) : Host.Outcome State Fault Refusal := s.onPower (fun m e => (e.formLate group).settle m)

/-- COUNT_UP (R283). -/
def execCountUp (port : Option Nat) (h : ChunkHdr) (payload : Received) (s : State) : Host.Outcome State Fault Refusal :=
  s.onPower (fun m e => e.arriveChunk m port h payload.bytes payload.read false)

/-- COUNT_DOWN (R283). -/
def execCountDown (port : Option Nat) (h : ChunkHdr) (payload : Received) (s : State) : Host.Outcome State Fault Refusal :=
  s.onPower (fun m e => e.arriveChunk m port h payload.bytes payload.read false)

/-- BCAST_DATA (R284). -/
def execBcastData (port : Option Nat) (h : ChunkHdr) (payload : List Byte) (rd : SpoolRead) (s : State) : Host.Outcome State Fault Refusal :=
  s.onPower (fun m e => e.arriveChunk m port h payload rd false)

/-- REDUCE_DATA (R285, R286). -/
def execReduceData (port : Option Nat) (h : ChunkHdr) (payload : List Byte) (rd : SpoolRead) (sumBad : Bool) (s : State) :
    Host.Outcome State Fault Refusal :=
  s.onPower (fun m e => e.arriveChunk m port h payload rd sumBad)

/-- FACTOR_DATA (R287). -/
def execFactorData (port : Option Nat) (h : ChunkHdr) (payload : List Byte) (rd : SpoolRead) (s : State) : Host.Outcome State Fault Refusal :=
  s.onPower (fun m e => e.arriveChunk m port h payload rd false)

/-- SW_REFUSED (R291). -/
def execSwRefused (port : Option Nat) (h : ChunkHdr) (payload : Received) (s : State) : Host.Outcome State Fault Refusal :=
  s.onPower (fun m e => e.arriveChunk m port h payload.bytes payload.read false)

/-- COLLECTIVE_ABORT (R293). -/
def execCollectiveAbort (port : Option Nat) (h : ChunkHdr) (payload : Received) (s : State) : Host.Outcome State Fault Refusal :=
  s.onPower (fun m e => e.arriveChunk m port h payload.bytes payload.read false)

/-! ### Barriers, tacks, time (R332 to R335, R390, R391) -/

/-- BARRIER_UP (R335). -/
def execBarrierUp (port : Option Nat) (h : ChunkHdr) (payload : Received) (s : State) : Host.Outcome State Fault Refusal :=
  s.onPower (fun m e => e.arriveChunk m port h payload.bytes payload.read false)

/-- BARRIER_DOWN (R335). -/
def execBarrierDown (port : Option Nat) (h : ChunkHdr) (payload : Received) (s : State) : Host.Outcome State Fault Refusal :=
  s.onPower (fun m e => e.arriveChunk m port h payload.bytes payload.read false)

/-- BARRIER_RELEASE (R335). -/
def execBarrierRelease (group bseq : Nat) (s : State) : Host.Outcome State Fault Refusal :=
  s.onPower (fun m e => (e.barrierGo group bseq false).settle m)

/-- TACK_NOTICE (R390). -/
def execTackNotice (port : Option Nat) (h : ChunkHdr) (payload : Received) (s : State) : Host.Outcome State Fault Refusal :=
  s.onPower (fun m e => e.arriveChunk m port h payload.bytes payload.read false)

/-- TACK_LATCH (R391, R392). -/
def execTackLatch (s : State) : Host.Outcome State Fault Refusal := s.onPower (fun m e => e.latch.settle m)

/-- SYNC_TIMER (R332). -/
def execSyncTimer (s : State) : Host.Outcome State Fault Refusal := s.onPower (fun _ e => e.syncStart)

/-- SYNC_MESSAGE (R332). -/
def execSyncMessage (msg : SyncMsg) (at_ : Nat) (s : State) : Host.Outcome State Fault Refusal := s.onPower (fun _ e => e.syncTake msg at_)

/-- SYNC_TIMEOUT (R333). -/
def execSyncTimeout (s : State) : Host.Outcome State Fault Refusal := s.onPower (fun _ e => e.syncLost)

end Sys2Proof.Machine
end

