-- ==== Sys2Proof/Machine/RowsPolders.lean ====
section
/-! DEFINITION. Commands of polders, consent, Tide, determinism, weights and bias vectors (chapters 2, 4, 6, 13 and 14). -/

namespace Sys2Proof.Machine

/-- A write of a polder slot's command register (Table 13-2). -/
def State.slotWrite (s : State) (slot op id : Nat) : Host.Outcome State Fault Refusal :=
  s.onPower (fun m e => e.mmioWrite m (slotReg slot Reg.pldCmd) false (op + id * 2 ^ 16))

/-! ### Slot commands (R300 to R305) -/

/-- CREATE (R301). -/
def execCreate (slot id : Nat) (s : State) : Host.Outcome State Fault Refusal := s.slotWrite slot pcCreate id

/-- CREATE_DONE (R301). -/
def execCreateDone (slot : Nat) (s : State) : Host.Outcome State Fault Refusal := s.onPower (fun m e => e.createEnd m slot)

/-- DESTROY (R302). -/
def execDestroy (slot : Nat) (s : State) : Host.Outcome State Fault Refusal := s.slotWrite slot pcDestroy 0

/-- DESTROY_DONE (R302). -/
def execDestroyDone (slot : Nat) (s : State) : Host.Outcome State Fault Refusal := s.onPower (fun m e => e.destroyEnd m slot)

/-- TWK_SCH_DESTROY_ID (R302). -/
def execSchDestroyId (id : Nat) (s : State) : Host.Outcome State Fault Refusal :=
  s.onPower (fun m e => e.mmioWrite m Reg.schDestroyId false id)

/-- PARK (R303). -/
def execPark (slot : Nat) (s : State) : Host.Outcome State Fault Refusal := s.slotWrite slot pcPark 0

/-- PARK_DONE (R303). -/
def execParkDone (slot : Nat) (s : State) : Host.Outcome State Fault Refusal := s.onPower (fun m e => e.parkEnd m slot)

/-- UNPARK (R303). -/
def execUnpark (slot : Nat) (s : State) : Host.Outcome State Fault Refusal := s.slotWrite slot pcUnpark 0

/-- UNPARK_DONE (R303). -/
def execUnparkDone (slot : Nat) (s : State) : Host.Outcome State Fault Refusal := s.onPower (fun m e => e.unparkEnd m slot)

/-- EVICT (R304). -/
def execEvict (slot : Nat) (s : State) : Host.Outcome State Fault Refusal := s.slotWrite slot pcEvict 0

/-- EVICT_DONE (R304, R305). -/
def execEvictDone (slot : Nat) (s : State) : Host.Outcome State Fault Refusal := s.onPower (fun m e => e.evictEnd m slot)

/-- QUARANTINE_END (R305). -/
def execQuarantineEnd (template : Nat) (s : State) : Host.Outcome State Fault Refusal := s.onPower (fun m e => e.quarantineOver m template)

/-- RESTORE (R305). -/
def execRestore (slot id : Nat) (s : State) : Host.Outcome State Fault Refusal := s.slotWrite slot pcRestore id

/-- RESTORE_DONE (R305). -/
def execRestoreDone (slot : Nat) (s : State) : Host.Outcome State Fault Refusal := s.onPower (fun m e => e.restoreEnd m slot)

/-! ### Steps, consent, Tide, slowdown (R56, R312 to R319) -/

/-- STEP_BOUNDARY (R56, R153, R154, R269, R270). -/
def execStepBoundary (slot : Nat) (s : State) : Host.Outcome State Fault Refusal := s.onPower (fun m e => e.stepBoundary m slot)

/-- TWK_PLD_CONSENT (R316). -/
def execConsent (slot byteOff : Nat) (wide : Bool) (value : Nat) (s : State) : Host.Outcome State Fault Refusal :=
  s.onPower (fun m e => e.mmioWrite m (slotReg slot Reg.pldConsent + byteOff) wide value)

/-- CONSENT_TIMEOUT (R315). -/
def execConsentTimeout (slot : Nat) (s : State) : Host.Outcome State Fault Refusal := s.onPower (fun _ e => e.consentLate slot)

/-- TIDE_WINDOW_START (R313). -/
def execTideWindowStart (s : State) : Host.Outcome State Fault Refusal := s.onPower (fun m e => e.windowStart m)

/-- TIDE_WINDOW_END (R313). -/
def execTideWindowEnd (overrunNs : Nat) (s : State) : Host.Outcome State Fault Refusal := s.onPower (fun m e => e.windowEnd m overrunNs)

/-- SLOWDOWN_UPDATE (R319). -/
def execSlowdownUpdate (s : State) : Host.Outcome State Fault Refusal := s.onPower (fun _ e => e.slowdowns)

/-! ### Determinism (R322, R329) -/

/-- TWK_ENG_MODE (R322). -/
def execEngMode (value : Nat) (s : State) : Host.Outcome State Fault Refusal :=
  s.onPower (fun m e => e.mmioWrite m Reg.engMode false value)

/-- TWK_DET_SEED (R329). -/
def execDetSeed (byteOff : Nat) (wide : Bool) (value : Nat) (s : State) : Host.Outcome State Fault Refusal :=
  s.onPower (fun m e => e.mmioWrite m (Reg.detSeed + byteOff) wide value)

/-! ### Weight images and bias vectors (R99, R102, R152) -/

/-- BIND (R99). -/
def execBind (s : State) : Host.Outcome State Fault Refusal := s.onPower (fun m e => e.mmioWrite m Reg.ctWcmd false wcBind)

/-- UNBIND (R102). -/
def execUnbind (s : State) : Host.Outcome State Fault Refusal := s.onPower (fun m e => e.mmioWrite m Reg.ctWcmd false wcUnbind)

/-- INVALIDATE (R102). -/
def execInvalidate (s : State) : Host.Outcome State Fault Refusal := s.onPower (fun m e => e.mmioWrite m Reg.ctWcmd false wcInvalidate)

/-- BIND_FILL_DONE (R99). -/
def execBindFillDone (slot : Nat) (s : State) : Host.Outcome State Fault Refusal := s.onPower (fun m e => e.bindFilled m slot)

/-- WCMD_PEND_EXECUTE (R102). -/
def execWcmdPendExecute (slot : Nat) (s : State) : Host.Outcome State Fault Refusal := s.onPower (fun m e => e.weightLatched m slot)

/-- TWK_SEL_BIASADDR (R152). -/
def execSelBiasAddr (byteOff : Nat) (wide : Bool) (value : Nat) (s : State) : Host.Outcome State Fault Refusal :=
  s.onPower (fun m e => e.mmioWrite m (Reg.selBiasaddr + byteOff) wide value)

/-- BIAS_ZEROING_DONE (R152). -/
def execBiasZeroingDone (slot : Nat) (s : State) : Host.Outcome State Fault Refusal := s.onPower (fun _ e => e.biasZeroed slot)

/-- BIAS_PEND_EXECUTE (R152). -/
def execBiasPendExecute (slot : Nat) (s : State) : Host.Outcome State Fault Refusal := s.onPower (fun _ e => e.biasLatched slot)

end Sys2Proof.Machine
end

