-- ==== Sys2Proof/Machine/RowsUnits.lean ====
section
/-! DEFINITION. Commands of the Hem unit, the Spool and the bobbin manager (chapters 5, 10 and 11). -/

namespace Sys2Proof.Machine

/-! ### Hem unit (R137, R138) -/

/-- TWK_HEM_DIAG_CMD (R137). -/
def execHemDiagCmd (value : Nat) (s : State) : Host.Outcome State Fault Refusal :=
  s.onPower (fun m e => e.mmioWrite m Reg.hemDiagCmd false value)

/-- DIAG_DONE (R137). -/
def execDiagDone (s : State) : Host.Outcome State Fault Refusal := s.onPower (fun _ e => e.diagOut)

/-- TBL_SCRUB (R138). -/
def execTblScrub (repaired differ half : Nat) (s : State) : Host.Outcome State Fault Refusal :=
  s.onPower (fun _ e => e.scrubTables repaired differ half)

/-! ### Spool (R234, R245, R247) -/

/-- SCRUB (R245). -/
def execScrub (cell : Nat) (stat : LineStat) (again : Bool) (s : State) : Host.Outcome State Fault Refusal :=
  s.onPower (fun _ e => e.scrubCell cell stat again)

/-- SWEEP_DONE (R247). -/
def execSweepDone (queue : Nat) (s : State) : Host.Outcome State Fault Refusal := s.onPower (fun m e => (e.sweepEnd queue).settle m)

/-- BACKPRESSURE_TIMEOUT (R234). -/
def execBackpressureTimeout (queue : Nat) (s : State) : Host.Outcome State Fault Refusal := s.onPower (fun _ e => e.backpressure queue)

/-! ### Bobbins (R258, R259, R263, R267, R379, R420) -/

/-- A RELEASE message joins the FIFO while a place is free; COUNT 0 stands for 4,096; at three quarters full it wakes the
engine (R379, R420). -/
def Eng.takeRelease (handle count : Nat) (e : Eng) : Eng :=
  if e.bob.fifo.length ≥ 256 then e
  else
    let e := { e with bob.fifo := e.bob.fifo ++ [(handle, count)] }
    if e.bob.fifo.length ≥ 192 && !e.active then e.wake else e

/-- MX_REL (R420). -/
def execMxRel (handle count : Nat) (s : State) : Host.Outcome State Fault Refusal := s.onPower (fun _ e => e.takeRelease handle count)

/-- The manager drains one RELEASE message (R263). -/
def Eng.drainRelease (m : Mem) (e : Eng) : Eng :=
  match e.bob.fifo with
  | [] => e
  | (handle, count) :: rest =>
    if e.awake then ({ e with bob.fifo := rest }.releaseMsg handle (if count = 0 then 4096 else count)).settle m else e

/-- RELEASE_MESSAGE (R263, R264). -/
def execReleaseMessage (s : State) : Host.Outcome State Fault Refusal := s.onPower (fun m e => e.drainRelease m)

/-- INIT (R258), DF_FAULT as it stands. -/
def execBobInit (s : State) : Host.Outcome State Fault Refusal :=
  s.onPower (fun m e => e.mmioWrite m Reg.bobCtrl false (2 + e.reg Reg.bobCtrl % 2))

/-- POOL_CONFIG_WRITE (R259). -/
def execPoolConfigWrite (off : Nat) (wide : Bool) (value : Nat) (s : State) : Host.Outcome State Fault Refusal :=
  s.onPower (fun m e => e.mmioWrite m off wide value)

/-- INIT_DONE (R258). -/
def execInitDone (s : State) : Host.Outcome State Fault Refusal :=
  s.onPower (fun m e => if e.bob.busy then { e with bob.busy := false }.settle m else e)

/-- A request has waited 100 µs for a pool (Table 11-4 case 4). -/
def Eng.poolWaitLate (pool : Nat) (w : BWait) (e : Eng) : Eng :=
  { e.reach (w.since + 100000) with
    bob.waits := e.bob.waits.map (fun (x : BWait) => if x.who = w.who then { x with raised := true } else x) }.raise
    0x0491 (arg4 w.slot pool 1) (some w.polder) w.tag


/-- BOBBIN_POOL_EMPTY for the first request of a pool that has not raised it. -/
def Eng.poolLate (pool : Nat) (e : Eng) : Eng :=
  match e.bob.waits.find? (fun w => w.pools.contains pool && !w.raised) with
  | some w => e.poolWaitLate pool w
  | none => e

/-- POOL_EMPTY_TIMEOUT (R267). -/
def execPoolEmptyTimeout (pool : Nat) (s : State) : Host.Outcome State Fault Refusal := s.onPower (fun _ e => e.poolLate pool)

end Sys2Proof.Machine
end

