-- ==== Sys2Proof/Machine/RowsFaults.lean ====
section
/-! DEFINITION. Commands of faults, resets, peers and notices (chapter 15). -/

namespace Sys2Proof.Machine

/-! ### Lanes, halves, gussets (R343, R344, R346) -/

/-- A check lane disagrees with a lane at a core cycle: a second time within 1,024 cycles its cluster fails (R344). -/
def Eng.laneFails (quarter logical lane cycle : Nat) (e : Eng) : Eng :=
  if quarter ≥ e.quarterCount || bit (e.qmapByte quarter logical) 7 then e
  else
    let pos := e.position quarter logical
    let bay := bayOf quarter pos
    let key := (quarter * 32 + pos) * 8 + lane
    let again := match KV.find e.flt.laneLast key with
      | some t => decide (t ≤ cycle ∧ cycle ≤ t + 1024)
      | none => false
    let e := e.fltEvent 0x060C (some bay) (some (bay / 6)) (some quarter) (some pos)
    if again then { e with flt.laneLast := KV.del e.flt.laneLast key }.addFault (.cluster quarter pos)
    else { e with flt.laneLast := KV.put e.flt.laneLast key cycle }

/-- LANE_MISMATCH (R344). -/
def execLaneMismatch (quarter logical lane cycle : Nat) (s : State) : Host.Outcome State Fault Refusal :=
  s.onPower (fun _ e => e.laneFails quarter logical lane cycle)

/-- HALF_MISMATCH (R343). -/
def execHalfMismatch (unit half : Nat) (s : State) : Host.Outcome State Fault Refusal := s.onPower (fun m e => (e.halfFails unit half).settle m)

/-- A substitution ends: the failed cluster's logical ID has moved, or is absent; the next recovery starts (R346, R353). -/
def Eng.substituted (e : Eng) : Eng :=
  match e.flt.recovery with
  | some (.substitution q p) => ({ e with flt.recovery := none }.clusterFailed q p).nextRecovery
  | _ => e

/-- GUSSET_SUBSTITUTION (R346, R348). -/
def execGussetSubstitution (s : State) : Host.Outcome State Fault Refusal := s.onPower (fun _ e => e.substituted)

/-! ### Bays and dikes (R350 to R352) -/

/-- BAY_RESET (R351). -/
def execBayReset (bay : Nat) (s : State) : Host.Outcome State Fault Refusal := s.onPower (fun _ e => e.bayFault bay)

/-- A bay reset ends (R351). -/
def Eng.bayResetEnds (m : Mem) (b : Nat) (passed : Bool) (e : Eng) : Eng :=
  if e.flt.recovery = some (.bay b) then
    let e := { e with flt.recovery := none }
    let e := if passed then
        { e with flt.baysReset := e.flt.baysReset.filter (· != b), flt.bayResetNs := KV.put e.flt.bayResetNs b e.now }.bayBack m b
      else e.containBay b
    (e.updateReplace.nextRecovery).settle m
  else e

/-- BAY_RESET_DONE (R351). -/
def execBayResetDone (bay : Nat) (passed : Bool) (s : State) : Host.Outcome State Fault Refusal :=
  s.onPower (fun m e => e.bayResetEnds m bay passed)

/-- DIKE_RESET (R352). -/
def execDikeReset (dike : Nat) (s : State) : Host.Outcome State Fault Refusal :=
  s.onPower (fun _ e => if e.flt.dikesContained.contains dike then e else e.addFault (.dike dike))

/-- A dike reset ends (R352). -/
def Eng.dikeResetEnds (m : Mem) (d : Nat) (passed : Bool) (e : Eng) : Eng :=
  if e.flt.recovery = some (.dike d) then
    let e := { e with flt.recovery := none }
    let back := (dikeBays d).filter (fun b => !e.flt.baysContained.contains b)
    let e := if passed then
        back.foldl (fun (e : Eng) b => { e with flt.bayResetNs := KV.put e.flt.bayResetNs b e.now }.bayBack m b)
          { e with flt.dikesReset := e.flt.dikesReset.filter (· != d) }
      else e.containDike d
    (e.updateReplace.nextRecovery).settle m
  else e

/-- DIKE_RESET_DONE (R352). -/
def execDikeResetDone (dike : Nat) (passed : Bool) (s : State) : Host.Outcome State Fault Refusal :=
  s.onPower (fun m e => e.dikeResetEnds m dike passed)

/-- A bay's banks return after management has cleared its containment; its clusters go to free gussets or stay absent. -/
def Eng.clearBay (b : Nat) (e : Eng) : Eng :=
  let e := { e with flt.banksAbsent := e.flt.banksAbsent.filter (fun k => !(bayBanks b).contains k) }
  let e := (bayBanks b).foldl (fun (e : Eng) k => e.bankUp k) e
  (e.bayClusters b).foldl (fun (e : Eng) c => e.replaceCluster c.1 c.2) e

/-- Containment of a bay, or of a dike, is cleared; a bay without its Pattern blocks stays out (R51, R350). -/
def Eng.clearContained (bay dike : Option Nat) (e : Eng) : Eng :=
  let e := match bay with
    | some b =>
      if e.flt.baysContained.contains b && !bit e.loader.baysUncfg b then
        let e := { e with flt.baysContained := e.flt.baysContained.filter (· != b) }
        if e.bayDown b then e else e.clearBay b
      else e
    | none => e
  let e := match dike with
    | some d =>
      if e.flt.dikesContained.contains d then
        let e := { e with flt.dikesContained := e.flt.dikesContained.filter (· != d) }
        ((dikeBays d).filter (fun b => !e.bayDown b)).foldl (fun (e : Eng) b => e.clearBay b) e
      else e
    | none => e
  e.updateReplace

/-- CONTAINMENT_CLEARED (R350). -/
def execContainmentCleared (bay dike : Option Nat) (s : State) : Host.Outcome State Fault Refusal :=
  s.onPower (fun m e => (e.clearContained bay dike).settle m)

/-! ### Compute reset (R355 to R357, R376) -/

/-- COMPUTE_RESET (R356). -/
def execComputeReset (s : State) : Host.Outcome State Fault Refusal := s.onPower (fun _ e => e.addFault .compute)

/-- Records held through a compute reset are written (R435). -/
def Eng.writeResetHeld (e : Eng) : Eng :=
  e.evt.resetHeld.foldl (fun (e : Eng) r => (e.evtPush r).2) { e with evt.resetHeld := [] }

/-- A compute reset ends: the kept Pattern is applied again and the work recovered, or the engine waits for its Pattern
(R57, R58, R356, R357; log 48, DEDUCED). -/
def Eng.computeEnds (m : Mem) (passed : Bool) (e : Eng) : Eng :=
  if e.flt.recovery ≠ some .compute then e
  else if !passed then e.computeFails
  else
    let (work, e) := if e.keptCopy then e.reapplyKept m
      else (false, { e with loader := { e.loader with st := LoaderState.empty, reloadNeeded := true }, pat := none })
    let e := { e with flt.recovery := none }.writeResetHeld
    let e := e.fltEvent 0x0609 none none none none
    let e := if work then e.recoverWork m else e
    (((e.serveAccesses m).updateReplace).updateReady).nextRecovery

/-- COMPUTE_RESET_DONE (R356, R357). -/
def execComputeResetDone (passed : Bool) (s : State) : Host.Outcome State Fault Refusal := s.onPower (fun m e => e.computeEnds m passed)

/-- COMPUTE_RESET_REQUEST (R376). -/
def execComputeResetRequest (s : State) : Host.Outcome State Fault Refusal := s.onPower (fun m e => e.mmioWrite m Reg.engReset false 1)

/-- BAY_RESET_REQUEST (R376). -/
def execBayResetRequest (bay : Nat) (s : State) : Host.Outcome State Fault Refusal :=
  s.onPower (fun m e => e.mmioWrite m Reg.engReset false (2 + bay * 256))

/-! ### Notices and probes (R359 to R364) -/

/-- HOLD (R361, R362). -/
def execHold (nseq chip : Nat) (s : State) : Host.Outcome State Fault Refusal := s.onPower (fun _ e => e.notice nseq (fun e => e.applyHold chip))

/-- RESUME (R359, R362). -/
def execResume (nseq chip : Nat) (s : State) : Host.Outcome State Fault Refusal :=
  s.onPower (fun m e => e.notice nseq (fun e => (e.endHold m chip).settle m))

/-- LOST (R363). -/
def execLost (nseq chip : Nat) (s : State) : Host.Outcome State Fault Refusal :=
  s.onPower (fun m e => e.notice nseq (fun e => e.noticeLost m chip))

/-- CLEAR_NOTICE (R362). -/
def execClearNotice (nseq chip : Nat) (s : State) : Host.Outcome State Fault Refusal :=
  s.onPower (fun _ e => e.notice nseq (fun e => e.applyClear chip))

/-- SUSPECT (R360). -/
def execSuspect (nseq chip : Nat) (s : State) : Host.Outcome State Fault Refusal :=
  s.onPower (fun _ e => e.notice nseq (fun e => e.suspectChip chip))

/-- PROBE: answered, but in a compute reset, when the control island is in reset (R356, R360). -/
def execProbe (src : Nat) (s : State) : Host.Outcome State Fault Refusal :=
  s.onPower (fun _ e => if e.flt.recovery = some .compute then e else e.transmit (e.towards src) 7 64 (.probeAnswer src))

/-- An answer ends a suspicion; a hold that a notice asked for goes on (R360, R361; log 44, DEDUCED). -/
def Eng.probeAnswered (m : Mem) (chip : Nat) (e : Eng) : Eng :=
  match KV.find e.flt.holds chip with
  | none => e
  | some h =>
    if !h.suspected then e
    else if h.noticed then { e with flt.holds := KV.put e.flt.holds chip { h with suspected := false, probes := 0, reported := false } }
    else (e.endHold m chip).settle m

/-- PROBE_ANSWER (R360). -/
def execProbeAnswer (chip : Nat) (s : State) : Host.Outcome State Fault Refusal := s.onPower (fun m e => e.probeAnswered m chip)

/-- A millisecond without an answer: the next probe, or after the third the report (R360; log 44, DEDUCED). -/
def Eng.probeLate (chip : Nat) (e : Eng) : Eng :=
  match KV.find e.flt.holds chip with
  | none => e
  | some h =>
    if !h.suspected || h.reported then e
    else
      let e := e.reach (h.since + h.probes * 1000000)
      if h.probes < 3 then { e with flt.holds := KV.put e.flt.holds chip { h with probes := h.probes + 1 } }.sendProbe chip
      else
        ({ e with flt.holds := KV.put e.flt.holds chip { h with reported := true } }.raise 0x0112 (arg1 none chip) none 0).post (.peerReport chip)

/-- PROBE_TIMEOUT (R360). -/
def execProbeTimeout (chip : Nat) (s : State) : Host.Outcome State Fault Refusal := s.onPower (fun _ e => e.probeLate chip)

end Sys2Proof.Machine
end

