-- ==== Sys2Proof/Machine/RowsPower.lean ====
section
/-! DEFINITION. Commands of power states, function enables, gauges, the event ring and the two access ports (chapters 16, 17,
19 and 20). -/

namespace Sys2Proof.Machine

/-! ### Power states (R379 to R382) -/

/-- TWK_WAKE_TOL (R381). -/
def execWakeTol (value : Nat) (s : State) : Host.Outcome State Fault Refusal :=
  s.onPower (fun m e => e.mmioWrite m Reg.wakeTol false value)

/-- IDLE_TIMEOUT (R379). -/
def execIdleTimeout (s : State) : Host.Outcome State Fault Refusal := s.onPower (fun _ e => e.idleLong)

/-- TIDE_WAKE (R379). -/
def execTideWake (s : State) : Host.Outcome State Fault Refusal := s.onPower (fun _ e => e.tideWake)

/-- POWER_ENTRY_DONE (R380, R381). -/
def execPowerEntryDone (s : State) : Host.Outcome State Fault Refusal := s.onPower (fun _ e => e.entryDone)

/-- POWER_EXIT_DONE (R379 to R381, R435). -/
def execPowerExitDone (saveReadable : Bool) (s : State) : Host.Outcome State Fault Refusal :=
  s.onPower (fun m e => (e.exitDone m saveReadable).serveAccesses m)

/-- TWK_ENG_FUNC (R382). -/
def execEngFunc (value : Nat) (s : State) : Host.Outcome State Fault Refusal :=
  s.onPower (fun m e => e.mmioWrite m Reg.engFunc false value)

/-- FUNC_TRANSITION_DONE (R382). -/
def execFuncTransitionDone (fn : Nat) (s : State) : Host.Outcome State Fault Refusal := s.onPower (fun _ e => e.funcDone fn)

/-! ### Gauges (R384 to R387) -/

/-- TWK_GAU_BIND (R385). -/
def execGauBind (byteOff : Nat) (wide : Bool) (value : Nat) (s : State) : Host.Outcome State Fault Refusal :=
  s.onPower (fun m e => e.mmioWrite m (Reg.gauBind + byteOff) wide value)

/-- CLEAR (R387). -/
def execGauClear (s : State) : Host.Outcome State Fault Refusal := s.onPower (fun m e => e.mmioWrite m Reg.gauCmd false 1)

/-- CLEAR_ALL (R387). -/
def execGauClearAll (s : State) : Host.Outcome State Fault Refusal := s.onPower (fun m e => e.mmioWrite m Reg.gauCmd false 2)

/-- LEVEL_SAMPLE (R384). -/
def execLevelSample (us : Nat) (s : State) : Host.Outcome State Fault Refusal := s.onPower (fun _ e => e.sampleLevels us)

/-! ### The event ring (R433, R434) -/

/-- TWK_EVT_HEAD (R434). -/
def execEvtHead (value : Nat) (s : State) : Host.Outcome State Fault Refusal :=
  s.onPower (fun m e => e.mmioWrite m Reg.evtHead false value)

/-- TWK_EVT_BASE, and the LOG2 beside it (R433). -/
def execEvtBase (off : Nat) (wide : Bool) (value : Nat) (s : State) : Host.Outcome State Fault Refusal :=
  s.onPower (fun m e => e.mmioWrite m off wide value)

/-! ### Register accesses (R418, R379, R437) -/

/-- MANAGEMENT_ADDRESS: bits [22:0] the address, [23] the width (R437). -/
def execManagementAddress (addr : Nat) (s : State) : Host.Outcome State Fault Refusal :=
  s.onPower (fun _ e => { e with mgmtAddr := field addr 0 23, mgmtWide := bit addr 23 })

/-- REGISTER_WRITE, from the MMIO port or the management port (R418, R437). -/
def execRegisterWrite (mgmt : Bool) (off : Nat) (wide : Bool) (value : Nat) (s : State) : Host.Outcome State Fault Refusal :=
  s.onPower (fun m e => if mgmt then e.mgmtWrite m off wide value else e.mmioWrite m off wide value)

/-- MMIO_READ, from the MMIO port, or from the management port at the address it last set (R379, R418, R437). -/
def execMmioRead (mgmt : Bool) (off : Nat) (wide : Bool) (s : State) : Host.Outcome State Fault Refusal :=
  s.onPower (fun _ e => if mgmt then e.mgmtRead else e.mmioRead off wide)

end Sys2Proof.Machine
end

