-- ==== Sys2Proof/Machine/Tape.lean ====
section
/-! DEFINITION. Tape, the sealed energy meter (chapter 18). Nothing here writes the rest of the engine but the mirror and
the events that go with it (R409, R410, R412). -/

namespace Sys2Proof.Machine

/-! ### Samples (R397 to R400) -/

/-- One bit of CRC-8, polynomial 0x07. -/
def crc8Bit (c : Nat) (b : Bool) : Nat :=
  let x := c * 2 % 256
  if (decide (c ≥ 128)) != b then x ^^^ 7 else x

/-- CRC-8 over the `n` high bits [63:64 − n] of a frame (Table 18-1). -/
def crc8 (frame : Nat) : Nat := (List.range 56).foldl (fun c i => crc8Bit c (bit frame (63 - i))) 0

/-- Arithmetic shift right by 20 of a calibrated code (R400). -/
def calibrate20 (code ofs gain : Int) : Int := (code - ofs) * gain / (2 ^ 20 : Int)

/-- 0.1 Wh in attojoules (R400). -/
def tapeStep : Nat := 360 * 10 ^ 18

/-- Energy of a sample in attojoules, with the anti-creep threshold (R400). -/
def sampleEnergy (v i : Int) : Int := if i.natAbs < 100000 then 0 else 8 * v * i

/-- Adds a sample's energy to the accumulators and registers (R400). -/
def Tape.integrate (v i : Int) (t : Tape) : Tape :=
  let e := sampleEnergy v i
  let acc := t.acc + e.toNat
  let rev := t.rev + (-e).toNat
  { t with
    acc := acc % tapeStep
    legal := (t.legal + acc / tapeStep) % 2 ^ 64
    rev := rev % tapeStep
    reverse := (t.reverse + rev / tapeStep) % 2 ^ 64
    periodAj := t.periodAj + e.toNat
    sumV := t.sumV + v
    sumI := t.sumI + i
    sumE := t.sumE + e
    samples := t.samples + 1 }

/-- Whether a frame is valid (R399). -/
def Tape.frameValid (t : Tape) (f : Nat) : Bool :=
  crc8 f == field f 0 8 && field f 8 2 == 0 && t.lastSeq.all (fun s => field f 12 4 == (s + 1) % 16)

/-- An event that waits for the next mirror handshake (R412). -/
def Tape.raise (code : Nat) (t : Tape) : Tape := { t with events := t.events ++ [code] }

/-- One SPI frame: the sample it gives or the one substituted for it (Table 18-2), integrated. -/
def Tape.sense (f : Nat) (t : Tape) : Tape :=
  if !t.running || t.powerFail then t
  else
    let t := { t with frames := t.frames + 1 }
    if t.frameValid f then
      let v := calibrate20 (toSigned 24 (field f 40 24)) t.vOfs t.vGain
      let i := calibrate20 (toSigned 24 (field f 16 24)) t.iOfs t.iGain
      let sat := bit f 11 || bit f 10
      let t := if sat && !t.saturated then { t with saturated := true }.raise 0x0803 else t
      let run := t.validRun + 1
      { t with
        lastSeq := some (field f 12 4)
        lastV := v
        lastI := i
        invalidRun := 0
        validRun := run
        senseOk := t.senseOk || run ≥ 125
        overLimit := t.overLimit || sat || v < 46000000 || v > 58000000 || i > 80000000 }.integrate v i
    else
      let run := t.invalidRun + 1
      let t := { t with invalidRun := run, validRun := 0, gapFrames := t.gapFrames + 1 }
      let t := if run = 17 then { t with gap := true }.raise 0x0801 else t
      let t := if run ≥ 17 then { t with gap := true } else t
      let t := if run = 125000 then { t with senseOk := false }.raise 0x0802 else t
      if run ≤ 16 && t.lastSeq.isSome then t.integrate t.lastV t.lastI else t.integrate 0 0

/-! ### Records (R404, R405) -/

/-- KEYID: the first 8 bytes of SHA-256 over the public key. -/
def Tape.keyId (t : Tape) : List Byte := (sha256 t.pub).take 8

/-- ROM_VER (Table 18-3). -/
def tapeRomVer : Nat := Config.tapeRomVersion.toNat % 256

/-- TWK_TAPE_STATUS (Table 18-6) with the mirror valid. -/
def Tape.status (t : Tape) : Nat :=
  t.running.toNat + 2 + t.wrapped.toNat * 4 + (!t.pendings.isEmpty).toNat * 8 + t.overLast.toNat * 16 +
  t.senseOk.toNat * 32 + t.keyOk.toNat * 64 + t.sealed.toNat * 128 + tapeRomVer * 256

/-- Bytes 0 to 63 of a record (Table 18-3; log 46, DEDUCED). -/
def Tape.header (t : Tape) (rtype entries : Nat) (cont : Bool) : List Byte :=
  let flags := t.minuteOver.toNat + t.minuteGap.toNat * 2 + (!t.pendings.isEmpty).toNat * 4 + (!t.keyOk).toNat * 8 +
    cont.toNat * 16 + (!t.sealed).toNat * 32
  leBytes 1 rtype ++ leBytes 1 flags ++ leBytes 1 entries ++ leBytes 1 tapeRomVer ++ leBytes 4 t.reverse ++ leBytes 8 t.seq ++
  leBytes 8 (t.frames * 8 / 1000) ++ leBytes 8 t.hall ++ leBytes 8 t.legal ++ leBytes 8 t.minuteMj ++ leBytes 4 t.minuteGapMs ++
  leBytes 4 t.minuteUnattr ++ fitTo 8 t.keyId

/-- Writes a record with the given bytes 64 to 319: signed, numbered, in the ring of 10,922 (R404). -/
def Tape.record (rtype entries : Nat) (cont : Bool) (body : List Byte) (t : Tape) : Tape :=
  let signed := t.header rtype entries cont ++ fitTo 256 body
  let r := signed ++ (if t.keyOk then fitTo 64 (edSign t.seed signed) else zeros 64)
  let log := (t.seq, r) :: t.log
  let t := { t with log := log.take 10922, seq := t.seq + 1 }
  if log.length > 10922 then (if t.wrapped then t else { t with wrapped := true }.raise 0x0805) else t

/-- A client entry of a record. -/
def Tape.entry (t : Tape) (c : Nat) : List Byte :=
  leBytes 2 c ++ zeros 2 ++ leBytes 4 (KV.get 0 t.minuteShares c) ++ leBytes 8 (KV.get 0 t.totals c)

/-- The type 1 record of a minute and its continuations (R404); the minute's figures start over. -/
def Tape.minute (t : Tape) : Tape :=
  let clients := KV.keys t.minuteShares
  let parts := if clients.isEmpty then [[]] else groups 16 clients.length clients
  let t := (parts.zipIdx).foldl (fun (t : Tape) p =>
    t.record 1 p.1.length (p.2 > 0) ((p.1.map t.entry).flatten)) t
  { t with minuteMj := 0, minuteUnattr := 0, minuteGapMs := 0, minuteOver := false, minuteGap := false, minuteShares := [] }

/-! ### Mirror (R409) -/

/-- The mirror's bytes: registers at 0 to 0x27, the newest record at 0x100 (log 23, DESIGN CHOICE). -/
def Tape.mirrorBytes (t : Tape) : List Byte :=
  leBytes 4 t.status ++ leBytes 4 (t.iMean + t.vMean * 2 ^ 16) ++ leBytes 8 t.legal ++
  leBytes 4 t.pMean ++ zeros 4 ++ leBytes 8 (t.seq - 1) ++ fitTo 8 t.keyId ++ zeros 216 ++
  fitTo 384 ((t.log.head?.map (·.2)).getD [])

/-- Tape writes the mirror and posts its events where the control island runs (R409, R412; log 46, DEDUCED). -/
def mirrorWrite (t : Tape) (e : Eng) : Tape × Eng :=
  if t.running && e.boot.powered && e.flt.recovery != some .compute then
    ({ t with events := [] },
     t.events.foldl (fun e c => e.raise c (t.seq - 1) none 0) { e with mirror := t.mirrorBytes })
  else (t, e)

/-! ### Periods and handshakes (R401 to R403) -/

/-- A mean as a field of `n` bits shows it, in whole units; one that does not fit is open (log 23, DESIGN CHOICE). -/
def meanField (which n : Nat) (x : Int) : Nat :=
  if 0 ≤ x ∧ x < (2 ^ n : Nat) then x.toNat else (Config.tapeMeanOut which x).toNat % 2 ^ n

/-- Activity of a slot's deltas, weight set 1 (R401). -/
def activity (time tray rack hall hbm : Nat) : Nat := 25000 * time + 5 * tray + 8 * rack + 12 * hall + 4 * hbm

/-- The reading of one resident slot and its activity since the last reading of its polder (R401). -/
def Tape.readSlot (t : Tape) (p : PldSlot) : Nat × TapeRead :=
  let r : TapeRead := ⟨p.incarnation, p.client, p.acc.time, p.acc.tray, p.acc.rack, p.acc.hall, p.acc.hbm⟩
  let d (f : TapeRead → Nat) : Nat :=
    match KV.find t.reads p.polder with
    | some o => if o.incarnation = r.incarnation ∧ o.client = r.client then (f r + 2 ^ 64 - f o) % 2 ^ 64 else f r
    | none => f r
  (activity (d (·.time)) (d (·.tray)) (d (·.rack)) (d (·.hall)) (d (·.hbm)), r)

/-- Splits energy among clients in proportion to activity; the rest is unattributed (R402). -/
def Tape.apportion (mj : Nat) (acts : KV Nat) (t : Tape) : Tape :=
  let sum := (acts.map (·.2)).sum
  let shares := if sum = 0 then [] else (acts.map (fun a => (a.1, mj * a.2 / sum)))
  let given := (shares.map (·.2)).sum
  { t with
    totals := shares.foldl (fun m s => KV.upd 0 m s.1 (fun v => (v + s.2) % 2 ^ 64)) t.totals
    minuteShares := shares.foldl (fun m s => KV.upd 0 m s.1 (· + s.2)) t.minuteShares
    minuteUnattr := t.minuteUnattr + (mj - given) }

/-- After a handshake has ended: every 60 periods a type 1 record (R404). -/
def Tape.afterPeriod (t : Tape) : Tape := if t.periods % 60 = 0 then t.minute else t

/-- The control island answers: the period's and all pending energy is apportioned (R402, R403). -/
def Tape.answer (e : Eng) (t : Tape) : Tape :=
  if !t.waiting then t
  else
    let slots := e.pld.slots.filter (fun p => p.st != .empty)
    let reads := slots.map (fun p => (p, t.readSlot p))
    let acts := reads.foldl (fun (m : KV Nat) (r : PldSlot × Nat × TapeRead) => KV.upd 0 m r.1.client (· + r.2.1)) []
    let mj := t.currentMj + t.pendings.sum
    ({ t with
      waiting := false
      currentMj := 0
      pendings := []
      hall := e.now
      reads := reads.foldl (fun (m : KV TapeRead) (r : PldSlot × Nat × TapeRead) => KV.put m r.1.polder r.2.2) t.reads }.apportion mj acts).afterPeriod

/-- No answer within 1 ms: the period's energy is pending; energy pending for more than 60 periods is unattributed
(R403). -/
def Tape.unanswered (t : Tape) : Tape :=
  if !t.waiting then t
  else
    let l := t.currentMj :: t.pendings
    { t with
      waiting := false
      currentMj := 0
      pendings := l.take 60
      minuteUnattr := t.minuteUnattr + (l.drop 60).sum
      hall := 0 }.raise 0x0806 |>.afterPeriod

/-- The 1 s period closes: its energy in mJ, its means, its part of the minute; the handshake starts (R401, R402;
log 23, DESIGN CHOICE). A handshake still open has had no
answer (R403). -/
def Tape.close (t : Tape) : Tape :=
  if !t.running || t.powerFail then t
  else
    let t := t.unanswered
    let n : Int := max t.samples 1
    { t with
      currentMj := t.currentMj + (t.periodAj + t.carry) / 10 ^ 15
      carry := (t.periodAj + t.carry) % 10 ^ 15
      minuteMj := t.minuteMj + (t.periodAj + t.carry) / 10 ^ 15
      minuteGapMs := t.minuteGapMs + ceilDiv (t.gapFrames * 8) 1000
      minuteOver := t.minuteOver || t.overLimit
      minuteGap := t.minuteGap || t.gap
      overLast := t.overLimit
      vMean := meanField 0 16 (t.sumV / n / 10000)
      iMean := meanField 1 16 (t.sumI / n / 10000)
      pMean := meanField 2 32 (t.sumE / (n * 8000000000))
      periodAj := 0, overLimit := false, saturated := false, gap := false, gapFrames := 0, sumV := 0, sumI := 0, sumE := 0
      samples := 0
      periods := t.periods + 1
      waiting := true }

/-! ### Power (R405, R406) -/

/-- The private seed out of the PUF response (R405). -/
def tapeSeed : List Byte :=
  sha256 (([84, 65, 80, 69, 45, 83, 73, 71, 78, 45, 49] : List Byte) ++ (List.range 32).map Config.pufKeyByte)

/-- Tape's own power-on reset: key reconstruction (R405), sampling starts, the state saved on power fail comes back (R406).
What R406, the seal (R407) and the log (R404) do not keep starts over. Without a key the public key is open
(log 46, DEDUCED). -/
def Tape.powerOn (pufOk : Bool) (t : Tape) : Tape :=
  let t : Tape := {
    running := true, keyOk := pufOk
    seed := if pufOk then tapeSeed else []
    pub := if pufOk then edPublic tapeSeed else (List.range 32).map Config.tapeNoKeyByte
    nv := t.nv, acc := t.nv.acc, rev := t.nv.rev, carry := t.nv.carry, pendings := t.nv.pendings
    sealed := t.sealed, vOfs := t.vOfs, vGain := t.vGain, iOfs := t.iOfs, iGain := t.iGain
    legal := t.legal, reverse := t.reverse, frames := t.frames, totals := t.totals
    seq := t.seq, sealSeq := t.sealSeq, log := t.log, wrapped := t.wrapped, lastChallenge := t.lastChallenge
    replies := t.replies }
  let t := if pufOk then t else t.raise 0x0804
  if t.sealed then t else t.raise 0x0808

/-- The power-fail warning: state and a type 3 record are written (R406; log 46, DEDUCED). -/
def Tape.powerFailing (t : Tape) : Tape :=
  if !t.running || t.powerFail then t
  else
    let t := { t with
      powerFail := true
      carry := (t.periodAj + t.carry) % 10 ^ 15
      currentMj := 0
      pendings := if t.periodAj + t.carry ≥ 10 ^ 15 ∨ t.currentMj > 0
        then (t.currentMj + (t.periodAj + t.carry) / 10 ^ 15) :: t.pendings else t.pendings
      periodAj := 0 }
    let t := { t with nv := ⟨t.acc, t.rev, t.carry, t.pendings⟩ }
    (t.record 3 0 false []).raise 0x0807

/-! ### Sealed port (R407, R408) -/

/-- An answer on the sealed port. -/
def Tape.reply (r : TapeReply) (t : Tape) : Tape := { t with replies := t.replies ++ [r] }

/-- The calibration constants as the 16 B that the seal hashes. -/
def Tape.constants (t : Tape) : List Byte :=
  leBytes 4 (ofSigned 32 t.vOfs) ++ leBytes 4 (ofSigned 32 t.vGain) ++ leBytes 4 (ofSigned 32 t.iOfs) ++ leBytes 4 (ofSigned 32 t.iGain)

/-- SEAL: the type 2 record is SEQ 0 and the registers start over (R407). -/
def Tape.sealNow (t : Tape) : Tape :=
  { t with sealed := true, legal := 0, reverse := 0, totals := [], seq := 0, sealSeq := 0, frames := 0 }.record 2 0 false
    (sha256 t.constants)

/-- The newest record of a sequence number still held (Table 18-4). -/
def Tape.recordOf (t : Tape) (q : Nat) : List Byte := ((t.log.find? (fun r => r.1 == q)).map (·.2)).getD [0xFF]

/-- Runs a command on Tape, with the mirror written after a record (R409). -/
def State.tapeApply (s : State) (mirror : Bool) (f : Tape → Eng → Tape) : Host.Outcome State Fault Refusal :=
  let t := f s.tape s.eng
  let e := { s.eng with wlog := [] }
  let r := if mirror then mirrorWrite t e else (t, e)
  .next { s with hbm := r.2.view s.hbm, eng := { r.2 with wlog := [] }, tape := r.1 }

/-- Runs a sealed port command: NACK where Tape has no power (R408; log 46, DEDUCED). -/
def Tape.port (f : Tape → Tape) (t : Tape) : Tape := if t.running then f t else t.reply .nack

end Sys2Proof.Machine
end

