-- ==== Sys2Proof/Machine/TapeCmds.lean ====
section
/-! DEFINITION. The commands of Tape (chapter 18): samples, periods, handshakes, power and the sealed port. -/

namespace Sys2Proof.Machine

/-- SENSE_FRAME (R397 to R400). -/
def execSenseFrame (bits : Nat) (s : State) : Host.Outcome State Fault Refusal :=
  s.tapeApply false (fun t _ => t.sense bits)

/-- PERIOD_CLOSE (R401, R402). -/
def execPeriodClose (s : State) : Host.Outcome State Fault Refusal := s.tapeApply false (fun t _ => t.close)

/-- HANDSHAKE_ANSWER (R401 to R404, R409, R412). -/
def execHandshakeAnswer (s : State) : Host.Outcome State Fault Refusal :=
  s.tapeApply s.tape.waiting (fun t e => if e.boot.powered && e.flt.recovery != some .compute then t.answer e else t)

/-- HANDSHAKE_TIMEOUT (R403). -/
def execHandshakeTimeout (s : State) : Host.Outcome State Fault Refusal :=
  s.tapeApply s.tape.waiting (fun t _ => t.unanswered)

/-- TAPE_PORST_N (R405). -/
def execTapePorstN (pufOk : Bool) (s : State) : Host.Outcome State Fault Refusal :=
  s.tapeApply false (fun t _ => t.powerOn pufOk)

/-- TAPE_PFW_N (R406). -/
def execTapePfwN (s : State) : Host.Outcome State Fault Refusal := s.tapeApply true (fun t _ => t.powerFailing)

/-- GET_IDENTITY (Table 18-4). -/
def execGetIdentity (s : State) : Host.Outcome State Fault Refusal :=
  s.tapeApply false (fun t _ => t.port (fun t =>
    t.reply (.bytes (fitTo 32 t.pub ++ leBytes 1 tapeRomVer ++ leBytes 1 t.sealed.toNat ++ leBytes 8 t.sealSeq))))

/-- GET_STATUS (Table 18-4). -/
def execGetStatus (s : State) : Host.Outcome State Fault Refusal :=
  s.tapeApply false (fun t _ => t.port (fun t =>
    t.reply (.bytes (leBytes 4 t.status ++ leBytes 8 t.legal ++ leBytes 8 t.reverse ++ leBytes 8 (t.seq - 1)))))

/-- READ_RECORD (Table 18-4). -/
def execReadRecord (seq : Nat) (s : State) : Host.Outcome State Fault Refusal :=
  s.tapeApply false (fun t _ => t.port (fun t => t.reply (.bytes (t.recordOf seq))))

/-- CHALLENGE (R404, R408): a type 4 record with the nonce, or a NACK during the power-fail write. -/
def execChallenge (nonce : List Byte) (s : State) : Host.Outcome State Fault Refusal :=
  s.tapeApply (s.tape.running && !s.tape.powerFail) (fun t _ => t.port (fun t =>
    if t.powerFail then t.reply .nack
    else
      let t := t.record 4 0 false (fitTo 32 nonce)
      ({ t with lastChallenge := t.recordOf (t.seq - 1) }).reply .ack))

/-- READ_CHALLENGE (Table 18-4). -/
def execReadChallenge (s : State) : Host.Outcome State Fault Refusal :=
  s.tapeApply false (fun t _ => t.port (fun t =>
    t.reply (if t.lastChallenge.isEmpty then .nack else .bytes t.lastChallenge)))

/-- GET_CLIENT (Table 18-4). -/
def execGetClient (client : Nat) (s : State) : Host.Outcome State Fault Refusal :=
  s.tapeApply false (fun t _ => t.port (fun t => t.reply (.bytes (leBytes 8 (KV.get 0 t.totals (client % 2 ^ 16))))))

/-- CALIBRATE (R407). -/
def execCalibrate (vOfs vGain iOfs iGain : Nat) (s : State) : Host.Outcome State Fault Refusal :=
  s.tapeApply false (fun t _ => t.port (fun t =>
    if t.sealed then t.reply .nack
    else ({ t with vOfs := toSigned 32 vOfs, vGain := toSigned 32 vGain, iOfs := toSigned 32 iOfs
                   iGain := toSigned 32 iGain }).reply .ack))

/-- SEAL (R407). -/
def execSeal (s : State) : Host.Outcome State Fault Refusal :=
  s.tapeApply (s.tape.running && !s.tape.sealed) (fun t _ => t.port (fun t =>
    if t.sealed then t.reply .nack else t.sealNow.reply .ack))

end Sys2Proof.Machine
end

