-- ==== Sys2Proof/Machine/Dispatch.lean ====
section
/-! DEFINITION. The meaning of each command, one arm per constructor. -/

namespace Sys2Proof.Machine

def exec (i : Instr) (s : State) : Host.Outcome State Fault Refusal :=
  match i with
  | .powerGood r => Sys2Proof.Machine.execPowerGood r s
  | .spinePhaseDone => Sys2Proof.Machine.execSpinePhaseDone s
  | .waveRelease wave => Sys2Proof.Machine.execWaveRelease wave s
  | .waveSelftestDone wave failedBays => Sys2Proof.Machine.execWaveSelftestDone wave failedBays s
  | .linkTrained port up peerMin peerMax swred fixedOrder ownChip peerChip => Sys2Proof.Machine.execLinkTrained port up peerMin peerMax swred fixedOrder ownChip peerChip s
  | .peerVersionLearned chip version => Sys2Proof.Machine.execPeerVersionLearned chip version s
  | .linkStateChange port up => Sys2Proof.Machine.execLinkStateChange port up s
  | .clockMissing island => Sys2Proof.Machine.execClockMissing island s
  | .engPorstN => Sys2Proof.Machine.execEngPorstN s
  | .engCrstN => Sys2Proof.Machine.execEngCrstN s
  | .tapePorstN pufOk => Sys2Proof.Machine.execTapePorstN pufOk s
  | .load bcast => Sys2Proof.Machine.execLoad bcast s
  | .abort => Sys2Proof.Machine.execAbort s
  | .localReadComplete => Sys2Proof.Machine.execLocalReadComplete s
  | .verifyDone => Sys2Proof.Machine.execVerifyDone s
  | .applyDone => Sys2Proof.Machine.execApplyDone s
  | .patternFrame src h payload => Sys2Proof.Machine.execPatternFrame src h payload s
  | .frameTimeout => Sys2Proof.Machine.execFrameTimeout s
  | .repairBitmap src missing => Sys2Proof.Machine.execRepairBitmap src missing s
  | .repairRequest src seqs => Sys2Proof.Machine.execRepairRequest src seqs s
  | .repairRoundTimeout => Sys2Proof.Machine.execRepairRoundTimeout s
  | .stateReport chip st => Sys2Proof.Machine.execStateReport chip st s
  | .hallStatusTimeout => Sys2Proof.Machine.execHallStatusTimeout s
  | .stepBoundary slot => Sys2Proof.Machine.execStepBoundary slot s
  | .doorbell queue byteOff wide value => Sys2Proof.Machine.execDoorbell queue byteOff wide value s
  | .descriptorFetch ring => Sys2Proof.Machine.execDescriptorFetch ring s
  | .waitPoll ring idx => Sys2Proof.Machine.execWaitPoll ring idx s
  | .dependencyReleased ring idx => Sys2Proof.Machine.execDependencyReleased ring idx s
  | .completionStall ring => Sys2Proof.Machine.execCompletionStall ring s
  | .cplHead slot value => Sys2Proof.Machine.execCplHead slot value s
  | .attach slot => Sys2Proof.Machine.execAttach slot s
  | .detach slot => Sys2Proof.Machine.execDetach slot s
  | .clearStop slot => Sys2Proof.Machine.execClearStop slot s
  | .memoryWriteAck => Sys2Proof.Machine.execMemoryWriteAck s
  | .memoryReadReturn line stat retry what => Sys2Proof.Machine.execMemoryReadReturn line stat retry what s
  | .nop ring idx => Sys2Proof.Machine.execNop ring idx s
  | .fence ring idx => Sys2Proof.Machine.execFence ring idx s
  | .cancel ring idx => Sys2Proof.Machine.execCancel ring idx s
  | .score ring idx => Sys2Proof.Machine.execScore ring idx s
  | .route ring idx => Sys2Proof.Machine.execRoute ring idx s
  | .tileSelected ring idx tile => Sys2Proof.Machine.execTileSelected ring idx tile s
  | .tablePass table band mismatch checker wc line => Sys2Proof.Machine.execTablePass table band mismatch checker wc line s
  | .bidFrame port chunkId h recs rd => Sys2Proof.Machine.execBidFrame port chunkId h recs rd s
  | .grantFrame port chunkId h recs rd => Sys2Proof.Machine.execGrantFrame port chunkId h recs rd s
  | .claimFrame port chunkId h recs rd => Sys2Proof.Machine.execClaimFrame port chunkId h recs rd s
  | .reserveRetry slot step => Sys2Proof.Machine.execReserveRetry slot step s
  | .reserveTimeout slot step => Sys2Proof.Machine.execReserveTimeout slot step s
  | .pleatSortDone ring idx => Sys2Proof.Machine.execPleatSortDone ring idx s
  | .burstGrant => Sys2Proof.Machine.execBurstGrant s
  | .dispatchChunk port h payload rd => Sys2Proof.Machine.execDispatchChunk port h payload rd s
  | .voidList port h payload rd => Sys2Proof.Machine.execVoidList port h payload rd s
  | .returnChunk port h payload rd => Sys2Proof.Machine.execReturnChunk port h payload rd s
  | .backwardDispatchChunk port h payload rd => Sys2Proof.Machine.execBackwardDispatchChunk port h payload rd s
  | .backwardReturnChunk port h payload rd => Sys2Proof.Machine.execBackwardReturnChunk port h payload rd s
  | .copyChunk port h payload rd => Sys2Proof.Machine.execCopyChunk port h payload rd s
  | .ack chip ids => Sys2Proof.Machine.execAck chip ids s
  | .nak chip id => Sys2Proof.Machine.execNak chip id s
  | .ackTimeout entry => Sys2Proof.Machine.execAckTimeout entry s
  | .pathExclusionExpiry chip port => Sys2Proof.Machine.execPathExclusionExpiry chip port s
  | .ackCoalesceTimeout chip => Sys2Proof.Machine.execAckCoalesceTimeout chip s
  | .combine ring idx => Sys2Proof.Machine.execCombine ring idx s
  | .ret ring idx => Sys2Proof.Machine.execReturn ring idx s
  | .routeBwd ring idx => Sys2Proof.Machine.execRouteBwd ring idx s
  | .returnBwd ring idx => Sys2Proof.Machine.execReturnBwd ring idx s
  | .combineBwd ring idx => Sys2Proof.Machine.execCombineBwd ring idx s
  | .copy ring idx => Sys2Proof.Machine.execCopy ring idx s
  | .stepEnd ring idx => Sys2Proof.Machine.execStepEnd ring idx s
  | .tack ring idx => Sys2Proof.Machine.execTack ring idx s
  | .barrier ring idx => Sys2Proof.Machine.execBarrier ring idx s
  | .admitSeq ring idx => Sys2Proof.Machine.execAdmit ring idx s
  | .retire ring idx => Sys2Proof.Machine.execRetire ring idx s
  | .release ring idx => Sys2Proof.Machine.execRelease ring idx s
  | .bcast ring idx => Sys2Proof.Machine.execBcast ring idx s
  | .reduce ring idx => Sys2Proof.Machine.execReduce ring idx s
  | .groupForm ring idx => Sys2Proof.Machine.execGroupForm ring idx s
  | .groupReform ring idx => Sys2Proof.Machine.execGroupReform ring idx s
  | .formUp port h payload => Sys2Proof.Machine.execFormUp port h payload s
  | .formDown port h payload => Sys2Proof.Machine.execFormDown port h payload s
  | .formTimeout group => Sys2Proof.Machine.execFormTimeout group s
  | .countUp port h payload => Sys2Proof.Machine.execCountUp port h payload s
  | .countDown port h payload => Sys2Proof.Machine.execCountDown port h payload s
  | .bcastData port h payload rd => Sys2Proof.Machine.execBcastData port h payload rd s
  | .reduceData port h payload rd sumBad => Sys2Proof.Machine.execReduceData port h payload rd sumBad s
  | .factorData port h payload rd => Sys2Proof.Machine.execFactorData port h payload rd s
  | .swRefused port h payload => Sys2Proof.Machine.execSwRefused port h payload s
  | .collectiveAbort port h payload => Sys2Proof.Machine.execCollectiveAbort port h payload s
  | .barrierUp port h payload => Sys2Proof.Machine.execBarrierUp port h payload s
  | .barrierDown port h payload => Sys2Proof.Machine.execBarrierDown port h payload s
  | .barrierRelease group bseq => Sys2Proof.Machine.execBarrierRelease group bseq s
  | .tackNotice port h payload => Sys2Proof.Machine.execTackNotice port h payload s
  | .tackLatch => Sys2Proof.Machine.execTackLatch s
  | .syncTimer => Sys2Proof.Machine.execSyncTimer s
  | .syncMessage m at_ => Sys2Proof.Machine.execSyncMessage m at_ s
  | .syncTimeout => Sys2Proof.Machine.execSyncTimeout s
  | .create slot id => Sys2Proof.Machine.execCreate slot id s
  | .createDone slot => Sys2Proof.Machine.execCreateDone slot s
  | .destroy slot => Sys2Proof.Machine.execDestroy slot s
  | .destroyDone slot => Sys2Proof.Machine.execDestroyDone slot s
  | .schDestroyId id => Sys2Proof.Machine.execSchDestroyId id s
  | .park slot => Sys2Proof.Machine.execPark slot s
  | .parkDone slot => Sys2Proof.Machine.execParkDone slot s
  | .unpark slot => Sys2Proof.Machine.execUnpark slot s
  | .unparkDone slot => Sys2Proof.Machine.execUnparkDone slot s
  | .evict slot => Sys2Proof.Machine.execEvict slot s
  | .evictDone slot => Sys2Proof.Machine.execEvictDone slot s
  | .quarantineEnd template => Sys2Proof.Machine.execQuarantineEnd template s
  | .restore slot id => Sys2Proof.Machine.execRestore slot id s
  | .restoreDone slot => Sys2Proof.Machine.execRestoreDone slot s
  | .consent slot byteOff wide value => Sys2Proof.Machine.execConsent slot byteOff wide value s
  | .consentTimeout slot => Sys2Proof.Machine.execConsentTimeout slot s
  | .tideWindowStart => Sys2Proof.Machine.execTideWindowStart s
  | .tideWindowEnd overrunNs => Sys2Proof.Machine.execTideWindowEnd overrunNs s
  | .slowdownUpdate => Sys2Proof.Machine.execSlowdownUpdate s
  | .engMode value => Sys2Proof.Machine.execEngMode value s
  | .detSeed byteOff wide value => Sys2Proof.Machine.execDetSeed byteOff wide value s
  | .bind => Sys2Proof.Machine.execBind s
  | .unbind => Sys2Proof.Machine.execUnbind s
  | .invalidate => Sys2Proof.Machine.execInvalidate s
  | .bindFillDone slot => Sys2Proof.Machine.execBindFillDone slot s
  | .wcmdPendExecute slot => Sys2Proof.Machine.execWcmdPendExecute slot s
  | .selBiasAddr byteOff wide value => Sys2Proof.Machine.execSelBiasAddr byteOff wide value s
  | .biasZeroingDone slot => Sys2Proof.Machine.execBiasZeroingDone slot s
  | .biasPendExecute slot => Sys2Proof.Machine.execBiasPendExecute slot s
  | .hemDiagCmd value => Sys2Proof.Machine.execHemDiagCmd value s
  | .diagDone => Sys2Proof.Machine.execDiagDone s
  | .tblScrub repaired differ half => Sys2Proof.Machine.execTblScrub repaired differ half s
  | .scrub cell stat again => Sys2Proof.Machine.execScrub cell stat again s
  | .sweepDone queue => Sys2Proof.Machine.execSweepDone queue s
  | .backpressureTimeout queue => Sys2Proof.Machine.execBackpressureTimeout queue s
  | .mxRel handle count => Sys2Proof.Machine.execMxRel handle count s
  | .releaseMessage => Sys2Proof.Machine.execReleaseMessage s
  | .bobInit => Sys2Proof.Machine.execBobInit s
  | .poolConfigWrite off wide value => Sys2Proof.Machine.execPoolConfigWrite off wide value s
  | .initDone => Sys2Proof.Machine.execInitDone s
  | .poolEmptyTimeout pool => Sys2Proof.Machine.execPoolEmptyTimeout pool s
  | .laneMismatch quarter logical lane cycle => Sys2Proof.Machine.execLaneMismatch quarter logical lane cycle s
  | .halfMismatch unit half => Sys2Proof.Machine.execHalfMismatch unit half s
  | .gussetSubstitution => Sys2Proof.Machine.execGussetSubstitution s
  | .bayReset bay => Sys2Proof.Machine.execBayReset bay s
  | .bayResetDone bay passed => Sys2Proof.Machine.execBayResetDone bay passed s
  | .dikeReset dike => Sys2Proof.Machine.execDikeReset dike s
  | .dikeResetDone dike passed => Sys2Proof.Machine.execDikeResetDone dike passed s
  | .computeReset => Sys2Proof.Machine.execComputeReset s
  | .computeResetDone passed => Sys2Proof.Machine.execComputeResetDone passed s
  | .computeResetRequest => Sys2Proof.Machine.execComputeResetRequest s
  | .bayResetRequest bay => Sys2Proof.Machine.execBayResetRequest bay s
  | .hold nseq chip => Sys2Proof.Machine.execHold nseq chip s
  | .resume nseq chip => Sys2Proof.Machine.execResume nseq chip s
  | .lost nseq chip => Sys2Proof.Machine.execLost nseq chip s
  | .clearNotice nseq chip => Sys2Proof.Machine.execClearNotice nseq chip s
  | .suspect nseq chip => Sys2Proof.Machine.execSuspect nseq chip s
  | .probe src => Sys2Proof.Machine.execProbe src s
  | .probeAnswer chip => Sys2Proof.Machine.execProbeAnswer chip s
  | .probeTimeout chip => Sys2Proof.Machine.execProbeTimeout chip s
  | .wakeTol value => Sys2Proof.Machine.execWakeTol value s
  | .idleTimeout => Sys2Proof.Machine.execIdleTimeout s
  | .tideWake => Sys2Proof.Machine.execTideWake s
  | .powerEntryDone => Sys2Proof.Machine.execPowerEntryDone s
  | .powerExitDone saveReadable => Sys2Proof.Machine.execPowerExitDone saveReadable s
  | .engFunc value => Sys2Proof.Machine.execEngFunc value s
  | .funcTransitionDone fn => Sys2Proof.Machine.execFuncTransitionDone fn s
  | .gauBind byteOff wide value => Sys2Proof.Machine.execGauBind byteOff wide value s
  | .gauClear => Sys2Proof.Machine.execGauClear s
  | .gauClearAll => Sys2Proof.Machine.execGauClearAll s
  | .levelSample us => Sys2Proof.Machine.execLevelSample us s
  | .evtHead value => Sys2Proof.Machine.execEvtHead value s
  | .evtBase off wide value => Sys2Proof.Machine.execEvtBase off wide value s
  | .managementAddress addr => Sys2Proof.Machine.execManagementAddress addr s
  | .registerWrite mgmt off wide value => Sys2Proof.Machine.execRegisterWrite mgmt off wide value s
  | .senseFrame bits => Sys2Proof.Machine.execSenseFrame bits s
  | .periodClose => Sys2Proof.Machine.execPeriodClose s
  | .handshakeAnswer => Sys2Proof.Machine.execHandshakeAnswer s
  | .handshakeTimeout => Sys2Proof.Machine.execHandshakeTimeout s
  | .tapePfwN => Sys2Proof.Machine.execTapePfwN s
  | .getIdentity => Sys2Proof.Machine.execGetIdentity s
  | .getStatus => Sys2Proof.Machine.execGetStatus s
  | .readRecord seq => Sys2Proof.Machine.execReadRecord seq s
  | .challenge nonce => Sys2Proof.Machine.execChallenge nonce s
  | .readChallenge => Sys2Proof.Machine.execReadChallenge s
  | .getClient client => Sys2Proof.Machine.execGetClient client s
  | .calibrate vOfs vGain iOfs iGain => Sys2Proof.Machine.execCalibrate vOfs vGain iOfs iGain s
  | .seal => Sys2Proof.Machine.execSeal s
  | .mmioRead mgmt off wide => Sys2Proof.Machine.execMmioRead mgmt off wide s
  | .keySlotRevoked keySlot => Sys2Proof.Machine.execKeySlotRevoked keySlot s
  | .containmentCleared bay dike => Sys2Proof.Machine.execContainmentCleared bay dike s
  | .timeRootDesignated => Sys2Proof.Machine.execTimeRootDesignated s

end Sys2Proof.Machine
end

