-- ==== Sys2Proof/Machine/Tick.lean ====
section
/-! DEFINITION. What one nanosecond without a command does (log 1, DESIGN CHOICE): hall time counts, the ports send (R192, R193), and a
broadcast's root sends on (R48). -/

namespace Sys2Proof.Machine

/-- Credit of a virtual channel in a round: VC_WEIGHT × 512 B (R193; log 6, DESIGN CHOICE). -/
def Eng.vcCredit (e : Eng) (p vc : Nat) : Nat := 512 * max 1 (match e.portCfg p with
  | some c => field c.vcWeight (8 * vc) 8
  | none => 1)

/-- Whether what waits on a port can be sent: its packet is the next to leave its Spool queue (R236). -/
def Eng.flitReady (e : Eng) (i : PortItem) : Bool := match i.src with
  | none => true
  | some (q, id) => ((e.squeue q).pkts.find? SPkt.leaves).any (fun p => p.id == id && p.ended)

/-- Credit of a group in a round on virtual channel 4: its chunk size and 64 B (R289). -/
def Eng.groupCredit (e : Eng) (g : Nat) : Nat :=
  let x := e.group g
  e.groupChunk x.members (x.rootChip 0) + 64

/-- The group that sends next on virtual channel 4, with its deficit: the last one while its deficit lasts, else the next in
number, with a new round's credit (R289). -/
def Eng.nextGroup (e : Eng) (p : Port) (ready : List Nat) : Nat × Nat :=
  let d := KV.get 0 p.groups p.groupLast
  if ready.contains p.groupLast && d > 0 then (p.groupLast, d)
  else
    let g := ((ready.filter (fun g => p.groupLast < g)).min?).getD ((ready.min?).getD 0)
    (g, e.groupCredit g)

/-- The port reads the words of a flit out of the packet's Spool queue: a word that cannot be read discards the packet, which its
producer builds again (R246); the last word ends it. -/
def Eng.readFlit (n : Nat) (i : PortItem) (e : Eng) : Eng := match i.src with
  | none => e
  | some (q, id) =>
    let s := e.squeue q
    match s.pkts.findIdx? (fun p => p.id == id) with
    | none => e
    | some k => match s.pkts[k]? with
      | none => e
      | some p =>
        let cell := (s.pktCells k).headD 0
        if e.spool.bad.contains cell then
          let e := (e.spoolBad cell).setPort n (fun x => { x with queue := x.queue.filter (fun y => y.src != some (q, id)) })
          (((e.dropAt q k).setQueue q (fun s => { s with pktIn := (s.pktIn + 2 ^ 32 - 1) % 2 ^ 32, lost := s.lost ++ [p] })).produce q)
        else if i.bytes ≤ 512 then (e.consume q k).dropDead q s.pkts.length
        else e.readTo q k (p.read + 8)

/-- One item of a port sends a flit of 512 B; sent to its end it leaves the port's queue. -/
def Eng.sendItem (n : Nat) (i : PortItem) (e : Eng) : Eng :=
  (e.setPort n (fun p => { p with
    budget := p.budget - 512
    queue := if i.bytes ≤ 512 then p.queue.erase i else updFirst (fun x => x == i) (fun x => { x with bytes := x.bytes - 512 }) p.queue })).readFlit n i

/-- Channels and groups with nothing left to send keep no credit (R193, R289). -/
def Port.idle (p : Port) : Port :=
  { p with
    deficit := p.deficit.zipIdx.map (fun xi => if p.queuedOn xi.2 = 0 then 0 else xi.1)
    groups := p.groups.filter (fun kv => p.queue.any (fun i => i.vc == 4 && i.group == kv.1)) }

/-- The flit that a port sends next: virtual channel 6 first, the others by deficit round-robin, the groups of virtual channel 4
likewise; within each what came first (R193, R289; log 1, DESIGN CHOICE). -/
def Eng.sendFlit (n : Nat) (e : Eng) : Eng :=
  let p := e.port n
  let l := p.queue.filter e.flitReady
  let on (v : Nat) := l.filter (fun i => i.vc == v)
  match (on 6).head? with
  | some i => e.sendItem n i
  | none =>
    match ((List.range 8).map (fun k => (p.vcNext + k) % 8)).find? (fun v => v != 6 && !(on v).isEmpty) with
    | none => e.setPort n (fun p => { p with budget := 0 })
    | some v =>
      let had := p.deficit.getD v 0
      let d := (if had = 0 then e.vcCredit n v else had) - 512
      let (g, gd) := e.nextGroup p ((on 4).map (·.group))
      let item := if v = 4 then (on 4).find? (fun i => i.group == g) else (on v).head?
      let e := match item with
        | some i => e.sendItem n i
        | none => e
      e.setPort n (fun p =>
        let keep := p.queuedOn v > 0 && d > 0
        let p := { p with deficit := p.deficit.set v (if keep then d else 0), vcNext := if keep then v else (v + 1) % 8 }
        (if v = 4 then { p with groups := KV.put p.groups g (gd - 512), groupLast := g } else p).idle)

/-- One nanosecond of a port: 800 B of link time, in whole flits (R192; log 1, DESIGN CHOICE; log 50, DESIGN CHOICE). -/
def Eng.portTick (n : Nat) (e : Eng) : Eng :=
  if (e.port n).queue.isEmpty then e.setPort n (fun p => { p with deficit := p.deficit.map (fun _ => 0), groups := [], budget := 0 })
  else
    (List.range 2).foldl (fun (e : Eng) _ => if (e.port n).budget ≥ 512 then e.sendFlit n else e)
      (e.setPort n (fun p => { p with budget := p.budget + 800 }))

/-- One nanosecond of the engine (log 1, DESIGN CHOICE). -/
def Eng.tick (e : Eng) : Eng :=
  let e := { e with time.ns := e.time.ns + 1 }
  let e := (List.range 16).foldl (fun (e : Eng) n => if (e.port n).link = 2 then e.portTick n else e) e
  e.rootTick

/-- One nanosecond without a command; nothing counts before power-good (log 1, DESIGN CHOICE; log 50, DESIGN CHOICE). -/
def State.tick (s : State) : State := if s.eng.boot.powered then { s with eng := s.eng.tick } else s

end Sys2Proof.Machine
end

