-- ==== Sys2Proof/Safety.lean ====
section
/-! DEFINITION. The terms in which claims about the block are stated: what a command starts from and what it leaves, when
the engine can act, and the invariant that every step keeps. -/

namespace Sys2Proof

/-- The commands of Tape: its reset, its sampling and periods, its power-fail warning and its sealed port (chapter 18). -/
def Instr.ofTape : Instr → Bool
  | .tapePorstN _ | .senseFrame _ | .periodClose | .handshakeAnswer | .handshakeTimeout | .tapePfwN | .getIdentity | .getStatus
  | .readRecord _ | .challenge _ | .readChallenge | .getClient _ | .calibrate _ _ _ _ | .seal => true
  | _ => false

/-- The packet that a command of a port brings, how its Spool words read back, and whether its sum is found bad (Table 10-2). -/
def Instr.packet : Instr → Option (Machine.RxPkt × SpoolRead × Bool)
  | .bidFrame port i h recs rd => some (.bid port i h recs, rd, false)
  | .grantFrame port i h recs rd => some (.grant port i h recs, rd, false)
  | .claimFrame port i h recs rd => some (.claim port i h recs, rd, false)
  | .dispatchChunk port h b rd | .voidList port h b rd | .returnChunk port h b rd | .backwardDispatchChunk port h b rd
  | .backwardReturnChunk port h b rd | .copyChunk port h b rd | .bcastData port h b rd | .factorData port h b rd =>
    some (.chunk port h b, rd, false)
  | .formUp port h p | .formDown port h p | .countUp port h p | .countDown port h p | .swRefused port h p
  | .collectiveAbort port h p | .barrierUp port h p | .barrierDown port h p | .tackNotice port h p =>
    some (.chunk port h p.bytes, p.read, false)
  | .reduceData port h b rd bad => some (.chunk port h b, rd, bad)
  | _ => none

/-- The message of KIND 6, OP 1, 2 and 6 to 12, that a command brings (R281). -/
def Instr.message (i : Instr) : Option (Option Nat × ChunkHdr × List Byte) := match i.packet with
  | some (.chunk port h b, _, _) => if Machine.ChunkHdr.isControl h then some (port, h, b) else none
  | _ => none

end Sys2Proof

namespace Sys2Proof.Machine

/-- The engine as a command finds it: no write to HBM is under way. -/
def State.work (s : State) : Eng := { s.eng with wlog := [] }

/-- The state that a command leaves when it ends with the engine as `e`: the writes of `e` are in HBM, and a fault that the
Spool has found in itself has been taken (R248). -/
def State.leaves (s : State) (e : Eng) : State :=
  { s with hbm := e.takeCorrupt.view s.hbm, eng := { e.takeCorrupt with wlog := [] } }

/-- The engine has had its power-good (R370), and no fault of the Spool waits to be taken. -/
def State.on (s : State) : Prop := s.eng.boot.powered = true ∧ s.eng.spool.corrupt = false

/-- The engine is ACTIVE, with no transition of its power state and no compute reset under way, so that every access to it
is carried out at once (R379, R356). -/
def State.alert (s : State) : Prop :=
  s.on ∧ s.eng.pwr.cur = 0 ∧ s.eng.pwr.trans = false ∧ s.eng.flt.recovery ≠ some .compute

/-- A command of a ring has started and its polder issues, so that it can run (R66, R82 to R84, R303, R309). -/
def State.runs (s : State) (ring idx op : Nat) (c : Cmd) : Prop :=
  s.on ∧ s.eng.cmdAt ring idx op = some c ∧ s.eng.cmd? c.id = some c ∧ c.phase = .started ∧ s.eng.mayIssue c.polder = true

/-- The engine as that command finds it, marked as running. -/
def State.run (s : State) (c : Cmd) : Eng := s.work.setCmd c.id (fun c => { c with phase := .running })

/-- A polder slot's ring window addresses ring `r`, and accesses to it are carried out at once (R72, R379). -/
def State.window (s : State) (slot r : Nat) : Prop := s.alert ∧ slot < 16 ∧ s.eng.windowRing slot = some r

/-- What every step keeps: HBM's cells in their canonical form, no write left half done, and no fault of the Spool left
untaken between commands. -/
def State.Inv (s : State) : Prop := Mem.wf s.hbm = true ∧ s.eng.wlog = [] ∧ s.eng.spool.corrupt = false

end Sys2Proof.Machine
end

