-- ==== Sys2Proof/WellFormed.lean ====
section
/-! DEFINITION. Which operands a command may have: the ranges the spec gives them. -/

namespace Sys2Proof

/-- An MMIO access naturally aligned and inside the 8 MiB window (R418, R429). -/
def mmioOk (off : Nat) (wide : Bool) : Bool := off % (if wide then 8 else 4) == 0 && off < 2 ^ 23

/-- A value of the access's width (R418). -/
def valueOk (wide : Bool) (v : Nat) : Bool := v < 2 ^ (if wide then 64 else 32)

/-- A write that the register tables give a 64-bit register: which half, or the whole. -/
def halfOk (byteOff : Nat) (wide : Bool) (v : Nat) : Bool :=
  (if wide then byteOff == 0 else byteOff == 0 || byteOff == 4) && valueOk wide v

/-- A port of a message: one of 16, or none for a local one (R162, R413). -/
def portOk : Option Nat → Bool
  | none => true
  | some p => p < 16

/-- A ring and a descriptor index (R62, R64). -/
def ringOk (ring idx : Nat) : Bool := ring < 1024 && idx < 2 ^ 32

/-- Field widths of a chunk header of one KIND (Tables 8-2, 12-2), and a payload of its length. -/
def ChunkHdr.ok (kind : Nat) (h : ChunkHdr) (payload : List Byte) : Bool :=
  h.kind == kind && h.wfmt < 256 && h.epoch < 2 ^ 16 && h.step < 2 ^ 32 && h.src < 2 ^ 17 && h.dst < 2 ^ 17 &&
  h.slot < 256 && h.cflags < 256 && h.chunkId < 2 ^ 16 && h.plen < 2 ^ 32 && h.offset < 2 ^ 64 &&
  h.pleatLen < 2 ^ 32 && h.polder < 256 && h.op < 256 && h.place < 256 && h.dtype < 256 && h.root < 2 ^ 32 &&
  h.pos < 2 ^ 32 && h.chunkIdx < 2 ^ 32 && h.pcrc < 2 ^ 32 && h.hcrc < 2 ^ 32 && payload.length == h.plen

/-- Words of a packet with `n` bytes behind its 64 B header (R228). -/
def packetWords (n : Nat) : Nat := 1 + (n + 63) / 64

/-- A word that could not be read is one of the packet's; of an unfinished packet at least the header has come, and not all. -/
def SpoolRead.ok (r : SpoolRead) (words : Nat) : Bool := match r with
  | .good | .corrected _ => true
  | .badData w | .badMeta w => w < words
  | .sofar n => 1 ≤ n && n < words

/-- Field widths of a fitting frame header of one KIND (Table 7-1). -/
def FitHdr.ok (kind : Nat) (h : FitHdr) (n : Nat) : Bool :=
  h.kind == kind && h.slot < 256 && h.epoch < 2 ^ 16 && h.step < 2 ^ 32 && h.src < 2 ^ 17 && h.dst < 2 ^ 17 &&
  h.round < 256 && h.fflags < 256 && h.count == n && h.crc < 2 ^ 32

def BidRec.ok (b : BidRec) : Bool :=
  b.token < 2 ^ 32 && b.expert < 2 ^ 16 && b.rank < 256 && b.bflags < 256 && b.prio < 2 ^ 32 && b.answer < 2 ^ 32

def GrantRec.ok (g : GrantRec) : Bool := g.token < 2 ^ 20 && g.rank < 2 ^ 12 && g.result < 2 ^ 32

/-- Whether a command's operands lie in their ranges. -/
def Instr.wf : Instr → Bool
  | .waveRelease w => w < 6
  | .waveSelftestDone w l => w < 6 && l.all (· < 36)
  | .linkTrained p _ a b _ _ o c => p < 16 && a < 16 && b < 16 && o < 2 ^ 17 && c < 2 ^ 17
  | .peerVersionLearned c v => c < 2 ^ 17 && v < 16
  | .linkStateChange p _ => p < 16
  | .clockMissing i => i < 5
  | .patternFrame c h ⟨p, r⟩ => (match r with | .sofar _ => false | _ => r.ok (packetWords p.length)) && c < 2 ^ 17 && h.patternId < 2 ^ 64 && h.seq < 2 ^ 32 && h.total < 2 ^ 32 && h.plen == p.length &&
      h.fflags < 2 ^ 16 && p.length ≤ 4096
  | .repairBitmap c _ => c < 2 ^ 17
  | .repairRequest c _ => c < 2 ^ 17
  | .stateReport c st => c < 2 ^ 17 && 5 ≤ st && st ≤ 7
  | .stepBoundary s => s < 256
  | .doorbell q o w v => q < 8192 && (if w then o == 0 || o == 8 else o % 4 == 0 && o < 16) && valueOk w v
  | .descriptorFetch r => r < 1024
  | .completionStall r => r < 1024
  | .cplHead s v => s < 16 && v < 2 ^ 32
  | .attach s | .detach s | .clearStop s => s < 16
  | .memoryReadReturn l _ _ _ => l % 64 == 0 && l < 2 ^ 52
  | .waitPoll r i | .dependencyReleased r i | .nop r i | .fence r i | .cancel r i | .score r i | .route r i
  | .pleatSortDone r i | .combine r i | .ret r i | .routeBwd r i | .returnBwd r i | .combineBwd r i | .copy r i
  | .stepEnd r i | .tack r i | .barrier r i | .admitSeq r i | .retire r i | .release r i | .bcast r i | .reduce r i
  | .groupForm r i | .groupReform r i => ringOk r i
  | .tileSelected r i _ => ringOk r i
  | .tablePass t b _ _ _ l => t < 2 && b.all (· < 4) && l % 64 == 0 && l < 2 ^ 52
  | .bidFrame p c h l r => r.ok (packetWords (16 * l.length)) && portOk p && c < 2 ^ 16 && h.ok 1 l.length && l.all (·.ok)
  | .grantFrame p c h l r => r.ok (packetWords (8 * l.length)) && portOk p && c < 2 ^ 16 && h.ok 2 l.length && l.all (·.ok)
  | .claimFrame p c h l r => r.ok (packetWords (16 * l.length)) && portOk p && c < 2 ^ 16 && h.ok 3 l.length && l.all (·.ok)
  | .reserveRetry s _ | .reserveTimeout s _ => s < 256
  | .dispatchChunk p h b r => r.ok (packetWords b.length) && portOk p && h.ok 1 b
  | .returnChunk p h b r => r.ok (packetWords b.length) && portOk p && h.ok 2 b
  | .backwardDispatchChunk p h b r => r.ok (packetWords b.length) && portOk p && h.ok 3 b
  | .backwardReturnChunk p h b r => r.ok (packetWords b.length) && portOk p && h.ok 4 b
  | .copyChunk p h b r => r.ok (packetWords b.length) && portOk p && h.ok 5 b
  | .voidList p h b r => r.ok (packetWords b.length) && portOk p && h.ok 7 b
  | .countUp p h ⟨b, r⟩ => r.ok (packetWords b.length) && portOk p && h.ok 6 b && h.op == 1
  | .countDown p h ⟨b, r⟩ => r.ok (packetWords b.length) && portOk p && h.ok 6 b && h.op == 2
  | .bcastData p h b r => r.ok (packetWords b.length) && portOk p && h.ok 6 b && h.op == 3
  | .reduceData p h b r _ => r.ok (packetWords b.length) && portOk p && h.ok 6 b && h.op == 4
  | .factorData p h b r => r.ok (packetWords b.length) && portOk p && h.ok 6 b && h.op == 5
  | .formUp p h ⟨b, r⟩ => r.ok (packetWords b.length) && portOk p && h.ok 6 b && h.op == 6
  | .formDown p h ⟨b, r⟩ => r.ok (packetWords b.length) && portOk p && h.ok 6 b && h.op == 7
  | .collectiveAbort p h ⟨b, r⟩ => r.ok (packetWords b.length) && portOk p && h.ok 6 b && h.op == 8
  | .swRefused p h ⟨b, r⟩ => r.ok (packetWords b.length) && portOk p && h.ok 6 b && h.op == 9
  | .barrierUp p h ⟨b, r⟩ => r.ok (packetWords b.length) && portOk p && h.ok 6 b && h.op == 10
  | .barrierDown p h ⟨b, r⟩ => r.ok (packetWords b.length) && portOk p && h.ok 6 b && h.op == 11
  | .tackNotice p h ⟨b, r⟩ => r.ok (packetWords b.length) && portOk p && h.ok 6 b && h.op == 12
  | .ack c l => c < 2 ^ 17 && l.all (· < 2 ^ 16)
  | .nak c i => c < 2 ^ 17 && i < 2 ^ 16
  | .ackTimeout t => t < 4096
  | .pathExclusionExpiry c p => c < 2 ^ 17 && p < 16
  | .ackCoalesceTimeout c => c < 2 ^ 17
  | .formTimeout g => g < 64
  | .barrierRelease g _ => g < 64 || g == 255
  | .syncMessage m _ => m.peer < 2 ^ 17
  | .create s i | .restore s i => s < 16 && i < 256
  | .createDone s | .destroy s | .destroyDone s | .park s | .parkDone s | .unpark s | .unparkDone s | .evict s
  | .evictDone s | .restoreDone s => s < 16
  | .schDestroyId i => i < 256
  | .quarantineEnd t => t < 16
  | .consent s o w v => s < 16 && halfOk o w v
  | .consentTimeout s => s < 256
  | .engMode v | .hemDiagCmd v | .wakeTol v | .engFunc v | .evtHead v => v < 2 ^ 32
  | .detSeed o w v | .selBiasAddr o w v | .gauBind o w v => halfOk o w v
  | .bindFillDone s | .wcmdPendExecute s | .biasZeroingDone s | .biasPendExecute s => s < 256
  | .tblScrub _ _ h => h < 2
  | .scrub c _ _ => c < 196608
  | .sweepDone q | .backpressureTimeout q => q < 8192
  | .mxRel h n => h < 2 ^ 32 && n < 4096
  | .poolConfigWrite o w v => (o / 8 == 0x18001 || (0xC0100 ≤ o && o < 0xC0180 && o % 16 != 12)) && mmioOk o w && valueOk w v
  | .poolEmptyTimeout p => p < 8
  | .laneMismatch q n l _ => q < 4 && n < 16 && l < 8
  | .halfMismatch u h => u < 4 && h < 2
  | .bayReset b | .bayResetDone b _ => b < 36
  | .dikeReset d | .dikeResetDone d _ => d < 6
  | .bayResetRequest b => b < 64
  | .hold n c | .resume n c | .lost n c | .clearNotice n c | .suspect n c => n < 2 ^ 16 && c < 2 ^ 17
  | .probe c | .probeAnswer c | .probeTimeout c => c < 2 ^ 17
  | .funcTransitionDone f => f < 6
  | .evtBase o w v => 0x80 ≤ o && o < 0x8C && mmioOk o w && valueOk w v
  | .managementAddress a => a < 2 ^ 24
  | .registerWrite _ o w v => mmioOk o w && valueOk w v
  | .senseFrame b => b < 2 ^ 64
  | .readRecord n => n < 2 ^ 64
  | .challenge n => n.length == 32
  | .getClient c => c < 2 ^ 16
  | .calibrate a b c d => a < 2 ^ 32 && b < 2 ^ 32 && c < 2 ^ 32 && d < 2 ^ 32
  | .mmioRead _ o w => mmioOk o w
  | .keySlotRevoked k => k < 4
  | .containmentCleared b d => (match b with | some x => decide (x < 36) | none => true) &&
      (match d with | some x => decide (x < 6) | none => true)
  | .powerGood r => r.keys.length ≤ 4 && r.qmapLo.length ≤ 4 && r.qmapHi.length ≤ 4 && r.failed.length ≤ 4 &&
      r.lost.length ≤ 256
  | .spinePhaseDone | .engPorstN | .engCrstN | .tapePorstN _ | .load _ | .abort | .localReadComplete | .verifyDone
  | .applyDone | .frameTimeout | .repairRoundTimeout | .hallStatusTimeout | .memoryWriteAck | .burstGrant | .tackLatch
  | .syncTimer | .syncTimeout | .tideWindowStart | .tideWindowEnd _ | .slowdownUpdate | .bind | .unbind | .invalidate
  | .diagDone | .releaseMessage | .bobInit | .initDone | .gussetSubstitution | .computeReset | .computeResetDone _
  | .computeResetRequest | .idleTimeout | .tideWake | .powerEntryDone | .powerExitDone _ | .gauClear | .gauClearAll
  | .levelSample _ | .periodClose | .handshakeAnswer | .handshakeTimeout | .tapePfwN | .getIdentity | .getStatus
  | .readChallenge | .seal | .timeRootDesignated => true

end Sys2Proof
end

