-- ==== Sys2Proof/Certificates/Slice0/Obligations.lean ====
section
/-! DEFINITION. What is claimed of the block, one definition per claim; the provers prove them. -/

open Sys2Proof Sys2Proof.Machine

/-- A step is the front command on the state with the queue's rest (Chapter 19, interfaces, log entry 1). For every
state whose queue starts with a command, the step is exec of that command on the state with the rest of the queue; on
an empty queue the step is one tick of the block's own time (log entry 1, the model's choice). -/
def Obligations.StepRunsFrontCommand : Prop :=
  ∀ (s : State),
    (∀ (c : Instr) (rest : List Instr), s.pending = c :: rest → step s = exec c { s with pending := rest }) ∧
    (s.pending = [] → step s = .next s.tick)

/-- Every command answers a next state and leaves the rest of the queue as it was (Chapter 20, Events and errors,
Chapter 15, Faults, log entry 5). For every command and every state, exec answers a next state, never a fault or a
refusal: every error of this block is a status, an event or a reset. The commands that wait are the same, in the same
order, after it. -/
def Obligations.EveryCommandCompletes : Prop :=
  ∀ (c : Instr) (s : State), ∃ t, exec c s = .next t ∧ t.pending = s.pending

/-- Every step keeps HBM canonical, every write whole, and every fault of the Spool taken (R248, R414, R417, log entry
2). From every state that meets the invariant, not only those that a run reaches, a step gives a state that meets it:
the cells of HBM stand in strictly rising order with no cell equal to what an unlisted address reads as (log entry 2),
no command leaves a write of HBM half done, and a fault that the Spool has found in itself is taken by fault control
before the command ends (R248). -/
def Obligations.StepKeepsInv : Prop :=
  ∀ (s t : State), s.Inv → step s = .next t → t.Inv

/-- Reset meets the invariant and holds the values the spec gives (R370, R430, log entries 2 and 3). After reset the
invariant holds, no command waits, nothing is powered, the Pattern loader is EMPTY, no Pattern is applied, every ring
is detached, no buffer is held, every polder slot is EMPTY, and the registers that are plain storage read their reset
values: TWK_ENG_FUNC 0x3F, TWK_EVT_CFG 0x3F000000, the two column maps 0x40, TWK_SLC_ACK_TO 0x32, and the logical maps
name the sixteen positions that are no gusset. -/
def Obligations.ResetMeetsInv : Prop :=
  State.reset.Inv ∧ State.reset.pending = [] ∧ State.reset.eng.boot.powered = false ∧ State.reset.hbm = [] ∧
  State.reset.eng.loader.st = .empty ∧ State.reset.eng.pat = none ∧ State.reset.eng.rings = [] ∧ State.reset.eng.bob.entries = [] ∧
  State.reset.eng.pld.slots.all (fun p => p.st == .empty) = true ∧
  State.reset.eng.reg Reg.engFunc = 0x3F ∧ State.reset.eng.reg Reg.evtCfg = 0x3F000000 ∧
  State.reset.eng.reg Reg.ctColmap0 = 0x40 ∧ State.reset.eng.reg Reg.ctColmap1 = 0x40 ∧ State.reset.eng.reg Reg.slcAckTo = 0x32 ∧
  (∀ q, q < 4 → ∀ n, n < 16 → State.reset.eng.position q n = if n < 5 then n else if n < 10 then n + 1 else n + 2)

/-- Only Tape's own commands change Tape, and they change nothing else but its mirror, time and event (R19, R25, R405,
R425). No reset, no register access and no other command of the engine changes Tape; a command of Tape leaves HBM and
the queue as they were. The commands of Tape are its reset, its sensing and period commands, its power-fail warning
and those of its sealed port. -/
def Obligations.TapeStandsApart : Prop :=
  ∀ (c : Instr) (s t : State), exec c s = .next t →
    (c.ofTape = false → t.tape = s.tape) ∧ (c.ofTape = true → t.hbm = s.hbm ∧ t.pending = s.pending)

/-- Before power-good no command but POWER_GOOD and those of Tape changes the engine (R370, log entry 5). While the
engine has had no power-good, every command but POWER_GOOD and those of Tape leaves HBM, Tape and the engine as they
were: there is nothing yet that could act (log entry 5 says so of events whose cause is absent). ENG_PORST_N then
finds every register at its reset value; it may only put the log of free values and outgoing messages back where it
stands. -/
def Obligations.NothingBeforePower : Prop :=
  ∀ (c : Instr) (s t : State), s.eng.boot.powered = false → s.eng.wlog = [] → c.ofTape = false → c ≠ .engPorstN →
    (∀ r, c ≠ .powerGood r) → exec c s = .next t → t = s

/-- POWER_GOOD starts phase 1 with the management records; SPINE_PHASE_DONE checks the variant record and releases
wave 0 (R370, Table 16-1, R113, R347, R363, R371, R372). On an engine without power POWER_GOOD completes: phase 1 has
started at this time, the variant record, the four key slots, the lost list and the two column maps are those read
from the management store, and nothing but the bring-up record, the lost list and registers has changed. On an engine
that has power it changes nothing. At the end of phase 1 the engine enters phase 2 with wave 0 released now. A record
signed under a trusted key slot gives VARIANT; any other leaves VARIANT at what it was, 3 after reset, with
VARIANT_INVALID raised. In any other phase the command changes nothing. -/
def Obligations.PowerGoodThenVariantRecord : Prop :=
  (
    ∀ (s : State) (r : BootRecords),
      (s.eng.boot.powered = false → ∃ t, exec (.powerGood r) s = .next t ∧
        t.eng.boot.powered = true ∧ t.eng.boot.phase = 1 ∧ t.eng.boot.porNs = s.eng.time.ns ∧ t.eng.boot.record = r.variant ∧
        (r.keys.length = 4 → t.eng.boot.keys = r.keys) ∧ t.eng.flt.lost = (r.lost.take 256).map some ∧
        t.eng.reg Reg.ctColmap0 = r.colmap0 % 2 ^ 32 ∧ t.eng.reg Reg.ctColmap1 = r.colmap1 % 2 ^ 32 ∧
        t = { s with eng := { s.work with
                boot := t.eng.boot, flt := t.eng.flt, regs := t.eng.regs } }) ∧
      (s.eng.boot.powered = true → exec (.powerGood r) s = .next { s with eng := s.work })) ∧
  (
    ∀ (s : State), s.eng.boot.powered = true →
      (s.eng.boot.phase = 1 → ∃ t, exec .spinePhaseDone s = .next t ∧
        t.eng.boot.phase = 2 ∧ t.eng.boot.wavesReleased = [0] ∧ t.eng.boot.waveNs = s.eng.time.ns ∧
        (t.eng.boot.variant, t.eng.boot.variantValid) = (match s.eng.boot.record with
          | some r => if s.work.recordOk r then (r.variant, true) else (s.eng.boot.variant, s.eng.boot.variantValid)
          | none => (s.eng.boot.variant, s.eng.boot.variantValid)) ∧
        (∀ p, p < t.eng.portCount → p < s.eng.ports.length → (t.eng.port p).link = 1) ∧
        t.tape = s.tape ∧ t.eng.loader = s.eng.loader ∧ t.eng.flt = s.eng.flt ∧ t.eng.pld = s.eng.pld) ∧
      (s.eng.boot.phase ≠ 1 → exec .spinePhaseDone s = .next { s with eng := s.work }))

/-- Waves follow each other by 120 ms; bays that fail their self-test are contained, or their dike where all six fail
(R372, Table 16-1, R350, R351). In phase 2 with w waves released, fewer than six, WAVE_RELEASE of wave w releases it,
at the earliest 120 ms after the wave before it, and changes nothing but hall time and the bring-up record.
WAVE_SELFTEST_DONE of a released wave not yet tested, with no failing bay in its dike, marks it done; then READY is
looked at again. WAVE_SELFTEST_DONE of a released wave not yet tested completes with every failing bay of its dike out
of use: contained one by one, or, where all six fail, with the dike contained; the wave is done and SELFTEST_FAILED
raised before. Containing a bay leaves it out of use, with its banks among those absent. -/
def Obligations.WavesAreReleasedAndTested : Prop :=
  (
    ∀ (s : State), s.on →
      (∀ w, s.eng.boot.phase ≥ 2 → w = s.eng.boot.wavesReleased.length → w < 6 →
        ∃ t, exec (.waveRelease w) s = .next t ∧ t.eng.boot.wavesReleased = s.eng.boot.wavesReleased ++ [w] ∧
          t.eng.boot.waveNs = max s.eng.time.ns (s.eng.boot.waveNs + 120000000) ∧ t.eng.time.ns = t.eng.boot.waveNs ∧
          t = { s with eng := { s.work with
                boot := t.eng.boot, time := t.eng.time } }) ∧
      (∀ w failed, s.eng.boot.wavesReleased.contains w = true → s.eng.boot.wavesDone.contains w = false →
        (∀ b ∈ dikeBays w, b ∉ failed) →
        ∃ t e, exec (.waveSelftestDone w failed) s = .next t ∧ t = s.leaves (Eng.updateReady e) ∧
          e = { s.work with time := e.time, boot := { s.eng.boot with wavesDone := s.eng.boot.wavesDone ++ [w] } } ∧
          e.time.ns = (if w = 5 then max s.eng.time.ns (s.eng.boot.waveNs + 150000000) else s.eng.time.ns) ∧
          t.eng.boot.wavesDone = s.eng.boot.wavesDone ++ [w])) ∧
  (
    (∀ (s : State) (w : Nat) (failed : List Nat), s.on → s.eng.boot.wavesReleased.contains w = true →
      s.eng.boot.wavesDone.contains w = false → (∃ b ∈ dikeBays w, b ∈ failed) →
      ∃ t e, exec (.waveSelftestDone w failed) s = .next t ∧
        t = s.leaves (Eng.updateReady { e with boot := { e.boot with wavesDone := e.boot.wavesDone ++ [w] } }) ∧
        ∃ e0 : Eng, e0 = (Eng.raise 0x0908 (arg9 s.eng.pwr.cur 0) none 0 (if w = 5 then s.work.reach (s.eng.boot.waveNs + 150000000) else s.work)) ∧
        ((dikeBays w).filter (fun b => failed.contains b) = dikeBays w → e = e0.containDike w) ∧
        ((dikeBays w).filter (fun b => failed.contains b) ≠ dikeBays w →
          e = ((dikeBays w).filter (fun b => failed.contains b)).foldl (fun (e : Eng) b => e.containBay b) e0)) ∧
    (∀ (e : Eng) (b : Nat), (e.containBay b).bayDown b = true ∧ ∀ k ∈ bayBanks b, k ∈ (e.containBay b).flt.banksAbsent) ∧
    (∀ (e : Eng) (d b : Nat), b ∈ dikeBays d → (e.containDike d).bayDown b = true))

/-- A link runs at the highest common version, is learned again with its peer, and its state follows the port events
(R196, R373, Table 8-4, log entry 6, R183, R340, R421, R199, R360, Table 8-11). On a port that is present, in training
or down, LINK_TRAINED completes: a port that came up runs at the highest Overlock version that the port's range of the
Pattern (2 to 4 where it gives none) and the peer's range share, with LINK_NEGOTIATED raised and waiting messages
sent; where the ranges do not meet it reads NOVER with LINK_NO_COMMON_VERSION raised; a port that did not come up is
down. The chip has learned its own ID. For a chip that is not this one, PEER_VERSION_LEARNED completes with the
version in the peer version table, so that the endpoint version with that chip is the lower of this chip's version and
the peer's; where no endpoint version changes by it, nothing else changes; where one does, the promise of the mode in
force is voided (R340). A version told of this chip itself changes nothing. On a trained port that is present, a
change to down completes with the port down, the packets it had begun to bring aborted in the Spool, its queue emptied
and its shares zero, LINK_DOWN raised, every chip of the job that no port reaches any more suspected, and what follows
done; a change to up completes with the port up, LINK_UP raised and waiting messages sent. A change to the state the
port already has changes nothing. -/
def Obligations.LinksRunAtTheirVersionsAndStates : Prop :=
  (
    ∀ (s : State) (port own peer peerMin peerMax : Nat) (swred fixedOrder : Bool), s.on → s.eng.boot.phase ≥ 2 →
      s.eng.portPresent port = true → (s.eng.port port).link ≠ 2 →
      (exec (.linkTrained port false peerMin peerMax swred fixedOrder own peer) s =
        .next (s.leaves (s.work.setPort port (fun p => { p with link := 0 })).updateReady)) ∧
      (∀ lo hi, (lo, hi) = (match s.eng.portCfg port with
          | some c => (c.ovlMin, c.ovlMax)
          | none => (2, 4)) →
        ∀ e0 : Eng, e0 = { s.work with boot := { s.eng.boot with chipId := some own } } →
        (max lo peerMin ≤ min hi peerMax →
          exec (.linkTrained port true peerMin peerMax swred fixedOrder own peer) s =
            .next (s.leaves ((((((e0.setPort port (fun p => { p with link := 2, negVer := min hi peerMax, peerMax := peerMax
                                                                     swred := swred, fixedOrder := fixedOrder })).raise
              0x0101 (arg1 (some port) peer) none 0).versionsSince s.work.versions).resendUnsent s.hbm).updateReady).settle s.hbm))) ∧
        (min hi peerMax < max lo peerMin →
          exec (.linkTrained port true peerMin peerMax swred fixedOrder own peer) s =
            .next (s.leaves (((e0.setPort port (fun p => { p with link := 3, negVer := 0, peerMax := peerMax, swred := false
                                                                  fixedOrder := false })).raise 0x0102 (arg1 (some port) peer) none 0).updateReady))))) ∧
  (
    ∀ (s : State) (chip version : Nat), s.on →
      (chip ≠ s.eng.chip →
        exec (.peerVersionLearned chip version) s =
          .next (s.leaves (({ s.work with peerVer := KV.put s.eng.peerVer chip version } : Eng).versionsSince s.work.versions)) ∧
        (version ≠ 0 → ({ s.work with peerVer := KV.put s.eng.peerVer chip version } : Eng).endVersion chip = min s.eng.ownVersion version)) ∧
      (chip = s.eng.chip → exec (.peerVersionLearned chip version) s = .next { s with eng := s.work })) ∧
  (
    ∀ (s : State) (port : Nat), s.on → s.eng.portPresent port = true → (s.eng.port port).negVer ≠ 0 →
      ((s.eng.port port).link = 2 →
        exec (.linkStateChange port true) s = .next { s with eng := s.work } ∧
        ∃ e had, e = (((((s.work.setPort port (fun p => { p with link := 0 })).abortPort port).losePort port).raise 0x0103 (arg1 (some port) 0)
            none 0).versionsSince s.work.versions) ∧
          had = s.work.jobChips.filter (fun c => c != s.eng.chip && (s.work.linkPorts c).contains port) ∧
          exec (.linkStateChange port false) s =
            .next (s.leaves (((had.filter (fun c => (e.linkPorts c).isEmpty)).foldl (fun (e : Eng) c => e.suspectChip c) e).settle s.hbm))) ∧
      ((s.eng.port port).link = 0 →
        exec (.linkStateChange port false) s = .next { s with eng := s.work } ∧
        exec (.linkStateChange port true) s =
          .next (s.leaves (((((s.work.setPort port (fun p => { p with link := 2 })).raise 0x0104 (arg1 (some port) 0) none 0).versionsSince
            s.work.versions).resendUnsent s.hbm).settle s.hbm))))

/-- A lost clock becomes the fault or reset of Table 19-4; the power-on reset clears everything but Tape (R424, R425,
R376, Table 15-1, Table 19-4, R19, log entry 4). A missing core or Spool clock is a fault of all 36 bays, a missing
port clock one of the bays with ports, in ascending order; a missing control or time base clock, like ENG_CRST_N,
requests a compute reset, which takes its place in the queue of recoveries. ENG_PORST_N completes in every state with
every register, queue and table of the engine at its reset value. HBM, Tape and the queue stay; the count of free
values used (the model's own field, log entry 4) and what has already left the engine stay as they are. -/
def Obligations.ResetsAndLostClocks : Prop :=
  (
    ∀ (s : State), s.on →
      (∀ island, island < 2 →
        exec (.clockMissing island) s = .next (s.leaves ((List.range 36).foldl (fun (e : Eng) b => e.bayFault b) s.work))) ∧
      exec (.clockMissing 2) s =
        .next (s.leaves ((((List.range s.eng.portCount).map portBay).eraseDups).foldl (fun (e : Eng) b => e.bayFault b) s.work)) ∧
      (∀ island, island ≥ 3 → exec (.clockMissing island) s = .next (s.leaves (s.work.requestReset .compute))) ∧
      exec .engCrstN s = .next (s.leaves (s.work.requestReset .compute)) ∧
      (s.eng.flt.recovery = none → s.eng.pwr.trans = false → s.eng.pwr.cur = 0 → s.eng.flt.queue = [] →
        s.work.requestReset .compute = ({ s.work with flt := { s.eng.flt with queue := [] } } : Eng).startCompute)) ∧
  (
    ∀ (s : State), ∃ t, exec .engPorstN s = .next t ∧ t.hbm = s.hbm ∧ t.tape = s.tape ∧ t.pending = s.pending ∧
      t.eng = { freeCtr := s.eng.freeCtr, tx := s.eng.tx, irqs := s.eng.irqs, rsp := s.eng.rsp, posts := s.eng.posts })

/-- LOAD is taken, latched or refused by the loader state; a local read completes once waves and links are done (R33,
R45, R46, R58, Chapter 2, corner cases, R371, Table 2-12, Table 16-1). On an engine that is awake LOAD completes.
While an image is verified or applied it is latched and nothing else happens but that BCAST is stored. In any other
state: with a polder resident and no re-load needed it is refused with LOAD_REFUSED; with none, a length that is a
multiple of 64 from 64 to 16,777,216 starts the local read of that many bytes, in the state RECEIVING, and any other
length leaves the loader REJECTED with BAD_LAYOUT and raises the event. ABORT completes with sending ended and BCAST
clear. While a local read is under way, the six waves are done and every port has ended training, LOCAL_READ_COMPLETE
completes with the loader VERIFYING and staged with the bytes of HBM that LOAD named, and nothing else changed. In
every other case it changes nothing. -/
def Obligations.LoadsAreTakenAndWaitForBringUp : Prop :=
  (
    ∀ (s : State) (b : Bool), s.alert →
      ((s.eng.loader.st = .verifying ∨ s.eng.loader.st = .applying) →
        exec (.load b) s = .next (s.leaves { s.work.setReg Reg.patCtrl (bitAt 1 b) with loader := { s.eng.loader with loadPend := true } })) ∧
      (s.eng.loader.st ≠ .verifying → s.eng.loader.st ≠ .applying → s.eng.loader.reloadNeeded = false →
        (s.eng.anyResident = true →
          exec (.load b) s = .next (s.leaves { s.work.setReg Reg.patCtrl (bitAt 1 b) with loader := { s.eng.loader with loadRefused := true } })) ∧
        (s.eng.anyResident = false → s.eng.reg Reg.patLen % 64 = 0 → 64 ≤ s.eng.reg Reg.patLen → s.eng.reg Reg.patLen ≤ 16777216 →
          ∃ l, exec (.load b) s = .next (s.leaves ({ s.work.setReg Reg.patCtrl (bitAt 1 b) with loader := l } : Eng).updateReady) ∧
            l.st = .receiving ∧ l.localRead = true ∧ l.src = s.eng.reg Reg.patSrc ∧ l.len = s.eng.reg Reg.patLen ∧ l.bcast = b ∧
            l.frames = [] ∧ l.staged = none ∧ l.loadPend = false ∧ l.reload = false) ∧
        (s.eng.anyResident = false → (s.eng.reg Reg.patLen % 64 ≠ 0 ∨ s.eng.reg Reg.patLen < 64 ∨ 16777216 < s.eng.reg Reg.patLen) →
          ∃ l, exec (.load b) s = .next (s.leaves ((({ s.work.setReg Reg.patCtrl (bitAt 1 b) with loader := l } : Eng).raise 0x0702 l.arg none
              0).updateReady)) ∧ l.st = .rejected ∧ l.err = 0x03 ∧ l.staged = none)) ∧
      exec .abort s = .next (s.leaves { s.work.setReg Reg.patCtrl 0 with loader := { s.eng.loader with sending := false } })) ∧
  (
    ∀ (s : State), s.on →
      (s.eng.loader.st = .receiving → s.eng.loader.localRead = true → s.eng.boot.wavesDone.length = 6 → s.eng.linksDone = true →
        exec .localReadComplete s = .next { s with eng := { s.work with
                loader :=
          { s.eng.loader with st := .verifying, image := Mem.read s.hbm s.eng.loader.src s.eng.loader.len } } }) ∧
      ((s.eng.loader.st ≠ .receiving ∨ s.eng.loader.localRead = false ∨ s.eng.boot.wavesDone.length ≠ 6 ∨ s.eng.linksDone = false) →
        exec .localReadComplete s = .next { s with eng := s.work }))

/-- A verified Pattern is HELD, a failing one REJECTED with its cause; a revoked key slot verifies nothing from then
on (R33, R47, Table 2-4, Table 2-12, R32, R57). While an image is being verified, VERIFY_DONE completes. A broadcast
image with a frame that can no longer be read from the Spool loses such frames and goes back to repair. A verification
that fails leaves the loader REJECTED with the code and section of the first step that failed, nothing applied, and
PATTERN_REJECTED raised, with this state reported and a latched LOAD carried out. One that passes leaves the loader
APPLYING with that Pattern and its bays without blocks staged; a broadcast root starts sending with the hall count
open. In any other state the command changes nothing. KEY_SLOT_REVOKED completes with the slot marked revoked and
nothing else changed, the Pattern in force included. From then on verification of any image, the kept copy among them,
whose KEY_SLOT names a revoked slot fails. -/
def Obligations.VerificationAndRevocation : Prop :=
  (
    ∀ (s : State), s.on →
      (s.eng.loader.st ≠ .verifying → exec .verifyDone s = .next { s with eng := s.work }) ∧
      (s.eng.loader.st = .verifying → s.work.badFrames ≠ [] → exec .verifyDone s = .next (s.leaves s.work.dropFrames)) ∧
      (s.eng.loader.st = .verifying → s.work.badFrames = [] →
        ∀ r, r = (if s.eng.loader.localRead = true then s.work.verifyImage .full none s.eng.loader.image []
            else s.work.verifyImage .full none s.eng.loader.gathered s.eng.loader.missing) →
          (match r with
            | .err code sec => s.eng.loader.loadPend = false →
              exec .verifyDone s = .next (s.leaves (((({ s.work with loader :=
                  { s.eng.loader with st := .rejected, err := code, errSection := sec, staged := none } } : Eng).raise 0x0702
                (code + sec * 2 ^ 8 + s.eng.loader.baysUncfg * 2 ^ 16) none 0).reportState).updateReady))
            | .ok p bays => exec .verifyDone s = .next (if s.eng.loader.localRead && s.eng.loader.bcast then
                s.leaves (({ s.work with loader := { s.eng.loader with
                  st := .applying, staged := some p, stagedBays := bays, sending := true, sendNext := 0, sendDebt := 0
                  hallClosed := false, hallOk := [], hallBad := [], hallBadCount := 0 } } : Eng).rootSend)
              else { s with eng := { s.work with loader := { s.eng.loader with
                st := .applying, staged := some p, stagedBays := bays, sending := false, sendNext := 0, sendDebt := 0, hallBad := [] } } })))) ∧
  (
    (∀ (s : State) (k : Nat), s.on → exec (.keySlotRevoked k) s = .next { s with eng := { s.work with
        boot := { s.eng.boot with keys := updAt s.eng.boot.keys k (fun x => { x with revoked := true }) } } }) ∧
    (∀ (e : Eng) (scope : PatPath) (old : Option Pattern) (img : List Byte) (missing : List Nat),
      (∀ k, e.boot.keys[rdLE img 26 1]? = some k → k.revoked = true) → ∃ code sec, e.verifyImage scope old img missing = .err code sec))

/-- APPLY_DONE puts the staged Pattern in force and writes the kept copy (R46, R51, R57, R58, R59, Table 2-12). While
an image is applied, APPLY_DONE completes with the staged Pattern in force and what follows at once; the applied
engine has the loader APPLIED, RELOAD_NEEDED and the error clear, and KEPT set exactly where TWK_PAT_KEEP is nonzero,
the image then written there. In any other state the command changes nothing. -/
def Obligations.ApplyPutsThePatternInForce : Prop :=
  ∀ (s : State), s.on →
    (s.eng.loader.st ≠ .applying → exec .applyDone s = .next { s with eng := s.work }) ∧
    (s.eng.loader.st = .applying → ∀ p, s.eng.loader.staged = some p → s.eng.loader.loadPend = false → s.eng.loader.reload = false →
      s.eng.loader.reloadNeeded = false →
      ∃ e : Eng, exec .applyDone s = .next (s.leaves (e.settle s.hbm)) ∧
        e.pat = some p ∧ e.slotCfg = p.slots ∧ e.panelMaps = p.panels ∧
        e.loader.st = .applied ∧ e.loader.reloadNeeded = false ∧ e.loader.err = 0 ∧ e.loader.errSection = 255 ∧ e.pld.pieces = [] ∧
        e.pld.evicted = [] ∧ e.spool.queues = [] ∧ e.loader.kept = (s.eng.reg Reg.patKeep != 0) ∧
        (s.eng.reg Reg.patKeep ≠ 0 → s.eng.loader.localRead = true → (s.eng.reg Reg.patKeep, s.eng.loader.image) ∈ e.wlog))

/-- PATTERN_FRAME: a frame with a wrong check is counted, a foreign one is counted, a good one is held and passed on
(R48, R49, R50, Table 2-12, Table 2-16). In a state that takes frames, from phase 2 on, PATTERN_FRAME completes: a
frame whose CRC is wrong only adds one to CRC_FAILS; an image frame of another image than the first frame's, or of a
SEQ already held, and any frame at a root that is still sending, only adds one to FOREIGN; a frame of the image with a
fresh SEQ whose cells exist passes the loader's queue and, read as written, is held, which puts an EMPTY loader into
RECEIVING, and passed on; one with a word that cannot be read is counted by the Spool and not held. In a state that
takes none nothing changes. -/
def Obligations.FramesAreHeldCountedOrDiscarded : Prop :=
  ∀ (s : State) (src : Nat) (h : PatHdr) (pl : List Byte) (rd : SpoolRead), s.on →
    ((s.eng.boot.phase < 2 ∨ s.eng.loader.sending = false ∧
          (s.eng.loader.st = .applied ∨ s.eng.loader.st = .incomplete ∨ s.eng.loader.st = .rejected)) →
      exec (.patternFrame src h ⟨pl, rd⟩) s = .next { s with eng := s.work }) ∧
    (2 ≤ s.eng.boot.phase → s.eng.loader.sending = true → h.crc = (crc32c (h.bytes28 ++ pl)).toNat →
      exec (.patternFrame src h ⟨pl, rd⟩) s =
        .next { s with eng := { s.work with loader := { s.eng.loader with foreign := satAdd 16 s.eng.loader.foreign 1 } } }) ∧
    (2 ≤ s.eng.boot.phase → (s.eng.loader.st = .empty ∨ s.eng.loader.st = .receiving ∨ s.eng.loader.st = .repair) →
      (h.crc ≠ (crc32c (h.bytes28 ++ pl)).toNat → exec (.patternFrame src h ⟨pl, rd⟩) s =
        .next { s with eng := { s.work with
              loader := { s.eng.loader with crcFails := satAdd 16 s.eng.loader.crcFails 1 } } }) ∧
      (h.crc = (crc32c (h.bytes28 ++ pl)).toNat →
        ((∃ i, s.eng.loader.firstId = some i ∧ (i ≠ h.patternId ∨
              (i = h.patternId ∧ h.total = s.eng.loader.total ∧ bit h.fflags 0 = false ∧ (KV.find s.eng.loader.frames h.seq).isSome = true))) →
          exec (.patternFrame src h ⟨pl, rd⟩) s =
            .next { s with eng := { s.work with
              loader := { s.eng.loader with foreign := satAdd 16 s.eng.loader.foreign 1 } } }) ∧
        ((s.eng.loader.firstId = some h.patternId ∧ h.total = s.eng.loader.total ∨
              s.eng.loader.firstId = none ∧ s.eng.loader.reloadNeeded = false) →
          s.eng.loader.sending = false → s.eng.loader.localRead = false → bit h.fflags 0 = false →
          KV.find s.eng.loader.frames h.seq = none → h.seq < h.total → h.total ≤ 4096 → pl.length = h.plen → h.plen ≤ 4096 →
          s.work.stages h.seq = true →
          (rd = .good → exec (.patternFrame src h ⟨pl, rd⟩) s = .next (s.leaves (s.work.passFrame.holdFrame src h pl)) ∧
            ∃ l, (s.work.passFrame.holdFrame src h pl).loader = l ∧ KV.find l.frames h.seq = some pl ∧ l.firstId = some h.patternId ∧
              l.received = satAdd 16 s.eng.loader.received 1 ∧
              l.repaired = (if bit h.fflags 1 then satAdd 16 s.eng.loader.repaired 1 else s.eng.loader.repaired)) ∧
          ((∃ w, rd = .badData w ∨ rd = .badMeta w) →
            exec (.patternFrame src h ⟨pl, rd⟩) s = .next (s.leaves (s.work.passFrame.spoolBad ((s.work.passFrame.loaderCells h.seq).headD 0))) ∧
            (s.work.passFrame.spoolBad ((s.work.passFrame.loaderCells h.seq).headD 0)).loader = s.eng.loader))))

/-- The end frame decides a reception; repair asks for what is missing in at most three rounds (R49, R50, Table 2-12,
R51, R52). A good END frame of the image under reception completes with the END passed on and the reception ended;
FRAME_TIMEOUT of a reception ends it 2 ms after its last frame. A reception that ends whole is VERIFYING; one that
lacks frames starts a repair round: REPAIR, the round counted, its time noted. FRAME_TIMEOUT changes nothing outside a
reception. In REPAIR, REPAIR_ROUND_TIMEOUT completes 20 ms after the round began: before the third round has been
counted it starts the next; after it, an image that lacks only bay blocks is VERIFYING, and any other is INCOMPLETE
with code 9, section 255 and the event raised. In any other state nothing changes. -/
def Obligations.ReceptionEndsAndIsRepaired : Prop :=
  (
    (∀ (s : State) (src : Nat) (h : PatHdr) (rd : SpoolRead), s.on → 2 ≤ s.eng.boot.phase → s.eng.loader.st = .receiving → s.eng.loader.localRead = false →
      s.eng.loader.sending = false → s.eng.loader.firstId = some h.patternId → h.total = s.eng.loader.total →
      h.crc = (crc32c (h.bytes28 ++ [])).toNat → bit h.fflags 0 = true →
      ∃ e : Eng, exec (.patternFrame src h ⟨[], rd⟩) s = .next (s.leaves e.endReceiving) ∧
        e = { s.work with tx := e.tx, loader := { s.eng.loader with parent := some (s.eng.loader.parent.getD src), lastNs := s.eng.time.ns } }) ∧
    (∀ (s : State), s.on →
      (s.eng.loader.st = .receiving → s.eng.loader.localRead = false → 0 < s.eng.loader.total →
        exec .frameTimeout s = .next (s.leaves (s.work.reach (s.eng.loader.lastNs + 2000000)).endReceiving)) ∧
      ((s.eng.loader.st ≠ .receiving ∨ s.eng.loader.localRead = true ∨ s.eng.loader.total = 0) →
        exec .frameTimeout s = .next { s with eng := s.work })) ∧
    (∀ (e : Eng), (e.loader.missing = [] → 0 < e.loader.total → e.endReceiving = { e with loader := { e.loader with st := .verifying } }) ∧
      (e.loader.missing ≠ [] → e.endReceiving = e.startRound)) ∧
    (∀ (e : Eng), ∃ w tx, e.startRound = { e with tx := tx, loader :=
        { e.loader with st := .repair, repairRound := e.loader.repairRound + 1, lastNs := e.time.ns, wants := w } })) ∧
  (
    ∀ (s : State), s.on →
      (s.eng.loader.st ≠ .repair → exec .repairRoundTimeout s = .next { s with eng := s.work }) ∧
      (s.eng.loader.st = .repair → ∀ e, e = s.work.reach (s.eng.loader.lastNs + 20000000) →
        (s.eng.loader.repairRound < 3 → exec .repairRoundTimeout s = .next (s.leaves e.startRound)) ∧
        (3 ≤ s.eng.loader.repairRound → onlyBlocksMissing s.eng.loader.gathered s.eng.loader.missing = true →
          exec .repairRoundTimeout s = .next { s with eng := { s.work with
                time := e.time,
                loader := { s.eng.loader with st := .verifying } } }) ∧
        (3 ≤ s.eng.loader.repairRound → onlyBlocksMissing s.eng.loader.gathered s.eng.loader.missing = false → s.eng.loader.loadPend = false →
          exec .repairRoundTimeout s = .next (s.leaves (((({ e with loader :=
              { s.eng.loader with st := .incomplete, err := 0x09, errSection := 255, staged := none } } : Eng).raise 0x0704
            (9 + 255 * 2 ^ 8 + s.eng.loader.baysUncfg * 2 ^ 16) none 0).reportState).updateReady)))))

/-- A chip serves repair requests from what it holds; leaders add their children's reports into the hall counts (R50,
R13, R52, log entry 26, R48, Table 2-13). On the leader of a tray REPAIR_BITMAP completes with the member's list kept
and served; on any other chip it changes nothing. REPAIR_REQUEST completes with every asked frame that is held sent,
in the order asked, to the asker. Where all that is asked is held, these frames, each sealed with its CRC and with
only the REPAIR flag, are all that happens beside the kept list. At a root whose count is open, STATE_REPORT of a
member of TOPOLOGY not yet counted completes with it counted as applied or not applied, and with the count closed once
every member has reported; a second report of a member, or one of a chip outside TOPOLOGY, changes nothing.
HALL_STATUS_TIMEOUT closes an open count of a root that has sent its END, 100 ms after it: every member not counted as
applied then counts as not applied. On a chip that counts nothing the report is passed up to the chip above it in the
tree, where there is one. -/
def Obligations.LeadersServeAndCountReports : Prop :=
  (
    (∀ (s : State) (src : Nat) (l : List Nat), s.on →
      (s.work.leadsTray = false → exec (.repairBitmap src l) s = .next { s with eng := s.work }) ∧
      (s.work.leadsTray = true → src ≠ s.eng.chip → (∀ n ∈ l, (s.eng.loader.frame? n).isSome = true) →
        ∃ tx, exec (.repairBitmap src l) s = .next { s with eng := { s.work with
                tx := s.eng.tx ++ tx,
                loader := { s.eng.loader with bitmaps := KV.put s.eng.loader.bitmaps src l } } } ∧
          tx = l.filterMap (fun n => (s.eng.loader.frame? n).map (fun b => (⟨none, 7, .pattern src (sealPat
            { patternId := s.eng.loader.patternId, seq := n, total := s.eng.loader.count, plen := b.length, fflags := 2 } b) b⟩ : Tx))))) ∧
    (∀ (s : State) (src : Nat) (l : List Nat), s.on → (∀ n ∈ l, (s.eng.loader.frame? n).isSome = true) →
      exec (.repairRequest src l) s = .next { s with eng := { s.work with
                tx := s.eng.tx ++
        l.filterMap (fun n => (s.eng.loader.frame? n).map (fun b => (⟨none, 7, .pattern src (sealPat
          { patternId := s.eng.loader.patternId, seq := n, total := s.eng.loader.count, plen := b.length, fflags := 2 } b) b⟩ : Tx))) } })) ∧
  (
    (∀ (s : State) (chip st : Nat), s.on → s.eng.loader.hallClosed = false →
      ((s.eng.loader.hallOk.contains chip = true ∨ s.eng.loader.hallBad.contains chip = true ∨
          s.eng.loader.rootTopo.hasTray (chipRack chip) (chipTray chip) = false) →
        exec (.stateReport chip st) s = .next { s with eng := s.work }) ∧
      (s.eng.loader.hallOk.contains chip = false → s.eng.loader.hallBad.contains chip = false →
        s.eng.loader.rootTopo.hasTray (chipRack chip) (chipTray chip) = true →
        ∃ l, l = (if st = 5 then { s.eng.loader with hallOk := s.eng.loader.hallOk ++ [chip] }
            else { s.eng.loader with hallBad := s.eng.loader.hallBad ++ [chip] }) ∧
          exec (.stateReport chip st) s = .next { s with eng := { s.work with
                loader :=
            if s.eng.loader.rootTopo.jobChips ≤ l.hallOk.length + l.hallBad.length then
              { l with hallClosed := true, hallBadCount := l.rootTopo.jobChips - l.hallOk.length }
            else l } })) ∧
    (∀ (s : State) (chip st : Nat), s.on → s.eng.loader.hallClosed = true →
      exec (.stateReport chip st) s = .next { s with eng := { s.work with
                tx := s.eng.tx ++
        (match s.work.above with
          | some u => [⟨none, 7, .patReport u chip st⟩]
          | none => []) } }) ∧
    (∀ (s : State), s.on →
      (s.eng.loader.hallClosed = false → s.eng.loader.sending = false →
        exec .hallStatusTimeout s = .next { s with eng := { s.work with
                time := { s.eng.time with ns := max s.eng.time.ns (s.eng.loader.endNs + 100000000) },
                loader := { s.eng.loader with hallClosed := true, hallBadCount := s.eng.loader.rootTopo.jobChips - s.eng.loader.hallOk.length } } }) ∧
      ((s.eng.loader.hallClosed = true ∨ s.eng.loader.sending = true) →
        exec .hallStatusTimeout s = .next { s with eng := s.work })))

/-- A doorbell write is checked in the order of Table 3-2 and the first matching action is taken (R70). For every
64-bit write v to the low 8 bytes of the doorbell of queue q, with RING in bits 41 to 32 and TAIL in bits 31 to 0,
DOORBELL completes with exactly the first action of Table 3-2 whose condition holds: 1 dropped and counted in the
pattern-load state; 2 dropped with DOORBELL_REJECTED for a ring not attached, or attached to another queue; 3 the same
for a STOPPED or DRAINING ring; 4 ignored with DOORBELL_STALE for a TAIL not ahead; 5 the ring STOPPED with
RING_OVERRUN for more than 2^n entries; 6 otherwise TAIL updated (and idleness ended, R379). Nothing else of the write
is used. -/
def Obligations.DoorbellsAreCheckedInOrder : Prop :=
  ∀ (s : State) (q v r tail : Nat) (g : Ring), s.on → r = field v 32 10 → tail = field v 0 32 → g = s.eng.ring r →
    (s.eng.loader.st ≠ .applied → exec (.doorbell q 0 true v) s = .next (s.leaves (s.work.bump32 Reg.patDroppedDb 1))) ∧
    (s.eng.loader.st = .applied →
      ((g.st = .detached ∨ g.win.queue ≠ q) → exec (.doorbell q 0 true v) s = .next (s.leaves (s.work.rejectDoorbell r))) ∧
      (g.win.queue = q →
        ((g.st = .stopped ∨ g.st = .draining) → exec (.doorbell q 0 true v) s = .next (s.leaves (s.work.rejectDoorbell r))) ∧
        (g.st = .attached →
          (toSigned 32 (idxSub tail g.tail) ≤ 0 → exec (.doorbell q 0 true v) s =
            .next (s.leaves (s.work.raise 0x0511 (arg5 r g.owner ((s.eng.slotOf g.owner).getD 0)) (some g.owner) 0))) ∧
          (0 < toSigned 32 (idxSub tail g.tail) →
            (2 ^ g.win.ringLog < idxSub tail g.head → exec (.doorbell q 0 true v) s =
              .next (s.leaves ((s.work.setRing r (fun x => { x with st := .stopped })).raise 0x0512
                (arg5 r g.owner ((s.eng.slotOf g.owner).getD 0)) (some g.owner) 0))) ∧
            (idxSub tail g.head ≤ 2 ^ g.win.ringLog → exec (.doorbell q 0 true v) s =
              .next (s.leaves (s.work.setRing r (fun x => { x with tail := tail })).wake))))))

/-- A completion or event head is accepted only from the old head up to the tail (R65). A write of TWK_PLD_CPL_HEAD
with v is accepted only where 0 ≤ (int32)(v − CHEAD) ≤ (int32)(CTAIL − CHEAD): CHEAD is then v, and the slots freed go
to waiting records. Any other write leaves everything as it was, CHEAD and the reserved slots included, but for
HEAD_WRITE_REJECTED. A write of TWK_EVT_HEAD is accepted and ignored by the same rule against TWK_EVT_TAIL. -/
def Obligations.HeadWritesAcceptOnlyWhatWasWritten : Prop :=
  (∀ (s : State) (slot r v : Nat), s.window slot r → v < 2 ^ 32 →
    (0 ≤ toSigned 32 (idxSub v (s.eng.ring r).chead) ∧
        toSigned 32 (idxSub v (s.eng.ring r).chead) ≤ toSigned 32 (idxSub (s.eng.ring r).ctail (s.eng.ring r).chead) →
      ∃ e, e = s.work.advanceChead r v ∧ (e.ring r).chead = v ∧ exec (.cplHead slot v) s = .next (s.leaves (e.settle s.hbm))) ∧
    (¬ (0 ≤ toSigned 32 (idxSub v (s.eng.ring r).chead) ∧
        toSigned 32 (idxSub v (s.eng.ring r).chead) ≤ toSigned 32 (idxSub (s.eng.ring r).ctail (s.eng.ring r).chead)) →
      exec (.cplHead slot v) s =
        .next (s.leaves (s.work.raise 0x0517 (arg5 r (s.eng.ring r).owner slot) (some (s.eng.ring r).owner) 0)))) ∧
  (∀ (s : State) (v : Nat), s.alert → v < 2 ^ 32 →
    (0 ≤ toSigned 32 (idxSub v (s.eng.reg Reg.evtHead)) ∧
        toSigned 32 (idxSub v (s.eng.reg Reg.evtHead)) ≤ toSigned 32 (idxSub (s.eng.reg Reg.evtTail) (s.eng.reg Reg.evtHead)) →
      ∃ e, e = ({ s.work.setReg Reg.evtHead v with evt := { s.eng.evt with armed := true } } : Eng) ∧ e.reg Reg.evtHead = v ∧
        exec (.evtHead v) s = .next (s.leaves (if v = s.eng.reg Reg.evtTail then e else e.evtIrq))) ∧
    (¬ (0 ≤ toSigned 32 (idxSub v (s.eng.reg Reg.evtHead)) ∧
        toSigned 32 (idxSub v (s.eng.reg Reg.evtHead)) ≤ toSigned 32 (idxSub (s.eng.reg Reg.evtTail) (s.eng.reg Reg.evtHead))) →
      exec (.evtHead v) s = .next (s.leaves (s.work.raise 0x0517 (arg5 0 0 0) none 0))))

/-- DESCRIPTOR_FETCH takes in what each ring of the queue has announced, as one request holds, round-robin (R64, R68,
R87, R45, R303, log entry 53). On an engine that works with its Pattern applied, for an attached ring of a RUNNING
polder, DESCRIPTOR_FETCH completes. Every attached ring of its queue has HEAD advanced by the smaller of TAIL − HEAD
and the descriptors of 4,096 bytes (that the rings of the queue come in by one command is log entry 53), and one more
command for each, held, in ring order and with its index; the other rings stand. Where no other ring of the queue has
anything announced, the commands are that ring's, in order. What was fetched before stays where it was, and HBM, the
loader, the registers and the ports are not touched. Rings have distinct IDs, as every run keeps them. -/
def Obligations.FetchTakesAnnouncedDescriptors : Prop :=
  ∀ (s : State) (r : Nat) (l : KV Nat), s.alert → s.eng.loader.st = .applied → (s.eng.ring r).st = .attached →
    (∃ k, s.eng.slotOf (s.eng.ring r).owner = some k ∧ (s.eng.pslot k).st = .running) →
    (KV.keys s.eng.rings).Nodup → (∀ kg ∈ s.eng.rings, kg.2.head < 2 ^ 32) →
    l = s.eng.queueRings (s.eng.ring r).win.queue →
    ∃ t, exec (.descriptorFetch r) s = .next t ∧
      (∀ k n, (k, n) ∈ l → n = min (idxSub (s.eng.ring k).tail (s.eng.ring k).head) (4096 / descSize (s.eng.ring k).negMajor) ∧
        (t.eng.ring k).head = ((s.eng.ring k).head + n) % 2 ^ 32 ∧ (t.eng.ring k).st = .attached ∧
        (t.eng.ring k).tail = (s.eng.ring k).tail ∧
        ((t.eng.cmds.drop s.eng.cmds.length).filter (fun c => c.ring == k)).map (·.idx) =
          (List.range n).map (fun i => ((s.eng.ring k).head + i) % 2 ^ 32)) ∧
      (∀ k, (∀ n, (k, n) ∉ l) → t.eng.ring k = s.eng.ring k) ∧
      t.eng.cmds.length = s.eng.cmds.length + (l.map (·.2)).sum ∧
      (t.eng.cmds.take s.eng.cmds.length).map (fun c => (c.ring, c.idx)) = s.eng.cmds.map (fun c => (c.ring, c.idx)) ∧
      (∀ c ∈ t.eng.cmds.drop s.eng.cmds.length, c.phase = .held ∧ c.done = false ∧ c.polder = (s.eng.ring c.ring).owner) ∧
      (∀ n, l = [(r, n)] → (t.eng.cmds.drop s.eng.cmds.length).map (fun c => (c.ring, c.idx)) =
        (List.range n).map (fun i => (r, ((s.eng.ring r).head + i) % 2 ^ 32))) ∧
      t = { s with eng := { s.work with cmds := t.eng.cmds, nextCmd := t.eng.nextCmd, groups := t.eng.groups, lslots := t.eng.lslots,
                                        pld := t.eng.pld, rings := t.eng.rings, wq := t.eng.wq, served := t.eng.served } }

/-- DEPENDENCY_RELEASED and WAIT_POLL start a held command once its slot, order, WAIT and dependencies allow (R66,
R80, R81, R82, R83, R84, R87, Table 3-12). For a held command whose WAIT is met or absent, DEPENDENCY_RELEASED
completes: it starts, taking its completion slot and channel, where its ring, its polder, the order, a free completion
slot, its dependencies and a free channel allow, and a command with a status from validation, no channel in its quota
or a count of 0 ends at once with that status; where they do not, nothing changes but the time for which it has been
blocked and, where only a cell for its item lacks, that its queue waits for one. WAIT_POLL of a held command whose
word does not satisfy it changes no more than that time and the bytes read; one whose word does is marked so, takes
its INDIRECT count, and starts by the same rule. -/
def Obligations.HeldCommandsStartWhenFree : Prop :=
  (∀ (s : State) (r idx : Nat) (c : Cmd), s.on → s.eng.openAt r idx = some c.id → s.eng.cmd? c.id = some c → c.phase = .held →
    (c.d.wait = false ∨ c.waitOk = true) →
    (s.work.startable c = true → s.work.endsAtStart c = none →
      exec (.dependencyReleased r idx) s = .next (s.leaves (s.work.begin c))) ∧
    (s.work.startable c = true → ∀ st, s.work.endsAtStart c = some st →
      exec (.dependencyReleased r idx) s = .next (s.leaves ((s.work.begin c).complete c.id st))) ∧
    (s.work.startable c = false →
      exec (.dependencyReleased r idx) s = .next (s.leaves ((s.work.awaitItem c).setCmd c.id (fun x =>
        x.markBlocked (s.work.blocked x) s.eng.time.ns))) ∧
      (s.work.unheld c = false → s.work.awaitItem c = s.work))) ∧
  (∀ (s : State) (r idx : Nat) (c : Cmd), s.on → s.eng.openAt r idx = some c.id → s.eng.cmd? c.id = some c → c.phase = .held →
    c.d.wait = true → c.waitOk = false → c.done = false → c.err = none →
    (toSigned 32 (leNat (Mem.read s.hbm c.d.waitAddr 4) + 2 ^ 32 - c.d.waitValue) < 0 →
      exec (.waitPoll r idx) s = .next (s.leaves ((s.work.accHbm c.polder 64).setCmd c.id (fun x => x.markBlocked true s.eng.time.ns)))) ∧
    (0 ≤ toSigned 32 (leNat (Mem.read s.hbm c.d.waitAddr 4) + 2 ^ 32 - c.d.waitValue) →
      ∀ n x e, n = (if c.d.indirect then some (leNat (Mem.read s.hbm (c.d.waitAddr + c.d.sizeOff) 4)) else none) →
        x = ({ c with waitOk := true, count := n, err := if n.any (fun k => !countInRange c.d.opcode k) then some stBad else none } : Cmd) →
        e = (s.work.accHbm c.polder (if c.d.indirect then 128 else 64)).setCmd c.id (fun _ => x) →
        (e.startable x = true → e.endsAtStart x = none → exec (.waitPoll r idx) s = .next (s.leaves (e.begin x))) ∧
        (e.startable x = true → ∀ st, e.endsAtStart x = some st →
          exec (.waitPoll r idx) s = .next (s.leaves ((e.begin x).complete c.id st)))))

/-- ATTACH, DETACH, CLEAR_STOP, COMPLETION_STALL and narrow doorbells do what chapter 3 says (R72, R73, R74, R69, R66,
R89, Table 3-6, Table 3-7). ATTACH of a slot that is not EMPTY whose window names a ring not draining completes with
the status of the first failing check in RESULT and nothing else changed; where every check passes the ring is
ATTACHED with the window's values, all four indices 0 and RING_ATTACHED raised; ATTACH of a draining ring is latched.
DETACH of a ring that is ATTACHED or STOPPED puts it into DRAINING, its held commands end CANCELLED, and it ends
draining when nothing is left. CLEAR_STOP returns a STOPPED ring to ATTACHED with TAIL at HEAD. COMPLETION_STALL of a
ring where a command or a record has waited for a slot since a moment marks the ring and raises the event, 100 µs
after that moment at the earliest; where nothing waits nothing changes. A narrow doorbell is dropped with the event.
-/
def Obligations.RingWindowsAttachDetachAndClear : Prop :=
  (∀ (s : State) (slot : Nat) (p : PldSlot) (w : RingWindow) (st : Nat), s.alert → slot < 16 → p = s.eng.pslot slot → p.st ≠ .empty →
    w = KV.get {} p.wins p.ringSel → (s.eng.ring p.ringSel).st ≠ .draining → st = s.work.attachCheck p.polder p.ringSel w →
    (st ≠ stOk → exec (.attach slot) s =
      .next (s.leaves ((s.work.setPslot slot (fun x => { x with results := KV.put x.results p.ringSel st })).settle s.hbm))) ∧
    (st = stOk → exec (.attach slot) s =
      .next (s.leaves ((((s.work.setPslot slot (fun x => { x with results := KV.put x.results p.ringSel stOk })).setRing p.ringSel (fun _ =>
        { st := .attached, owner := p.polder, win := w, negMajor := field w.cfg 8 8, negMinor := 0, priv := bit w.cfg 31 })).raise
        0x0514 (arg5 p.ringSel p.polder slot) (some p.polder) 0).settle s.hbm)))) ∧
  (∀ (s : State) (slot r : Nat), s.window slot r →
    ((s.eng.ring r).st = .draining → exec (.attach slot) s = .next (s.leaves ((s.work.setRing r (fun g =>
      { g with pendAttach := some (slot, KV.get {} (s.eng.pslot slot).wins r) })).settle s.hbm))) ∧
    ((s.eng.ring r).st ≠ .draining → exec (.detach slot) s = .next (s.leaves ((((((s.eng.cmds.filter (fun c => c.ring == r && c.phase == .held &&
      !c.done)).map (·.id)).foldl (fun (e : Eng) id => e.stopCmd id stCancelled) (s.work.setRing r (fun g =>
        { g with st := .draining }))).settleCancels).drainEnd r).settle s.hbm))) ∧
    ((s.eng.ring r).st = .stopped → exec (.clearStop slot) s =
      .next (s.leaves ((s.work.setRing r (fun g => { g with st := .attached, tail := g.head })).settle s.hbm)))) ∧
  (∀ (s : State) (r : Nat), s.on → (s.eng.ring r).st ≠ .detached → (s.eng.ring r).stalled = false →
    (∀ since, (s.eng.ring r).stallAt = some since →
      exec (.completionStall r) s = .next (s.leaves (((s.work.reach (since + 100000)).setRing r (fun g => { g with stalled := true })).raise 0x0516
        (arg5 r (s.eng.ring r).owner ((s.eng.slotOf (s.eng.ring r).owner).getD 0)) (some (s.eng.ring r).owner) 0))) ∧
    ((s.eng.ring r).stallAt = none → exec (.completionStall r) s = .next { s with eng := s.work })) ∧
  (∀ (s : State) (q off v : Nat) (wide : Bool), s.on → (wide = false ∨ off ≠ 0) →
    exec (.doorbell q off wide v) s = .next (s.leaves (s.work.rejectDoorbell 0)))

/-- A write to HBM is visible once acknowledged; an unreadable line fails what it was read for, and a correctable one
is counted (R417, R419, R414, R67, R433, R318, R415, R114, R272, R368, R74, Table 15-10). MEMORY_WRITE_ACK completes
with the oldest record gone from the queue. A record that nothing hangs on is in HBM, byte for byte at its own
address, and every other byte and all else is as it was. An event record further advances TWK_EVT_TAIL and raises the
ring's vector where it is armed; a head write-back carries the CTAIL that the ring has now; a deferred or completion
record advances CTAIL and raises the ring's vector where its command asked, and a completion record ends the command's
stay. MEMORY_READ_RETURN completes. A good line, and an unreadable one that its one re-read brings, changes nothing (a
weight line is counted and its event raised). A corrected weight line or buffer table line counts and raises its
event, any other corrected line changes nothing. A descriptor line unreadable twice stops an attached ring at the
descriptor in it, with what its request has ahead of that fetched and DESCRIPTOR_UNREADABLE raised; one that holds no
announced descriptor of the request changes no ring. A buffer table line retires its buffer; a weight line is counted
and tears down the polder of its slot. -/
def Obligations.MemoryAnswersAreTaken : Prop :=
  (
    ∀ (s : State) (w : WqEntry) (rest : List WqEntry), s.on → s.eng.wq = w :: rest → w.addr + w.bytes.length ≤ memTop → w.bytes ≠ [] →
      (w.kind = .line → ∃ m, exec .memoryWriteAck s = .next { s with hbm := m, eng := { s.work with wq := rest } } ∧
        (∀ a, Mem.byte m a = if w.addr ≤ a ∧ a < w.addr + w.bytes.length then w.bytes.getD (a - w.addr) 0 else Mem.byte s.hbm a)) ∧
      (w.kind = .event → exec .memoryWriteAck s = .next (s.leaves (((({ s.work with wq := rest } : Eng).store w.addr w.bytes).setReg Reg.evtTail
        ((s.eng.reg Reg.evtTail + 1) % 2 ^ 32)).evtIrq))) ∧
      (∀ r, w.kind = .headWb r → exec .memoryWriteAck s = .next (s.leaves ((({ s.work with wq := rest } : Eng).store w.addr
        (w.bytes.take 4 ++ leBytes 4 (s.eng.ring r).ctail ++ zeros 56)).accHbm (s.eng.ring r).owner 64))) ∧
      (∀ r irq g, w.kind = .deferred r irq → KV.find s.eng.rings r = some g → exec .memoryWriteAck s = .next (s.leaves
        (if irq then (((({ s.work with wq := rest } : Eng).store w.addr w.bytes).accHbm g.owner 32).setRing r (fun g =>
            { g with ctail := (g.ctail + 1) % 2 ^ 32 })).irq g.win.vector
          else ((({ s.work with wq := rest } : Eng).store w.addr w.bytes).accHbm g.owner 32).setRing r (fun g =>
            { g with ctail := (g.ctail + 1) % 2 ^ 32 })))) ∧
      (∀ r id irq c, w.kind = .completion r id irq → s.eng.cmd? id = some c → ∃ e0 e1, e0 = (({ s.work with wq := rest } : Eng).store w.addr
          w.bytes).ringWrote r irq ∧
        e1 = { e0.gauge gsCmdLatency c.d.opcode (some c.polder) (s.eng.time.ns - c.fetchNs) with cmds := s.eng.cmds.filter (fun x => x.id != id) } ∧
        exec .memoryWriteAck s = .next (s.leaves (((e1.settleCancels.settleFences).drainEnd r).settle s.hbm)) ∧
        (∀ g, KV.find s.eng.rings r = some g → (e1.ring r).ctail = (g.ctail + 1) % 2 ^ 32) ∧ e1.cmd? id = none)) ∧
  (
    ∀ (s : State) (line : Nat) (retry : LineStat), s.on →
      (∀ what, exec (.memoryReadReturn line .ok retry what) s = .next { s with eng := s.work }) ∧
      (∀ what, (∀ slot, what ≠ .weight slot) →
        exec (.memoryReadReturn line .uncorrectable .ok what) s = .next { s with eng := s.work } ∧
        ((∀ n, what ≠ .bobbin n) → exec (.memoryReadReturn line .corrected retry what) s = .next { s with eng := s.work })) ∧
      (∀ slot, exec (.memoryReadReturn line .corrected retry (.weight slot)) s =
          .next (s.leaves ((s.work.bump Reg.wcErr 0 16 1).raise 0x0220 line none 0)) ∧
        exec (.memoryReadReturn line .uncorrectable .ok (.weight slot)) s =
          .next (s.leaves ((s.work.bump Reg.wcErr 16 16 1).raise 0x0221 line none 0))) ∧
      (∀ n, exec (.memoryReadReturn line .corrected retry (.bobbin n)) s = .next (s.leaves
        (if s.eng.bob.correctedAt.all (fun t => t + 1000000 ≤ s.eng.time.ns) then
          ({ s.work.lineBack n with bob := { s.eng.bob with correctedAt := some s.eng.time.ns } } : Eng).raise 0x0290 line none 0
          else s.work.lineBack n))) ∧
      (∀ r, (s.eng.ring r).st = .attached →
        (∀ n e, (s.eng.ring r).aheadOf line = some n → e = (List.range n).foldl (fun (e : Eng) _ => e.fetchOne s.hbm r) s.work →
          exec (.memoryReadReturn line .uncorrectable .uncorrectable (.descriptor r)) s =
            .next (s.leaves (((e.setRing r (fun g => { g with st := .stopped })).raise 0x0513
              (arg5 r (s.eng.ring r).owner ((s.eng.slotOf (s.eng.ring r).owner).getD 0)) (some (s.eng.ring r).owner) 0).settle s.hbm))) ∧
        ((s.eng.ring r).aheadOf line = none →
          exec (.memoryReadReturn line .uncorrectable .uncorrectable (.descriptor r)) s = .next (s.leaves (s.work.settle s.hbm)))) ∧
      (∀ n, n < s.eng.bufTotal → (s.eng.bentry n).retired = false →
        exec (.memoryReadReturn line .uncorrectable .uncorrectable (.bobbin n)) s =
          .next (s.leaves (((s.work.retireBuf n).raise 0x0291 line none 0).settle s.hbm)) ∧
        ((s.work.retireBuf n).bentry n).retired = true) ∧
      (∀ slot polder, s.eng.slotPolder slot = some polder →
        (∀ c ∈ s.eng.cmds, c.d.slot ≠ slot) →
        exec (.memoryReadReturn line .uncorrectable .uncorrectable (.weight slot)) s =
          .next (s.leaves (((((s.work.bump Reg.wcErr 16 16 1).raise 0x0221 line none 0).raise 0x0222 line (some polder) 0).tearDown polder
            0x0222 0 none).settle s.hbm))))

/-- NOP completes OK, FENCE once what is before it has completed, CANCEL ends its slots' earlier commands (R82, R83,
R85, R86). A started NOP completes OK and does nothing else. A started FENCE is running, and completes OK exactly
where every earlier command of its ring, or with SCOPE 1 of its polder, has completed. A fetched CANCEL of a running
polder acts at once: the epoch of its slot, or of every slot of its polder, advances, later commands of these slots
have the new epoch, earlier ones end CANCELLED, and it completes once all of them have written their records. -/
def Obligations.NopFenceAndCancelComplete : Prop :=
  (∀ (s : State) (r idx : Nat) (c : Cmd), s.runs r idx opNop c → exec (.nop r idx) s = .next (s.leaves ((s.run c).complete c.id stOk))) ∧
  (∀ (s : State) (r idx : Nat) (c : Cmd), s.runs r idx opFence c →
    exec (.fence r idx) s = .next (s.leaves (s.run c).settleFences) ∧
    ((∀ x ∈ s.eng.cmds, x.id < c.id → x.done = false → (c.d.scope = 0 → x.ring ≠ c.ring) ∧ (c.d.scope ≠ 0 → x.polder ≠ c.polder)) ↔
      (s.run c).fenceMet { c with phase := .running } = true)) ∧
  (∀ (s : State) (r idx : Nat) (c : Cmd) (slots : List Nat), s.on → s.eng.cmdAt r idx opCancel = some c → c.phase = .held → c.err = none →
    s.eng.polderRuns c.polder = true → s.eng.flt.recovery ≠ some .compute → slots = (if c.d.scope = 0 then [c.d.slot] else s.work.polderSlots c.polder) →
    ∃ e ids, e = slots.foldl (fun (e : Eng) s => e.nextEpoch s) s.work ∧
      ids = (e.cmds.filter (fun x => x.polder == c.polder && x.id < c.id && !x.done && cancellable x.d.opcode && slots.contains x.d.slot)).map (·.id) ∧
      exec (.cancel r idx) s = .next (s.leaves (((ids.foldl (fun (e : Eng) id => e.stopCmd id stCancelled)
        (({ e with cmds := e.cmds.map (fun (x : Cmd) => if x.polder == c.polder && x.id > c.id && slots.contains x.d.slot then
          { x with epoch := (e.lslot x.d.slot).epoch } else x) } : Eng).setCmd c.id (fun c =>
            { c with phase := .running, cancels := ids, startNs := s.eng.time.ns }))).settleCancels).settle s.hbm)))

/-- A command that ends queues exactly one completion record, in its own slot of its own ring (R66, R86, R64, Table
3-13). A command that ends while it holds a completion slot is done with its status, and its record of 32 bytes is
queued behind those of its ring, at the ring's completion base plus 32 times the index modulo 2^m, with the command's
identity; every other command and every record queued before stay. A command that has ended does not end again. A
command that ends without a slot while the ring has none free queues nothing. -/
def Obligations.EveryEndQueuesOneRecord : Prop :=
  (∀ (e : Eng) (id st : Nat) (c : Cmd), e.cmd? id = some c → c.done = false → c.slotHeld = true →
    ∃ w, (e.completeOne id st).wq = e.wq ++ [w] ∧ w.kind = .completion c.ring id c.d.irq ∧ w.bytes.length = 32 ∧
      w.addr = (e.ring c.ring).win.cplBase + ((e.ring c.ring).ctail + e.cplQueued c.ring) % 2 ^ 32 % 2 ^ (e.ring c.ring).win.cplLog * 32 ∧
      (∃ x, (e.completeOne id st).cmd? id = some x ∧ x.done = true ∧ x.phase = .ended ∧ x.slotHeld = false ∧ x.recorded = true ∧
        x.res.status = st) ∧
      (e.completeOne id st).cmds.filter (fun x => x.id != id) = e.cmds.filter (fun x => x.id != id) ∧
      (∀ k, { (e.completeOne id st).ring k with stallAt := none } = { e.ring k with stallAt := none }) ∧
      (c.d.opcode ≠ opCombine → c.d.opcode ≠ opCombineBwd → (e.completeOne id st).wlog = e.wlog)) ∧
  (∀ (e : Eng) (id st : Nat) (c : Cmd), e.cmd? id = some c → c.done = true → e.completeOne id st = e) ∧
  (∀ (e : Eng) (id st : Nat) (c : Cmd), e.cmd? id = some c → c.slotHeld = false → e.cplFree c.ring = 0 → (e.completeOne id st).wq = e.wq)

/-- SCORE starts its tiles; each TILE_SELECTED writes its tokens' records at OUT + token × RSIZE, the last one
completes it (R155, R115, R140, R100, R97, R152, R110, Table 6-2, log entry 51). A started SCORE whose weight image
can be used is running with its slot's rotation key noted, and completes OK at once where it has no token. For a
running SCORE of a polder that issues, TILE_SELECTED of a tile not yet done writes for every token of the tile its
record, at OUT plus the token times the record size of the kind, computed from the row, the mask and the image. With
more tiles to come the command goes on with that tile done; after the last it is done, DEGRADED where some row of it
was NUMERIC, else OK. A SCORE whose slot fails its checks completes with that status and no record; with both halves
of a unit it needs absent, its polder is torn down. -/
def Obligations.ScoreWritesOneRecordPerToken : Prop :=
  (∀ (s : State) (r idx : Nat) (c : Cmd), s.runs r idx opScore c →
    (∀ e st, (s.run c).imageCheck s.hbm c = .fail st e → exec (.score r idx) s = .next (s.leaves ((e.complete c.id st).settle s.hbm))) ∧
    (∀ e, (s.run c).imageCheck s.hbm c = .fault e →
      exec (.score r idx) s = .next (s.leaves ((e.tearDown c.polder 0x0630 c.d.tag (some c.id)).settle s.hbm))) ∧
    (∀ e e1, (s.run c).imageCheck s.hbm c = .ok e →
      e1 = e.setLslot c.d.slot (fun l => { l with rot := (e.scoreCtx s.hbm c (e.cfgOf c.d.slot)).rho }) →
      exec (.score r idx) s = .next (s.leaves ((if c.tokens = 0 then e1.complete c.id stOk else e1).settle s.hbm)))) ∧
  (∀ (s : State) (r idx tile : Nat) (c : Cmd) (cfg : SlotCfg) (row : Nat → TokSel), s.on → s.work.runningRoute r idx = none →
    s.work.runningScore r idx = some c → s.eng.cmd? c.id = some c → cfg = s.work.cfgOf c.d.slot → tileTokens cfg c.tokens tile ≠ [] →
    c.tilesDone.contains tile = false →
    row = (fun t => (s.work.scoreCtx s.hbm c cfg).token (fun a n => Mem.read s.hbm a n) c.d.a c.d.c c.badRows t) →
    ∃ e : Eng, exec (.tileSelected r idx tile) s = .next (s.leaves (e.settle s.hbm)) ∧
      (∀ t ∈ tileTokens cfg c.tokens tile, (c.d.b + t * scoreSize cfg c.d.outKind, scoreRecord cfg c.d.outKind (row t)) ∈ e.wlog) ∧
      ∃ x, e.cmd? c.id = some x ∧ x.tilesDone = c.tilesDone ++ [tile] ∧
        (c.tilesDone.length + 1 < ceilDiv c.tokens cfg.tile → x.done = false ∧ x.phase = .running) ∧
        (ceilDiv c.tokens cfg.tile ≤ c.tilesDone.length + 1 → x.done = true ∧ x.res.status =
          (if 0 < c.res.dropped ∨ ∃ t ∈ tileTokens cfg c.tokens tile, bit (row t).rflags 1 = true then stDegraded else stOk)))

/-- ROUTE takes its combine area and starts its source and host roles, waits for buffers, or tells its peers that it
ends (R161, R165, R203, R81, R87, R100, log entry 9). A started ROUTE without a channel in its quota ends
QUOTA_EXCEEDED, one with a count of 0 ends OK, and one whose slot fails its checks ends with that status, each after
its host role has started and END with LAST and CANCELLED has gone to its host set. With a usable image, and no work
of the same slot and parity kept, it takes its area: where it gets it, its source role is scoring, its host role has
started and the slot's rotation key is that of the step; where buffers are wanting it waits for them with its source
role waiting. -/
def Obligations.RouteStartsItsRoles : Prop :=
  ∀ (s : State) (r idx : Nat) (c : Cmd), s.runs r idx opRoute c →
    ((s.run c).noChannels c = true → exec (.route r idx) s =
      .next (s.leaves ((((s.run c).routeAborted c).complete c.id stQuota).settle s.hbm))) ∧
    ((s.run c).noChannels c = false →
      (c.count = some 0 → exec (.route r idx) s = .next (s.leaves ((((s.run c).routeAborted c).complete c.id stOk).settle s.hbm))) ∧
      (c.count ≠ some 0 →
        (∀ e st, (s.run c).imageCheck s.hbm c = .fail st e → exec (.route r idx) s =
          .next (s.leaves (((e.routeAborted c).complete c.id st).settle s.hbm))) ∧
        (∀ e, (s.run c).imageCheck s.hbm c = .ok e → (∀ w ∈ e.works, w.slot ≠ c.d.slot ∨ w.step % 2 ≠ c.d.step % 2 ∨ w.cmd = c.id) →
          (∀ p, e.takeArea c.id c.polder (e.cfgOf c.d.slot) c.tokens c.detm false = .wait p → exec (.route r idx) s =
            .next (s.leaves (((e.putWork (e.newWork c .areaWait {})).areaWait c false p).settle s.hbm))) ∧
          (∀ a e1, e.takeArea c.id c.polder (e.cfgOf c.d.slot) c.tokens c.detm false = .got a e1 → c.tokens ≠ 0 → exec (.route r idx) s =
            .next (s.leaves (((((e1.endWait (.area c.id)).putWork (e1.newWork c .scoring a)).startRole c.d.slot c.d.step c.polder c.tokens c.d.tag
              e1.detm).setLslot c.d.slot (fun l => { l with
                rot := if (e.cfgOf c.d.slot).rotated then rotationKey c.seed c.d.slot c.d.step else 0, lastRound := 1 })).settle s.hbm))))))

/-- TILE_SELECTED bids for one tile in round 1; PLEAT_SORT_DONE orders the placed pairs and writes the route record
(R146, R149, R165, R168, R170, R309). For a running ROUTE of a polder that issues: TILE_SELECTED of a tile not yet
done, with more tiles to come, completes with that tile done, each of its tokens selected, and new bids only of round
1 and of its tokens. PLEAT_SORT_DONE, once fitting has closed, completes with the source sending, its order table
listing exactly the placed pairs, ordered by host and then landing tag, and the route record, FINAL, among the writes
at ROUTES. -/
def Obligations.TilesAreSelectedThenPleatsSorted : Prop :=
  ∀ (s : State) (r idx : Nat) (c : Cmd) (w : RouteWork), s.on → s.work.runningRoute r idx = some c → s.eng.workById c.id = some w →
    (∀ tile x, w.phase = .scoring → w.tilesDone.contains tile = false → tileTokens (s.work.cfgOf w.slot) w.tokens tile ≠ [] →
      w.sel.length + (tileTokens (s.work.cfgOf w.slot) w.tokens tile).length < w.tokens →
      x = s.work.scoreCtx s.hbm c (s.work.cfgOf w.slot) →
      ∃ (e : Eng) (w' : RouteWork), exec (.tileSelected r idx tile) s = .next (s.leaves (e.settle s.hbm)) ∧ e.workById c.id = some w' ∧
        w'.tilesDone = w.tilesDone ++ [tile] ∧ w'.phase = .scoring ∧
        (∀ t ∈ tileTokens (s.work.cfgOf w.slot) w.tokens tile,
          KV.find w'.sel t = some (x.token (fun a n => Mem.read s.hbm a n) c.d.a c.d.c c.badRows t)) ∧
        (∃ new, w'.bids = w.bids ++ new ∧ ∀ b ∈ new, b.round = 1 ∧ b.token ∈ tileTokens (s.work.cfgOf w.slot) w.tokens tile)) ∧
    (w.phase = .sorting →
      ∃ (e : Eng) (w' : RouteWork), exec (.pleatSortDone r idx) s = .next (s.leaves (e.settle s.hbm)) ∧ e.workById c.id = some w' ∧ w'.phase = .sending ∧
        (∀ i, i ∈ w'.order ↔ ∃ p, w.pairs[i]? = some p ∧ p.placed = true) ∧
        w'.order.Pairwise (fun i j => ∀ p q, w.pairs[i]? = some p → w.pairs[j]? = some q →
          p.dest * 2 ^ 26 + p.ltag ≤ q.dest * 2 ^ 26 + q.ltag) ∧
        (w.routes, routeRecord (s.work.cfgOf w.slot) w' s.work.topo.jobChips true false) ∈ e.wlog)

/-- A pass runs its band jobs segment by segment and swaps weights; the check column finds failing columns and spares
take over (R93, R113, R114, Table 4-9, log entry 54, R90, R92, R94, R95). A pass of a present table with good weights
completes with its work done and one pass more, and one check counted where checking is on with a check column. A
first mismatch on the pass's column, the number of passes modulo 64, counts also in the table's mismatch counter,
raises CHECK_MISMATCH, and the pass is to be run again: neither its sums nor its number advance. One that recurs makes
the column fail, or the check column where that is what disagrees: with three spares standing in the table has failed,
and is absent once its turn in the fault queue has come, else the check spare stands in for the column, the next idle
spare checks, and the map is posted. A corrected weight symbol is counted with its event; an unreadable one too, and
the segment's weights are fetched again instead of the pass. A pass of an absent table changes nothing. A pass over a
table, or a band of one, adds its stationary weights' segment to the running sums of every column for every row, in
the order of R92. After the last segment of a job its sums leave the output taps; otherwise they stay for the next
segment. The stationary weights after it are the shadow's, where the shadow holds the next segment of the job, or
after the last segment another job's; the shadow is then loaded with what follows. With no stationary weights nothing
happens. A row's running sums are what they were with the products of this segment added. -/
def Obligations.PassesRunSegmentsAndFindFailingColumns : Prop :=
  (
    (∀ (s : State) (t line : Nat) (band : Option Nat), s.on →
      (∀ mis own wc, s.eng.ctPresent t = false → exec (.tablePass t band mis own wc line) s = .next { s with eng := s.work }) ∧
      (s.eng.ctPresent t = true →
        (∀ mis own, exec (.tablePass t band mis own .uncorrectable line) s =
          .next (s.leaves (((s.work.bump Reg.wcErr 16 16 1).raise 0x0221 line none 0).passWork s.hbm t band true true))) ∧
        (∀ mis own wc e, wc ≠ .uncorrectable →
          e = (if wc = .corrected then (s.work.bump Reg.wcErr 0 16 1).raise 0x0220 line none 0 else s.work) →
          ((bit (s.eng.reg Reg.ctCtrl) 1 = false ∨ s.eng.checker t = none) → exec (.tablePass t band mis own wc line) s =
            .next (s.leaves (((e.setTable t (fun k => { k with missed := none })).passWork s.hbm t band false false).setTable t
              (fun k => { k with passes := k.passes + 1 })))) ∧
          (∀ i, bit (s.eng.reg Reg.ctCtrl) 1 = true → s.eng.checker t = some i →
            (mis = false → exec (.tablePass t band mis own wc line) s =
              .next (s.leaves ((((e.bump64 Reg.ctChecks 1).setTable t (fun k => { k with missed := none })).passWork s.hbm t band false false).setTable
                t (fun k => { k with passes := k.passes + 1 })))) ∧
            (∀ x col, mis = true → col = (s.eng.table t).passes % 64 →
              x = ((e.bump64 Reg.ctChecks 1).bump Reg.ctMismatch (16 * t) 16 1).raise 0x0620
                (arg6 (some (ctBay t)) (some (ctBay t / 6)) none none) none 0 →
              ((s.eng.table t).missed ≠ some col → exec (.tablePass t band mis own wc line) s =
                .next (s.leaves ((x.setTable t (fun k => { k with missed := some col })).passWork s.hbm t band true false))) ∧
              (∀ y, (s.eng.table t).missed = some col →
                y = (((x.setTable t (fun k => { k with missed := none })).columnFails t (if own then 64 else col) i).passWork s.hbm t band false
                  false).setTable t (fun k => { k with passes := k.passes + 1 }) →
                exec (.tablePass t band mis own wc line) s = .next (s.leaves (if y.ctPresent t then y else y.clearTable t))))))) ∧
      (s.eng.ctPresent t = true → t < s.eng.tables.length → ∀ own, ∃ u, exec (.tablePass t band false own .ok line) s = .next u ∧
        (u.eng.table t).passes = (s.eng.table t).passes + 1 ∧ (u.eng.table t).missed = none ∧ u.hbm = s.hbm ∧
        (u.eng.tables.length = s.eng.tables.length ∧ ∀ k, k ≠ t → u.eng.table k = s.eng.table k))) ∧
    (∀ (e : Eng) (t col i : Nat), col < 64 →
      (3 ≤ e.sparesUsed t → t ∈ e.flt.ctAbsent → e.columnFails t col i = e) ∧
      (3 ≤ e.sparesUsed t → t ∉ e.flt.ctAbsent → e.columnFails t col i = e.addFault (.table t) ∧
        (e.flt.recovery = none → e.flt.queue = [] → e.pwr.trans = false → e.columnFails t col i =
          ((({ e with flt := { e.flt with ctAbsent := e.flt.ctAbsent ++ [t] } } : Eng).clearTable t).unitAbsent (ctBay t) 0))) ∧
      (e.sparesUsed t < 3 → ∀ j, e.idleSpare t = some j → e.columnFails t col i =
        ((((e.setSpare t i (128 + col)).setSpare t j 64).post (.column t (((e.setSpare t i (128 + col)).setSpare t j 64).reg (colmap t)))).raise
          0x0621 (arg6 (some (ctBay t)) (some (ctBay t / 6)) none none) none 0).updateReplace))) ∧
  (
    (∀ (m : Mem) (e : Eng) (band : Bool) (jobs : List PassJob) (k : Cells),
      (k.stat = none → e.advanceCells m band jobs k = (k, e)) ∧
      (∀ w c last sums, k.stat = some w → e.cmd? w.job.cmd = some c →
        last = (e.scoreCtx m c (e.cfgOf c.d.slot)).lastSeg band w.job w.seg → sums = e.runSegment m band w k.sums →
        ∃ k' e', e.advanceCells m band jobs k = (k', e') ∧
          k'.stat = k.shadow.filter (fun x => last == (x.job != w.job)) ∧
          (last = false → k'.sums = sums ∧ e'.outs = e.outs) ∧
          (last = true → e'.outs = e.outs ++ [(w.job, sums.map (fun p => (p.1, p.2.map (·.1))))]) ∧
          e' = { e with outs := e'.outs, savedSums := e.savedSums.filter (fun p => p.job != w.job) })) ∧
    (∀ (m : Mem) (e : Eng) (band : Bool) (w : CellWeights) (sums : KV (List (F32 × F32))) (c : Cmd) (x : ScoreCtx) (t : Nat),
      e.cmd? w.job.cmd = some c → x = e.scoreCtx m c (e.cfgOf c.d.slot) →
      t ∈ (if w.job.stage = 2 then [w.job.token] else e.openRows m c w.job.tile) →
      (t, (w.cols.zip (KV.get (List.replicate 64 (fZero, fZero)) sums t)).map (fun p => accRun x.cfg.askuc x.img.wfmt (w.seg * segLen x.img.wfmt band)
        p.2 p.1 ((e.stageOperand m x c w.job.stage t).slice (w.seg * segLen x.img.wfmt band) (segLen x.img.wfmt band)))) ∈ e.runSegment m band w sums))

/-- A host grants by capacity in the order of its bids; a reservation is retried every 10 us and fails after its limit
(R166, R160, Table 7-3, R326, R438). A bid for an expert that the host role does not hold, or, before fitting closes,
for one that the panel map no longer puts on this chip, is refused ABSENT. A bid already granted is granted the same
place again. Another bid, with places left, no close of fitting and no failed reservation, is granted the next landing
place, which is added with its source, token and rank and counted as spilled in where it is an alternate. With no
place left, or fitting closed, it is refused FULL; after a failed reservation NOMEM. A refusal adds no place. For a
host role whose reservation is unmet: RESERVE_RETRY completes with the reservation tried again, at the next multiple
of 10 µs from the role's start, and with everything that waited for it going on where it is met. RESERVE_TIMEOUT
completes at 1 ms from the start, with HOST_RESERVE_FAILED raised once; in normal mode every bid is then refused
NOMEM, under DETM the role waits on. Where no reservation is unmet, RESERVE_RETRY tries the reservation of a backward
role that is wanted, and neither does anything else but what the data path had still to do. -/
def Obligations.HostsGrantAndReserve : Prop :=
  (
    ∀ (h : HostRole) (hosted : List Nat) (src : Nat) (b : BidRec),
      ((∀ je ∈ h.experts, je.2.expert ≠ b.expert) → h.answer hosted src b = (resAbsent, false, h)) ∧
      (∀ j x, h.experts.find? (fun je => je.2.expert == b.expert) = some (j, x) →
        (∀ i, x.places.findIdx? (fun p => p.src == src && p.token == b.token && p.rank == b.rank && !p.void) = some i →
          h.answer hosted src b = (2 ^ 31 + tagOf j i, false, h)) ∧
        (x.places.findIdx? (fun p => p.src == src && p.token == b.token && p.rank == b.rank && !p.void) = none →
          (h.closed = false → b.expert ∉ hosted → h.answer hosted src b = (resAbsent, false, h)) ∧
          (b.expert ∈ hosted → h.nomem = false → h.closed = false → x.places.length < h.cap →
            h.answer hosted src b = (2 ^ 31 + tagOf j x.places.length, false, { h with experts := KV.put h.experts j { x with
              places := x.places ++ [{ src := src, token := b.token, rank := b.rank, alt := bit b.bflags 0 }]
              spilledIn := x.spilledIn + (bit b.bflags 0).toNat } })) ∧
          ((h.closed = true ∨ b.expert ∈ hosted) →
            (h.nomem = false → (h.closed = true ∨ h.cap ≤ x.places.length) → (h.answer hosted src b).1 = resFull) ∧
            (h.nomem = true → (h.answer hosted src b).1 = resNomem)) ∧
          ((h.nomem = true ∨ h.closed = true ∨ h.cap ≤ x.places.length ∨ b.expert ∉ hosted) →
            (h.answer hosted src b).2.2.closed = h.closed ∧ (h.answer hosted src b).2.2.cap = h.cap ∧
            ∀ k y, KV.find (h.answer hosted src b).2.2.experts k = some y → ∃ z, (k, z) ∈ h.experts ∧ y.places = z.places)))) ∧
  (
    ∀ (s : State) (slot step : Nat), s.on →
      (s.work.unmet slot step = none →
        exec (.reserveRetry slot step) s = .next (s.leaves
          ((if (s.eng.role slot step).any (fun h => h.bwdWanted) && s.eng.flt.recovery != some .compute then s.work.startBwd slot step
            else s.work).settle s.hbm)) ∧
        exec (.reserveTimeout slot step) s = .next (s.leaves (s.work.settle s.hbm))) ∧
      (∀ h, s.work.unmet slot step = some h →
        (∀ e, e = s.work.reach (h.startNs + 10000 * max 1 (ceilDiv (s.eng.time.ns - h.startNs) 10000)) →
          ((e.tryReserve slot step).1 = true →
            exec (.reserveRetry slot step) s = .next (s.leaves (((e.tryReserve slot step).2.reserveSettled slot step).settle s.hbm))) ∧
          ((e.tryReserve slot step).1 = false →
            exec (.reserveRetry slot step) s = .next (s.leaves ((e.tryReserve slot step).2.settle s.hbm)))) ∧
        (∀ e, e = (if h.raised.contains 0x0453 then s.work.reach (h.startNs + 1000000)
            else ((s.work.reach (h.startNs + 1000000)).setRole slot step (fun h => { h with raised := 0x0453 :: h.raised })).raise 0x0453
              (arg4 slot 0 1) (some h.polder) h.tag) →
          (h.detm = true → exec (.reserveTimeout slot step) s = .next (s.leaves (e.settle s.hbm))) ∧
          (h.detm = false → exec (.reserveTimeout slot step) s =
            .next (s.leaves ((((e.endWait (.host slot step false)).setRole slot step (fun h => { h with nomem := true, reserving := false
              })).reserveSettled slot step).settle s.hbm))))))

/-- The segments that a column runs, one after the other, add up to the logit in the order of R92, bit for bit (R90,
R92, R93, R94, R95, Table 4-1). Let the weights of an output and a token's operand have the same number of elements, a
multiple of 64, with one block scale for every 32 elements in the MX formats. Cut into segments of the length that a
table, or a band of one, has in that format, and run one after the other into a column's running sum, from zero, they
leave exactly the logit that R92 defines, for every weight format and both kinds of slot, whatever the values, NaN and
infinity included. -/
def Obligations.SegmentsAddUpToTheLogit : Prop :=
  ∀ (askuc band : Bool) (wfmt k : Nat) (w x : Operand), wfmt ≤ 4 → 64 ∣ k * segLen wfmt band →
    w.vals.length = k * segLen wfmt band → x.vals.length = k * segLen wfmt band →
    (isMxW wfmt = true → w.scales.length = k * segLen wfmt band / 32 ∧ x.scales.length = k * segLen wfmt band / 32) →
    ((List.range k).foldl (fun (a : F32 × F32) i => accRun askuc wfmt (i * segLen wfmt band) a
      (w.slice (i * segLen wfmt band) (segLen wfmt band)) (x.slice (i * segLen wfmt band) (segLen wfmt band))) (fZero, fZero)).1 =
      logit askuc wfmt w x

/-- An arriving chunk, frame or message is discarded, counted, kept for an exit, or put into its queue (R161, R163,
R190, R232, R235, R379, R356, Table 10-2, Table 12-2, log entry 6). Every command that brings a packet completes:
BID_FRAME, GRANT_FRAME, CLAIM_FRAME, DISPATCH_CHUNK, VOID_LIST, RETURN_CHUNK, BACKWARD_DISPATCH_CHUNK,
BACKWARD_RETURN_CHUNK, COPY_CHUNK, BCAST_DATA, REDUCE_DATA, FACTOR_DATA, FORM_UP, FORM_DOWN, COUNT_UP, COUNT_DOWN,
SW_REFUSED, COLLECTIVE_ABORT, BARRIER_UP, BARRIER_DOWN, TACK_NOTICE. A packet on a port that is not up, for another
chip, or during a compute reset is not taken. A chunk on a port is counted as its first words come; one whose header
check fails is then only counted and its event raised. Out of ACTIVE a sound packet is kept and wakes the engine.
Otherwise more of a packet that has begun goes on with it, and a new one goes to the queue of its class in its
template's range, counted as early where its host role has not started, and to its polder's account where it came by a
port; with no such queue it is told by an event. Whatever can go on then does. -/
def Obligations.ArrivingPacketsAreQueued : Prop :=
  ∀ (s : State) (c : Instr) (p : RxPkt) (rd : SpoolRead) (bad : Bool), s.on → c.packet = some (p, rd, bad) →
    ∀ (e0 : Eng) (go : Eng → State), e0 = (match p with
        | .chunk (some q) _ _ => if s.work.begun p then s.work else s.work.bump64 (Reg.slcRxChunks q) 1
        | _ => s.work) →
      go = (fun x => s.leaves (((x.settleOnce s.hbm bad).settleOnce s.hbm false).markBlocked)) →
    ((s.work.arrives p.port = false ∨ p.dst ≠ s.eng.chip ∨ s.eng.flt.recovery = some .compute) → exec c s = .next (go s.work)) ∧
    (s.work.arrives p.port = true → p.dst = s.eng.chip → s.eng.flt.recovery ≠ some .compute →
      (p.headerOk = false → exec c s = .next (go ((match p.port with
          | some q => e0.bump (Reg.slcCrcFail q) 16 16 1
          | none => e0).raise 0x0105 (arg1 p.port p.sender.1) none 0))) ∧
      (p.headerOk = true → (s.eng.pwr.cur ≠ 0 ∨ s.eng.pwr.trans = true) → exec c s = .next (go
        ({ e0 with pwr := { s.eng.pwr with rx := s.eng.pwr.rx ++ [(p, rd)] } } : Eng).wake)) ∧
      (p.headerOk = true → s.eng.pwr.cur = 0 → s.eng.pwr.trans = false →
        (s.work.begun p = true → exec c s = .next (go (e0.goesOn p rd))) ∧
        (s.work.begun p = false → s.work.pktQueue p = none → exec c s = .next (go (e0.raise 0x0481 (arg4 0 8191 1) none 0))) ∧
        (∀ q, s.work.begun p = false → s.work.pktQueue p = some q →
          ∀ e1, e1 = (if s.work.early p then e0.bump32 Reg.fitEarlyBids 1 else e0) →
          exec c s = .next (go ((match s.work.pktPolder p with
            | some x => if p.port.isSome then e1.accLink x p.sender.1 (64 * p.words) else e1
            | none => e1).offer q (s.work.rxVc p) p rd)))))

/-- A consumer reads its queue from the head: words that are good, the check, the answer, the bytes; bad ones are
refused with a NAK (R190, R198, R200, R229, R236, R238, R239, R244, R246, R247, R286, log entry 30). A queue that is
swept gives nothing. Otherwise the first packet that came and is still to be read is the one taken: an aborted one is
discarded without an answer, one whose consumer is not ready stays, and so does all behind it. A whole one with
readable words leaves the queue, or is kept in its cells where a sum may need it again, and is worked on; an
uncorrectable payload word counts, raises its event and refuses the packet with a NAK; uncorrectable metadata breaks
the list. An unfinished one is read as far as it has come where cut-through is honoured. A chunk other than a
collective's whose PCRC fails is counted, told and refused with a NAK, and nothing of it is written then; a sound
chunk is acknowledged. A COPY chunk's bytes are written at OFFSET. An ACK joins those pending for its chip, and 64 of
them leave together; a NAK leaves at once. -/
def Obligations.ConsumersCheckThenAnswer : Prop :=
  (∀ (e : Eng) (m : Mem) (q : Nat) (bad : Bool), (e.squeue q).sweeping = true → e.takeHead m q bad = none) ∧
  (∀ (e : Eng) (m : Mem) (q i vc : Nat) (p : SPkt) (x : RxPkt) (bad : Bool), (e.squeue q).sweeping = false →
    (e.squeue q).pkts.findIdx? (fun p => !p.kept && !p.leaves) = some i → (e.squeue q).pkts[i]? = some p → p.item = .rx vc x →
    (p.aborted = true → e.takeHead m q bad = some (e.consume q i)) ∧
    (p.aborted = false → e.pktReady x = false → e.takeHead m q bad = none) ∧
    (p.aborted = false → e.pktReady x = true →
      (p.ended = true → e.takeHead m q bad = some (e.takeWhole m q i p x bad)) ∧
      (p.ended = false → e.cutsThrough q p.written x = true → p.read < p.written →
        e.takeHead m q bad = some ((e.landSome x p.written).readTo q i p.written)))) ∧
  (∀ (e : Eng) (m : Mem) (q i : Nat) (p : SPkt) (x : RxPkt) (bad : Bool),
    (e.firstBad q i p = none → p.rd = .good → x.sound = true →
      e.takeWhole m q i p x bad = (if e.keepsCells x then e.keepPkt q i else e.consume q i).pktDo m x (e.cutsThrough q p.words x) bad) ∧
    (∀ w cell, e.cutsThrough q p.words x = false →
      cell = ((e.squeue q).pktCells i).getD (w / 8 - (p.granted - p.held)) (((e.squeue q).pktCells i).headD 0) →
      (e.firstBad q i p = some (w, false) →
        e.takeWhole m q i p x bad = ((((e.bump Reg.splEcc 16 16 1).raise 0x0281 cell none 0).consume q i).nakTo x)) ∧
      (e.firstBad q i p = some (w, true) →
        e.takeWhole m q i p x bad = ((e.bump Reg.splEcc 16 16 1).raise 0x0281 cell none 0).breakQueue q (some cell)))) ∧
  (∀ (e : Eng) (m : Mem) (port : Option Nat) (h : ChunkHdr) (b : List Byte) (cut bad : Bool), h.kind ≠ 6 →
    ((h.pcrc ≠ (crc32c b).toNat ∨ h.plen ≠ b.length) →
      (e.pktDo m (.chunk port h b) cut bad).wlog = e.wlog ∧
      e.pktDo m (.chunk port h b) cut bad = ((match port with
        | some q => e.bump (Reg.slcCrcFail q) 0 16 1
        | none => e).raise 0x0105 (arg1 port h.src) none 0).nakTo (.chunk port h b)) ∧
    (h.pcrc = (crc32c b).toNat → h.plen = b.length →
      e.pktDo m (.chunk port h b) cut bad = (e.takeChunk m port h b bad).ackTo h.src h.chunkId) ∧
    (h.kind = 5 → (e.takeChunk m port h b bad).wlog = (h.offset, b) :: e.wlog)) ∧
  (∀ (e : Eng) (chip id : Nat),
    ((KV.get ⟨[], e.time.ns⟩ e.acks chip).ids.length < 63 → (e.ackTo chip id).tx = e.tx ∧
      ((KV.get ⟨[], e.time.ns⟩ (e.ackTo chip id).acks chip).ids = (KV.get ⟨[], e.time.ns⟩ e.acks chip).ids ++ [id])) ∧
    (63 ≤ (KV.get ⟨[], e.time.ns⟩ e.acks chip).ids.length → ∃ port, (e.ackTo chip id).tx =
      e.tx ++ [⟨port, 6, .ack chip ((KV.get ⟨[], e.time.ns⟩ e.acks chip).ids ++ [id])⟩])) ∧
  (∀ (e : Eng) (p : RxPkt), (e.nakTo p).tx = e.tx ++ [⟨p.port, 6, .nak p.sender.1 p.sender.2⟩])

/-- ACK frees entries of the current generation; NAK and ACK_TIMEOUT replay or suspect; exclusions and pending ACKs
end in time (R197, R198, R199, Table 8-6, Table 8-8). ACK completes: an ID of the current generation frees its entry,
any other does nothing. A NAK of such an ID counts the failed attempt and, below three ports and eight attempts, sends
the entry again; beyond, PEER_SUSPECT is raised and its destination, unless it is this chip, suspected. ACK_TIMEOUT of
a sent entry does the same at the end of its time, its event raised first. The third failure on a trained port
excludes that port for its destination for 10 ms. PATH_EXCLUSION_EXPIRY ends an exclusion, ACK_COALESCE_TIMEOUT sends
what is pending 1 µs after the oldest. -/
def Obligations.TransferTableFollowsAnswers : Prop :=
  (∀ (s : State) (chip id : Nat), s.on →
    (s.work.ttNamed chip id = none →
      exec (.ack chip [id]) s = .next (s.leaves (s.work.settle s.hbm)) ∧ exec (.nak chip id) s = .next { s with eng := s.work }) ∧
    (∀ i t, s.work.ttNamed chip id = some (i, t) →
      exec (.ack chip [id]) s = .next (s.leaves ((({ s.work with tt := KV.del s.eng.tt i } : Eng).gauge gsChunkRtt (t.port.getD 16)
        (some t.hdr.polder) (s.eng.time.ns - t.firstNs)).settle s.hbm)) ∧
      (∀ t' e', (t', e') = s.work.failAttempt i t →
        (t'.fails.length < 3 → (t'.fails.map (·.2)).sum < 8 →
          exec (.nak chip id) s = .next (s.leaves ((e'.resend s.hbm i t' false).settle s.hbm))) ∧
        ((3 ≤ t'.fails.length ∨ 8 ≤ (t'.fails.map (·.2)).sum) → t'.hdr.dst ≠ s.eng.chip →
          exec (.nak chip id) s = .next (s.leaves (((e'.raise 0x0109 (arg1 t'.port t'.hdr.dst) none 0).suspectChip t'.hdr.dst).settle s.hbm)))))) ∧
  (∀ (s : State) (i : Nat) (t : TtEntry), s.on → KV.find s.eng.tt i = some t →
    (t.unsent = true → exec (.ackTimeout i) s = .next (s.leaves (s.work.settle s.hbm))) ∧
    (t.unsent = false → ∀ e t' e', e = (s.work.reach (t.sentNs + field (s.eng.reg Reg.slcAckTo) 0 10 * 1000)).raise 0x0107
        (arg1 t.port t.hdr.dst) none 0 → (t', e') = e.failAttempt i t →
      (t'.fails.length < 3 → (t'.fails.map (·.2)).sum < 8 →
        exec (.ackTimeout i) s = .next (s.leaves ((e'.resend s.hbm i t' true).settle s.hbm))) ∧
      ((3 ≤ t'.fails.length ∨ 8 ≤ (t'.fails.map (·.2)).sum) → t'.hdr.dst ≠ s.eng.chip →
        exec (.ackTimeout i) s = .next (s.leaves (((e'.raise 0x0109 (arg1 t'.port t'.hdr.dst) none 0).suspectChip t'.hdr.dst).settle s.hbm))))) ∧
  (∀ (e : Eng) (i p : Nat) (t : TtEntry), t.port = some p → p < 16 → (e.port p).link = 2 → KV.get 0 t.fails p = 2 →
    (e.excl.any (fun x => x.chip == t.hdr.dst && x.port == p)) = false →
    (e.failAttempt i t).2.excl = e.excl ++ [⟨t.hdr.dst, p, e.time.ns + 10000000⟩] ∧ KV.get 0 (e.failAttempt i t).1.fails p = 3) ∧
  (∀ (s : State) (chip port : Nat) (x : Exclusion), s.on → s.eng.excl.find? (fun x => x.chip == chip && x.port == port) = some x →
    exec (.pathExclusionExpiry chip port) s = .next (s.leaves (((({ s.work.reach x.endNs with
      excl := s.eng.excl.filter (fun y => !(y.chip == chip && y.port == port)) } : Eng).resendUnsent s.hbm).settle s.hbm)))) ∧
  (∀ (s : State) (chip : Nat) (a : PendingAcks), s.on → KV.find s.eng.acks chip = some a →
    exec (.ackCoalesceTimeout chip) s = .next (s.leaves (({ s.work.reach (a.since + 1000) with
      acks := KV.del s.eng.acks chip } : Eng).transmit (s.work.towards chip) 6 64 (.ack chip a.ids))))

/-- BURST_GRANT moves one burst, never over a page of HBM, of the channel that the arbiter grants (R177, R178, R197).
The arbiter grants only a channel with work ready; of every sixteen grants the last goes to a channel that has waited
longest, the others to one of the highest priority. BURST_GRANT completes: with no channel ready nothing is granted;
otherwise the granted channel's first piece of work moves on by one burst, which ends at the next 4 KiB boundary of an
address it reads or writes, at the end of the row it is in, or with the work, the grant is counted, and a local COPY's
bytes, as HBM holds them, are written at its destination. -/
def Obligations.BurstsMoveOnePagePart : Prop :=
  (∀ (e : Eng) (ch : Nat), e.arbitrate = some ch → ∃ c, (ch, c) ∈ e.chans ∧ e.channelReady c = true ∧
    (e.arbCount % 16 = 15 → ∀ kd ∈ e.chans, e.channelReady kd.2 = true → c.since ≤ kd.2.since) ∧
    (e.arbCount % 16 ≠ 15 → ∀ kd ∈ e.chans, e.channelReady kd.2 = true → kd.2.prio ≤ c.prio)) ∧
  (∀ (e : Eng) (h : ChunkHdr) (x : ChunkSrc) (left p : Nat), p = h.offset + (h.plen - left) →
    (e.readFrom h x p = none → e.burstLen (.chunk h x left) = min left (4096 - p % 4096)) ∧
    (∀ a rest wire hbm, e.readFrom h x p = some (a, rest, wire, hbm) → e.burstLen (.chunk h x left) ≤ left ∧
      e.burstLen (.chunk h x left) ≤ max 1 rest ∧ e.burstLen (.chunk h x left) ≤ max 1 ((4096 - a % 4096) * wire / max 1 hbm))) ∧
  (∀ (s : State), s.on →
    (s.work.arbitrate = none → exec .burstGrant s = .next (s.leaves (s.work.settle s.hbm))) ∧
    (∀ ch c, s.work.arbitrate = some ch → KV.find s.eng.chans ch = some c →
      (∀ src dst left rest n, c.jobs = .copy src dst left :: rest → n = min left (min (4096 - src % 4096) (4096 - dst % 4096)) →
        ∃ e : Eng, exec .burstGrant s = .next (s.leaves (e.settle s.hbm)) ∧ e.wlog = [(dst, Mem.read s.hbm src n)] ∧
          e.arbLast = ch ∧ e.arbCount = (s.eng.arbCount + 1) % 16 ∧
          KV.find e.chans ch = some { c with
            since := s.eng.time.ns, jobs := if left ≤ n then rest else .copy (src + n) (dst + n) (left - n) :: rest }) ∧
      (∀ h x left rest n, c.jobs = .chunk h x left :: rest → n = s.work.burstLen (.chunk h x left) →
        ∃ e : Eng, exec .burstGrant s = .next (s.leaves (e.settle s.hbm)) ∧ e.wlog = [] ∧
          e.arbLast = ch ∧ e.arbCount = (s.eng.arbCount + 1) % 16 ∧
          KV.find e.chans ch = some { c with since := s.eng.time.ns, jobs := if left ≤ n then rest else .chunk h x (left - n) :: rest })))

/-- COMBINE and COMBINE_BWD check their step's record and area; a combine whose tokens are ready writes every token's
sum (R79, R211, R212, R214, R218, R100, Table 3-15). A started COMBINE or COMBINE_BWD of a step that was not routed,
whose route record is not the step's, whose area is not live or whose area another one is combining (log entry 56)
completes BAD_DESCRIPTOR. Otherwise COMBINE is the combine of its step's area, and COMBINE_BWD runs where its weight
image is usable and of the GEN it was routed with, and completes with the failing status elsewhere, BAD_DESCRIPTOR for
another GEN; with both halves of a unit it needs absent, its polder is torn down. A running combine with no token
combined yet and all tokens ready writes for each token the packed sum of its rows at Y plus the token times the row
size; its area is released, its step done, and the command has ended. -/
def Obligations.CombineWritesTokenSums : Prop :=
  (∀ (s : State) (r idx : Nat) (c : Cmd), s.runs r idx opCombine c →
    (s.eng.workOf c.polder c.d.slot c.d.step = none → exec (.combine r idx) s = .next (s.leaves (((s.run c).complete c.id stBad).settle s.hbm))) ∧
    (∀ w, s.eng.workOf c.polder c.d.slot c.d.step = some w →
      ((s.work.recordMatches s.hbm c.d.b c = false ∨ w.area.live = false ∨ ∃ x, w.combineCmd.bind s.eng.cmd? = some x ∧ x.done = false) →
        exec (.combine r idx) s = .next (s.leaves (((s.run c).complete c.id stBad).settle s.hbm))) ∧
      (s.work.recordMatches s.hbm c.d.b c = true → w.area.live = true → (∀ x, w.combineCmd.bind s.eng.cmd? = some x → x.done = true) →
        exec (.combine r idx) s = .next (s.leaves (((((s.run c).setWork w.cmd (fun w => { w with combineCmd := some c.id })).setCmd c.id (fun x =>
          { x with detm := w.detm })).accHbm c.polder 64).settle s.hbm))))) ∧
  (∀ (s : State) (r idx : Nat) (c : Cmd), s.runs r idx opCombineBwd c →
    (s.eng.workOf c.polder c.d.slot c.d.step = none → exec (.combineBwd r idx) s = .next (s.leaves (((s.run c).complete c.id stBad).settle s.hbm))) ∧
    (∀ w, s.eng.workOf c.polder c.d.slot c.d.step = some w →
      ((s.work.recordMatches s.hbm c.d.b c = false ∨ w.bwdArea.live = false ∨ w.superseded = true ∨
          ∃ x, w.bwdCombineCmd.bind s.eng.cmd? = some x ∧ x.done = false) →
        exec (.combineBwd r idx) s = .next (s.leaves (((s.run c).complete c.id stBad).settle s.hbm))) ∧
      (s.work.recordMatches s.hbm c.d.b c = true → w.bwdArea.live = true → w.superseded = false →
          (∀ x, w.bwdCombineCmd.bind s.eng.cmd? = some x → x.done = true) →
        (∀ e, (s.run c).imageCheck s.hbm c = .fault e →
          exec (.combineBwd r idx) s = .next (s.leaves ((e.tearDown c.polder 0x0630 c.d.tag (some c.id)).settle s.hbm))) ∧
        (∀ e st, (s.run c).imageCheck s.hbm c = .fail st e → exec (.combineBwd r idx) s = .next (s.leaves ((e.complete c.id st).settle s.hbm))) ∧
        (∀ e, (s.run c).imageCheck s.hbm c = .ok e →
          ((e.lslot c.d.slot).wgen ≠ w.wgen → exec (.combineBwd r idx) s = .next (s.leaves ((e.complete c.id stBad).settle s.hbm))) ∧
          ((e.lslot c.d.slot).wgen = w.wgen → exec (.combineBwd r idx) s = .next (s.leaves (((((e.setWork w.cmd (fun w =>
            { w with bwdCombineCmd := some c.id })).setCmd c.id (fun x => { x with detm := w.bwdDetm })).accHbm c.polder 64)).settle s.hbm))))))) ∧
  (∀ (e : Eng) (cmd : Nat) (w : RouteWork) (c : Cmd), e.workById cmd = some w → w.combineCmd.bind e.cmd? = some c → c.done = false →
    c.phase = .running → c.d.opcode = opCombine → c.err = none → e.workOf c.polder c.d.slot c.d.step = some w → w.combined = [] → (∀ t, t < w.tokens → w.tokenReady false t = true) →
    (∀ t, t < w.tokens → (c.d.a + t * (e.cfgOf w.slot).rowBytes, packRow (e.cfgOf w.slot).rowFmt (e.tokenSum w false t)) ∈ (e.settleCombine cmd).wlog) ∧
    (∃ w', (e.settleCombine cmd).workById cmd = some w' ∧ w'.done = true ∧ w'.area.live = false) ∧
    (∃ x, (e.settleCombine cmd).cmd? c.id = some x ∧ x.done = true ∧ x.res.dropped = w.droppedPairs false ∧ x.res.placed = w.tokens))

/-- RETURN, RETURN_BWD and ROUTE_BWD check what they name and give their channel one stream per chip (R205, R206,
R207, R215, R217, R79, R180, R203). A RETURN or RETURN_BWD whose group table fails its checks completes with that
status, after the address of a misaligned entry is recorded with its event. One that passes completes its start with
PLACED the places that are not VOID, and gives its channel chunks of its kind, each to a source of such a place; the
host role stays, but for the seed of a RETURN_BWD. A ROUTE_BWD of a step that was not routed or is superseded, with
another route record or with a live backward area, completes BAD_DESCRIPTOR; otherwise it takes its backward area and
its wire stage and sends the backward pleats, or waits for buffers. -/
def Obligations.ReturnsAndBackwardPleatsGoOut : Prop :=
  (∀ (s : State) (r idx : Nat) (c : Cmd) (bwd : Bool) (i : Instr), s.runs r idx (if bwd then opReturnBwd else opReturn) c →
    i = (if bwd then .returnBwd r idx else .ret r idx) →
    (∀ st a, (s.run c).returnCheck s.hbm c bwd = (some st, a) → st ≠ stAlign →
      exec i s = .next (s.leaves (((s.run c).complete c.id st).settle s.hbm))) ∧
    (∀ a, (s.run c).returnCheck s.hbm c bwd = (some stAlign, a) →
      exec i s = .next (s.leaves ((((((s.run c).setReg Reg.shuErrAddr a).bump Reg.shuErr 16 16 1).raise 0x0260 (a % memTop / 64 * 64)
        (some c.polder) c.d.tag).complete c.id stAlign).settle s.hbm))) ∧
    (∀ a h ch k, (s.run c).returnCheck s.hbm c bwd = (none, a) → s.eng.role c.d.slot c.d.step = some h →
      KV.find s.eng.chans ch = some k → k.cmd = c.id →
      ∃ (e : Eng) (k' : Channel) (new : List Job), exec i s = .next (s.leaves (e.settle s.hbm)) ∧ e.wlog = [] ∧
        e.roles.map (fun x => { x with bwdSeed := 0 }) = s.eng.roles.map (fun x => { x with bwdSeed := 0 }) ∧
        (∃ x, e.cmd? c.id = some x ∧ x.res.placed = (h.placesOf.filter (fun p => !p.2.2.2.void)).length ∧ x.done = false) ∧
        KV.find e.chans ch = some k' ∧ k'.jobs = k.jobs ++ new ∧
        (∀ j ∈ new, ∃ hd x n, j = .chunk hd x n ∧ hd.kind = (if bwd then 4 else 2) ∧ hd.src = s.eng.chip ∧ hd.step = c.d.step ∧
          ∃ p ∈ h.placesOf, p.2.2.2.void = false ∧ p.2.2.2.src = hd.dst))) ∧
  (∀ (s : State) (r idx : Nat) (c : Cmd), s.runs r idx opRouteBwd c →
    (s.eng.workOf c.polder c.d.slot c.d.step = none → exec (.routeBwd r idx) s = .next (s.leaves (((s.run c).complete c.id stBad).settle s.hbm))) ∧
    (∀ w, s.eng.workOf c.polder c.d.slot c.d.step = some w →
      ((s.work.recordMatches s.hbm c.d.b c = false ∨ w.bwdArea.live = true ∨ w.superseded = true) →
        exec (.routeBwd r idx) s = .next (s.leaves (((s.run c).complete c.id stBad).settle s.hbm))) ∧
      (s.work.recordMatches s.hbm c.d.b c = true → w.bwdArea.live = false → w.superseded = false →
        (∀ p, (s.run c).takeArea c.id c.polder (s.work.cfgOf c.d.slot) w.tokens c.detm true = .wait p →
          exec (.routeBwd r idx) s = .next (s.leaves (((s.run c).areaWait c true p).settle s.hbm))) ∧
        (∀ a e1 w', (s.run c).takeArea c.id c.polder (s.work.cfgOf c.d.slot) w.tokens c.detm true = .got a e1 →
          w' = { w with bwdArea := a, bwdCmd := some c.id, bwdEpoch := c.epoch, bwdDetm := c.detm, bwdSeed := c.seed, bwdDy := c.d.a, bwdDropped := 0,
                        bwdCombineCmd := none, doneBwd := false, raised := w.raised.filter (· < 2 ^ 16) } →
          exec (.routeBwd r idx) s = .next (s.leaves (((((e1.endWait (.area c.id)).setWork w.cmd (fun _ => w')).takeStage s.hbm w.cmd
            true).pleatJobs w' c.id c.epoch c.detm true).settle s.hbm))))))

/-- COPY gives its channel the bytes to move; STEP_END ends its step once, with its summary and deadline (R177, R315,
R325, R81, Table 3-11, log entries 9 and 27). A started COPY of no bytes has no work. A local one gives its channel
one piece of LEN bytes from SRC to DST; one to another chip gives it chunks of KIND 5 that carry the bytes of SRC to
their place in DST, and one to a lost chip none. A started STEP_END of a step that has ended completes BAD_DESCRIPTOR;
while this host's fitting of the step is open it waits; otherwise it writes its summary where it names an address, the
step has ended with its deadline, none for the reserved class, without end in a DETM step, else CONSENT_TO
microseconds from now, and it completes OK. -/
def Obligations.CopiesAndStepEnds : Prop :=
  (∀ (s : State) (r idx : Nat) (c : Cmd), s.runs r idx opCopy c →
    (c.copyLen = 0 → exec (.copy r idx) s = .next (s.leaves ((s.run c).settle s.hbm))) ∧
    (c.copyLen ≠ 0 → c.d.remote = false → exec (.copy r idx) s = .next (s.leaves ((((s.run c).setCmd c.id (fun x =>
      { x with res := { x.res with bytes := x.res.bytes + c.copyLen } })).addJobs c.id [.copy c.d.a c.d.b c.copyLen]).settle s.hbm))) ∧
    (c.copyLen ≠ 0 → c.d.remote = true → s.eng.isLost c.d.dstChip = true → exec (.copy r idx) s = .next (s.leaves ((s.run c).settle s.hbm))) ∧
    (c.copyLen ≠ 0 → c.d.remote = true → s.eng.isLost c.d.dstChip = false → 0 < s.work.chunkMax c.d.dstChip →
      ∃ jobs, exec (.copy r idx) s = .next (s.leaves ((((s.run c).noteSent c.id c.copyLen c.d.dstChip).addJobs c.id jobs).settle s.hbm)) ∧
        jobs ≠ [] ∧ ∀ j ∈ jobs, ∃ h off n, j = .chunk h (.copy (c.d.a + off)) n ∧ h.kind = 5 ∧ h.src = s.eng.chip ∧ h.dst = c.d.dstChip ∧
          h.offset = (c.d.b + off) % 2 ^ 64 ∧ h.plen = n)) ∧
  (∀ (s : State) (r idx : Nat) (c : Cmd) (i : StepInfo) (e : Eng), s.runs r idx opStepEnd c →
    i = (s.eng.stepInfo c.d.slot c.d.step).getD { step := c.d.step, inst := c.id, polder := c.polder, detm := c.detm } →
    e = (if (s.eng.stepInfo c.d.slot c.d.step).isSome then s.run c else (s.run c).setLslot c.d.slot (fun l => { l with steps := l.steps ++ [i] })) →
    (i.ended = true → exec (.stepEnd r idx) s = .next (s.leaves ((e.complete c.id stBad).settle s.hbm))) ∧
    (i.ended = false → ∀ h, s.eng.role c.d.slot c.d.step = some h → h.closed = false → h.experts ≠ [] →
      exec (.stepEnd r idx) s = .next (s.leaves ((e.setCmd c.id (fun c => { c with phase := .started })).settle s.hbm))) ∧
    (i.ended = false → (∀ h, s.eng.role c.d.slot c.d.step = some h → h.closed = true ∨ h.experts = []) →
      ∀ dl, dl = (if s.eng.reservedClass c.polder then 0 else if c.detm then noDeadline else s.eng.time.ns + s.eng.topo.consentTo * 1000) →
        exec (.stepEnd r idx) s = .next (s.leaves (((((if c.d.a = 0 then e
          else e.storeFor c.polder c.d.a (e.stepSummary c.d.slot i dl)).setStep c.d.slot c.d.step (fun i =>
            { i with ended := true, deadline := dl, editAddr := c.d.b })).complete c.id stOk).settle s.hbm)))))

/-- TACK joins the pending list in order of T; TACK_LATCH copies the counters into a bank at T and completes its
commands (R390, R391, R392, R333, Table 17-2). A started TACK whose T is pending joins that entry; with fewer than
eight pending it is inserted in ascending T, marked late where T has passed; with eight it completes BAD_DESCRIPTOR.
TACK_LATCH completes: with nothing pending nothing latches; otherwise hall time reaches the first T, one bank holds T,
its lateness, the count of latches and the counters as they stood, the other bank stays as it was, the entry is gone,
and its commands complete with HALL_TIME T, or the time of the latch where T had passed when the tack came. -/
def Obligations.TacksLatchEveryCounter : Prop :=
  (∀ (s : State) (r idx : Nat) (c : Cmd), s.runs r idx opTack c → c.d.scope ≠ 1 →
    (s.eng.tacks.any (fun k => k.t == c.d.a) = true → exec (.tack r idx) s = .next (s.leaves (({ s.run c with
      tacks := s.eng.tacks.map (fun k => if k.t = c.d.a then { k with scope := k.scope || false, cmds := k.cmds ++ [c.id] } else k) } : Eng).settle s.hbm))) ∧
    (s.eng.tacks.any (fun k => k.t == c.d.a) = false → 8 ≤ s.eng.tacks.length →
      exec (.tack r idx) s = .next (s.leaves (((s.run c).complete c.id stBad).settle s.hbm))) ∧
    (s.eng.tacks.any (fun k => k.t == c.d.a) = false → s.eng.tacks.length < 8 → s.eng.tacks.Pairwise (fun a b => a.t ≤ b.t) →
      ∃ l, exec (.tack r idx) s = .next (s.leaves (({ s.run c with tacks := l } : Eng).settle s.hbm)) ∧ l.Pairwise (fun a b => a.t ≤ b.t) ∧
        l.length = s.eng.tacks.length + 1 ∧ { t := c.d.a, scope := false, cmds := [c.id], due := decide (c.d.a < s.eng.time.ns) } ∈ l ∧
        ∀ k ∈ s.eng.tacks, k ∈ l)) ∧
  (∀ (s : State), s.on →
    (s.eng.tacks = [] → exec .tackLatch s = .next (s.leaves (s.work.settle s.hbm))) ∧
    (∀ k rest, s.eng.tacks = k :: rest → k.cmds = [] → k.due = false → ∃ (e : Eng) (b : Shadow), exec .tackLatch s = .next (s.leaves (e.settle s.hbm)) ∧
      e = { s.work.reach k.t with tacks := rest, latches := satAdd 16 s.eng.latches 1, lastBank := e.lastBank, bank0 := e.bank0, bank1 := e.bank1 } ∧
      b.t = k.t ∧ b.late = false ∧ b.latches = satAdd 16 s.eng.latches 1 ∧ b.regs = s.eng.regs ∧ b.gauges = s.eng.gauges ∧
      b.experts = s.eng.experts ∧ b.srcs = s.eng.srcs ∧ b.slots = s.eng.pld.slots ∧
      ((e.lastBank = 0 ∧ e.bank0 = some b ∧ e.bank1 = s.eng.bank1) ∨ (e.lastBank = 1 ∧ e.bank1 = some b ∧ e.bank0 = s.eng.bank0))) ∧
    (∀ k rest, s.eng.tacks = k :: rest → ∀ id c, k.cmds = [id] → s.eng.cmd? id = some c →
      ∃ e : Eng, exec .tackLatch s = .next (s.leaves (((e.setCmd id (fun c => { c with res := { c.res with
          time := some (if k.due then max s.eng.time.ns k.t else k.t) } })).complete id
        stOk).settle s.hbm)) ∧ e.cmds = s.eng.cmds ∧ e.tacks = rest ∧ k.t ≤ e.time.ns))

/-- ADMIT, RETIRE and RELEASE end with the first failing check; RELEASE messages queue and are drained one by one
(R263, R264, R265, R268, R270, R420, Table 3-11). A started ADMIT of a polder that is not of the reserved class, or of
a SEQ in use, ends BAD_DESCRIPTOR; with 4,096 sequences, or a RESV above the quota, QUOTA_EXCEEDED; otherwise it
waits, with its sequence, for its slot's boundary. RETIRE ends BAD_DESCRIPTOR outside the reserved class and else
waits for the boundary. RELEASE of numbers out of their pool, or of several with GEN not 0, ends BAD_DESCRIPTOR and
releases nothing; otherwise its handles are taken in ascending number, it ends with the first failing status, raises
BOBBIN_DOUBLE_FREE once where one was found, and then tears its polder down where DF_FAULT is set. Of one handle:
another polder's buffer answers PRIV_VIOLATION and changes nothing; a free one is a double free, counted; a held one
has its COUNT lowered, and at 0 it is freed with its next GEN. A RELEASE message joins a FIFO of 256 and is drained
from its front. -/
def Obligations.ReservesAndReleasesAnswerTheirChecks : Prop :=
  (∀ (s : State) (r idx : Nat) (c : Cmd) (mine : List BSeq), s.runs r idx opAdmit c → mine = s.eng.bob.seqs.filter (fun x => x.polder == c.polder) →
    (∀ st, (st = stBad ∧ (s.eng.reservedClass c.polder = false ∨ ∃ x ∈ mine, x.seq = c.d.seq)) ∨
        (st = stQuota ∧ s.eng.reservedClass c.polder = true ∧ (∀ x ∈ mine, x.seq ≠ c.d.seq) ∧
          (4096 ≤ mine.length ∨ ∃ p, p < 8 ∧ s.eng.bobQ c.polder p < c.d.resv.getD p 0)) →
      exec (.admitSeq r idx) s = .next (s.leaves (((s.run c).complete c.id st).settle s.hbm))) ∧
    (s.eng.reservedClass c.polder = true → (∀ x ∈ mine, x.seq ≠ c.d.seq) → mine.length < 4096 →
      (∀ p, p < 8 → c.d.resv.getD p 0 ≤ s.eng.bobQ c.polder p) →
      exec (.admitSeq r idx) s = .next (s.leaves (({ s.run c with bob := { s.eng.bob with seqs := s.eng.bob.seqs ++
        [{ polder := c.polder, seq := c.d.seq, slot := c.d.slot, resv := c.d.resv, cmd := c.id }] } } : Eng).settle s.hbm)))) ∧
  (∀ (s : State) (r idx : Nat) (c : Cmd), s.runs r idx opRetire c →
    exec (.retire r idx) s = .next (s.leaves ((if s.eng.reservedClass c.polder then s.run c else (s.run c).complete c.id stBad).settle s.hbm))) ∧
  (∀ (s : State) (r idx : Nat) (c : Cmd), s.runs r idx opRelease c →
    ((s.eng.releaseRange c.d.handle c.d.relCount = none ∨ (1 < c.d.relCount ∧ field c.d.handle 26 6 ≠ 0)) →
      exec (.release r idx) s = .next (s.leaves (((s.run c).complete c.id stBad).settle s.hbm))) ∧
    (∀ l x e, s.eng.releaseRange c.d.handle c.d.relCount = some l → (c.d.relCount = 1 ∨ field c.d.handle 26 6 = 0) →
      x = Eng.releaseAll (some c.polder) (decide (c.d.relCount = 1)) (field c.d.handle 26 6) l (0, 0, s.run c) →
      e = (if x.2.1 = 0 then x.2.2 else x.2.2.raise 0x0490 (arg4 0 (field c.d.handle 22 3) x.2.1) (some c.polder) c.d.tag).complete c.id x.1 →
      exec (.release r idx) s = .next (s.leaves ((if x.2.1 = 0 ∨ bit (e.reg Reg.bobCtrl) 0 = false then e
        else e.tearDown c.polder 0x0490 c.d.tag none).settle s.hbm)))) ∧
  (∀ (e : Eng) (p gen n : Nat) (single : Bool) (b : BEntry), b = e.bentry n → b.retired = false →
    (b.owner ≠ p → (b.st = .held ∨ b.st = .reserved) → e.releaseOne (some p) single gen n = (stPriv, false, e)) ∧
    (b.st = .free → (e.releaseOne (some p) single gen n).1 = stDoubleFree ∧ (e.releaseOne (some p) single gen n).2.1 = true ∧
      (e.releaseOne (some p) single gen n).2.2.bob = e.bob) ∧
    (b.owner = p → b.st = .held → 0 < b.count → (single = false ∨ gen = 0 ∨ gen = b.gen) →
      ∃ e', e.releaseOne (some p) single gen n = (0, false, e') ∧ (e'.bentry n).count = b.count - 1 ∧
        (1 < b.count → (e'.bentry n).st = .held ∧ (e'.bentry n).gen = b.gen) ∧
        (b.count = 1 → ((e'.bentry n).st = .free ∨ (e'.bentry n).st = .reserved) ∧
          (e'.bentry n).gen = if b.gen ≥ 63 then 1 else b.gen + 1))) ∧
  (∀ (s : State) (h k : Nat), s.on →
    (256 ≤ s.eng.bob.fifo.length → exec (.mxRel h k) s = .next { s with eng := s.work }) ∧
    (s.eng.bob.fifo.length < 256 → exec (.mxRel h k) s = .next (s.leaves
      (if 192 ≤ s.eng.bob.fifo.length + 1 ∧ s.eng.active = false then
        ({ s.work with bob := { s.eng.bob with fifo := s.eng.bob.fifo ++ [(h, k)] } } : Eng).wake
      else { s.work with bob := { s.eng.bob with fifo := s.eng.bob.fifo ++ [(h, k)] } })))) ∧
  (∀ (s : State) (h k : Nat) (rest : List (Nat × Nat)), s.alert → s.eng.bob.fifo = (h, k) :: rest →
    exec .releaseMessage s = .next (s.leaves ((({ s.work with bob := { s.eng.bob with fifo := rest } } : Eng).releaseMsg h
      (if k = 0 then 4096 else k)).settle s.hbm)))

/-- The pool registers and INIT act only while no buffer is in use; a valid configuration starts the table over (R255,
R258, R259, R267, Table 11-4, Table 11-8). With a buffer HELD, RESERVED or ORPHAN, a write of TWK_BOB_TABLE or of a
pool register, and INIT, change nothing but WRITE_REFUSED and the event. Otherwise a pool register takes the value,
and where the configuration is then valid the table starts over: INIT_BUSY is set, every buffer that is not retired is
free with GEN 1, sequences wait on and those admitted hold no reserve, no buffer of a pool has been handed out, and
the whole table is written at TWK_BOB_TABLE, which keeps to 4,096 bytes (log entry 58). INIT with CONFIG_VALID starts
it over, without it is refused. INIT_DONE clears INIT_BUSY. POOL_EMPTY_TIMEOUT raises BOBBIN_POOL_EMPTY for a
command's request that has waited 100 µs, once. -/
def Obligations.PoolsAreSetUpOnceNothingIsHeld : Prop :=
  (∀ (s : State) (off v : Nat) (wide : Bool), s.alert → isPoolReg off = true → v < 2 ^ 64 → (wide = isWide off) → (wide = false → v < 2 ^ 32) →
    (s.eng.heldAny = true → exec (.poolConfigWrite off wide v) s = .next (s.leaves (s.work.bobRefuse.settle s.hbm))) ∧
    (s.eng.heldAny = false → ∃ (e : Eng), exec (.poolConfigWrite off wide v) s = .next (s.leaves (e.settle s.hbm)) ∧
      e.reg off = (if off = Reg.bobTable then v / 4096 * 4096 else if wide then v else v % 2 ^ 23) ∧ (∀ o, o ≠ off → e.reg o = s.work.reg o) ∧
      (e.poolsValid = false → e.bob = s.eng.bob) ∧
      (e.poolsValid = true → e.bob.busy = true ∧ e.configValid = true ∧ e.bob.pools = List.replicate 8 {} ∧
        e.bob.seqs = s.eng.bob.seqs.map (fun x => if x.admitted then { x with resv := List.replicate 8 0 } else x) ∧
        e.wlog = [(e.reg Reg.bobTable, (List.range e.bufTotal).flatMap (fun i => leBytes 8 (e.entryWord i)))] ∧
        ∀ n b, KV.find e.bob.entries n = some b → b = { retired := true }))) ∧
  (∀ (s : State), s.alert →
    ((s.eng.heldAny = true ∨ s.eng.configValid = false) → ∃ e, e = s.work.setReg Reg.bobCtrl (s.eng.reg Reg.bobCtrl % 2) ∧
      exec .bobInit s = .next (s.leaves (e.bobRefuse.settle s.hbm))) ∧
    (s.eng.heldAny = false → s.eng.configValid = true → ∃ e, e = s.work.setReg Reg.bobCtrl (s.eng.reg Reg.bobCtrl % 2) ∧
      exec .bobInit s = .next (s.leaves ((e.bobInitTable false).settle s.hbm)))) ∧
  (∀ (s : State), s.on →
    (s.eng.bob.busy = true → exec .initDone s = .next (s.leaves (({ s.work with bob := { s.eng.bob with busy := false } } : Eng).settle s.hbm))) ∧
    (s.eng.bob.busy = false → exec .initDone s = .next { s with eng := s.work })) ∧
  (∀ (s : State) (p : Nat) (w : BWait), s.on → s.eng.bob.waits.find? (fun w => w.pools.contains p && !w.raised) = some w →
    ∃ e, e = ({ s.work.reach (w.since + 100000) with bob := { s.eng.bob with waits := s.eng.bob.waits.map (fun x =>
        if x.who = w.who then { x with raised := true } else x) } } : Eng) ∧
      exec (.poolEmptyTimeout p) s = .next (s.leaves (e.raise 0x0491 (arg4 w.slot p 1) (some w.polder) w.tag)))

/-- A diagnostic evaluates one function; scrubs repair, retire and count; a sweep's end and a long wait are told
(R137, R138, R234, R244, R245, R247, Table 10-9). TWK_HEM_DIAG_CMD with a lane present, a function of 0 to 9 and its
tables at hand puts that function of the two operands on its way, BUSY; while BUSY it sets IGNORED only, and otherwise
REFUSED only. DIAG_DONE writes the result and ends BUSY. TBL_SCRUB counts repaired words; where the comparison is on,
words that differ are rewritten from the kept copy, with HEM_TABLE_MISMATCH, and without one the half has failed, and
is absent once its turn in the fault queue has come. SCRUB of a cell of a present bank counts it as read: a corrected
one is counted and, a second time, marked faulty; an unreadable free one is retired and leaves its list; one in use is
counted and left to its reader. SWEEP_DONE lets a queue resume, with a NAK for every packet that came and was lost,
and BACKPRESSURE_TIMEOUT raises SPOOL_BACKPRESSURE once per wait. -/
def Obligations.TablesAndSpoolLookAfterThemselves : Prop :=
  (∀ (s : State) (v : Nat), s.alert → v < 2 ^ 32 →
    (s.eng.diag.isSome = true → exec (.hemDiagCmd v) s =
      .next (s.leaves (s.work.setReg Reg.hemDiagStatus (setBit (s.eng.reg Reg.hemDiagStatus) 1 true)))) ∧
    (s.eng.diag = none →
      ((s.eng.hemPresent 0 = false ∧ s.eng.hemPresent 1 = false) ∨ 9 < field v 0 4 ∨ (bit v 8 = true ∧ s.eng.pat = none) →
        exec (.hemDiagCmd v) s = .next (s.leaves (s.work.setReg Reg.hemDiagStatus (setBit (s.eng.reg Reg.hemDiagStatus) 2 true)))) ∧
      ((s.eng.hemPresent 0 = true ∨ s.eng.hemPresent 1 = true) → field v 0 4 ≤ 9 → ∀ h,
        (bit v 8 = false ∧ h = HemSet.native ∨ ∃ p, bit v 8 = true ∧ s.eng.pat = some p ∧ h = HemSet.askuc p.hem.tables) →
        exec (.hemDiagCmd v) s = .next (s.leaves { s.work.setReg Reg.hemDiagStatus 0 with
          diag := some (hemFunc h (field v 0 4) (BitVec.ofNat 32 (s.eng.reg Reg.hemDiagA)) (BitVec.ofNat 32 (s.eng.reg Reg.hemDiagB))).toNat })))) ∧
  (∀ (s : State) (x : Nat), s.on → s.eng.diag = some x →
    exec .diagDone s = .next (s.leaves { s.work.setReg Reg.hemDiagOut x with diag := none })) ∧
  (∀ (s : State) (rep differ half : Nat), s.on → s.eng.pat = none → exec (.tblScrub rep differ half) s = .next { s with eng := s.work }) ∧
  (∀ (s : State) (rep differ half : Nat) (e : Eng), s.on → s.eng.pat ≠ none → e = s.work.bump Reg.hemTblErr 0 16 rep →
    ((differ = 0 ∨ bit (s.eng.reg Reg.hemCtrl) 0 = false) → exec (.tblScrub rep differ half) s = .next (s.leaves e)) ∧
    (0 < differ → bit (s.eng.reg Reg.hemCtrl) 0 = true → e.keptCopy = true → exec (.tblScrub rep differ half) s =
      .next (s.leaves ((e.bump Reg.hemTblErr 16 16 differ).raise 0x0331 0 none 0))) ∧
    (0 < differ → bit (s.eng.reg Reg.hemCtrl) 0 = true → e.keptCopy = false → half ∉ s.eng.flt.hemAbsent →
      exec (.tblScrub rep differ half) s = .next (s.leaves (e.addFault (.half 0 half))) ∧
      (s.eng.flt.recovery = none → s.eng.flt.queue = [] → s.eng.pwr.trans = false → exec (.tblScrub rep differ half) s =
        .next (s.leaves (({ e with flt := { e.flt with hemAbsent := e.flt.hemAbsent ++ [half] } } : Eng).unitAbsent (hemBay half) 0x0630))))) ∧
  (∀ (s : State) (cell b : Nat) (again : Bool) (c : BankCfg) (p : Pattern) (tick : Eng → Eng), s.on → cell < 196608 → b = cell % 48 →
    s.eng.bankPresent b = true → s.eng.pwr.cur < 2 → s.eng.pat = some p → KV.find p.banks b = some c → 0 < c.scrubUs →
    cell ∉ s.eng.spool.retired → (∀ k, (s.eng.sbank k).retired < 255) →
    (∀ r ∈ (s.eng.sbank b).freed, s.eng.pinned b ≤ r ∧ r < (s.eng.sbank b).fresh) →
    (∃ k, k < 48 ∧ s.eng.bankPresent k = true ∧
      (s.eng.sbank k).scrubbed.length + (s.eng.spool.retired.filter (fun x => x % 48 == k)).length < 4095) →
    tick = (fun e => { e with spool := { e.spool with banks := updAt e.spool.banks b (fun k =>
      { k with scrubbed := if k.scrubbed.contains (cell / 48) then k.scrubbed else k.scrubbed ++ [cell / 48] }) } }) →
    exec (.scrub cell .ok again) s = .next (s.leaves (tick s.work)) ∧
    exec (.scrub cell .corrected again) s = .next (s.leaves (tick (s.work.spoolCorrected cell again))) ∧
    (again = true → cell ∈ (s.work.spoolCorrected cell again).spool.faulty) ∧
    (s.work.cellUsed cell = true → ∃ e, e = (s.work.bump Reg.splEcc 16 16 1).raise 0x0281 cell none 0 ∧
      exec (.scrub cell .uncorrectable again) s = .next (s.leaves (tick
        { e with spool := { e.spool with bad := if e.spool.bad.contains cell then e.spool.bad else e.spool.bad ++ [cell] } }))) ∧
    (s.work.cellUsed cell = false → ∃ t, exec (.scrub cell .uncorrectable again) s = .next t ∧
      t.eng.spool.retired = s.eng.spool.retired ++ [cell] ∧ cell ∉ t.eng.spool.faulty ∧ (t.eng.sbank b).freed.contains (cell / 48) = false)) ∧
  (∀ (s : State) (q : Nat), s.on →
    ((s.eng.squeue q).sweeping = false → exec (.sweepDone q) s = .next (s.leaves (s.work.settle s.hbm))) ∧
    ((s.eng.squeue q).sweeping = true → ∃ e : Eng, exec (.sweepDone q) s = .next (s.leaves (e.settle s.hbm)) ∧
      (e.squeue q).sweeping = false ∧
      ∀ p ∈ (s.eng.squeue q).lost, ∀ vc x, p.item = .rx vc x → (⟨x.port, 6, .nak x.sender.1 x.sender.2⟩ : Tx) ∈ e.tx)) ∧
  (∀ (s : State) (q : Nat), s.on →
    (∀ h w, s.eng.spool.held.find? (fun h => h.queue == q && h.wait.any (fun w => !w.told)) = some h → h.wait = some w →
      exec (.backpressureTimeout q) s = .next (s.leaves (({ s.work.reach (w.since + 10000) with spool := { s.eng.spool with
        held := updFirst (fun x => x == h) (fun x => { x with wait := some { w with told := true } }) s.eng.spool.held } } : Eng).raise 0x0480
          (arg4 0 q 1) none 0))) ∧
    (s.eng.spool.held.find? (fun h => h.queue == q && h.wait.any (fun w => !w.told)) = none →
      ((∀ w, (s.eng.squeue q).wait = some w → w.told = true) → exec (.backpressureTimeout q) s = .next { s with eng := s.work }) ∧
      (∀ w, (s.eng.squeue q).wait = some w → w.told = false → exec (.backpressureTimeout q) s = .next (s.leaves (((s.work.reach
        (w.since + 10000)).setQueue q (fun x => { x with wait := some { w with told := true } })).raise 0x0480 (arg4 0 q 1) none 0)))))

/-- GROUP_FORM and GROUP_REFORM check their list and run the handshake; a silent member ends it (R275, R276, R277,
R288, R294, Table 12-1). A started GROUP_FORM whose list is not made of chip IDs, not ascending, without this chip,
with a chip of no listed tray, outside the regions marked weights/state, or whose group is not UNFORMED, ends
BAD_DESCRIPTOR; else the group is FORMING with that list, and the handshake goes on. GROUP_REFORM checks owner, epoch,
state and that two members remain; an excluded chip dissolves its group and ends OK at once; else it waits while
operations run, and then the survivors form again under the next epoch, skipping 0. An outcome with all values equal
leaves the group FORMED with SEQ 0, and epoch 1 after a first formation; any difference leaves it UNFORMED.
FORM_TIMEOUT leaves it UNFORMED, with its event, and ends the command CANCELLED. -/
def Obligations.GroupsFormAndReform : Prop :=
  (∀ (s : State) (r idx : Nat) (c : Cmd), s.runs r idx opGroupForm c →
    ((s.run c).chipList s.hbm c.d.a c.d.members = none → exec (.groupForm r idx) s = .next (s.leaves (((s.run c).complete c.id stBad).settle s.hbm))) ∧
    (∀ l, (s.run c).chipList s.hbm c.d.a c.d.members = some l →
      (((s.eng.group c.d.group).st ≠ .unformed ∨ s.eng.marked c.d.a (4 * c.d.members) = false ∨ ascending l = false ∨ s.eng.chip ∉ l ∨
          ∃ x ∈ l, s.eng.topo.hasTray (chipRack x) (chipTray x) = false) →
        exec (.groupForm r idx) s = .next (s.leaves (((s.run c).complete c.id stBad).settle s.hbm))) ∧
      ((s.eng.group c.d.group).st = .unformed → s.eng.marked c.d.a (4 * c.d.members) = true → ascending l = true → s.eng.chip ∈ l →
        (∀ x ∈ l, s.eng.topo.hasTray (chipRack x) (chipTray x) = true) →
        ∃ (f : Form) (e : Eng), f = ⟨c.id, s.eng.time.ns, listCrc l, (s.run c).factorEdges l, [], false⟩ ∧
          e = (s.run c).setGroup c.d.group (fun x =>
            { st := .forming, owner := c.polder, membersAddr := c.d.a, members := l, form := some f, early := x.early }) ∧
          exec (.groupForm r idx) s = .next (s.leaves (((((e.accHbm c.polder (4 * l.length)).formStep c.d.group).replayEarly
            s.hbm).settle s.hbm).settle s.hbm))))) ∧
  (∀ (s : State) (r idx : Nat) (c : Cmd) (g : Group), s.runs r idx opGroupReform c → g = s.eng.group c.d.group →
    (g.st ≠ .unformed → g.owner ≠ c.polder → exec (.groupReform r idx) s = .next (s.leaves (((s.run c).complete c.id stPriv).settle s.hbm))) ∧
    (g.owner = c.polder →
      (g.epoch ≠ c.d.groupEpoch → exec (.groupReform r idx) s = .next (s.leaves (((s.run c).complete c.id stEpochStale).settle s.hbm))) ∧
      (g.epoch = c.d.groupEpoch → g.st ≠ .formed → g.st ≠ .broken →
        exec (.groupReform r idx) s = .next (s.leaves (((s.run c).complete c.id stBad).settle s.hbm))) ∧
      (g.epoch = c.d.groupEpoch → (g.st = .formed ∨ g.st = .broken) → ∀ gone l,
        (s.run c).chipList s.hbm c.d.a c.d.members = some gone → l = g.members.filter (fun x => !gone.contains x) →
        (l.length < 2 → exec (.groupReform r idx) s = .next (s.leaves (((s.run c).complete c.id stBad).settle s.hbm))) ∧
        (2 ≤ l.length →
          (s.eng.chip ∈ gone → exec (.groupReform r idx) s =
            .next (s.leaves ((((s.run c).dissolve c.d.group).complete c.id stOk).settle s.hbm))) ∧
          (s.eng.chip ∉ gone →
            (g.ops ≠ [] → exec (.groupReform r idx) s =
              .next (s.leaves (((s.run c).setCmd c.id (fun x => { x with phase := .started })).settle s.hbm))) ∧
            (g.ops = [] → ∃ (f : Form) (e : Eng), f = ⟨c.id, s.eng.time.ns, listCrc l, (s.run c).factorEdges l, [], false⟩ ∧
              e = ((s.run c).cancelBarriers c.d.group).setGroup c.d.group (fun x =>
                { x with st := .reforming, epoch := if g.epoch = 65535 then 1 else g.epoch + 1, excludeAddr := c.d.a, members := l, form := some f }) ∧
              exec (.groupReform r idx) s = .next (s.leaves (((((e.accHbm c.polder (4 * c.d.members)).formStep c.d.group).replayEarly
                s.hbm).settle s.hbm).settle s.hbm)))))))) ∧
  (∀ (e : Eng) (g : Nat) (f : Form) (factor : Bool), (e.group g).form = some f →
    ((e.group g).st = .forming → ∃ x, x = (e.formOutcome g true factor).group g ∧ x.st = .formed ∧ x.epoch = 1 ∧ x.seq = 0 ∧ x.factorOk = factor) ∧
    ((e.group g).st = .reforming → ∃ x, x = (e.formOutcome g true factor).group g ∧ x.st = .formed ∧ x.seq = 0 ∧
      x.epoch = (e.group g).epoch ∧ x.factorOk = factor) ∧
    ((e.formOutcome g false factor).group g).st = .unformed) ∧
  (∀ (s : State) (g : Nat) (f : Form), s.on → (s.eng.group g).form = some f → ∃ t e, exec (.formTimeout g) s = .next t ∧
    t = s.leaves (Eng.settle s.hbm e) ∧ (e.group g).st = .unformed ∧ (∀ x, e.cmd? f.cmd = some x → x.done = true) ∧
    e.time.ns = max s.eng.time.ns (f.startNs + field (s.eng.reg Reg.colFormTo) 0 16 * 1000000))

/-- BCAST, REDUCE and BARRIER check their group, take its next number and go on; a barrier ends at its release time
(R275, R277, R283, R287, R288, R334, R335, R336). A started BCAST or REDUCE of another polder's group ends
PRIV_VIOLATION; of a group not FORMED or of another epoch, GROUP_EPOCH_STALE; with ROOT out of range BAD_DESCRIPTOR, a
LEN not a multiple of 64 is the misaligned address of R180 (log 57), factor mode without FACTOR_OK
VERSION_UNSUPPORTED. Otherwise it takes the group's SEQ, which advances by 1 modulo 2^32, joins the group's operations
and does what it can. BARRIER checks its group in the same way, for 0xFF that GROUP_EPOCH is 0, and opens the barrier
of its BSEQ. BARRIER_RELEASE of a barrier with its T_rel counts it, closes it and ends the command with HALL_TIME
T_rel, no earlier than T_rel, with FLAGS[5] where the engine is neither locked nor the time root. -/
def Obligations.CollectivesAndBarriersTakeTheirNumbers : Prop :=
  (∀ (s : State) (r idx op : Nat) (c : Cmd) (i : Instr) (g : Group), s.runs r idx op c →
    ((i = .bcast r idx ∧ op = opBcast) ∨ (i = .reduce r idx ∧ op = opReduce)) → g = s.eng.group c.d.group →
    (∀ st, (st = stPriv ∧ g.st ≠ .unformed ∧ g.owner ≠ c.polder) ∨
        (st = stEpochStale ∧ (g.st = .unformed ∨ g.owner = c.polder) ∧ (g.st ≠ .formed ∨ g.epoch ≠ c.d.groupEpoch)) ∨
        (g.owner = c.polder ∧ g.st = .formed ∧ g.epoch = c.d.groupEpoch ∧
          ((st = stBad ∧ g.members.length ≤ c.d.root) ∨
            (st = stVersion ∧ c.d.root < g.members.length ∧ c.count.getD c.d.len % 64 = 0 ∧ op = opReduce ∧ c.d.dtype = 2 ∧
              g.factorOk = false))) →
      exec i s = .next (s.leaves (((s.run c).complete c.id st).settle s.hbm))) ∧
    (g.owner = c.polder → g.st = .formed → g.epoch = c.d.groupEpoch → c.d.root < g.members.length → c.count.getD c.d.len % 64 ≠ 0 →
      exec i s = .next (s.leaves (((s.run c).alignError (c.d.a + c.count.getD c.d.len) c).settle s.hbm))) ∧
    (g.owner = c.polder → g.st = .formed → g.epoch = c.d.groupEpoch → c.d.root < g.members.length → c.count.getD c.d.len % 64 = 0 →
      ∀ (o : CollOp) (e : Eng), o = ({ seq := g.seq, cmd := c.id, reduce := decide (op = opReduce)
                                       dtype := if op = opReduce then c.d.dtype else 0, root := c.d.root, buf := c.d.a, out := c.d.out
                                       len := c.count.getD c.d.len, detm := s.eng.detm, polder := c.polder } : CollOp) →
      (o.dtype = 2 → g.factorOk = true ∧ s.work.factorLenBad s.hbm c.d.a o.len = false) →
      e = (((s.run c).setGroup c.d.group (fun x => { x with seq := (x.seq + 1) % 2 ^ 32 })).setCmd c.id (fun x =>
        { x with detm := s.eng.detm })).setGroup c.d.group (fun x => { x with ops := x.ops ++ [o] }) →
      exec i s = .next (s.leaves ((((e.opStep s.hbm c.d.group g.seq).replayEarly s.hbm).settle s.hbm).settle s.hbm)) ∧
      (e.group c.d.group).seq = (g.seq + 1) % 2 ^ 32)) ∧
  (∀ (s : State) (r idx : Nat) (c : Cmd) (g : Group), s.runs r idx opBarrier c → g = s.eng.group c.d.group →
    (∀ st, (c.d.group = 255 ∧ c.d.groupEpoch ≠ 0 ∧ st = stEpochStale) ∨ (c.d.group ≠ 255 ∧
        ((st = stPriv ∧ g.st ≠ .unformed ∧ g.owner ≠ c.polder) ∨
          (st = stEpochStale ∧ (g.st = .unformed ∨ g.owner = c.polder) ∧ (g.st ≠ .formed ∨ g.epoch ≠ c.d.groupEpoch)))) →
      exec (.barrier r idx) s = .next (s.leaves (((s.run c).complete c.id st).settle s.hbm))) ∧
    (∀ n, c.d.group ≠ 255 → g.owner = c.polder → g.st = .formed → g.epoch = c.d.groupEpoch → c.bseq = some n →
      (∀ b ∈ g.barriers, b.bseq ≠ n) →
      ∃ e, e = (s.run c).setGroup c.d.group (fun x => { x with barriers := x.barriers ++ [{ bseq := n, cmd := c.id, started := true }] }) ∧
        exec (.barrier r idx) s = .next (s.leaves (((e.barrierStep c.d.group n).settle s.hbm).settle s.hbm)))) ∧
  (∀ (s : State) (g n t : Nat) (b : Barrier) (c : Cmd), s.on → (s.eng.group g).barriers.find? (fun b => b.bseq == n) = some b →
    b.trel = some t → s.eng.cmd? b.cmd = some c → c.done = false →
    ∃ e x, exec (.barrierRelease g n) s = .next (s.leaves (Eng.settle s.hbm e)) ∧ e.time.ns = max s.eng.time.ns t ∧
      e.cmd? b.cmd = some x ∧ x.done = true ∧ x.res.status = stOk ∧ x.res.time = some t ∧
      x.res.flags = c.res.flags + (if s.eng.time.locked || s.eng.time.root then 0 else 32) ∧
      ∀ y ∈ (e.group g).barriers, y.bseq ≠ n)

/-- A message of the control island takes its effect once it is read and sound; a bad one is told and refused; an old
one is dropped (R190, R237, R276, R281, R283, R291, R293, R335, Table 12-2). FORM_UP, FORM_DOWN, COUNT_UP, COUNT_DOWN,
SW_REFUSED, ABORT, BARRIER_UP, BARRIER_DOWN and TACK_NOTICE are chunks of KIND 6; how each arrives at its queue, and
that its command completes, is stated with the other packets. Read out of the queue, one whose PCRC or length fails is
counted on its port, told, and answered with a NAK, and nothing else; a sound one takes its effect, what waited for it
goes on, and it is acknowledged. A FORM_UP or COUNT_UP of an older epoch than the group's changes nothing, one of a
newer epoch is kept for the group. The first FORM_UP of a child enters the handshake under way. An ABORT of the
group's epoch leaves it BROKEN with no operation in flight; of another epoch it is only counted. -/
def Obligations.ControlMessagesAreCheckedThenTaken : Prop :=
  (∀ (e : Eng) (m : Mem) (port : Option Nat) (h : ChunkHdr) (b : List Byte) (cut bad : Bool), ChunkHdr.isControl h = true →
    ((h.pcrc ≠ (crc32c b).toNat ∨ h.plen ≠ b.length) →
      e.pktDo m (.chunk port h b) cut bad = ((match port with
        | some q => e.bump (Reg.slcCrcFail q) 0 16 1
        | none => e).raise 0x0105 (arg1 port h.src) none 0).nakTo (.chunk port h b)) ∧
    (h.pcrc = (crc32c b).toNat → h.plen = b.length →
      e.pktDo m (.chunk port h b) cut bad = ((e.takeControl m port h b).replayEarly m).ackTo h.src h.chunkId)) ∧
  (∀ (e : Eng) (m : Mem) (port : Option Nat) (h : ChunkHdr) (b : List Byte) (g : Group), g = e.group h.slot → (h.op = 6 ∨ h.op = 1) →
    (olderEpoch g.epoch h.epoch = true → e.takeControl m port h b = e) ∧
    (olderEpoch g.epoch h.epoch = false → g.epoch ≠ h.epoch →
      ((e.takeControl m port h b).group h.slot).early = g.early ++ [(h, b)])) ∧
  (∀ (e : Eng) (m : Mem) (port : Option Nat) (h : ChunkHdr) (b : List Byte) (g : Group) (f : Form), g = e.group h.slot → h.op = 6 →
    g.epoch = h.epoch → g.form = some f → rdLE b 9 1 = 0 →
    e.takeControl m port h b = (e.setGroup h.slot (fun x => { x with form := some { f with
      ups := KV.put f.ups h.src (rdLE b 0 4, rdLE b 4 4, decide (rdLE b 8 1 ≠ 0)) } })).formStep h.slot) ∧
  (∀ (e : Eng) (m : Mem) (port : Option Nat) (h : ChunkHdr) (b : List Byte), h.op = 8 →
    (h.epoch = (e.group h.slot).epoch → (e.group h.slot).st = .formed → ((e.takeControl m port h b).group h.slot).st = .broken ∧
      ((e.takeControl m port h b).group h.slot).ops = [] ∧ ((e.takeControl m port h b).group h.slot).barriers = []) ∧
    (h.epoch ≠ (e.group h.slot).epoch → e.takeControl m port h b = e.bump Reg.colAborts 16 16 1))

/-- Hall time follows the parent by SYNC; a write of the determinism mode or a seed voids open promises (R332, R333,
Table 0-2, log entry 28, R322, R329, R340, log entry 29). SYNC_TIMER of an engine with a time parent sends it a SYNC
with its time on virtual channel 7; the time root and an engine without a parent send nothing. A SYNC request is
answered with its three timestamps. The reply that was asked for gives the offset ((t2 − t1) − (t4 − t3)) / 2: before
the engine is ready the first one sets the count in one step, later ones leave it as it is; TIME_LOCKED is then set
exactly where the last three offsets are all within 0.25 ns. Any other reply changes nothing. SYNC_TIMEOUT clears
TIME_LOCKED, no earlier than 100 ms after the last reply. TIME_ROOT_DESIGNATED makes this chip the root. A write of
TWK_ENG_MODE that changes DETM stores it, raises DETM_CHANGED, and voids the determinism promise where some slot has a
step between its ROUTE and its STEP_END; one that does not change it changes nothing. A write of TWK_DET_SEED, of the
whole or of a half, replaces the seed of the polder in the selected slot, and voids the promise where one of that
polder's slots has such a step; in an empty slot, or with the seed it has, it changes nothing. -/
def Obligations.HallTimeAndPromises : Prop :=
  (
    (∀ (s : State), s.on →
      (s.work.timeParent = none → exec .syncTimer s = .next { s with eng := s.work }) ∧
      (∀ p, s.work.timeParent = some p → ∃ e, e = ({ s.work with time := { s.eng.time with asked := some (p, s.eng.time.ns * 1000) } } : Eng) ∧
        exec .syncTimer s = .next (s.leaves (e.transmit (s.work.towards p) 7 64 (.sync { peer := p, reply := false, t1 := s.eng.time.ns * 1000 }))))) ∧
    (∀ (s : State) (m : SyncMsg) (a : Nat), s.on → m.reply = false →
      exec (.syncMessage m a) s = .next (s.leaves (s.work.transmit (s.work.towards m.peer) 7 64
        (.sync { peer := m.peer, reply := true, t1 := m.t1, t2 := a - m.corr, t3 := s.eng.time.ns * 1000 })))) ∧
    (∀ (s : State) (m : SyncMsg) (a : Nat), s.on → m.reply = true → s.eng.time.asked ≠ some (m.peer, m.t1) →
      exec (.syncMessage m a) s = .next { s with eng := s.work }) ∧
    (∀ (s : State) (m : SyncMsg) (a : Nat) (d : Int), s.on → m.reply = true → s.eng.time.asked = some (m.peer, m.t1) →
      d = Int.tdiv (((m.t2 : Int) - (m.t1 : Int)) - ((a : Int) - (m.corr : Int) - (m.t3 : Int))) 2 →
      ∃ t, exec (.syncMessage m a) s = .next t ∧ t.eng.time.asked = none ∧ t.eng.time.offsets = (d :: s.eng.time.offsets).take 3 ∧
        t.eng.time.ns = (if s.eng.boot.ready = true ∨ s.eng.time.set = true then s.eng.time.ns else (s.eng.time.ns + d / 1000).toNat) ∧
        (t.eng.time.locked = true ↔ t.eng.time.offsets.length = 3 ∧ ∀ o ∈ t.eng.time.offsets, o.natAbs ≤ 250) ∧
        t.hbm = s.hbm ∧ t.tape = s.tape ∧ t.eng.cmds = s.eng.cmds ∧ t.eng.ports = s.eng.ports) ∧
    (∀ (s : State) (p : Nat), s.on → s.work.timeParent = some p → ∃ t, exec .syncTimeout s = .next t ∧ t.eng.time.locked = false ∧
      t.eng.time.offsets = [] ∧ t.eng.time.asked = none ∧ t.eng.time.ns = max s.eng.time.ns (s.eng.time.lastReply + 100000000) ∧
      t.eng.time.lastReply = t.eng.time.ns ∧ t.hbm = s.hbm ∧ t.eng.cmds = s.eng.cmds ∧ t.eng.ports = s.eng.ports) ∧
    (∀ (s : State), s.on → exec .timeRootDesignated s = .next { s with eng := { s.work with
      time := { s.eng.time with root := true, locked := false, offsets := [], asked := none } } })) ∧
  (
    (∀ (s : State) (v : Nat), s.alert → v < 2 ^ 32 →
      (bit v 0 = s.eng.detm → exec (.engMode v) s = .next { s with eng := s.work }) ∧
      (bit v 0 ≠ s.eng.detm → ∃ e, e = (s.work.setReg Reg.engMode (v % 2)).raise 0x05A0 (arg5 0 0 0) none 0 ∧ e.detm = bit v 0 ∧
        exec (.engMode v) s = .next (s.leaves (if s.eng.stepOpen (fun _ => true) then e.voidPromise else e)))) ∧
    (∀ (s : State) (off v : Nat) (wide : Bool) (p : PldSlot) (seed : W64), s.alert → halfOk off wide v = true → p = s.eng.pslot s.eng.seedSlot →
      seed = BitVec.ofNat 64 (mergeHalf p.seed.toNat off wide v) →
      ((p.st = .empty ∨ seed = p.seed) → exec (.detSeed off wide v) s = .next { s with eng := s.work }) ∧
      (p.st ≠ .empty → seed ≠ p.seed → ∃ e, e = s.work.setPslot s.eng.seedSlot (fun q => { q with seed := seed }) ∧
        exec (.detSeed off wide v) s = .next (s.leaves
          (if s.eng.stepOpen (fun k => (s.eng.polderSlots p.polder).contains k) then e.voidPromise else e)))))

/-- CREATE, DESTROY, PARK, UNPARK, EVICT and RESTORE start, wait for a transition, or are refused with RESULT (R298,
R300, R301, R302, R303, R304, R305, R431, Table 13-5). A slot command in a stable state in which it does not apply
sets RESULT to BAD_DESCRIPTOR, unless a latched command is undone by it. During a transition one that applies in the
state to come is latched, one that asks for that state drops what is latched, any other is refused. PARK of a RUNNING
slot makes it PARKING, UNPARK of a PARKED one UNPARKING, EVICT of a quiescent PARKED one EVICTING; EVICT of another is
refused with POLDER_NOT_QUIESCENT. CREATE and RESTORE of an EMPTY slot are refused where the template is not of the
applied Pattern or the ID is live elsewhere (for RESTORE: not evicted), and latched while the template is in use or in
quarantine; else RESTORE makes the slot RESTORING, and CREATE, with a save address that is a nonzero multiple of 4,096
in a region marked weights/state and no piece staged, makes it CREATING with the staged values, its accounts at 0 and
its layer slots at epoch 1. DESTROY of a slot in use starts its end. A refused CREATE or RESTORE changes nothing but
RESULT. TWK_SCH_DESTROY_ID of an evicted polder that is not being restored writes its final record and forgets it. -/
def Obligations.SlotCommandsAreTakenLatchedOrRefused : Prop :=
  (∀ (s : State) (slot op id : Nat) (i : Instr) (p : PldSlot), s.alert → slot < 16 → id < 256 → p = s.eng.pslot slot →
    ((i = .create slot id ∧ op = pcCreate) ∨ (i = .restore slot id ∧ op = pcRestore) ∨ (id = 0 ∧ ((i = .destroy slot ∧ op = pcDestroy) ∨
      (i = .park slot ∧ op = pcPark) ∨ (i = .unpark slot ∧ op = pcUnpark) ∨ (i = .evict slot ∧ op = pcEvict)))) →
    (p.st.target = p.st → pcApplies op p.st = false →
      (p.pend = none ∨ pcEffect op ≠ p.st → exec i s = .next (s.leaves (s.work.setPslot slot (fun q => { q with result := stBad })))) ∧
      (p.pend ≠ none → pcEffect op = p.st → exec i s = .next (s.leaves (s.work.setPslot slot (fun q => { q with pend := none }))))) ∧
    (p.st.target ≠ p.st →
      (pcApplies op p.st.target = true → exec i s = .next (s.leaves (s.work.setPslot slot (fun q => { q with pend := some (op, id) })))) ∧
      (pcApplies op p.st.target = false →
        exec i s = .next (s.leaves (s.work.setPslot slot (fun q =>
          if pcEffect op = p.st.target then { q with pend := none } else { q with result := stBad })))))) ∧
  (∀ (s : State) (slot id : Nat) (p : PldSlot) (e : Eng), s.alert → slot < 16 → id < 256 → p = s.eng.pslot slot →
    s.eng.pld.slots.length = 16 → e = s.work.setPslot slot (fun q => { q with pend := none }) →
    (p.st = .running → exec (.park slot) s = .next (s.leaves (s.work.setPslot slot (fun q => { q with st := .parking })))) ∧
    (p.st = .parked → exec (.unpark slot) s = .next (s.leaves (s.work.setPslot slot (fun q => { q with st := .unparking }))) ∧
      (s.work.quiet p.polder = true → exec (.evict slot) s = .next (s.leaves (s.work.setPslot slot (fun q => { q with st := .evicting })))) ∧
      (s.work.quiet p.polder = false → exec (.evict slot) s = .next (s.leaves ((s.work.setPslot slot (fun q => { q with result := stBad })).raise 0x0557
        (arg5 0 p.polder slot) (some p.polder) 0)))) ∧
    ((p.st = .running ∨ p.st = .parked ∨ p.st = .faulted) → exec (.destroy slot) s = .next (s.leaves (s.work.destroySlot slot))) ∧
    (p.st = .empty → ∀ op i, ((i = .create slot id ∧ op = pcCreate) ∨ (i = .restore slot id ∧ op = pcRestore)) →
      ((s.work.appliedTemplate id = none ∨ s.work.idLive slot op id = true) →
        exec i s = .next (s.leaves (s.work.setPslot slot (fun q => { q with result := stBad })))) ∧
      (s.work.appliedTemplate id ≠ none → s.work.idLive slot op id = false → s.work.idWaits slot id = true →
        exec i s = .next (s.leaves (s.work.setPslot slot (fun q => { q with pend := some (op, id) })))) ∧
      (∀ t, s.work.appliedTemplate id = some t → s.work.idLive slot op id = false → s.work.idWaits slot id = false →
        (op = pcRestore → ∃ t', exec i s = .next t' ∧ (t'.eng.pslot slot).st = .restoring ∧ (t'.eng.pslot slot).polder = id ∧
          ∀ k, k ≠ slot → t'.eng.pslot k = s.eng.pslot k) ∧
        (op = pcCreate → p.stagePlen = 0 →
          ((p.stageSave % 4096 ≠ 0 ∨ p.stageSave = 0 ∨ s.eng.marked p.stageSave 1 = false) →
            exec i s = .next (s.leaves (e.setPslot slot (fun q => { q with result := stAlign })))) ∧
          (p.stageSave % 4096 = 0 → p.stageSave ≠ 0 → s.eng.marked p.stageSave 1 = true → ∃ t', exec i s = .next t' ∧ (t'.eng.pslot slot).st = .creating ∧
            (t'.eng.pslot slot).polder = id ∧ (t'.eng.pslot slot).save = p.stageSave ∧ (t'.eng.pslot slot).acc = {} ∧
            (t'.eng.pslot slot).consentErr = 0 ∧ (t'.eng.pslot slot).saveNeed = saveNeedOf t ∧
            (∀ k, k < t.slotCount → (t'.eng.lslot (t.slotBase + k)).epoch = 1) ∧
            (∀ k, k ≠ slot → t'.eng.pslot k = s.eng.pslot k) ∧ t'.eng.cmds = s.eng.cmds ∧ t'.eng.rings = s.eng.rings ∧ t'.hbm = s.hbm))))) ∧
  (∀ (s : State) (id : Nat), s.alert → id < 256 →
    ((s.eng.evicted? id = none ∨ s.eng.slotOf id ≠ none) → exec (.schDestroyId id) s = .next { s with eng := s.work }) ∧
    (∀ v, s.eng.evicted? id = some v → s.eng.slotOf id = none → ∃ (e : Eng) (lost : Nat), exec (.schDestroyId id) s = .next (s.leaves (e.retryLatched s.hbm)) ∧
      lost = (v.cmds.filter (fun c => !c.recorded)).length ∧ (v.save, finalRecord v.acc id v.client s.eng.time.ns lost) ∈ e.wlog ∧
      e.pld.evicted = s.eng.pld.evicted.filter (fun v => v.polder != id)))

/-- Each slot transition ends in its state, with its record, its event and what was latched behind it (R54, R301,
R302, R303, R304, R305, R318, log entry 4). CREATE_DONE makes a CREATING slot RUNNING with RESULT 0 and, where no
piece was staged, with the Pattern's entries in its range. DESTROY_DONE writes the final record at the save address,
takes the polder's rings and commands away and leaves the slot EMPTY. PARK_DONE saves the working state (bytes that
the spec does not give, free values) at the save address plus 64 KiB, counts the park and makes the slot PARKED;
UNPARK_DONE makes it RUNNING. EVICT_DONE leaves the slot EMPTY, keeps what the polder had under its ID, counts the
eviction, and puts the template into quarantine for 60 µs, which QUARANTINE_END ends. RESTORE_DONE makes the slot
PARKED with what was kept; reloading cached weights counts as HBM traffic. A latched teardown or command then follows.
Out of its transition each of these changes nothing. -/
def Obligations.SlotTransitionsEndInTheirState : Prop :=
  (∀ (s : State) (slot : Nat) (i : Instr) (st : PldState), s.on → (s.eng.pslot slot).st ≠ st →
    ((i = .createDone slot ∧ st = .creating) ∨ (i = .destroyDone slot ∧ st = .destroying) ∨ (i = .parkDone slot ∧ st = .parking) ∨
      (i = .unparkDone slot ∧ st = .unparking) ∨ (i = .evictDone slot ∧ st = .evicting) ∨ (i = .restoreDone slot ∧ st = .restoring)) →
    exec i s = .next { s with eng := s.work }) ∧
  (∀ (s : State) (slot : Nat) (p : PldSlot) (others : Eng → Prop), s.on → slot < 16 → s.eng.pld.slots.length = 16 → p = s.eng.pslot slot →
    others = (fun e => ∀ k, k ≠ slot → e.pslot k = s.eng.pslot k) →
    (p.st = .creating → ∃ e, exec (.createDone slot) s = .next (s.leaves (Eng.endTransition s.hbm slot e)) ∧ (e.pslot slot).st = .running ∧
      (e.pslot slot).result = 0 ∧ others e ∧ e.cmds = s.eng.cmds ∧ e.wlog = [] ∧
      (∀ base t, s.eng.pat = some base → s.eng.template p.polder = some t → KV.find s.eng.pld.pieces slot = none →
        e.slotCfg = overRange t.slotBase t.slotCount base.slots s.eng.slotCfg ∧
        e.panelMaps = overRange t.slotBase t.slotCount base.panels s.eng.panelMaps ∧
        e.spool.cfg = overRange t.queueBase t.queueCount base.queues s.eng.spool.cfg)) ∧
    (p.st = .destroying → ∃ e, exec (.destroyDone slot) s = .next (s.leaves (Eng.endTransition s.hbm slot e)) ∧ (e.pslot slot).st = .empty ∧
      others e ∧ (∀ c ∈ e.cmds, c.polder ≠ p.polder) ∧ (∀ kg ∈ e.rings, kg.2.owner ≠ p.polder) ∧
      e.wlog = [(p.save, finalRecord p.acc p.polder p.client s.eng.time.ns
        (s.eng.cmds.filter (fun c => c.polder == p.polder && !c.recorded)).length)]) ∧
    (p.st = .parking → ∃ (e : Eng) (b : List Byte), exec (.parkDone slot) s = .next (s.leaves (e.endTransition s.hbm slot)) ∧
      (e.pslot slot).st = .parked ∧ (e.pslot slot).result = 0 ∧ (e.pslot slot).acc.parks = (p.acc.parks + 1) % 2 ^ 32 ∧ others e ∧
      e.cmds = s.eng.cmds ∧ e.rings = s.eng.rings ∧ b.length = 10518528 ∧ e.wlog = [(p.save + 65536, b)]) ∧
    (p.st = .unparking → ∃ e, exec (.unparkDone slot) s = .next (s.leaves (Eng.endTransition s.hbm slot e)) ∧ (e.pslot slot).st = .running ∧
      (e.pslot slot).result = 0 ∧ others e ∧ e.cmds = s.eng.cmds ∧ e.rings = s.eng.rings ∧ e.wlog = []) ∧
    (∀ t, p.st = .evicting → s.eng.template p.polder = some t → ∃ (e : Eng) (v : Evicted),
      exec (.evictDone slot) s = .next (s.leaves (e.endTransition s.hbm slot)) ∧ (e.pslot slot).st = .empty ∧ others e ∧
      e.pld.evicted = s.eng.pld.evicted ++ [v] ∧ v.polder = p.polder ∧ v.save = p.save ∧
      v.acc = { p.acc with evictions := (p.acc.evictions + 1) % 2 ^ 32 } ∧ v.cmds = s.eng.cmds.filter (fun c => c.polder == p.polder) ∧
      (∀ c ∈ e.cmds, c.polder ≠ p.polder) ∧ e.pld.quarantine = s.eng.pld.quarantine ++ [(p.polder % 16, s.eng.time.ns + 60000)]) ∧
    (∀ t v, p.st = .restoring → s.eng.template p.polder = some t → s.eng.evicted? p.polder = some v → ∃ e : Eng,
      exec (.restoreDone slot) s = .next (s.leaves (e.endTransition s.hbm slot)) ∧ (e.pslot slot).st = .parked ∧
      (e.pslot slot).save = v.save ∧ (e.pslot slot).acc = { v.acc with hbm := (e.pslot slot).acc.hbm } ∧
      ((∀ x ∈ v.slots, x.2.cached = false) → (e.pslot slot).acc = v.acc ∧ others e) ∧
      (e.pslot slot).seed = v.seed ∧ (e.pslot slot).wins = v.wins ∧ (∀ k, k ≠ slot → e.pslot k = { s.eng.pslot k with acc := (e.pslot k).acc }) ∧
      e.pld.evicted = s.eng.pld.evicted.filter (fun v => v.polder != p.polder) ∧
      (∀ c ∈ v.cmds, { c with rslot := slot } ∈ e.cmds) ∧ (∀ c ∈ s.eng.cmds, c ∈ e.cmds))) ∧
  (∀ (s : State) (k : Nat), s.on →
    (s.eng.pld.quarantine.all (fun q => q.1 != k) = true → exec (.quarantineEnd k) s = .next { s with eng := s.work }) ∧
    (∀ q, s.eng.pld.quarantine.find? (fun q => q.1 == k) = some q → ∃ e, exec (.quarantineEnd k) s = .next (s.leaves (Eng.retryLatched s.hbm e)) ∧
      e.time.ns = max s.eng.time.ns q.2 ∧ e.pld.quarantine = s.eng.pld.quarantine.filter (fun q => q.1 != k) ∧
      e.pld.slots = s.eng.pld.slots))

/-- STEP_BOUNDARY applies a consented edit, moves the bias, then retires, then admits, and frees the next step (R56,
R88, R153, R154, R268, R269, R270, R317, Table 13-10). At the boundary of a slot's first step that has ended and
awaits no consent: for the consent class a consented edit list is applied whole or rejected whole, and a bound bias
vector of a biased slot moves by the counts that the applied list names, or is skipped and told; then the slot's
RETIREs end, then the polder's waiting ADMITs are tried in fetch order; the step's boundary is marked, and lookups of
the slot forget what CLEAR removed. A RETIRE of a sequence takes it away and ends OK, of no sequence BAD_DESCRIPTOR.
An ADMIT that fits, with no earlier ADMIT of the polder deferred in another slot, is admitted and ends OK; the first
that does not is deferred with its event, and the later ones with it. -/
def Obligations.StepBoundariesApplyWhatWaited : Prop :=
  (∀ (s : State) (slot : Nat) (i : StepInfo) (c : SlotCfg) (adm clear fin : Eng → Eng), s.on →
    (s.eng.lslot slot).steps.find? (fun i => i.ended && !i.boundary && !i.awaiting) = some i → c = s.eng.cfgOf slot →
    adm = (fun e => Eng.doAdmits (sortBy (fun (a b : BSeq) => a.cmd ≤ b.cmd) (e.bob.seqs.filter (fun x =>
      x.slot == slot && x.polder == i.polder && !x.admitted))) false e) →
    clear = (fun e => { e with flt := { e.flt with lostClear := e.flt.lostClear.filter (fun k => k / 2 ^ 17 != slot) } }) →
    fin = (fun e => Eng.settle s.hbm ((clear (adm (e.doRetires slot))).setStep slot i.step (fun x => { x with boundary := true }))) →
    (s.eng.consentClass i.polder = false → exec (.stepBoundary slot) s = .next (s.leaves (fin s.work))) ∧
    (s.eng.consentClass i.polder = true → ∀ (counts : Option Nat) (e : Eng),
      (counts, e) = (if i.consented && i.edit then s.work.applyEdit s.hbm slot i else (none, s.work)) →
      ((c.biased = false ∨ (e.lslot slot).bias = 0) → exec (.stepBoundary slot) s = .next (s.leaves (fin e))) ∧
      (c.biased = true → (e.lslot slot).bias ≠ 0 →
        ((counts = none ∨ counts = some 0) → exec (.stepBoundary slot) s = .next (s.leaves (fin
          ((e.bump32 Reg.selBiasSkipped 1).raise 0x0542 (arg5 0 i.polder ((e.slotOf i.polder).getD 0)) (some i.polder) 0)))) ∧
        (∀ a, counts = some a → a ≠ 0 → exec (.stepBoundary slot) s = .next (s.leaves (fin
          ((e.updateBias s.hbm slot a).raise 0x0541 (arg5 0 i.polder ((e.slotOf i.polder).getD 0)) (some i.polder) 0))))))) ∧
  (∀ (e : Eng) (m : Mem) (slot : Nat) (i : StepInfo), (e.applyEdit m slot i).1 = none →
    (e.applyEdit m slot i).2 = e.raise 0x0709 e.loader.arg (some i.polder) 0) ∧
  (∀ (e : Eng) (x : BSeq),
    (e.admitFits x = true → e.behindDeferred x = false → Eng.doAdmits [x] false e = (e.admitNow x).complete x.cmd stOk) ∧
    (∀ e1, e.admitFits x = false → e.behindDeferred x = false → x.deferred = false → e1 = e.recordDeferred x.cmd → Eng.doAdmits [x] false e =
      (({ e1 with
            bob := { e1.bob with
              seqs := updFirst (fun y => y.polder == x.polder && y.seq == x.seq) (fun y => { y with deferred := true }) e1.bob.seqs } } : Eng).raise
        0x0493 (arg4 x.slot 0 1) (some x.polder) 0)) ∧
    (∀ t, e.admitFits x = false → x.deferred = true → Eng.doAdmits (x :: t) false e = Eng.doAdmits t true e))

/-- Consent is one 64-bit write in time; its lateness, Tide windows and SLOWDOWN follow hall time (R312, R313, R315,
R316, R319, R325, Table 13-12). A 64-bit write of TWK_PLD_CONSENT that names a slot of the polder whose STEP_END of
that step awaits consent, no later than DEADLINE, consents to it, with EDIT as written; any other write to a slot in
use only counts as ignored, with CONSENT_IGNORED. CONSENT_TIMEOUT marks the step late at its DEADLINE, counts and
tells. TIDE_WINDOW_START makes the polder of the active entry the only one that issues; TIDE_WINDOW_END, no earlier
than the window's end, ends that and tells an overrun. SLOWDOWN_UPDATE, at the next whole millisecond, gives each
resident polder 256 times the change of ACC_ACTUAL over that of ACC_SOLO, at most 0xFFFF; where ACC_SOLO has not
changed it leaves it, unless ACC_ACTUAL has, when the value is free (log entry 4). -/
def Obligations.ConsentTideAndSlowdownRunOnTime : Prop :=
  (∀ (s : State) (slot off v : Nat) (wide : Bool) (p : PldSlot) (ls : Nat), s.alert → slot < 16 → p = s.eng.pslot slot → p.st ≠ .empty →
    halfOk off wide v = true → ls = field v 32 8 →
    ((wide = false ∨ (s.eng.lslot ls).steps.find? (fun i => i.awaiting && i.step == field v 0 32 && i.polder == p.polder) = none) →
      exec (.consent slot off wide v) s = .next (s.leaves (s.work.consentIgnored slot))) ∧
    (∀ i, wide = true → (s.eng.lslot ls).steps.find? (fun i => i.awaiting && i.step == field v 0 32 && i.polder == p.polder) = some i →
      ((i.deadline < s.eng.time.ns ∨ ls ∉ s.eng.polderSlots p.polder) →
        exec (.consent slot off wide v) s = .next (s.leaves (s.work.consentIgnored slot))) ∧
      (s.eng.time.ns ≤ i.deadline → ls ∈ s.eng.polderSlots p.polder →
        exec (.consent slot off wide v) s = .next (s.leaves (s.work.setStep ls i.step (fun i => { i with consented := true, edit := bit v 40 })))))) ∧
  (∀ (s : State) (slot k : Nat) (i : StepInfo), s.on →
    (s.eng.lslot slot).steps.find? (fun i => i.awaiting && i.deadline != noDeadline) = some i → s.eng.slotOf i.polder = some k →
    exec (.consentTimeout slot) s = .next (s.leaves ((((s.work.reach i.deadline).setStep slot i.step (fun i => { i with timedOut := true })).setPslot k
      (fun p => { p with consentErr := setField p.consentErr 0 16 (satAdd 16 (field p.consentErr 0 16) 1) })).raise 0x0558
        (arg5 0 i.polder k) (some i.polder) 0))) ∧
  (∀ (s : State), s.on →
    ((s.eng.pld.window.isSome = true ∨ s.eng.tidePeriod = 0) → exec .tideWindowStart s = .next { s with eng := s.work }) ∧
    (∀ t, s.eng.pld.window = none → s.eng.tidePeriod ≠ 0 → s.eng.tideActive = some t → exec .tideWindowStart s =
      .next (s.leaves (({ s.work with pld := { s.eng.pld with window := some t.polder } } : Eng).settle s.hbm)))) ∧
  (∀ (s : State) (ns x : Nat), s.on → s.eng.pld.window = some x → ∃ e e1 : Eng,
    e = (match s.eng.tideActive with
      | some t => s.work.reach (s.eng.nextAt (t.start + t.len))
      | none => s.work) ∧
    e1 = { e with pld := { s.eng.pld with window := none } } ∧
    exec (.tideWindowEnd ns) s = .next (s.leaves ((if ns = 0 then e1 else (e1.gauge gsTideOverrun 0 (some x) ns).raise 0x055A
      (arg5 0 x ((s.eng.slotOf x).getD 0)) (some x) 0).settle s.hbm))) ∧
  (∀ (s : State), s.on → ∃ t, exec .slowdownUpdate s = .next t ∧ t.eng.time.ns = max s.eng.time.ns (ceilDiv s.eng.time.ns 1000000 * 1000000) ∧
    (∀ k a da ds, a = (s.eng.pslot k).acc → da = (a.actual + 2 ^ 64 - a.lastActual) % 2 ^ 64 → ds = (a.solo + 2 ^ 64 - a.lastSolo) % 2 ^ 64 →
      (s.eng.pslot k).st ≠ .empty → t.eng.pslot k = { s.eng.pslot k with acc := { a with
          lastActual := a.actual, lastSolo := a.solo, slowdown := if ds ≠ 0 then min (256 * da / ds) 0xFFFF else if da = 0 then a.slowdown else (Config.slowdownOfNoSolo da).toNat } }) ∧
    t = { s with eng := { s.work with
            time := t.eng.time, pld := t.eng.pld } })

/-- BIND, UNBIND, INVALIDATE and bias writes act at once, or wait until the slot's readers have ended (R99, R102,
R152, Table 4-10, Table 6-3). BIND, UNBIND and INVALIDATE of the selected slot are latched, with the image address
written, while a SCORE, ROUTE or COMBINE_BWD of the slot runs, and carried out by WCMD_PEND_EXECUTE once none does;
otherwise at once. BIND puts the status of its header checks into TWK_CT_WSTAT; with OK the slot is bound to the image
and loads its every-token part, with the event, else it is unbound. UNBIND unbinds, INVALIDATE drops the cached copy.
BIND_FILL_DONE ends the load with the part in the weight cache at WC_BASE; a slot that shares the place (log 54) has
its copy no more. A write of TWK_SEL_BIASADDR that completes an address binds it and starts zeroing, 0 unbinds, a
misaligned one is not bound; behind a SCORE or ROUTE it is latched for BIAS_PEND_EXECUTE. BIAS_ZEROING_DONE leaves the
vector all zeros, counted as HBM traffic. -/
def Obligations.WeightsAndBiasBindBehindTheirReaders : Prop :=
  (∀ (s : State) (i : Instr) (kind slot a : Nat), s.alert → slot = field (s.eng.reg Reg.ctSlotSel) 0 8 → a = (s.eng.lslot slot).wimg →
    ((i = .bind ∧ kind = wcBind) ∨ (i = .unbind ∧ kind = wcUnbind) ∨ (i = .invalidate ∧ kind = wcInvalidate)) →
    (s.eng.readersRun slot [opScore, opRoute, opCombineBwd] = true →
      exec i s = .next (s.leaves (s.work.setLslot slot (fun l => { l with wpend := some (kind, a) })))) ∧
    (s.eng.readersRun slot [opScore, opRoute, opCombineBwd] = false → exec i s = .next (s.leaves (s.work.weightNow s.hbm kind slot a)))) ∧
  (∀ (s : State) (slot : Nat), s.on →
    ((s.eng.lslot slot).wpend = none ∨ s.eng.readersRun slot [opScore, opRoute, opCombineBwd] = true →
      exec (.wcmdPendExecute slot) s = .next { s with eng := s.work }) ∧
    (∀ kind a, (s.eng.lslot slot).wpend = some (kind, a) → s.eng.readersRun slot [opScore, opRoute, opCombineBwd] = false →
      exec (.wcmdPendExecute slot) s = .next (s.leaves (s.work.weightNow s.hbm kind slot a)))) ∧
  (∀ (e e1 e2 : Eng) (m : Mem) (slot a : Nat), e1 = e.setLslot slot (fun l => { l with wpend := none }) →
    e2 = e1.setReg Reg.ctWstat (setField (e.reg Reg.ctWstat) 16 8 (e1.bindCheck m slot a)) →
    (e1.bindCheck m slot a = stOk → ∃ (p : Option Nat) (x : Eng), p = x.slotPolder slot ∧
      e.weightNow m wcBind slot a = x.raise 0x0520 (arg5 0 (p.getD 0) ((p.bind x.slotOf).getD 0)) p 0 ∧
      x = e2.setLslot slot (fun l => { l with bound := true, boundAddr := a, loading := true, cached := false })) ∧
    (e1.bindCheck m slot a ≠ stOk →
      e.weightNow m wcBind slot a = e2.setLslot slot (fun l => { l with bound := false, loading := false, cached := false })) ∧
    e.weightNow m wcUnbind slot a = e1.setLslot slot (fun l => { l with bound := false, loading := false, cached := false }) ∧
    e.weightNow m wcInvalidate slot a = e1.setLslot slot (fun l => { l with cached := false, loading := false })) ∧
  (∀ (s : State) (slot : Nat) (c : SlotCfg) (h : WImg), s.on → KV.find s.eng.slotCfg slot = some c →
    h = WImg.ofBytes (Mem.read s.hbm (s.eng.lslot slot).boundAddr 64) →
    ((s.eng.lslot slot).loading = false → exec (.bindFillDone slot) s = .next { s with eng := s.work }) ∧
    ((s.eng.lslot slot).loading = true → ∃ (e : Eng) (b : List Byte), exec (.bindFillDone slot) s = .next { s with eng := e } ∧
      b = (everyTokenParts c h).flatMap (fun p => Mem.read s.hbm ((s.eng.lslot slot).boundAddr + p.1) p.2) ∧
      KV.find e.wcache (c.wcBase * 4096) = some b ∧
      e.lslot slot = { s.eng.lslot slot with cached := true, loading := false, wgen := h.gen, wfmt := h.wfmt } ∧
      (∀ k d, k ≠ slot → KV.find s.eng.slotCfg k = some d →
        e.lslot k = if c.shares d then { s.eng.lslot k with cached := false } else s.eng.lslot k) ∧
      e.regs = s.eng.regs ∧ e.cmds = s.eng.cmds ∧ e.rings = s.eng.rings)) ∧
  (∀ (s : State) (slot off v a : Nat) (wide : Bool) (e : Eng), s.alert → halfOk off wide v = true → slot = field (s.eng.reg Reg.selSlotSel) 0 8 →
    a = mergeHalf (s.eng.lslot slot).biasReg off wide v → e = s.work.setLslot slot (fun l => { l with biasReg := a }) →
    ((wide = false ∧ off = 0) ∨ a % 64 ≠ 0 → exec (.selBiasAddr off wide v) s = .next (s.leaves e)) ∧
    (wide = true ∨ off = 4 → a % 64 = 0 →
      (s.eng.readersRun slot [opScore, opRoute] = true →
        exec (.selBiasAddr off wide v) s = .next (s.leaves (e.setLslot slot (fun l => { l with biasPend := some a })))) ∧
      (s.eng.readersRun slot [opScore, opRoute] = false →
        exec (.selBiasAddr off wide v) s = .next (s.leaves (e.setLslot slot (fun l => { l with bias := a, biasZeroing := a != 0, biasPend := none })))))) ∧
  (∀ (s : State) (slot : Nat) (l : LSlot), s.on → l = s.eng.lslot slot →
    (l.biasPend = none ∨ s.eng.readersRun slot [opScore, opRoute] = true → exec (.biasPendExecute slot) s = .next { s with eng := s.work }) ∧
    (∀ a, l.biasPend = some a → s.eng.readersRun slot [opScore, opRoute] = false → exec (.biasPendExecute slot) s =
      .next (s.leaves (s.work.setLslot slot (fun l => { l with bias := a, biasZeroing := a != 0, biasPend := none })))) ∧
    (l.biasZeroing = false → exec (.biasZeroingDone slot) s = .next { s with eng := s.work }) ∧
    (l.biasZeroing = true → l.bias ≠ 0 → l.bias + 256 * (s.eng.cfgOf slot).panels ≤ memTop → ∃ m, exec (.biasZeroingDone slot) s =
        .next { s with hbm := m, eng := (s.work.accSlot slot (256 * (s.eng.cfgOf slot).panels)).setLslot slot (fun l => { l with biasZeroing := false }) } ∧
      ∀ x, Mem.byte m x = if l.bias ≤ x ∧ x < l.bias + 256 * (s.eng.cfgOf slot).panels then 0 else Mem.byte s.hbm x))

/-- A lane that fails again brings a substitution, which moves the logical cluster to a gusset; a failed half is
absent (R343, R344, R346, R348, R353, Table 15-2). LANE_MISMATCH of a present cluster is told and remembered; a second
one of the same lane within 1,024 cycles brings a substitution, which starts where no recovery runs or waits and no
power transition goes on. GUSSET_SUBSTITUTION ends it: the position is marked failed, and the logical cluster mapped
there is mapped to the free gusset chosen, or marked absent where there is none. LANE_MISMATCH of an absent cluster
changes nothing. HALF_MISMATCH of a present half is a fault: where no recovery runs or waits it makes the half of its
unit absent, with the unit's event; during a bay reset elsewhere it waits in the queue; of an absent half it changes
nothing. -/
def Obligations.FailedClustersAndHalvesAreReplaced : Prop :=
  (∀ (s : State) (q n lane cyc pos key : Nat) (e : Eng), s.on → pos = s.eng.position q n → key = (q * 32 + pos) * 8 + lane →
    e = s.work.fltEvent 0x060C (some (bayOf q pos)) (some (bayOf q pos / 6)) (some q) (some pos) →
    ((s.eng.quarterCount ≤ q ∨ bit (s.eng.qmapByte q n) 7 = true) → exec (.laneMismatch q n lane cyc) s = .next { s with eng := s.work }) ∧
    (q < s.eng.quarterCount → bit (s.eng.qmapByte q n) 7 = false →
      ((∀ t, KV.find s.eng.flt.laneLast key = some t → cyc < t ∨ t + 1024 < cyc) → exec (.laneMismatch q n lane cyc) s =
        .next (s.leaves { e with flt := { e.flt with laneLast := KV.put e.flt.laneLast key cyc } })) ∧
      (∀ t, KV.find s.eng.flt.laneLast key = some t → t ≤ cyc → cyc ≤ t + 1024 →
        exec (.laneMismatch q n lane cyc) s = .next (s.leaves (({ e with
          flt := { e.flt with laneLast := KV.del e.flt.laneLast key } } : Eng).addFault (.cluster q pos))) ∧
        (s.eng.flt.recovery = none → s.eng.flt.queue = [] → s.eng.pwr.trans = false → ∃ u, exec (.laneMismatch q n lane cyc) s = .next u ∧
          u.eng.flt.recovery = some (.substitution q pos) ∧ u.eng.flt.queue = [])))) ∧
  (∀ (s : State) (q pos : Nat), s.on →
    ((∀ q' p', s.eng.flt.recovery ≠ some (.substitution q' p')) → exec .gussetSubstitution s = .next { s with eng := s.work }) ∧
    (s.eng.flt.recovery = some (.substitution q pos) → exec .gussetSubstitution s =
      .next (s.leaves ((({ s.work with flt := { s.eng.flt with recovery := none } } : Eng).clusterFailed q pos).nextRecovery)))) ∧
  (∀ (e e1 : Eng) (q pos n : Nat), q < 4 → pos < 18 → e1 = e.setReg (Reg.fltFailed q) (setBit (e.reg (Reg.fltFailed q)) pos true) →
    e1.mappedAt q pos = some n →
    bit ((e.clusterFailed q pos).reg (Reg.fltFailed q)) pos = true ∧
    (∀ g, e1.chooseGusset q pos = some g → (e.clusterFailed q pos).qmapByte q n = g + 64) ∧
    (e1.chooseGusset q pos = none → bit ((e.clusterFailed q pos).qmapByte q n) 7 = true)) ∧
  (∀ (s : State) (h : Nat), s.on →
    (h ∈ s.eng.flt.hemAbsent → exec (.halfMismatch 0 h) s = .next (s.leaves (s.work.settle s.hbm))) ∧
    (∀ u b, s.eng.halfAbsent u h = false → s.eng.flt.recovery = some (.bay b) → s.eng.flt.queue.length < 64 → unitBay u h / 6 ≠ b / 6 →
      exec (.halfMismatch u h) s = .next (s.leaves (({ s.work with
        flt := { s.eng.flt with queue := s.eng.flt.queue ++ [.half u h] } } : Eng).settle s.hbm))) ∧
    (s.eng.flt.recovery = none → s.eng.flt.queue = [] → s.eng.pwr.trans = false →
      (h ∉ s.eng.flt.hemAbsent → exec (.halfMismatch 0 h) s = .next (s.leaves ((({ s.work with
        flt := { s.eng.flt with hemAbsent := s.eng.flt.hemAbsent ++ [h] } } : Eng).unitAbsent (hemBay h) 0x0630).settle s.hbm))) ∧
      (h ∉ s.eng.flt.selAbsent → exec (.halfMismatch 1 h) s = .next (s.leaves (((({ s.work with
        flt := { s.eng.flt with selAbsent := s.eng.flt.selAbsent ++ [h] } } : Eng).unitAbsent (selBay h) 0x0640).raise 0x0650
          (arg6 (some (selBay h)) (some (selBay h / 6)) none none) none 0).settle s.hbm))) ∧
      (h ∉ s.eng.flt.pltAbsent → exec (.halfMismatch 2 h) s = .next (s.leaves ((({ s.work with
        flt := { s.eng.flt with pltAbsent := s.eng.flt.pltAbsent ++ [h] } } : Eng).unitAbsent (pltBay h) 0x0651).settle s.hbm))) ∧
      (h ∉ s.eng.flt.semAbsent → exec (.halfMismatch 3 h) s = .next (s.leaves ((({ s.work with
        flt := { s.eng.flt with semAbsent := s.eng.flt.semAbsent ++ [h] } } : Eng).unitAbsent (semBay h) 0x0670).settle s.hbm)))))

/-- Bay and dike faults start a reset, are queued, or contain; its end brings the bays back or contains them (R249,
R350, R351, R352, R353, R376, Table 15-3). BAY_RESET of a contained bay changes nothing; within 10 s of the bay's last
reset it contains the bay; else it is a fault, and where no recovery runs or waits the bay's reset starts. DIKE_RESET
of a contained dike changes nothing, else it is a fault of the dike. BAY_RESET_REQUEST of a bay that is absent, in
reset or contained changes nothing, else its reset starts, or waits behind the recovery that runs; with 64 faults
queued it brings a compute reset. The end of a reset that passed brings its bays back, with their Pattern blocks from
the kept copy; one that failed contains the bay or the dike; then the next recovery starts. So each of these
completes: the recovery under way is that of the bay or dike that was reset, and after its end there is none, unless
one waits. CONTAINMENT_CLEARED lets a contained bay, or the bays of a dike, return, but not a bay left unconfigured.
-/
def Obligations.BaysAndDikesAreResetOrContained : Prop :=
  (∀ (s : State) (b : Nat), s.on →
    ((b ∈ s.eng.flt.baysContained ∨ b / 6 ∈ s.eng.flt.dikesContained) → exec (.bayReset b) s = .next { s with eng := s.work }) ∧
    (b ∉ s.eng.flt.baysContained → b / 6 ∉ s.eng.flt.dikesContained →
      (∀ t, b ∉ s.eng.flt.baysReset → KV.find s.eng.flt.bayResetNs b = some t → s.eng.time.ns < t + 10000000000 →
        exec (.bayReset b) s = .next (s.leaves (s.work.containBay b))) ∧
      ((b ∈ s.eng.flt.baysReset ∨ ∀ t, KV.find s.eng.flt.bayResetNs b = some t → t + 10000000000 ≤ s.eng.time.ns) →
        exec (.bayReset b) s = .next (s.leaves (s.work.addFault (.bay b))) ∧
        (s.eng.flt.recovery = none → s.eng.flt.queue = [] → s.eng.pwr.trans = false → s.eng.bayDown b = false →
          exec (.bayReset b) s = .next (s.leaves (s.work.startBay b)))))) ∧
  (∀ (s : State) (d : Nat), s.on →
    (d ∈ s.eng.flt.dikesContained → exec (.dikeReset d) s = .next { s with eng := s.work }) ∧
    (d ∉ s.eng.flt.dikesContained → exec (.dikeReset d) s = .next (s.leaves (s.work.addFault (.dike d))) ∧
      (s.eng.flt.recovery = none → s.eng.flt.queue = [] → s.eng.pwr.trans = false →
        exec (.dikeReset d) s = .next (s.leaves (s.work.startDike d))))) ∧
  (∀ (s : State) (b : Nat), s.alert → b < 64 →
    ((36 ≤ b ∨ s.eng.bayDown b = true) → exec (.bayResetRequest b) s = .next { s with eng := s.work }) ∧
    (b < 36 → s.eng.bayDown b = false →
      (64 ≤ s.eng.flt.queue.length → s.eng.flt.recovery ≠ some .compute → exec (.bayResetRequest b) s = .next (s.leaves s.work.startCompute)) ∧
      (s.eng.flt.recovery ≠ none → s.eng.flt.queue.length < 64 → exec (.bayResetRequest b) s = .next { s with eng := { s.work with
        flt := { s.eng.flt with queue := s.eng.flt.queue ++ [.bay b] } } }) ∧
      (s.eng.flt.recovery = none → s.eng.flt.queue = [] → exec (.bayResetRequest b) s = .next (s.leaves (s.work.startBay b))))) ∧
  (∀ (s : State) (b : Nat) (e : Eng), s.on → e = { s.work with flt := { s.eng.flt with recovery := none } } →
    (s.eng.flt.recovery ≠ some (.bay b) → ∀ ok, exec (.bayResetDone b ok) s = .next { s with eng := s.work }) ∧
    (s.eng.flt.recovery = some (.bay b) →
      exec (.bayResetDone b false) s = .next (s.leaves (((e.containBay b).updateReplace.nextRecovery).settle s.hbm)) ∧
      exec (.bayResetDone b true) s = .next (s.leaves ((((({ e with
        flt := { e.flt with baysReset := e.flt.baysReset.filter (· != b), bayResetNs := KV.put e.flt.bayResetNs b s.eng.time.ns } } : Eng).bayBack
          s.hbm b).updateReplace).nextRecovery).settle s.hbm)))) ∧
  (∀ (s : State) (d : Nat) (e : Eng), s.on → e = { s.work with flt := { s.eng.flt with recovery := none } } →
    (s.eng.flt.recovery ≠ some (.dike d) → ∀ ok, exec (.dikeResetDone d ok) s = .next { s with eng := s.work }) ∧
    (s.eng.flt.recovery = some (.dike d) →
      exec (.dikeResetDone d false) s = .next (s.leaves (((e.containDike d).updateReplace.nextRecovery).settle s.hbm)) ∧
      exec (.dikeResetDone d true) s = .next (s.leaves ((((((dikeBays d).filter (fun b => !s.eng.flt.baysContained.contains b)).foldl
        (fun (x : Eng) b => Eng.bayBack s.hbm b { x with flt := { x.flt with bayResetNs := KV.put x.flt.bayResetNs b x.now } }) { e with
          flt := { e.flt with dikesReset := e.flt.dikesReset.filter (· != d) } }).updateReplace).nextRecovery).settle s.hbm)))) ∧
  (∀ (s : State) (b : Nat) (e : Eng), s.on → e = { s.work with flt := { s.eng.flt with baysContained := s.eng.flt.baysContained.filter (· != b) } } →
    ((b ∉ s.eng.flt.baysContained ∨ bit s.eng.loader.baysUncfg b = true) →
      exec (.containmentCleared (some b) none) s = .next (s.leaves ((s.work.updateReplace).settle s.hbm))) ∧
    (b ∈ s.eng.flt.baysContained → bit s.eng.loader.baysUncfg b = false → exec (.containmentCleared (some b) none) s =
      .next (s.leaves (((if e.bayDown b then e else e.clearBay b).updateReplace).settle s.hbm)))) ∧
  (∀ (s : State) (d : Nat) (e : Eng), s.on → d ∈ s.eng.flt.dikesContained →
    e = { s.work with flt := { s.eng.flt with dikesContained := s.eng.flt.dikesContained.filter (· != d) } } →
    exec (.containmentCleared none (some d)) s = .next (s.leaves (((((dikeBays d).filter (fun b => !e.bayDown b)).foldl
      (fun (x : Eng) b => x.clearBay b) e).updateReplace).settle s.hbm))) ∧
  (∀ (s : State) (b d : Nat), s.on → s.eng.flt.recovery = none → s.eng.flt.queue = [] → s.eng.pwr.trans = false →
    (s.eng.bayDown b = false → (∀ t, KV.find s.eng.flt.bayResetNs b = some t → t + 10000000000 ≤ s.eng.time.ns) →
      ∃ t, exec (.bayReset b) s = .next t ∧ t.eng.flt.recovery = some (.bay b) ∧ t.eng.flt.queue = [] ∧ b ∈ t.eng.flt.baysReset) ∧
    (s.eng.bayDown b = false → s.alert → b < 36 → ∃ t, exec (.bayResetRequest b) s = .next t ∧ t.eng.flt.recovery = some (.bay b) ∧
      b ∈ t.eng.flt.baysReset) ∧
    (d ∉ s.eng.flt.dikesContained → ∃ t, exec (.dikeReset d) s = .next t ∧ t.eng.flt.recovery = some (.dike d) ∧ t.eng.flt.queue = [] ∧
      d ∈ t.eng.flt.dikesReset ∧ ∀ x ∈ t.eng.flt.baysReset, x / 6 ≠ d)) ∧
  (∀ (s : State) (b d : Nat), s.on → s.eng.flt.queue = [] →
    (s.eng.flt.recovery = some (.bay b) →
      (∃ e, exec (.bayResetDone b true) s = .next (s.leaves (Eng.settle s.hbm e)) ∧ e.flt.recovery = none ∧ b ∉ e.flt.baysReset ∧
        KV.find e.flt.bayResetNs b = some s.eng.time.ns) ∧
      (∃ e, exec (.bayResetDone b false) s = .next (s.leaves (Eng.settle s.hbm e)) ∧ e.flt.recovery = none ∧ b ∉ e.flt.baysReset ∧
        b ∈ e.flt.baysContained)) ∧
    (s.eng.flt.recovery = some (.dike d) →
      (∃ e, exec (.dikeResetDone d true) s = .next (s.leaves (Eng.settle s.hbm e)) ∧ e.flt.recovery = none ∧ d ∉ e.flt.dikesReset) ∧
      (∃ e, exec (.dikeResetDone d false) s = .next (s.leaves (Eng.settle s.hbm e)) ∧ e.flt.recovery = none ∧ d ∉ e.flt.dikesReset ∧
        d ∈ e.flt.dikesContained)) ∧
    (b ∈ s.eng.flt.baysContained → bit s.eng.loader.baysUncfg b = false → ∃ e, exec (.containmentCleared (some b) none) s =
      .next (s.leaves (Eng.settle s.hbm e)) ∧ b ∉ e.flt.baysContained))

/-- A compute reset clears what Table 15-4 says, keeps the rest, and ends in recovery, without a Pattern, or failed
(R354, R355, R356, R357, R358, R376, R395, Table 15-3, Table 15-4). COMPUTE_RESET outside a compute reset starts one:
it asks for HOLD, clears the transfer table, the pending tacks, the shadow banks, the gauges' values and the loader's
progress, and keeps HBM (but for the buffer table's entries, where a host role that has not told READY gives its
buffers back), the commands, the rings, the polder slots, the lost list, the bindings of the gauges and the registers
that survive; the recovery that it cut short waits again. A second one during it, or an end that did not pass, leaves
the engine failed, with its post. COMPUTE_RESET_DONE without a kept copy leaves the loader EMPTY with RELOAD_NEEDED,
no Pattern and no reset under way, and then serves what waited; with one it is verified and applied again, the work
recovered, or it is REJECTED. COMPUTE_RESET_REQUEST starts one, or waits behind the recovery that runs. -/
def Obligations.ComputeResetKeepsItsRecords : Prop :=
  (∀ (s : State), s.on → s.eng.flt.recovery ≠ some .compute → ∃ t, exec .computeReset s = .next t ∧ t = s.leaves s.work.startCompute ∧
    t.eng.flt.recovery = some .compute ∧ t.eng.flt.queue = (s.eng.flt.recovery.bind Recovery.record).toList ++
      s.eng.flt.queue.filter (fun r => r != .compute) ∧
    t.eng.tt = [] ∧ t.eng.tacks = [] ∧ t.eng.bank0 = none ∧ t.eng.bank1 = none ∧ t.eng.loader.st = .empty ∧ t.eng.diag = none ∧ t.eng.pwr.cur = 0 ∧
    Post.holdRequest ∈ t.eng.posts ∧ ((∀ r ∈ s.eng.roles, r.ready = true) → t.hbm = s.hbm) ∧
    (s.eng.reg Reg.bobTable + 8 * s.eng.bufTotal ≤ memTop → ∀ a, (a < s.eng.reg Reg.bobTable ∨
      s.eng.reg Reg.bobTable + 8 * s.eng.bufTotal ≤ a) → Mem.byte t.hbm a = Mem.byte s.hbm a) ∧ t.tape = s.tape ∧ t.eng.cmds = s.eng.cmds ∧ t.eng.rings = s.eng.rings ∧
    t.eng.pld = s.eng.pld ∧ t.eng.flt.lost = s.eng.flt.lost ∧ t.eng.loader.kept = s.eng.loader.kept ∧
    t.eng.gauges.map (fun kg => (kg.1, kg.2.bind)) = s.eng.gauges.map (fun kg => (kg.1, kg.2.bind)) ∧
    (∀ q, q < 4 → t.eng.reg (Reg.fltQmapLo q) = s.eng.reg (Reg.fltQmapLo q) ∧ t.eng.reg (Reg.fltFailed q) = s.eng.reg (Reg.fltFailed q)) ∧
    t.eng.reg Reg.bobTable = s.eng.reg Reg.bobTable ∧ t.eng.reg Reg.engMode = s.eng.reg Reg.engMode) ∧
  (∀ (s : State), s.on → s.eng.flt.recovery = some .compute → ∀ i, (i = .computeReset ∨ i = .computeResetDone false) → ∃ t, exec i s = .next t ∧
    t.eng.flt.failed = true ∧ t.eng.flt.recovery = none ∧ Post.computeFailed ∈ t.eng.posts ∧ t.hbm = s.hbm ∧ t.eng.cmds = s.eng.cmds) ∧
  (∀ (s : State) (ok : Bool), s.on →
    (s.eng.flt.recovery ≠ some .compute → exec (.computeResetDone ok) s = .next { s with eng := s.work }) ∧
    (s.eng.flt.recovery = some .compute → s.eng.keptCopy = false → ∃ e e1 : Eng,
      e = { s.work with loader := { s.eng.loader with st := .empty, reloadNeeded := true }, pat := none, flt := { s.eng.flt with recovery := none } } ∧
      e1 = (e.writeResetHeld).fltEvent 0x0609 none none none none ∧
      exec (.computeResetDone true) s = .next (s.leaves ((((e1.serveAccesses s.hbm).updateReplace).updateReady).nextRecovery))) ∧
    (∀ (e0 e1 : Eng) (kept : Bool), s.eng.flt.recovery = some .compute → s.eng.keptCopy = true → (kept, e0) = s.work.reapplyKept s.hbm →
      e1 = (Eng.writeResetHeld { e0 with flt := { e0.flt with recovery := none } }).fltEvent 0x0609 none none none none →
      exec (.computeResetDone true) s = .next (s.leaves (((((if kept then e1.recoverWork s.hbm else e1).serveAccesses
        s.hbm).updateReplace).updateReady).nextRecovery)))) ∧
  (∀ (s : State), s.on → s.eng.flt.recovery = some .compute → s.eng.flt.queue = [] → s.eng.pwr.accesses = [] → s.eng.keptCopy = false →
    ∃ t, exec (.computeResetDone true) s = .next t ∧ t.eng.flt.recovery = none ∧ t.eng.loader.st = .empty ∧ t.eng.loader.reloadNeeded = true ∧
      t.eng.pat = none ∧ t.eng.boot.ready = false ∧ t.hbm = s.hbm ∧ t.eng.rings = s.eng.rings ∧
      t.eng.cmds.map (fun c => { c with degraded := false }) = s.eng.cmds.map (fun c => { c with degraded := false })) ∧
  (∀ (e : Eng) (m : Mem), match e.verifyKept (e.rd m (e.reg Reg.patKeep) e.loader.keptLen) e.loader.keptMissing with
    | .ok _ _ => (e.reapplyKept m).1 = true ∧ (e.reapplyKept m).2.loader.st = .applied
    | .err code _ => (e.reapplyKept m).1 = false ∧ (e.reapplyKept m).2.loader.st = .rejected ∧ (e.reapplyKept m).2.loader.err = code) ∧
  (∀ (s : State), s.alert →
    (s.eng.flt.recovery = none → s.eng.flt.queue = [] → exec .computeResetRequest s = .next (s.leaves s.work.startCompute) ∧
      (s.leaves s.work.startCompute).eng.flt.recovery = some .compute) ∧
    (s.eng.flt.recovery ≠ none → FaultRec.compute ∉ s.eng.flt.queue → s.eng.flt.queue.length < 64 → exec .computeResetRequest s = .next { s with eng := { s.work with
      flt := { s.eng.flt with queue := s.eng.flt.queue ++ [.compute] } } }))

/-- HOLD, RESUME, LOST, CLEAR and SUSPECT act once, in NSEQ order; probes suspect a chip until it answers (R359, R360,
R361, R362, R363, R366, Table 15-8). A notice wakes the engine; one whose NSEQ is not ahead of the last does nothing
else. HOLD of another chip that is not lost holds toward it and releases its transfer-table entries; RESUME ends the
hold, and without one only lets go on what can; LOST of this chip or a lost one does nothing, during a compute reset
it waits, with 256 lost it brings a compute reset, else it adds the chip to the lost list and forgets what was on its
way to it; CLEAR removes it; SUSPECT holds and sends the first probe. A PROBE is answered, but not in a compute reset.
PROBE_ANSWER ends the suspicion, and the hold where no notice asked for it. PROBE_TIMEOUT sends the next probe, a
millisecond after the last, or after the third reports the peer. -/
def Obligations.NoticesActInTheirOrder : Prop :=
  (∀ (s : State) (i : Instr) (n x : Nat), s.on → (i = .hold n x ∨ i = .resume n x ∨ i = .lost n x ∨ i = .clearNotice n x ∨ i = .suspect n x) →
    s.work.wake.newer n = false → exec i s = .next (s.leaves s.work.wake)) ∧
  (∀ (s : State) (n x : Nat) (e : Eng), s.on → s.work.wake.newer n = true →
    e = { s.work.wake with flt := { s.eng.flt with nseq := n % 2 ^ 16, nseqAny := true } } →
    ((s.eng.isLost x = true ∨ x = s.eng.chip) → exec (.hold n x) s = .next (s.leaves e) ∧ exec (.suspect n x) s = .next (s.leaves e) ∧
      exec (.lost n x) s = .next (s.leaves e)) ∧
    (s.eng.isLost x = false → x ≠ s.eng.chip →
      (∃ t, exec (.hold n x) s = .next t ∧ t.eng.holding x = true ∧ (∀ kt ∈ t.eng.tt, kt.2.hdr.dst ≠ x) ∧ t.eng.cmds = s.eng.cmds ∧ t.hbm = s.hbm) ∧
      (s.eng.holding x = false → ∃ t, exec (.suspect n x) s = .next t ∧ t.eng.holding x = true ∧ (∀ kt ∈ t.eng.tt, kt.2.hdr.dst ≠ x) ∧
        t.eng.tx = s.eng.tx ++ [⟨e.bestPort x, 7, .probe x⟩] ∧ t.eng.cmds = s.eng.cmds ∧ t.hbm = s.hbm) ∧
      (s.eng.flt.recovery = some .compute → exec (.lost n x) s =
        .next (s.leaves { e with flt := { e.flt with latchedLost := e.flt.latchedLost ++ [x] } })) ∧
      (s.eng.flt.recovery ≠ some .compute →
        (256 ≤ s.eng.flt.lost.length → none ∉ s.eng.flt.lost → exec (.lost n x) s = .next (s.leaves (e.addFault .compute))) ∧
        (s.eng.flt.lost.length < 256 ∨ none ∈ s.eng.flt.lost →
          exec (.lost n x) s = .next (s.leaves ((e.applyLost s.hbm x).settle s.hbm)) ∧ (e.applyLost s.hbm x).isLost x = true))) ∧
    (KV.find s.eng.flt.holds x = none → exec (.resume n x) s = .next (s.leaves (e.settle s.hbm))) ∧
    (∀ h, KV.find s.eng.flt.holds x = some h → exec (.resume n x) s = .next (s.leaves ((e.endHold s.hbm x).settle s.hbm)) ∧
      (h.noticed = false → KV.find (e.endHold s.hbm x).flt.holds x = none)) ∧
    (s.eng.isLost x = false → exec (.clearNotice n x) s = .next (s.leaves e)) ∧
    (s.eng.isLost x = true → ∃ t, exec (.clearNotice n x) s = .next t ∧ t.eng.isLost x = false ∧
      (∀ y, y ≠ x → t.eng.isLost y = s.eng.isLost y) ∧ t.eng.flt.lost.length = s.eng.flt.lost.length ∧
      (∀ k c, (k, c) ∈ s.eng.slotCfg → t.eng.lostFor k x = true) ∧ t.eng.cmds = s.eng.cmds ∧ t.hbm = s.hbm)) ∧
  (∀ (s : State) (x : Nat), s.on →
    (s.eng.flt.recovery = some .compute → exec (.probe x) s = .next { s with eng := s.work }) ∧
    (s.eng.flt.recovery ≠ some .compute → exec (.probe x) s = .next (s.leaves (s.work.transmit (s.work.towards x) 7 64 (.probeAnswer x))))) ∧
  (∀ (s : State) (x : Nat) (h : HoldRec), s.on → KV.find s.eng.flt.holds x = some h →
    (h.suspected = false → exec (.probeAnswer x) s = .next { s with eng := s.work } ∧ exec (.probeTimeout x) s = .next { s with eng := s.work }) ∧
    (h.suspected = true →
      (h.noticed = true → exec (.probeAnswer x) s = .next { s with eng := { s.work with flt := { s.eng.flt with
        holds := KV.put s.eng.flt.holds x { h with suspected := false, probes := 0, reported := false } } } }) ∧
      (h.noticed = false → exec (.probeAnswer x) s = .next (s.leaves ((s.work.endHold s.hbm x).settle s.hbm)) ∧
        KV.find (s.work.endHold s.hbm x).flt.holds x = none) ∧
      (h.reported = true → exec (.probeTimeout x) s = .next { s with eng := s.work }) ∧
      (h.reported = false → ∃ e, e = s.work.reach (h.since + h.probes * 1000000) ∧
        (h.probes < 3 → exec (.probeTimeout x) s = .next (s.leaves (({ e with
          flt := { e.flt with holds := KV.put e.flt.holds x { h with probes := h.probes + 1 } } } : Eng).sendProbe x))) ∧
        (3 ≤ h.probes → exec (.probeTimeout x) s = .next (s.leaves ((({ e with
          flt := { e.flt with holds := KV.put e.flt.holds x { h with reported := true } } } : Eng).raise 0x0112 (arg1 none x) none 0).post
            (.peerReport x)))))))

/-- Idleness leads one power state deeper where it is allowed; wakes lead back to ACTIVE; functions shut down and wake
(R377, R379, R380, R381, R382, R435, Table 16-3, Table 16-4). IDLE_TIMEOUT of a ready engine that is idle, in no
transition and above the deepest state now allowed starts the entry into the next deeper state, else it changes
nothing. POWER_ENTRY_DONE, no earlier than the entry takes, leaves the engine in that state, with 16 MiB saved and the
buffer table written on DEEP, and starts the exit where a wake came meanwhile. POWER_EXIT_DONE leaves it ACTIVE, no
earlier than the exit takes, and serves what waited; a save that cannot be read brings a compute reset. TIDE_WAKE
starts the exit an exit latency ahead of the next window. TWK_WAKE_TOL stores the tolerance, and wakes the engine from
a state whose exit takes longer. TWK_ENG_FUNC that leaves no quarter or no table is refused; else each function
present is told its enable; FUNC_TRANSITION_DONE ends its change and carries out what was latched. -/
def Obligations.PowerStatesAreEnteredAndLeft : Prop :=
  (∀ (s : State), s.on →
    (s.eng.boot.ready = true → s.eng.pwr.trans = false → s.work.idle = true → s.eng.pwr.cur < s.work.powerLimit.1 →
      exec .idleTimeout s = .next { s with eng := { s.work with
        pwr := { s.eng.pwr with trans := true, target := s.eng.pwr.cur + 1, transNs := s.eng.time.ns } } }) ∧
    ((s.eng.boot.ready = false ∨ s.eng.pwr.trans = true ∨ s.work.idle = false ∨ s.work.powerLimit.1 ≤ s.eng.pwr.cur) →
      exec .idleTimeout s = .next { s with eng := s.work })) ∧
  (∀ (s : State) (w : Nat), s.on → s.eng.pwr.trans = true → w = s.eng.pwr.target → w ≠ 0 → s.eng.flt.queue = [] →
    ∃ t, exec .powerEntryDone s = .next t ∧ t.eng.pwr.cur = w ∧ t.eng.pwr.wakePend = false ∧
      t.eng.time.ns = max s.eng.time.ns (s.eng.pwr.transNs + entryNs w) ∧ (w ≠ 4 → t.hbm = s.hbm) ∧
      (∀ a, s.eng.reg Reg.pwrDeepSave + 16777216 ≤ memTop → s.eng.reg Reg.bobTable + 8 * s.eng.bufTotal ≤ memTop →
        (a < s.eng.reg Reg.pwrDeepSave ∨ s.eng.reg Reg.pwrDeepSave + 16777216 ≤ a) →
        (a < s.eng.reg Reg.bobTable ∨ s.eng.reg Reg.bobTable + 8 * s.eng.bufTotal ≤ a) →
        Mem.byte t.hbm a = Mem.byte s.hbm a) ∧
      (s.eng.pwr.wakePend = false → t.eng.pwr.trans = false) ∧
      (s.eng.pwr.wakePend = true → t.eng.pwr.trans = true ∧ t.eng.pwr.target = 0) ∧ t.eng.cmds = s.eng.cmds ∧ t.eng.rings = s.eng.rings) ∧
  (∀ (s : State) (k : Nat) (ok : Bool), s.on → s.eng.pwr.trans = true → s.eng.pwr.target = 0 → k = s.eng.pwr.cur →
    ∃ e e1 e2 e3 : Eng, e = { s.work.reach (s.eng.pwr.transNs + exitNs k) with
        pwr := { s.eng.pwr with cur := 0, trans := false, wakePend := false } } ∧
      e1 = (e.gauge gsPowerExit k none (e.time.ns - s.eng.pwr.wakeNs)).raise 0x0902 (arg9 k 0) none 0 ∧
      e2 = (if 2 ≤ k then { e1 with spool := { e1.spool with banks := e1.spool.banks.map (fun b => { b with scrubbed := [] }) } } else e1) ∧
      e3 = (if 3 ≤ k then (e2.lslots.filter (fun kl => kl.2.cached)).foldl (fun (e : Eng) kl => e.fillCache s.hbm kl.1)
        ((e2.writeHeld.clearTable 0).clearTable 1) else e2) ∧
      exec (.powerExitDone ok) s = .next (s.leaves ((((if k = 4 ∧ ok = false then (e3.raise 0x0909 (arg9 4 0) none 0).requestReset .compute
        else e3).takeWaiting s.hbm).nextRecovery).serveAccesses s.hbm)) ∧ e3.pwr.cur = 0 ∧ e3.pwr.trans = false) ∧
  (∀ (s : State) (w : Nat), s.on → w = max s.eng.pwr.cur s.eng.pwr.target →
    (w = 0 → exec .tideWake s = .next { s with eng := s.work }) ∧
    (∀ t, w ≠ 0 → s.work.nextWindow s.work.residentTide = some t → exec .tideWake s = .next (s.leaves ((s.work.reach (t - exitNs w)).wake)) ∧
      (s.eng.pwr.trans = false → s.eng.pwr.cur ≠ 0 → (s.work.reach (t - exitNs w)).wake.pwr.trans = true ∧
        (s.work.reach (t - exitNs w)).wake.pwr.target = 0))) ∧
  (∀ (s : State) (v : Nat), s.alert → v < 2 ^ 32 →
    ∃ e, e = s.work.setReg Reg.wakeTol v ∧ exec (.wakeTol v) s = .next (s.leaves (if v < exitNs (max s.eng.pwr.cur s.eng.pwr.target) then e.wake else e))) ∧
  (∀ (s : State) (v : Nat) (there : List Nat), s.alert → v < 2 ^ 32 → there = (List.range 6).filter s.work.funcPresent →
    (((∀ f ∈ there, f < 4 → bit v f = false) ∨ ∀ f ∈ there, 4 ≤ f → bit v f = false) → exec (.engFunc v) s =
      .next (s.leaves (s.work.raise 0x0904 (arg9 s.eng.pwr.cur (Nat.xor (v % 64) (s.eng.reg Reg.engFunc % 64))) none 0))) ∧
    ((∃ f ∈ there, f < 4 ∧ bit v f = true) → (∃ f ∈ there, 4 ≤ f ∧ bit v f = true) → exec (.engFunc v) s =
      .next (s.leaves (there.foldl (fun (e : Eng) f => e.enableFunc f (bit v f)) (s.work.setReg Reg.engFunc (ofBits (there.filter (bit v)))))))) ∧
  (∀ (s : State) (f : Nat), s.on → f < 6 → s.eng.pwr.funcState.length = 6 →
    (s.eng.funcSt f = 1 → ∃ t, exec (.funcTransitionDone f) s = .next t ∧
      t.eng.funcSt f = (if f ∈ s.eng.pwr.pendEnable then 2 else 0) ∧ (∀ g, g ≠ f → t.eng.funcSt g = s.eng.funcSt g)) ∧
    (s.eng.funcSt f = 2 → ∃ t, exec (.funcTransitionDone f) s = .next t ∧
      t.eng.funcSt f = (if f ∈ s.eng.pwr.pendDisable then 1 else 3) ∧ (∀ g, g ≠ f → t.eng.funcSt g = s.eng.funcSt g)) ∧
    (s.eng.funcSt f ≠ 1 → s.eng.funcSt f ≠ 2 → exec (.funcTransitionDone f) s = .next { s with eng := s.work }))

/-- A gauge binding is checked and starts over on a new source; CLEAR starts values over; level sources are sampled
(R384, R385, R386, R387, Table 17-5, Table 17-8). A write of TWK_GAU_BIND, whole or half, with a binding that Table
17-5 allows, binds the selected gauge, whose values start over where anything but ENABLE or PERIOD has changed; any
other is refused with BIND_REFUSED and its event. CLEAR starts the selected gauge's values over, CLEAR_ALL those of
all 128, bindings kept. LEVEL_SAMPLE at a microsecond of hall time not yet passed lets each enabled level gauge whose
PERIOD divides it take its source's value, and changes no other. Nothing else changes. -/
def Obligations.GaugesBindClearAndSample : Prop :=
  (∀ (s : State) (off v b k : Nat) (wide : Bool) (g : Gauge), s.alert → halfOk off wide v = true → k = s.eng.gaugeSel → g = s.eng.gaugeAt k →
    b = Nat.land (mergeHalf g.bind off wide v) bindMask →
    (s.work.bindOk b = true → ∃ (n : Gauge), n = (if bindKey b = bindKey g.bind then { g with bind := b } else
        { bind := b, clearedAt := s.eng.time.ns }) ∧
      exec (.gauBind off wide v) s = .next { s with eng := { s.work with gauges := KV.put s.eng.gauges k n } }) ∧
    (s.work.bindOk b = false → exec (.gauBind off wide v) s = .next (s.leaves ((s.work.setReg Reg.gauStatus
      (setBit (s.eng.reg Reg.gauStatus) 8 true)).raise 0x05B2 (arg5 0 0 0) none 0)))) ∧
  (∀ (s : State), s.alert → exec .gauClear s = .next { s with eng := { s.work with
    gauges := KV.put s.eng.gauges s.eng.gaugeSel { bind := (s.eng.gaugeAt s.eng.gaugeSel).bind, clearedAt := s.eng.time.ns } } }) ∧
  (∀ (s : State), s.alert → ∃ gs, exec .gauClearAll s = .next { s with eng := { s.work with gauges := gs } } ∧
    (∀ k, k < 128 → KV.find gs k = some { bind := (s.eng.gaugeAt k).bind, clearedAt := s.eng.time.ns }) ∧
    (∀ k, 128 ≤ k → KV.find gs k = KV.find s.eng.gauges k)) ∧
  (∀ (s : State) (us : Nat), s.on →
    (us * 1000 < s.eng.time.ns → exec (.levelSample us) s = .next { s with eng := s.work }) ∧
    (s.eng.time.ns ≤ us * 1000 → ∃ e, e = s.work.reach (us * 1000) ∧ exec (.levelSample us) s = .next { s with eng := { e with
      gauges := s.eng.gauges.map (fun kg => match (if kg.2.samples us then e.level kg.2.bind else none) with
        | some x => (kg.1, kg.2.take x)
        | none => kg) } }))

/-- A register that only stores reads back what was written; accesses wait for the exit; a new event ring starts at 0
(R11, R372, R379, R418, R431, R432, R433, R437, Table 20-4). On an alert engine a 32-bit write of a register that only
stores, by the MMIO port, stores its writable bits there and nothing else, and a read of it then answers them; a read
by the MMIO port answers the register's value and changes nothing else unless reading clears it. A misaligned write
changes nothing. While the engine is out of ACTIVE, or in a compute reset, an access of a block that is not quiet
waits, and wakes it. MANAGEMENT_ADDRESS sets the address and width of the management port's reads, and a management
write its address too. A write of TWK_EVT_BASE, or of another LOG2, is taken only while the event ring is empty, which
then starts at 0 and is armed. -/
def Obligations.RegisterAccessesReachTheirRegister : Prop :=
  (∀ (s : State) (off v : Nat), s.alert → v < 2 ^ 32 → off ∈ [Reg.patLen, Reg.bobQuery, Reg.ctSlotSel, Reg.hemSlotSel, Reg.selSlotSel,
      Reg.pltSlotSel, Reg.semSlotSel, Reg.bobPolderSel, Reg.fltLostSel, Reg.ctCtrl, Reg.schCtrl, Reg.fltCtrl, Reg.gauView, Reg.hemCtrl, Reg.colCtrl,
      Reg.pltRtSel, Reg.slcAckTo, Reg.gauExpSel, Reg.slcPeerverSel, Reg.splQsel, Reg.splCellSel, Reg.bobPoolSel, Reg.colGroupSel, Reg.colFormTo,
      Reg.detSeedSel, Reg.gauSel, Reg.evtMask] →
    ∃ t, t = { s with eng := s.work.setReg off (Nat.land v (plainMask off)) } ∧ exec (.registerWrite false off false v) s = .next t ∧
      exec (.mmioRead false off false) t = .next { t with eng := { t.eng with rsp := s.eng.rsp ++ [⟨false, off, Nat.land v (plainMask off)⟩] } }) ∧
  (∀ (s : State) (off v : Nat) (wide : Bool), s.on → off % (if wide then 8 else 4) ≠ 0 →
    exec (.registerWrite false off wide v) s = .next { s with eng := s.work } ∧
    exec (.registerWrite true off wide v) s = .next { s with eng := { s.work with mgmtAddr := off, mgmtWide := wide } }) ∧
  (∀ (s : State) (off v : Nat) (wide : Bool), s.on →
    (s.work.accessWaits off wide true = true → exec (.registerWrite false off wide v) s =
      .next (s.leaves ({ s.work with pwr := { s.eng.pwr with accesses := s.eng.pwr.accesses ++ [⟨false, off, wide, some v⟩] } } : Eng).wake)) ∧
    (s.work.accessWaits off wide false = true → exec (.mmioRead false off wide) s =
      .next (s.leaves ({ s.work with pwr := { s.eng.pwr with accesses := s.eng.pwr.accesses ++ [⟨false, off, wide, none⟩] } } : Eng).wake)) ∧
    (s.work.accessWaits off wide false = false → ∃ (e : Eng) (x : Nat), (x, e) = s.work.readAccess false off wide ∧
      exec (.mmioRead false off wide) s = .next (s.leaves { e with rsp := s.eng.rsp ++ [⟨false, off, x⟩] }) ∧
      ((∀ r ∈ [Reg.shuTtStatus, Reg.splQstat], off ≠ r ∧ off + 4 ≠ r) → e = s.work))) ∧
  (∀ (s : State) (a : Nat), s.on →
    exec (.managementAddress a) s = .next { s with eng := { s.work with mgmtAddr := field a 0 23, mgmtWide := bit a 23 } } ∧
    ∃ (e : Eng) (x : Nat), (x, e) = s.work.readAccess true s.eng.mgmtAddr s.eng.mgmtWide ∧ ∀ off wide,
      exec (.mmioRead true off wide) s = .next (s.leaves { e with rsp := e.rsp ++ [⟨true, s.eng.mgmtAddr, x⟩] })) ∧
  (∀ (s : State) (off v : Nat) (wide : Bool), s.alert → halfOk off wide v = true →
    (s.eng.evtEmpty = false → exec (.evtBase (Reg.evtBase + off) wide v) s = .next { s with eng := s.work }) ∧
    (s.eng.evtEmpty = true → ∃ e, e = ((s.work.setReg Reg.evtBase (mergeHalf (s.eng.reg Reg.evtBase) off wide v)).setReg Reg.evtTail 0).setReg
      Reg.evtHead 0 ∧ exec (.evtBase (Reg.evtBase + off) wide v) s = .next { s with eng := { e with evt := { s.eng.evt with armed := true } } })) ∧
  (∀ (s : State) (v c : Nat), s.alert → v < 2 ^ 32 → c = Nat.land v evtCfgMask →
    (field c 0 5 = field (s.eng.reg Reg.evtCfg) 0 5 → exec (.evtBase Reg.evtCfg false v) s = .next { s with eng := s.work.setReg Reg.evtCfg c }) ∧
    (field c 0 5 ≠ field (s.eng.reg Reg.evtCfg) 0 5 →
      (s.eng.evtEmpty = false → exec (.evtBase Reg.evtCfg false v) s = .next { s with eng := s.work }) ∧
      (s.eng.evtEmpty = true → ∃ e, e = ((s.work.setReg Reg.evtCfg c).setReg Reg.evtTail 0).setReg Reg.evtHead 0 ∧
        exec (.evtBase Reg.evtCfg false v) s = .next { s with eng := { e with evt := { s.eng.evt with armed := true } } })))

/-- Tape integrates every frame exactly, closes its periods, and splits their energy by activity (R399, R400, R401,
R402, R403, R409, Table 18-2). While Tape runs and no power failure has begun, SENSE_FRAME integrates one sample: the
calibrated codes of a valid frame, the last valid sample for the 1st to 16th invalid frame in a row, else nothing. No
energy is lost: the register in steps of 0.1 Wh and the rest add up exactly, forward and reverse. PERIOD_CLOSE turns
the period's energy into mJ with the rest carried, and starts the handshake; one still open has had no answer.
HANDSHAKE_ANSWER splits the period's and all pending energy: each client's total grows by floor(E × A_c / ΣA) and the
hall time is read. HANDSHAKE_TIMEOUT keeps the energy pending, at most 60 periods, the rest unattributed. Every 60th
period ends in the type 1 records. Tape then writes the mirror and posts its events, where the control island runs. -/
def Obligations.TapeMetersAndApportions : Prop :=
  (∀ (s : State) (f : Nat), s.tape.running = true → s.tape.powerFail = false → ∃ (t : Tape) (v i x : Int),
    exec (.senseFrame f) s = .next { s with eng := s.work, tape := t } ∧ t.frames = s.tape.frames + 1 ∧
    (s.tape.frameValid f = true →
      v = calibrate20 (toSigned 24 (field f 40 24)) s.tape.vOfs s.tape.vGain ∧ i = calibrate20 (toSigned 24 (field f 16 24)) s.tape.iOfs s.tape.iGain ∧
      t.lastSeq = some (field f 12 4) ∧ t.lastV = v ∧ t.lastI = i ∧ t.invalidRun = 0 ∧ t.validRun = s.tape.validRun + 1 ∧
      t.gapFrames = s.tape.gapFrames ∧ t.gap = s.tape.gap ∧ (s.tape.validRun + 1 < 125 → t.senseOk = s.tape.senseOk) ∧
      (125 ≤ s.tape.validRun + 1 → t.senseOk = true) ∧
      t.overLimit = (s.tape.overLimit || bit f 11 || bit f 10 || decide (v < 46000000 ∨ 58000000 < v ∨ 80000000 < i)) ∧
      t.events = s.tape.events ++ (if (bit f 11 || bit f 10) && !s.tape.saturated then [0x0803] else [])) ∧
    (s.tape.frameValid f = false →
      v = (if s.tape.invalidRun < 16 ∧ s.tape.lastSeq ≠ none then s.tape.lastV else 0) ∧
      i = (if s.tape.invalidRun < 16 ∧ s.tape.lastSeq ≠ none then s.tape.lastI else 0) ∧
      t.lastSeq = s.tape.lastSeq ∧ t.invalidRun = s.tape.invalidRun + 1 ∧ t.validRun = 0 ∧ t.gapFrames = s.tape.gapFrames + 1 ∧
      t.gap = (s.tape.gap || decide (16 ≤ s.tape.invalidRun)) ∧ t.overLimit = s.tape.overLimit ∧
      t.senseOk = (s.tape.senseOk && s.tape.invalidRun + 1 != 125000) ∧
      t.events = s.tape.events ++ (if s.tape.invalidRun = 16 then [0x0801] else if s.tape.invalidRun = 124999 then [0x0802] else [])) ∧
    x = (if i.natAbs < 100000 then 0 else 8 * v * i) ∧ t.periodAj = s.tape.periodAj + x.toNat ∧
    t.acc < 360 * 10 ^ 18 ∧ t.rev < 360 * 10 ^ 18 ∧
    (s.tape.legal + (s.tape.acc + x.toNat) / (360 * 10 ^ 18) < 2 ^ 64 →
      t.legal * (360 * 10 ^ 18) + t.acc = s.tape.legal * (360 * 10 ^ 18) + s.tape.acc + x.toNat) ∧
    (s.tape.reverse + (s.tape.rev + (-x).toNat) / (360 * 10 ^ 18) < 2 ^ 64 →
      t.reverse * (360 * 10 ^ 18) + t.rev = s.tape.reverse * (360 * 10 ^ 18) + s.tape.rev + (-x).toNat)) ∧
  (∀ (s : State), s.tape.running = false ∨ s.tape.powerFail = true → exec .periodClose s = .next { s with eng := s.work } ∧
    exec .tapePfwN s = .next { s with eng := (mirrorWrite s.tape s.work).2, tape := (mirrorWrite s.tape s.work).1 } ∧
    ∀ f, exec (.senseFrame f) s = .next { s with eng := s.work }) ∧
  (∀ (s : State) (r : Tape × Eng), s.tape.running = true → s.tape.powerFail = false → s.tape.waiting = true →
    r = mirrorWrite (s.tape.unanswered.close) s.work → exec .periodClose s = .next { s with eng := r.2, tape := r.1 }) ∧
  (∀ (s : State), s.tape.running = true → s.tape.powerFail = false → s.tape.waiting = false → ∃ (t : Tape) (mj : Nat),
    exec .periodClose s = .next { s with eng := s.work, tape := t } ∧ s.tape.periodAj + s.tape.carry = mj * 10 ^ 15 + t.carry ∧ t.carry < 10 ^ 15 ∧
    t.currentMj = s.tape.currentMj + mj ∧ t.minuteMj = s.tape.minuteMj + mj ∧ t.periods = s.tape.periods + 1 ∧ t.waiting = true ∧ t.periodAj = 0 ∧
    t.overLast = s.tape.overLimit ∧ t.overLimit = false ∧ t.gapFrames = 0 ∧ t.minuteGapMs = s.tape.minuteGapMs + (s.tape.gapFrames * 8 + 999) / 1000 ∧
    t.minuteOver = (s.tape.minuteOver || s.tape.overLimit) ∧ t.minuteGap = (s.tape.minuteGap || s.tape.gap) ∧ t.legal = s.tape.legal ∧ t.acc = s.tape.acc) ∧
  (∀ (s : State) (mj : Nat) (acts : KV Nat), s.eng.boot.powered = true → s.eng.flt.recovery ≠ some .compute → s.tape.waiting = true →
    (∀ c, KV.get 0 s.tape.totals c < 2 ^ 64) → mj = s.tape.currentMj + s.tape.pendings.sum →
    acts = (s.eng.pld.slots.filter (fun p => p.st != .empty)).foldl (fun (m : KV Nat) p => KV.upd 0 m p.client (· + (s.tape.readSlot p).1)) [] →
    ∃ t r, r = mirrorWrite t s.work ∧ exec .handshakeAnswer s = .next { s with eng := r.2, tape := r.1 } ∧
      t.waiting = false ∧ t.currentMj = 0 ∧ t.pendings = [] ∧ t.hall = s.work.now ∧
      (∀ c, KV.get 0 t.totals c = (KV.get 0 s.tape.totals c + mj * KV.get 0 acts c / (acts.map (·.2)).sum) % 2 ^ 64) ∧
      (s.tape.periods % 60 ≠ 0 → t.log = s.tape.log ∧
        ∀ c, KV.get 0 t.minuteShares c = KV.get 0 s.tape.minuteShares c + mj * KV.get 0 acts c / (acts.map (·.2)).sum) ∧
      (s.tape.periods % 60 = 0 → s.tape.seq < t.seq ∧ t.minuteMj = 0 ∧ t.minuteUnattr = 0 ∧ t.minuteShares = [])) ∧
  (∀ (s : State), s.tape.waiting = true → ∃ t r, r = mirrorWrite t s.work ∧ exec .handshakeTimeout s = .next { s with eng := r.2, tape := r.1 } ∧
    t.waiting = false ∧ t.currentMj = 0 ∧ t.pendings = (s.tape.currentMj :: s.tape.pendings).take 60 ∧ t.hall = 0 ∧ t.totals = s.tape.totals ∧
    (s.tape.periods % 60 ≠ 0 → t.events = s.tape.events ++ [0x0806] ∧ t.log = s.tape.log ∧
      t.minuteUnattr = s.tape.minuteUnattr + ((s.tape.currentMj :: s.tape.pendings).drop 60).sum) ∧
    (s.tape.periods % 60 = 0 → s.tape.seq < t.seq ∧ t.minuteMj = 0 ∧ t.minuteUnattr = 0)) ∧
  (∀ (t : Tape) (e : Eng), (t.running = true → e.boot.powered = true → e.flt.recovery ≠ some .compute →
      (mirrorWrite t e).2.mirror = t.mirrorBytes ∧ (mirrorWrite t e).1 = { t with events := [] }) ∧
    ((t.running = false ∨ e.boot.powered = false ∨ e.flt.recovery = some .compute) → mirrorWrite t e = (t, e)))

/-- Tape's records are signed and numbered; the seal is for ever; the sealed port answers (R404, R405, R406, R407,
R408, Table 18-3, Table 18-4, log entry 4). A record is 384 bytes: the header, its body and the signature over its
first 320 bytes, or zeros without a key; it takes the next SEQ and is the newest of at most 10,922. TAPE_PORST_N
starts Tape with the saved state back, the key where the PUF response is good (else a free public key, log entry 4),
and the registers, constants, totals and log kept. TAPE_PFW_N saves the rests and pending energy and writes a type 3
record. On the port of a running Tape each command gets its answer, without power a NACK: CALIBRATE and SEAL only
before the seal, which writes a type 2 record with SEQ 0 and the hash of the constants, and starts the registers over;
CHALLENGE writes a type 4 record with the nonce, but not after the power-fail warning; the reads change nothing. -/
def Obligations.TapeRecordsSealsAndAnswers : Prop :=
  (∀ (t : Tape) (ty n : Nat) (c : Bool) (body : List Byte), t.log.length ≤ 10922 → ∃ r, r.length = 384 ∧
    r.take 320 = t.header ty n c ++ fitTo 256 body ∧ r.drop 320 = (if t.keyOk then fitTo 64 (edSign t.seed (r.take 320)) else zeros 64) ∧
    (t.record ty n c body).log = ((t.seq, r) :: t.log).take 10922 ∧ (t.record ty n c body).seq = t.seq + 1 ∧
    (t.record ty n c body).wrapped = (t.wrapped || decide (t.log.length = 10922))) ∧
  (∀ (s : State) (ok : Bool), ∃ (t : Tape), exec (.tapePorstN ok) s = .next { s with eng := s.work, tape := t } ∧
    t.running = true ∧ t.powerFail = false ∧ t.keyOk = ok ∧ (ok = true → t.seed = tapeSeed ∧ t.pub = edPublic tapeSeed) ∧
    (ok = false → t.seed = [] ∧ t.pub = (List.range 32).map Config.tapeNoKeyByte) ∧
    t.acc = s.tape.nv.acc ∧ t.rev = s.tape.nv.rev ∧ t.carry = s.tape.nv.carry ∧ t.pendings = s.tape.nv.pendings ∧ t.legal = s.tape.legal ∧
    t.reverse = s.tape.reverse ∧ t.totals = s.tape.totals ∧ t.log = s.tape.log ∧ t.seq = s.tape.seq ∧ t.sealed = s.tape.sealed ∧
    t.vOfs = s.tape.vOfs ∧ t.vGain = s.tape.vGain ∧ t.iOfs = s.tape.iOfs ∧ t.iGain = s.tape.iGain ∧
    t.events = (if ok then [] else [0x0804]) ++ (if s.tape.sealed then [] else [0x0808])) ∧
  (∀ (s : State), s.tape.running = true → s.tape.powerFail = false → ∃ t r, r = mirrorWrite t s.work ∧
    exec .tapePfwN s = .next { s with eng := r.2, tape := r.1 } ∧ t.powerFail = true ∧ t.nv.acc = s.tape.acc ∧ t.nv.rev = s.tape.rev ∧
    t.nv.carry = (s.tape.periodAj + s.tape.carry) % 10 ^ 15 ∧
    t.nv.pendings.sum = s.tape.pendings.sum + s.tape.currentMj + (s.tape.periodAj + s.tape.carry) / 10 ^ 15 ∧
    t.seq = s.tape.seq + 1 ∧ (∃ b, t.log.head? = some (s.tape.seq, b) ∧ b.head? = some 3) ∧ t.legal = s.tape.legal ∧ t.events.getLast? = some 0x0807) ∧
  (∀ (s : State) (x : TapeReply → Tape), (∀ r, x r = { s.tape with replies := s.tape.replies ++ [r] }) →
    (s.tape.running = false → ∀ c ∈ [Instr.getIdentity, .getStatus, .readChallenge, .seal], exec c s = .next { s with eng := s.work, tape := x .nack }) ∧
    (s.tape.running = false → ∀ q n cl a b c d, exec (.readRecord q) s = .next { s with eng := s.work, tape := x .nack } ∧
      exec (.challenge n) s = .next { s with eng := s.work, tape := x .nack } ∧ exec (.getClient cl) s = .next { s with eng := s.work, tape := x .nack } ∧
      exec (.calibrate a b c d) s = .next { s with eng := s.work, tape := x .nack }) ∧
    (s.tape.running = true →
      exec .getIdentity s = .next { s with eng := s.work, tape := x (.bytes (fitTo 32 s.tape.pub ++ leBytes 1 tapeRomVer ++
        leBytes 1 s.tape.sealed.toNat ++ leBytes 8 s.tape.sealSeq)) } ∧
      exec .getStatus s = .next { s with eng := s.work, tape := x (.bytes (leBytes 4 s.tape.status ++ leBytes 8 s.tape.legal ++
        leBytes 8 s.tape.reverse ++ leBytes 8 (s.tape.seq - 1))) } ∧
      (∀ q b, s.tape.log.find? (fun r => r.1 == q) = some (q, b) → exec (.readRecord q) s = .next { s with eng := s.work, tape := x (.bytes b) }) ∧
      (∀ q, s.tape.log.find? (fun r => r.1 == q) = none → exec (.readRecord q) s = .next { s with eng := s.work, tape := x (.bytes [0xFF]) }) ∧
      (∀ c, c < 2 ^ 16 → exec (.getClient c) s = .next { s with eng := s.work, tape := x (.bytes (leBytes 8 (KV.get 0 s.tape.totals c))) }) ∧
      exec .readChallenge s = .next { s with eng := s.work, tape := x (if s.tape.lastChallenge = [] then .nack else .bytes s.tape.lastChallenge) } ∧
      (s.tape.sealed = true → exec .seal s = .next { s with eng := s.work, tape := x .nack } ∧
        ∀ a b c d, exec (.calibrate a b c d) s = .next { s with eng := s.work, tape := x .nack }) ∧
      (s.tape.sealed = false → ∀ a b c d, ∃ y, y = x .ack ∧ exec (.calibrate a b c d) s = .next { s with eng := s.work, tape := { y with
        vOfs := toSigned 32 a, vGain := toSigned 32 b, iOfs := toSigned 32 c, iGain := toSigned 32 d } }) ∧
      (s.tape.powerFail = true → ∀ n, exec (.challenge n) s = .next { s with eng := s.work, tape := x .nack }))) ∧
  (∀ (s : State), s.tape.running = true → s.tape.sealed = false → ∃ t r b, r = mirrorWrite t s.work ∧
    exec .seal s = .next { s with eng := r.2, tape := r.1 } ∧ t.sealed = true ∧ t.legal = 0 ∧ t.reverse = 0 ∧ t.totals = [] ∧ t.frames = 0 ∧
    t.seq = 1 ∧ t.sealSeq = 0 ∧ t.log.head? = some (0, b) ∧ b.head? = some 2 ∧ (b.drop 64).take 32 = fitTo 32 (sha256 s.tape.constants) ∧
    t.vOfs = s.tape.vOfs ∧ t.vGain = s.tape.vGain ∧ t.iOfs = s.tape.iOfs ∧ t.iGain = s.tape.iGain ∧ t.replies = s.tape.replies ++ [.ack]) ∧
  (∀ (s : State) (n : List Byte), s.tape.running = true → s.tape.powerFail = false → n.length = 32 → ∃ t r b, r = mirrorWrite t s.work ∧
    exec (.challenge n) s = .next { s with eng := r.2, tape := r.1 } ∧ t.seq = s.tape.seq + 1 ∧ t.log.head? = some (s.tape.seq, b) ∧
    b.head? = some 4 ∧ (b.drop 64).take 32 = n ∧ t.lastChallenge = b ∧ t.replies = s.tape.replies ++ [.ack] ∧ t.legal = s.tape.legal)

/-- The pool registers are writable, refuse writes while a buffer is in use, and keep their values through a compute
reset (R259). TWK_BOB_TABLE and the pool registers are RWS: a write of one with no buffer HELD, RESERVED or ORPHAN
stores the value (of TWK_BOB_TABLE one that is 4,096 B aligned), every other register as it was; a compute reset
leaves each of them as it was; the power-on reset clears them. A write of any of them while HELD_ANY is set is
ignored: it sets WRITE_REFUSED and raises BOBBIN_WRITE_REFUSED, and no pool register changes by it. -/
def Obligations.PoolRegistersHoldFastAndStick : Prop :=
  (∀ (s : State) (off v : Nat) (wide : Bool), s.alert → isPoolReg off = true → (wide = isWide off) → v < (if wide then 2 ^ 64 else 2 ^ 32) →
    (off = Reg.bobTable → v % 4096 = 0) →
    (s.eng.heldAny = true → ∃ e : Eng, e = ({ s.work with bob := { s.eng.bob with refused := true } } : Eng).raise 0x0591 0 none 0 ∧
      exec (.poolConfigWrite off wide v) s = .next (s.leaves (e.settle s.hbm)) ∧ (∀ o, isPoolReg o = true → e.reg o = s.eng.reg o) ∧
      e.bob.refused = true) ∧
    (s.eng.heldAny = false → ∃ e : Eng, exec (.poolConfigWrite off wide v) s = .next (s.leaves (e.settle s.hbm)) ∧
      e.reg off = (if wide then v else v % 2 ^ 23) ∧ ∀ o, o ≠ off → e.reg o = s.eng.reg o)) ∧
  (∀ (s : State), s.on → s.eng.flt.recovery ≠ some .compute → ∃ t, exec .computeReset s = .next t ∧
    ∀ o, isPoolReg o = true → t.eng.reg o = s.eng.reg o) ∧
  (∀ (s : State), ∃ t, exec .engPorstN s = .next t ∧ ∀ o, isPoolReg o = true → t.eng.reg o = 0)
end

