-- ==== Sys2Proof/Laws/State.lean ====
section
/-! SUPPORT. What each plain update of the engine leaves alone: one lemma per field and update. -/

namespace Sys2Proof.Machine

variable (e : Eng)

@[simp] theorem Eng.setReg_wlog (off v : Nat) : (e.setReg off v).wlog = e.wlog := rfl
@[simp] theorem Eng.setReg_freeCtr (off v : Nat) : (e.setReg off v).freeCtr = e.freeCtr := rfl
@[simp] theorem Eng.setReg_time (off v : Nat) : (e.setReg off v).time = e.time := rfl
@[simp] theorem Eng.setReg_boot (off v : Nat) : (e.setReg off v).boot = e.boot := rfl
@[simp] theorem Eng.setReg_pwr (off v : Nat) : (e.setReg off v).pwr = e.pwr := rfl
@[simp] theorem Eng.setReg_flt (off v : Nat) : (e.setReg off v).flt = e.flt := rfl
@[simp] theorem Eng.setReg_loader (off v : Nat) : (e.setReg off v).loader = e.loader := rfl
@[simp] theorem Eng.setReg_pat (off v : Nat) : (e.setReg off v).pat = e.pat := rfl
@[simp] theorem Eng.setReg_slotCfg (off v : Nat) : (e.setReg off v).slotCfg = e.slotCfg := rfl
@[simp] theorem Eng.setReg_panelMaps (off v : Nat) : (e.setReg off v).panelMaps = e.panelMaps := rfl
@[simp] theorem Eng.setReg_ports (off v : Nat) : (e.setReg off v).ports = e.ports := rfl
@[simp] theorem Eng.setReg_peerVer (off v : Nat) : (e.setReg off v).peerVer = e.peerVer := rfl
@[simp] theorem Eng.setReg_tt (off v : Nat) : (e.setReg off v).tt = e.tt := rfl
@[simp] theorem Eng.setReg_ttGen (off v : Nat) : (e.setReg off v).ttGen = e.ttGen := rfl
@[simp] theorem Eng.setReg_ttFullSince (off v : Nat) : (e.setReg off v).ttFullSince = e.ttFullSince := rfl
@[simp] theorem Eng.setReg_ttFullBy (off v : Nat) : (e.setReg off v).ttFullBy = e.ttFullBy := rfl
@[simp] theorem Eng.setReg_acks (off v : Nat) : (e.setReg off v).acks = e.acks := rfl
@[simp] theorem Eng.setReg_copies (off v : Nat) : (e.setReg off v).copies = e.copies := rfl
@[simp] theorem Eng.setReg_excl (off v : Nat) : (e.setReg off v).excl = e.excl := rfl
@[simp] theorem Eng.setReg_outq (off v : Nat) : (e.setReg off v).outq = e.outq := rfl
@[simp] theorem Eng.setReg_fallbacks (off v : Nat) : (e.setReg off v).fallbacks = e.fallbacks := rfl
@[simp] theorem Eng.setReg_pins (off v : Nat) : (e.setReg off v).pins = e.pins := rfl
@[simp] theorem Eng.setReg_arbCount (off v : Nat) : (e.setReg off v).arbCount = e.arbCount := rfl
@[simp] theorem Eng.setReg_arbLast (off v : Nat) : (e.setReg off v).arbLast = e.arbLast := rfl
@[simp] theorem Eng.setReg_rings (off v : Nat) : (e.setReg off v).rings = e.rings := rfl
@[simp] theorem Eng.setReg_served (off v : Nat) : (e.setReg off v).served = e.served := rfl
@[simp] theorem Eng.setReg_cmds (off v : Nat) : (e.setReg off v).cmds = e.cmds := rfl
@[simp] theorem Eng.setReg_nextCmd (off v : Nat) : (e.setReg off v).nextCmd = e.nextCmd := rfl
@[simp] theorem Eng.setReg_wq (off v : Nat) : (e.setReg off v).wq = e.wq := rfl
@[simp] theorem Eng.setReg_evt (off v : Nat) : (e.setReg off v).evt = e.evt := rfl
@[simp] theorem Eng.setReg_lslots (off v : Nat) : (e.setReg off v).lslots = e.lslots := rfl
@[simp] theorem Eng.setReg_wcache (off v : Nat) : (e.setReg off v).wcache = e.wcache := rfl
@[simp] theorem Eng.setReg_tables (off v : Nat) : (e.setReg off v).tables = e.tables := rfl
@[simp] theorem Eng.setReg_outs (off v : Nat) : (e.setReg off v).outs = e.outs := rfl
@[simp] theorem Eng.setReg_savedSums (off v : Nat) : (e.setReg off v).savedSums = e.savedSums := rfl
@[simp] theorem Eng.setReg_works (off v : Nat) : (e.setReg off v).works = e.works := rfl
@[simp] theorem Eng.setReg_roles (off v : Nat) : (e.setReg off v).roles = e.roles := rfl
@[simp] theorem Eng.setReg_chans (off v : Nat) : (e.setReg off v).chans = e.chans := rfl
@[simp] theorem Eng.setReg_groups (off v : Nat) : (e.setReg off v).groups = e.groups := rfl
@[simp] theorem Eng.setReg_spool (off v : Nat) : (e.setReg off v).spool = e.spool := rfl
@[simp] theorem Eng.setReg_bob (off v : Nat) : (e.setReg off v).bob = e.bob := rfl
@[simp] theorem Eng.setReg_pld (off v : Nat) : (e.setReg off v).pld = e.pld := rfl
@[simp] theorem Eng.setReg_gauges (off v : Nat) : (e.setReg off v).gauges = e.gauges := rfl
@[simp] theorem Eng.setReg_experts (off v : Nat) : (e.setReg off v).experts = e.experts := rfl
@[simp] theorem Eng.setReg_srcs (off v : Nat) : (e.setReg off v).srcs = e.srcs := rfl
@[simp] theorem Eng.setReg_tacks (off v : Nat) : (e.setReg off v).tacks = e.tacks := rfl
@[simp] theorem Eng.setReg_bank0 (off v : Nat) : (e.setReg off v).bank0 = e.bank0 := rfl
@[simp] theorem Eng.setReg_bank1 (off v : Nat) : (e.setReg off v).bank1 = e.bank1 := rfl
@[simp] theorem Eng.setReg_lastBank (off v : Nat) : (e.setReg off v).lastBank = e.lastBank := rfl
@[simp] theorem Eng.setReg_latches (off v : Nat) : (e.setReg off v).latches = e.latches := rfl
@[simp] theorem Eng.setReg_diag (off v : Nat) : (e.setReg off v).diag = e.diag := rfl
@[simp] theorem Eng.setReg_acts (off v : Nat) : (e.setReg off v).acts = e.acts := rfl
@[simp] theorem Eng.setReg_mgmtAddr (off v : Nat) : (e.setReg off v).mgmtAddr = e.mgmtAddr := rfl
@[simp] theorem Eng.setReg_mgmtWide (off v : Nat) : (e.setReg off v).mgmtWide = e.mgmtWide := rfl
@[simp] theorem Eng.setReg_mirror (off v : Nat) : (e.setReg off v).mirror = e.mirror := rfl
@[simp] theorem Eng.setReg_tx (off v : Nat) : (e.setReg off v).tx = e.tx := rfl
@[simp] theorem Eng.setReg_irqs (off v : Nat) : (e.setReg off v).irqs = e.irqs := rfl
@[simp] theorem Eng.setReg_rsp (off v : Nat) : (e.setReg off v).rsp = e.rsp := rfl
@[simp] theorem Eng.setReg_posts (off v : Nat) : (e.setReg off v).posts = e.posts := rfl

@[simp] theorem Eng.bump_wlog (off lo n k : Nat) : (e.bump off lo n k).wlog = e.wlog := rfl
@[simp] theorem Eng.bump_freeCtr (off lo n k : Nat) : (e.bump off lo n k).freeCtr = e.freeCtr := rfl
@[simp] theorem Eng.bump_time (off lo n k : Nat) : (e.bump off lo n k).time = e.time := rfl
@[simp] theorem Eng.bump_boot (off lo n k : Nat) : (e.bump off lo n k).boot = e.boot := rfl
@[simp] theorem Eng.bump_pwr (off lo n k : Nat) : (e.bump off lo n k).pwr = e.pwr := rfl
@[simp] theorem Eng.bump_flt (off lo n k : Nat) : (e.bump off lo n k).flt = e.flt := rfl
@[simp] theorem Eng.bump_loader (off lo n k : Nat) : (e.bump off lo n k).loader = e.loader := rfl
@[simp] theorem Eng.bump_pat (off lo n k : Nat) : (e.bump off lo n k).pat = e.pat := rfl
@[simp] theorem Eng.bump_slotCfg (off lo n k : Nat) : (e.bump off lo n k).slotCfg = e.slotCfg := rfl
@[simp] theorem Eng.bump_panelMaps (off lo n k : Nat) : (e.bump off lo n k).panelMaps = e.panelMaps := rfl
@[simp] theorem Eng.bump_ports (off lo n k : Nat) : (e.bump off lo n k).ports = e.ports := rfl
@[simp] theorem Eng.bump_peerVer (off lo n k : Nat) : (e.bump off lo n k).peerVer = e.peerVer := rfl
@[simp] theorem Eng.bump_tt (off lo n k : Nat) : (e.bump off lo n k).tt = e.tt := rfl
@[simp] theorem Eng.bump_ttGen (off lo n k : Nat) : (e.bump off lo n k).ttGen = e.ttGen := rfl
@[simp] theorem Eng.bump_ttFullSince (off lo n k : Nat) : (e.bump off lo n k).ttFullSince = e.ttFullSince := rfl
@[simp] theorem Eng.bump_ttFullBy (off lo n k : Nat) : (e.bump off lo n k).ttFullBy = e.ttFullBy := rfl
@[simp] theorem Eng.bump_acks (off lo n k : Nat) : (e.bump off lo n k).acks = e.acks := rfl
@[simp] theorem Eng.bump_copies (off lo n k : Nat) : (e.bump off lo n k).copies = e.copies := rfl
@[simp] theorem Eng.bump_excl (off lo n k : Nat) : (e.bump off lo n k).excl = e.excl := rfl
@[simp] theorem Eng.bump_outq (off lo n k : Nat) : (e.bump off lo n k).outq = e.outq := rfl
@[simp] theorem Eng.bump_fallbacks (off lo n k : Nat) : (e.bump off lo n k).fallbacks = e.fallbacks := rfl
@[simp] theorem Eng.bump_pins (off lo n k : Nat) : (e.bump off lo n k).pins = e.pins := rfl
@[simp] theorem Eng.bump_arbCount (off lo n k : Nat) : (e.bump off lo n k).arbCount = e.arbCount := rfl
@[simp] theorem Eng.bump_arbLast (off lo n k : Nat) : (e.bump off lo n k).arbLast = e.arbLast := rfl
@[simp] theorem Eng.bump_rings (off lo n k : Nat) : (e.bump off lo n k).rings = e.rings := rfl
@[simp] theorem Eng.bump_served (off lo n k : Nat) : (e.bump off lo n k).served = e.served := rfl
@[simp] theorem Eng.bump_cmds (off lo n k : Nat) : (e.bump off lo n k).cmds = e.cmds := rfl
@[simp] theorem Eng.bump_nextCmd (off lo n k : Nat) : (e.bump off lo n k).nextCmd = e.nextCmd := rfl
@[simp] theorem Eng.bump_wq (off lo n k : Nat) : (e.bump off lo n k).wq = e.wq := rfl
@[simp] theorem Eng.bump_evt (off lo n k : Nat) : (e.bump off lo n k).evt = e.evt := rfl
@[simp] theorem Eng.bump_lslots (off lo n k : Nat) : (e.bump off lo n k).lslots = e.lslots := rfl
@[simp] theorem Eng.bump_wcache (off lo n k : Nat) : (e.bump off lo n k).wcache = e.wcache := rfl
@[simp] theorem Eng.bump_tables (off lo n k : Nat) : (e.bump off lo n k).tables = e.tables := rfl
@[simp] theorem Eng.bump_outs (off lo n k : Nat) : (e.bump off lo n k).outs = e.outs := rfl
@[simp] theorem Eng.bump_savedSums (off lo n k : Nat) : (e.bump off lo n k).savedSums = e.savedSums := rfl
@[simp] theorem Eng.bump_works (off lo n k : Nat) : (e.bump off lo n k).works = e.works := rfl
@[simp] theorem Eng.bump_roles (off lo n k : Nat) : (e.bump off lo n k).roles = e.roles := rfl
@[simp] theorem Eng.bump_chans (off lo n k : Nat) : (e.bump off lo n k).chans = e.chans := rfl
@[simp] theorem Eng.bump_groups (off lo n k : Nat) : (e.bump off lo n k).groups = e.groups := rfl
@[simp] theorem Eng.bump_spool (off lo n k : Nat) : (e.bump off lo n k).spool = e.spool := rfl
@[simp] theorem Eng.bump_bob (off lo n k : Nat) : (e.bump off lo n k).bob = e.bob := rfl
@[simp] theorem Eng.bump_pld (off lo n k : Nat) : (e.bump off lo n k).pld = e.pld := rfl
@[simp] theorem Eng.bump_gauges (off lo n k : Nat) : (e.bump off lo n k).gauges = e.gauges := rfl
@[simp] theorem Eng.bump_experts (off lo n k : Nat) : (e.bump off lo n k).experts = e.experts := rfl
@[simp] theorem Eng.bump_srcs (off lo n k : Nat) : (e.bump off lo n k).srcs = e.srcs := rfl
@[simp] theorem Eng.bump_tacks (off lo n k : Nat) : (e.bump off lo n k).tacks = e.tacks := rfl
@[simp] theorem Eng.bump_bank0 (off lo n k : Nat) : (e.bump off lo n k).bank0 = e.bank0 := rfl
@[simp] theorem Eng.bump_bank1 (off lo n k : Nat) : (e.bump off lo n k).bank1 = e.bank1 := rfl
@[simp] theorem Eng.bump_lastBank (off lo n k : Nat) : (e.bump off lo n k).lastBank = e.lastBank := rfl
@[simp] theorem Eng.bump_latches (off lo n k : Nat) : (e.bump off lo n k).latches = e.latches := rfl
@[simp] theorem Eng.bump_diag (off lo n k : Nat) : (e.bump off lo n k).diag = e.diag := rfl
@[simp] theorem Eng.bump_acts (off lo n k : Nat) : (e.bump off lo n k).acts = e.acts := rfl
@[simp] theorem Eng.bump_mgmtAddr (off lo n k : Nat) : (e.bump off lo n k).mgmtAddr = e.mgmtAddr := rfl
@[simp] theorem Eng.bump_mgmtWide (off lo n k : Nat) : (e.bump off lo n k).mgmtWide = e.mgmtWide := rfl
@[simp] theorem Eng.bump_mirror (off lo n k : Nat) : (e.bump off lo n k).mirror = e.mirror := rfl
@[simp] theorem Eng.bump_tx (off lo n k : Nat) : (e.bump off lo n k).tx = e.tx := rfl
@[simp] theorem Eng.bump_irqs (off lo n k : Nat) : (e.bump off lo n k).irqs = e.irqs := rfl
@[simp] theorem Eng.bump_rsp (off lo n k : Nat) : (e.bump off lo n k).rsp = e.rsp := rfl
@[simp] theorem Eng.bump_posts (off lo n k : Nat) : (e.bump off lo n k).posts = e.posts := rfl

@[simp] theorem Eng.bump32_wlog (off k : Nat) : (e.bump32 off k).wlog = e.wlog := rfl
@[simp] theorem Eng.bump32_freeCtr (off k : Nat) : (e.bump32 off k).freeCtr = e.freeCtr := rfl
@[simp] theorem Eng.bump32_time (off k : Nat) : (e.bump32 off k).time = e.time := rfl
@[simp] theorem Eng.bump32_boot (off k : Nat) : (e.bump32 off k).boot = e.boot := rfl
@[simp] theorem Eng.bump32_pwr (off k : Nat) : (e.bump32 off k).pwr = e.pwr := rfl
@[simp] theorem Eng.bump32_flt (off k : Nat) : (e.bump32 off k).flt = e.flt := rfl
@[simp] theorem Eng.bump32_loader (off k : Nat) : (e.bump32 off k).loader = e.loader := rfl
@[simp] theorem Eng.bump32_pat (off k : Nat) : (e.bump32 off k).pat = e.pat := rfl
@[simp] theorem Eng.bump32_slotCfg (off k : Nat) : (e.bump32 off k).slotCfg = e.slotCfg := rfl
@[simp] theorem Eng.bump32_panelMaps (off k : Nat) : (e.bump32 off k).panelMaps = e.panelMaps := rfl
@[simp] theorem Eng.bump32_ports (off k : Nat) : (e.bump32 off k).ports = e.ports := rfl
@[simp] theorem Eng.bump32_peerVer (off k : Nat) : (e.bump32 off k).peerVer = e.peerVer := rfl
@[simp] theorem Eng.bump32_tt (off k : Nat) : (e.bump32 off k).tt = e.tt := rfl
@[simp] theorem Eng.bump32_ttGen (off k : Nat) : (e.bump32 off k).ttGen = e.ttGen := rfl
@[simp] theorem Eng.bump32_ttFullSince (off k : Nat) : (e.bump32 off k).ttFullSince = e.ttFullSince := rfl
@[simp] theorem Eng.bump32_ttFullBy (off k : Nat) : (e.bump32 off k).ttFullBy = e.ttFullBy := rfl
@[simp] theorem Eng.bump32_acks (off k : Nat) : (e.bump32 off k).acks = e.acks := rfl
@[simp] theorem Eng.bump32_copies (off k : Nat) : (e.bump32 off k).copies = e.copies := rfl
@[simp] theorem Eng.bump32_excl (off k : Nat) : (e.bump32 off k).excl = e.excl := rfl
@[simp] theorem Eng.bump32_outq (off k : Nat) : (e.bump32 off k).outq = e.outq := rfl
@[simp] theorem Eng.bump32_fallbacks (off k : Nat) : (e.bump32 off k).fallbacks = e.fallbacks := rfl
@[simp] theorem Eng.bump32_pins (off k : Nat) : (e.bump32 off k).pins = e.pins := rfl
@[simp] theorem Eng.bump32_arbCount (off k : Nat) : (e.bump32 off k).arbCount = e.arbCount := rfl
@[simp] theorem Eng.bump32_arbLast (off k : Nat) : (e.bump32 off k).arbLast = e.arbLast := rfl
@[simp] theorem Eng.bump32_rings (off k : Nat) : (e.bump32 off k).rings = e.rings := rfl
@[simp] theorem Eng.bump32_served (off k : Nat) : (e.bump32 off k).served = e.served := rfl
@[simp] theorem Eng.bump32_cmds (off k : Nat) : (e.bump32 off k).cmds = e.cmds := rfl
@[simp] theorem Eng.bump32_nextCmd (off k : Nat) : (e.bump32 off k).nextCmd = e.nextCmd := rfl
@[simp] theorem Eng.bump32_wq (off k : Nat) : (e.bump32 off k).wq = e.wq := rfl
@[simp] theorem Eng.bump32_evt (off k : Nat) : (e.bump32 off k).evt = e.evt := rfl
@[simp] theorem Eng.bump32_lslots (off k : Nat) : (e.bump32 off k).lslots = e.lslots := rfl
@[simp] theorem Eng.bump32_wcache (off k : Nat) : (e.bump32 off k).wcache = e.wcache := rfl
@[simp] theorem Eng.bump32_tables (off k : Nat) : (e.bump32 off k).tables = e.tables := rfl
@[simp] theorem Eng.bump32_outs (off k : Nat) : (e.bump32 off k).outs = e.outs := rfl
@[simp] theorem Eng.bump32_savedSums (off k : Nat) : (e.bump32 off k).savedSums = e.savedSums := rfl
@[simp] theorem Eng.bump32_works (off k : Nat) : (e.bump32 off k).works = e.works := rfl
@[simp] theorem Eng.bump32_roles (off k : Nat) : (e.bump32 off k).roles = e.roles := rfl
@[simp] theorem Eng.bump32_chans (off k : Nat) : (e.bump32 off k).chans = e.chans := rfl
@[simp] theorem Eng.bump32_groups (off k : Nat) : (e.bump32 off k).groups = e.groups := rfl
@[simp] theorem Eng.bump32_spool (off k : Nat) : (e.bump32 off k).spool = e.spool := rfl
@[simp] theorem Eng.bump32_bob (off k : Nat) : (e.bump32 off k).bob = e.bob := rfl
@[simp] theorem Eng.bump32_pld (off k : Nat) : (e.bump32 off k).pld = e.pld := rfl
@[simp] theorem Eng.bump32_gauges (off k : Nat) : (e.bump32 off k).gauges = e.gauges := rfl
@[simp] theorem Eng.bump32_experts (off k : Nat) : (e.bump32 off k).experts = e.experts := rfl
@[simp] theorem Eng.bump32_srcs (off k : Nat) : (e.bump32 off k).srcs = e.srcs := rfl
@[simp] theorem Eng.bump32_tacks (off k : Nat) : (e.bump32 off k).tacks = e.tacks := rfl
@[simp] theorem Eng.bump32_bank0 (off k : Nat) : (e.bump32 off k).bank0 = e.bank0 := rfl
@[simp] theorem Eng.bump32_bank1 (off k : Nat) : (e.bump32 off k).bank1 = e.bank1 := rfl
@[simp] theorem Eng.bump32_lastBank (off k : Nat) : (e.bump32 off k).lastBank = e.lastBank := rfl
@[simp] theorem Eng.bump32_latches (off k : Nat) : (e.bump32 off k).latches = e.latches := rfl
@[simp] theorem Eng.bump32_diag (off k : Nat) : (e.bump32 off k).diag = e.diag := rfl
@[simp] theorem Eng.bump32_acts (off k : Nat) : (e.bump32 off k).acts = e.acts := rfl
@[simp] theorem Eng.bump32_mgmtAddr (off k : Nat) : (e.bump32 off k).mgmtAddr = e.mgmtAddr := rfl
@[simp] theorem Eng.bump32_mgmtWide (off k : Nat) : (e.bump32 off k).mgmtWide = e.mgmtWide := rfl
@[simp] theorem Eng.bump32_mirror (off k : Nat) : (e.bump32 off k).mirror = e.mirror := rfl
@[simp] theorem Eng.bump32_tx (off k : Nat) : (e.bump32 off k).tx = e.tx := rfl
@[simp] theorem Eng.bump32_irqs (off k : Nat) : (e.bump32 off k).irqs = e.irqs := rfl
@[simp] theorem Eng.bump32_rsp (off k : Nat) : (e.bump32 off k).rsp = e.rsp := rfl
@[simp] theorem Eng.bump32_posts (off k : Nat) : (e.bump32 off k).posts = e.posts := rfl

@[simp] theorem Eng.bump64_wlog (off k : Nat) : (e.bump64 off k).wlog = e.wlog := rfl
@[simp] theorem Eng.bump64_freeCtr (off k : Nat) : (e.bump64 off k).freeCtr = e.freeCtr := rfl
@[simp] theorem Eng.bump64_time (off k : Nat) : (e.bump64 off k).time = e.time := rfl
@[simp] theorem Eng.bump64_boot (off k : Nat) : (e.bump64 off k).boot = e.boot := rfl
@[simp] theorem Eng.bump64_pwr (off k : Nat) : (e.bump64 off k).pwr = e.pwr := rfl
@[simp] theorem Eng.bump64_flt (off k : Nat) : (e.bump64 off k).flt = e.flt := rfl
@[simp] theorem Eng.bump64_loader (off k : Nat) : (e.bump64 off k).loader = e.loader := rfl
@[simp] theorem Eng.bump64_pat (off k : Nat) : (e.bump64 off k).pat = e.pat := rfl
@[simp] theorem Eng.bump64_slotCfg (off k : Nat) : (e.bump64 off k).slotCfg = e.slotCfg := rfl
@[simp] theorem Eng.bump64_panelMaps (off k : Nat) : (e.bump64 off k).panelMaps = e.panelMaps := rfl
@[simp] theorem Eng.bump64_ports (off k : Nat) : (e.bump64 off k).ports = e.ports := rfl
@[simp] theorem Eng.bump64_peerVer (off k : Nat) : (e.bump64 off k).peerVer = e.peerVer := rfl
@[simp] theorem Eng.bump64_tt (off k : Nat) : (e.bump64 off k).tt = e.tt := rfl
@[simp] theorem Eng.bump64_ttGen (off k : Nat) : (e.bump64 off k).ttGen = e.ttGen := rfl
@[simp] theorem Eng.bump64_ttFullSince (off k : Nat) : (e.bump64 off k).ttFullSince = e.ttFullSince := rfl
@[simp] theorem Eng.bump64_ttFullBy (off k : Nat) : (e.bump64 off k).ttFullBy = e.ttFullBy := rfl
@[simp] theorem Eng.bump64_acks (off k : Nat) : (e.bump64 off k).acks = e.acks := rfl
@[simp] theorem Eng.bump64_copies (off k : Nat) : (e.bump64 off k).copies = e.copies := rfl
@[simp] theorem Eng.bump64_excl (off k : Nat) : (e.bump64 off k).excl = e.excl := rfl
@[simp] theorem Eng.bump64_outq (off k : Nat) : (e.bump64 off k).outq = e.outq := rfl
@[simp] theorem Eng.bump64_fallbacks (off k : Nat) : (e.bump64 off k).fallbacks = e.fallbacks := rfl
@[simp] theorem Eng.bump64_pins (off k : Nat) : (e.bump64 off k).pins = e.pins := rfl
@[simp] theorem Eng.bump64_arbCount (off k : Nat) : (e.bump64 off k).arbCount = e.arbCount := rfl
@[simp] theorem Eng.bump64_arbLast (off k : Nat) : (e.bump64 off k).arbLast = e.arbLast := rfl
@[simp] theorem Eng.bump64_rings (off k : Nat) : (e.bump64 off k).rings = e.rings := rfl
@[simp] theorem Eng.bump64_served (off k : Nat) : (e.bump64 off k).served = e.served := rfl
@[simp] theorem Eng.bump64_cmds (off k : Nat) : (e.bump64 off k).cmds = e.cmds := rfl
@[simp] theorem Eng.bump64_nextCmd (off k : Nat) : (e.bump64 off k).nextCmd = e.nextCmd := rfl
@[simp] theorem Eng.bump64_wq (off k : Nat) : (e.bump64 off k).wq = e.wq := rfl
@[simp] theorem Eng.bump64_evt (off k : Nat) : (e.bump64 off k).evt = e.evt := rfl
@[simp] theorem Eng.bump64_lslots (off k : Nat) : (e.bump64 off k).lslots = e.lslots := rfl
@[simp] theorem Eng.bump64_wcache (off k : Nat) : (e.bump64 off k).wcache = e.wcache := rfl
@[simp] theorem Eng.bump64_tables (off k : Nat) : (e.bump64 off k).tables = e.tables := rfl
@[simp] theorem Eng.bump64_outs (off k : Nat) : (e.bump64 off k).outs = e.outs := rfl
@[simp] theorem Eng.bump64_savedSums (off k : Nat) : (e.bump64 off k).savedSums = e.savedSums := rfl
@[simp] theorem Eng.bump64_works (off k : Nat) : (e.bump64 off k).works = e.works := rfl
@[simp] theorem Eng.bump64_roles (off k : Nat) : (e.bump64 off k).roles = e.roles := rfl
@[simp] theorem Eng.bump64_chans (off k : Nat) : (e.bump64 off k).chans = e.chans := rfl
@[simp] theorem Eng.bump64_groups (off k : Nat) : (e.bump64 off k).groups = e.groups := rfl
@[simp] theorem Eng.bump64_spool (off k : Nat) : (e.bump64 off k).spool = e.spool := rfl
@[simp] theorem Eng.bump64_bob (off k : Nat) : (e.bump64 off k).bob = e.bob := rfl
@[simp] theorem Eng.bump64_pld (off k : Nat) : (e.bump64 off k).pld = e.pld := rfl
@[simp] theorem Eng.bump64_gauges (off k : Nat) : (e.bump64 off k).gauges = e.gauges := rfl
@[simp] theorem Eng.bump64_experts (off k : Nat) : (e.bump64 off k).experts = e.experts := rfl
@[simp] theorem Eng.bump64_srcs (off k : Nat) : (e.bump64 off k).srcs = e.srcs := rfl
@[simp] theorem Eng.bump64_tacks (off k : Nat) : (e.bump64 off k).tacks = e.tacks := rfl
@[simp] theorem Eng.bump64_bank0 (off k : Nat) : (e.bump64 off k).bank0 = e.bank0 := rfl
@[simp] theorem Eng.bump64_bank1 (off k : Nat) : (e.bump64 off k).bank1 = e.bank1 := rfl
@[simp] theorem Eng.bump64_lastBank (off k : Nat) : (e.bump64 off k).lastBank = e.lastBank := rfl
@[simp] theorem Eng.bump64_latches (off k : Nat) : (e.bump64 off k).latches = e.latches := rfl
@[simp] theorem Eng.bump64_diag (off k : Nat) : (e.bump64 off k).diag = e.diag := rfl
@[simp] theorem Eng.bump64_acts (off k : Nat) : (e.bump64 off k).acts = e.acts := rfl
@[simp] theorem Eng.bump64_mgmtAddr (off k : Nat) : (e.bump64 off k).mgmtAddr = e.mgmtAddr := rfl
@[simp] theorem Eng.bump64_mgmtWide (off k : Nat) : (e.bump64 off k).mgmtWide = e.mgmtWide := rfl
@[simp] theorem Eng.bump64_mirror (off k : Nat) : (e.bump64 off k).mirror = e.mirror := rfl
@[simp] theorem Eng.bump64_tx (off k : Nat) : (e.bump64 off k).tx = e.tx := rfl
@[simp] theorem Eng.bump64_irqs (off k : Nat) : (e.bump64 off k).irqs = e.irqs := rfl
@[simp] theorem Eng.bump64_rsp (off k : Nat) : (e.bump64 off k).rsp = e.rsp := rfl
@[simp] theorem Eng.bump64_posts (off k : Nat) : (e.bump64 off k).posts = e.posts := rfl

@[simp] theorem Eng.reach_wlog (t : Nat) : (e.reach t).wlog = e.wlog := rfl
@[simp] theorem Eng.reach_freeCtr (t : Nat) : (e.reach t).freeCtr = e.freeCtr := rfl
@[simp] theorem Eng.reach_regs (t : Nat) : (e.reach t).regs = e.regs := rfl
@[simp] theorem Eng.reach_boot (t : Nat) : (e.reach t).boot = e.boot := rfl
@[simp] theorem Eng.reach_pwr (t : Nat) : (e.reach t).pwr = e.pwr := rfl
@[simp] theorem Eng.reach_flt (t : Nat) : (e.reach t).flt = e.flt := rfl
@[simp] theorem Eng.reach_loader (t : Nat) : (e.reach t).loader = e.loader := rfl
@[simp] theorem Eng.reach_pat (t : Nat) : (e.reach t).pat = e.pat := rfl
@[simp] theorem Eng.reach_slotCfg (t : Nat) : (e.reach t).slotCfg = e.slotCfg := rfl
@[simp] theorem Eng.reach_panelMaps (t : Nat) : (e.reach t).panelMaps = e.panelMaps := rfl
@[simp] theorem Eng.reach_ports (t : Nat) : (e.reach t).ports = e.ports := rfl
@[simp] theorem Eng.reach_peerVer (t : Nat) : (e.reach t).peerVer = e.peerVer := rfl
@[simp] theorem Eng.reach_tt (t : Nat) : (e.reach t).tt = e.tt := rfl
@[simp] theorem Eng.reach_ttGen (t : Nat) : (e.reach t).ttGen = e.ttGen := rfl
@[simp] theorem Eng.reach_ttFullSince (t : Nat) : (e.reach t).ttFullSince = e.ttFullSince := rfl
@[simp] theorem Eng.reach_ttFullBy (t : Nat) : (e.reach t).ttFullBy = e.ttFullBy := rfl
@[simp] theorem Eng.reach_acks (t : Nat) : (e.reach t).acks = e.acks := rfl
@[simp] theorem Eng.reach_copies (t : Nat) : (e.reach t).copies = e.copies := rfl
@[simp] theorem Eng.reach_excl (t : Nat) : (e.reach t).excl = e.excl := rfl
@[simp] theorem Eng.reach_outq (t : Nat) : (e.reach t).outq = e.outq := rfl
@[simp] theorem Eng.reach_fallbacks (t : Nat) : (e.reach t).fallbacks = e.fallbacks := rfl
@[simp] theorem Eng.reach_pins (t : Nat) : (e.reach t).pins = e.pins := rfl
@[simp] theorem Eng.reach_arbCount (t : Nat) : (e.reach t).arbCount = e.arbCount := rfl
@[simp] theorem Eng.reach_arbLast (t : Nat) : (e.reach t).arbLast = e.arbLast := rfl
@[simp] theorem Eng.reach_rings (t : Nat) : (e.reach t).rings = e.rings := rfl
@[simp] theorem Eng.reach_served (t : Nat) : (e.reach t).served = e.served := rfl
@[simp] theorem Eng.reach_cmds (t : Nat) : (e.reach t).cmds = e.cmds := rfl
@[simp] theorem Eng.reach_nextCmd (t : Nat) : (e.reach t).nextCmd = e.nextCmd := rfl
@[simp] theorem Eng.reach_wq (t : Nat) : (e.reach t).wq = e.wq := rfl
@[simp] theorem Eng.reach_evt (t : Nat) : (e.reach t).evt = e.evt := rfl
@[simp] theorem Eng.reach_lslots (t : Nat) : (e.reach t).lslots = e.lslots := rfl
@[simp] theorem Eng.reach_wcache (t : Nat) : (e.reach t).wcache = e.wcache := rfl
@[simp] theorem Eng.reach_tables (t : Nat) : (e.reach t).tables = e.tables := rfl
@[simp] theorem Eng.reach_outs (t : Nat) : (e.reach t).outs = e.outs := rfl
@[simp] theorem Eng.reach_savedSums (t : Nat) : (e.reach t).savedSums = e.savedSums := rfl
@[simp] theorem Eng.reach_works (t : Nat) : (e.reach t).works = e.works := rfl
@[simp] theorem Eng.reach_roles (t : Nat) : (e.reach t).roles = e.roles := rfl
@[simp] theorem Eng.reach_chans (t : Nat) : (e.reach t).chans = e.chans := rfl
@[simp] theorem Eng.reach_groups (t : Nat) : (e.reach t).groups = e.groups := rfl
@[simp] theorem Eng.reach_spool (t : Nat) : (e.reach t).spool = e.spool := rfl
@[simp] theorem Eng.reach_bob (t : Nat) : (e.reach t).bob = e.bob := rfl
@[simp] theorem Eng.reach_pld (t : Nat) : (e.reach t).pld = e.pld := rfl
@[simp] theorem Eng.reach_gauges (t : Nat) : (e.reach t).gauges = e.gauges := rfl
@[simp] theorem Eng.reach_experts (t : Nat) : (e.reach t).experts = e.experts := rfl
@[simp] theorem Eng.reach_srcs (t : Nat) : (e.reach t).srcs = e.srcs := rfl
@[simp] theorem Eng.reach_tacks (t : Nat) : (e.reach t).tacks = e.tacks := rfl
@[simp] theorem Eng.reach_bank0 (t : Nat) : (e.reach t).bank0 = e.bank0 := rfl
@[simp] theorem Eng.reach_bank1 (t : Nat) : (e.reach t).bank1 = e.bank1 := rfl
@[simp] theorem Eng.reach_lastBank (t : Nat) : (e.reach t).lastBank = e.lastBank := rfl
@[simp] theorem Eng.reach_latches (t : Nat) : (e.reach t).latches = e.latches := rfl
@[simp] theorem Eng.reach_diag (t : Nat) : (e.reach t).diag = e.diag := rfl
@[simp] theorem Eng.reach_acts (t : Nat) : (e.reach t).acts = e.acts := rfl
@[simp] theorem Eng.reach_mgmtAddr (t : Nat) : (e.reach t).mgmtAddr = e.mgmtAddr := rfl
@[simp] theorem Eng.reach_mgmtWide (t : Nat) : (e.reach t).mgmtWide = e.mgmtWide := rfl
@[simp] theorem Eng.reach_mirror (t : Nat) : (e.reach t).mirror = e.mirror := rfl
@[simp] theorem Eng.reach_tx (t : Nat) : (e.reach t).tx = e.tx := rfl
@[simp] theorem Eng.reach_irqs (t : Nat) : (e.reach t).irqs = e.irqs := rfl
@[simp] theorem Eng.reach_rsp (t : Nat) : (e.reach t).rsp = e.rsp := rfl
@[simp] theorem Eng.reach_posts (t : Nat) : (e.reach t).posts = e.posts := rfl

@[simp] theorem Eng.post_wlog (p : Post) : (e.post p).wlog = e.wlog := rfl
@[simp] theorem Eng.post_freeCtr (p : Post) : (e.post p).freeCtr = e.freeCtr := rfl
@[simp] theorem Eng.post_regs (p : Post) : (e.post p).regs = e.regs := rfl
@[simp] theorem Eng.post_time (p : Post) : (e.post p).time = e.time := rfl
@[simp] theorem Eng.post_boot (p : Post) : (e.post p).boot = e.boot := rfl
@[simp] theorem Eng.post_pwr (p : Post) : (e.post p).pwr = e.pwr := rfl
@[simp] theorem Eng.post_flt (p : Post) : (e.post p).flt = e.flt := rfl
@[simp] theorem Eng.post_loader (p : Post) : (e.post p).loader = e.loader := rfl
@[simp] theorem Eng.post_pat (p : Post) : (e.post p).pat = e.pat := rfl
@[simp] theorem Eng.post_slotCfg (p : Post) : (e.post p).slotCfg = e.slotCfg := rfl
@[simp] theorem Eng.post_panelMaps (p : Post) : (e.post p).panelMaps = e.panelMaps := rfl
@[simp] theorem Eng.post_ports (p : Post) : (e.post p).ports = e.ports := rfl
@[simp] theorem Eng.post_peerVer (p : Post) : (e.post p).peerVer = e.peerVer := rfl
@[simp] theorem Eng.post_tt (p : Post) : (e.post p).tt = e.tt := rfl
@[simp] theorem Eng.post_ttGen (p : Post) : (e.post p).ttGen = e.ttGen := rfl
@[simp] theorem Eng.post_ttFullSince (p : Post) : (e.post p).ttFullSince = e.ttFullSince := rfl
@[simp] theorem Eng.post_ttFullBy (p : Post) : (e.post p).ttFullBy = e.ttFullBy := rfl
@[simp] theorem Eng.post_acks (p : Post) : (e.post p).acks = e.acks := rfl
@[simp] theorem Eng.post_copies (p : Post) : (e.post p).copies = e.copies := rfl
@[simp] theorem Eng.post_excl (p : Post) : (e.post p).excl = e.excl := rfl
@[simp] theorem Eng.post_outq (p : Post) : (e.post p).outq = e.outq := rfl
@[simp] theorem Eng.post_fallbacks (p : Post) : (e.post p).fallbacks = e.fallbacks := rfl
@[simp] theorem Eng.post_pins (p : Post) : (e.post p).pins = e.pins := rfl
@[simp] theorem Eng.post_arbCount (p : Post) : (e.post p).arbCount = e.arbCount := rfl
@[simp] theorem Eng.post_arbLast (p : Post) : (e.post p).arbLast = e.arbLast := rfl
@[simp] theorem Eng.post_rings (p : Post) : (e.post p).rings = e.rings := rfl
@[simp] theorem Eng.post_served (p : Post) : (e.post p).served = e.served := rfl
@[simp] theorem Eng.post_cmds (p : Post) : (e.post p).cmds = e.cmds := rfl
@[simp] theorem Eng.post_nextCmd (p : Post) : (e.post p).nextCmd = e.nextCmd := rfl
@[simp] theorem Eng.post_wq (p : Post) : (e.post p).wq = e.wq := rfl
@[simp] theorem Eng.post_evt (p : Post) : (e.post p).evt = e.evt := rfl
@[simp] theorem Eng.post_lslots (p : Post) : (e.post p).lslots = e.lslots := rfl
@[simp] theorem Eng.post_wcache (p : Post) : (e.post p).wcache = e.wcache := rfl
@[simp] theorem Eng.post_tables (p : Post) : (e.post p).tables = e.tables := rfl
@[simp] theorem Eng.post_outs (p : Post) : (e.post p).outs = e.outs := rfl
@[simp] theorem Eng.post_savedSums (p : Post) : (e.post p).savedSums = e.savedSums := rfl
@[simp] theorem Eng.post_works (p : Post) : (e.post p).works = e.works := rfl
@[simp] theorem Eng.post_roles (p : Post) : (e.post p).roles = e.roles := rfl
@[simp] theorem Eng.post_chans (p : Post) : (e.post p).chans = e.chans := rfl
@[simp] theorem Eng.post_groups (p : Post) : (e.post p).groups = e.groups := rfl
@[simp] theorem Eng.post_spool (p : Post) : (e.post p).spool = e.spool := rfl
@[simp] theorem Eng.post_bob (p : Post) : (e.post p).bob = e.bob := rfl
@[simp] theorem Eng.post_pld (p : Post) : (e.post p).pld = e.pld := rfl
@[simp] theorem Eng.post_gauges (p : Post) : (e.post p).gauges = e.gauges := rfl
@[simp] theorem Eng.post_experts (p : Post) : (e.post p).experts = e.experts := rfl
@[simp] theorem Eng.post_srcs (p : Post) : (e.post p).srcs = e.srcs := rfl
@[simp] theorem Eng.post_tacks (p : Post) : (e.post p).tacks = e.tacks := rfl
@[simp] theorem Eng.post_bank0 (p : Post) : (e.post p).bank0 = e.bank0 := rfl
@[simp] theorem Eng.post_bank1 (p : Post) : (e.post p).bank1 = e.bank1 := rfl
@[simp] theorem Eng.post_lastBank (p : Post) : (e.post p).lastBank = e.lastBank := rfl
@[simp] theorem Eng.post_latches (p : Post) : (e.post p).latches = e.latches := rfl
@[simp] theorem Eng.post_diag (p : Post) : (e.post p).diag = e.diag := rfl
@[simp] theorem Eng.post_acts (p : Post) : (e.post p).acts = e.acts := rfl
@[simp] theorem Eng.post_mgmtAddr (p : Post) : (e.post p).mgmtAddr = e.mgmtAddr := rfl
@[simp] theorem Eng.post_mgmtWide (p : Post) : (e.post p).mgmtWide = e.mgmtWide := rfl
@[simp] theorem Eng.post_mirror (p : Post) : (e.post p).mirror = e.mirror := rfl
@[simp] theorem Eng.post_tx (p : Post) : (e.post p).tx = e.tx := rfl
@[simp] theorem Eng.post_irqs (p : Post) : (e.post p).irqs = e.irqs := rfl
@[simp] theorem Eng.post_rsp (p : Post) : (e.post p).rsp = e.rsp := rfl

@[simp] theorem Eng.irq_wlog (v : Nat) : (e.irq v).wlog = e.wlog := rfl
@[simp] theorem Eng.irq_freeCtr (v : Nat) : (e.irq v).freeCtr = e.freeCtr := rfl
@[simp] theorem Eng.irq_regs (v : Nat) : (e.irq v).regs = e.regs := rfl
@[simp] theorem Eng.irq_time (v : Nat) : (e.irq v).time = e.time := rfl
@[simp] theorem Eng.irq_boot (v : Nat) : (e.irq v).boot = e.boot := rfl
@[simp] theorem Eng.irq_pwr (v : Nat) : (e.irq v).pwr = e.pwr := rfl
@[simp] theorem Eng.irq_flt (v : Nat) : (e.irq v).flt = e.flt := rfl
@[simp] theorem Eng.irq_loader (v : Nat) : (e.irq v).loader = e.loader := rfl
@[simp] theorem Eng.irq_pat (v : Nat) : (e.irq v).pat = e.pat := rfl
@[simp] theorem Eng.irq_slotCfg (v : Nat) : (e.irq v).slotCfg = e.slotCfg := rfl
@[simp] theorem Eng.irq_panelMaps (v : Nat) : (e.irq v).panelMaps = e.panelMaps := rfl
@[simp] theorem Eng.irq_ports (v : Nat) : (e.irq v).ports = e.ports := rfl
@[simp] theorem Eng.irq_peerVer (v : Nat) : (e.irq v).peerVer = e.peerVer := rfl
@[simp] theorem Eng.irq_tt (v : Nat) : (e.irq v).tt = e.tt := rfl
@[simp] theorem Eng.irq_ttGen (v : Nat) : (e.irq v).ttGen = e.ttGen := rfl
@[simp] theorem Eng.irq_ttFullSince (v : Nat) : (e.irq v).ttFullSince = e.ttFullSince := rfl
@[simp] theorem Eng.irq_ttFullBy (v : Nat) : (e.irq v).ttFullBy = e.ttFullBy := rfl
@[simp] theorem Eng.irq_acks (v : Nat) : (e.irq v).acks = e.acks := rfl
@[simp] theorem Eng.irq_copies (v : Nat) : (e.irq v).copies = e.copies := rfl
@[simp] theorem Eng.irq_excl (v : Nat) : (e.irq v).excl = e.excl := rfl
@[simp] theorem Eng.irq_outq (v : Nat) : (e.irq v).outq = e.outq := rfl
@[simp] theorem Eng.irq_fallbacks (v : Nat) : (e.irq v).fallbacks = e.fallbacks := rfl
@[simp] theorem Eng.irq_pins (v : Nat) : (e.irq v).pins = e.pins := rfl
@[simp] theorem Eng.irq_arbCount (v : Nat) : (e.irq v).arbCount = e.arbCount := rfl
@[simp] theorem Eng.irq_arbLast (v : Nat) : (e.irq v).arbLast = e.arbLast := rfl
@[simp] theorem Eng.irq_rings (v : Nat) : (e.irq v).rings = e.rings := rfl
@[simp] theorem Eng.irq_served (v : Nat) : (e.irq v).served = e.served := rfl
@[simp] theorem Eng.irq_cmds (v : Nat) : (e.irq v).cmds = e.cmds := rfl
@[simp] theorem Eng.irq_nextCmd (v : Nat) : (e.irq v).nextCmd = e.nextCmd := rfl
@[simp] theorem Eng.irq_wq (v : Nat) : (e.irq v).wq = e.wq := rfl
@[simp] theorem Eng.irq_evt (v : Nat) : (e.irq v).evt = e.evt := rfl
@[simp] theorem Eng.irq_lslots (v : Nat) : (e.irq v).lslots = e.lslots := rfl
@[simp] theorem Eng.irq_wcache (v : Nat) : (e.irq v).wcache = e.wcache := rfl
@[simp] theorem Eng.irq_tables (v : Nat) : (e.irq v).tables = e.tables := rfl
@[simp] theorem Eng.irq_outs (v : Nat) : (e.irq v).outs = e.outs := rfl
@[simp] theorem Eng.irq_savedSums (v : Nat) : (e.irq v).savedSums = e.savedSums := rfl
@[simp] theorem Eng.irq_works (v : Nat) : (e.irq v).works = e.works := rfl
@[simp] theorem Eng.irq_roles (v : Nat) : (e.irq v).roles = e.roles := rfl
@[simp] theorem Eng.irq_chans (v : Nat) : (e.irq v).chans = e.chans := rfl
@[simp] theorem Eng.irq_groups (v : Nat) : (e.irq v).groups = e.groups := rfl
@[simp] theorem Eng.irq_spool (v : Nat) : (e.irq v).spool = e.spool := rfl
@[simp] theorem Eng.irq_bob (v : Nat) : (e.irq v).bob = e.bob := rfl
@[simp] theorem Eng.irq_pld (v : Nat) : (e.irq v).pld = e.pld := rfl
@[simp] theorem Eng.irq_gauges (v : Nat) : (e.irq v).gauges = e.gauges := rfl
@[simp] theorem Eng.irq_experts (v : Nat) : (e.irq v).experts = e.experts := rfl
@[simp] theorem Eng.irq_srcs (v : Nat) : (e.irq v).srcs = e.srcs := rfl
@[simp] theorem Eng.irq_tacks (v : Nat) : (e.irq v).tacks = e.tacks := rfl
@[simp] theorem Eng.irq_bank0 (v : Nat) : (e.irq v).bank0 = e.bank0 := rfl
@[simp] theorem Eng.irq_bank1 (v : Nat) : (e.irq v).bank1 = e.bank1 := rfl
@[simp] theorem Eng.irq_lastBank (v : Nat) : (e.irq v).lastBank = e.lastBank := rfl
@[simp] theorem Eng.irq_latches (v : Nat) : (e.irq v).latches = e.latches := rfl
@[simp] theorem Eng.irq_diag (v : Nat) : (e.irq v).diag = e.diag := rfl
@[simp] theorem Eng.irq_acts (v : Nat) : (e.irq v).acts = e.acts := rfl
@[simp] theorem Eng.irq_mgmtAddr (v : Nat) : (e.irq v).mgmtAddr = e.mgmtAddr := rfl
@[simp] theorem Eng.irq_mgmtWide (v : Nat) : (e.irq v).mgmtWide = e.mgmtWide := rfl
@[simp] theorem Eng.irq_mirror (v : Nat) : (e.irq v).mirror = e.mirror := rfl
@[simp] theorem Eng.irq_tx (v : Nat) : (e.irq v).tx = e.tx := rfl
@[simp] theorem Eng.irq_rsp (v : Nat) : (e.irq v).rsp = e.rsp := rfl
@[simp] theorem Eng.irq_posts (v : Nat) : (e.irq v).posts = e.posts := rfl

@[simp] theorem Eng.send_wlog (port : Option Nat) (vc : Nat) (m : TxMsg) : (e.send port vc m).wlog = e.wlog := rfl
@[simp] theorem Eng.send_freeCtr (port : Option Nat) (vc : Nat) (m : TxMsg) : (e.send port vc m).freeCtr = e.freeCtr := rfl
@[simp] theorem Eng.send_regs (port : Option Nat) (vc : Nat) (m : TxMsg) : (e.send port vc m).regs = e.regs := rfl
@[simp] theorem Eng.send_time (port : Option Nat) (vc : Nat) (m : TxMsg) : (e.send port vc m).time = e.time := rfl
@[simp] theorem Eng.send_boot (port : Option Nat) (vc : Nat) (m : TxMsg) : (e.send port vc m).boot = e.boot := rfl
@[simp] theorem Eng.send_pwr (port : Option Nat) (vc : Nat) (m : TxMsg) : (e.send port vc m).pwr = e.pwr := rfl
@[simp] theorem Eng.send_flt (port : Option Nat) (vc : Nat) (m : TxMsg) : (e.send port vc m).flt = e.flt := rfl
@[simp] theorem Eng.send_loader (port : Option Nat) (vc : Nat) (m : TxMsg) : (e.send port vc m).loader = e.loader := rfl
@[simp] theorem Eng.send_pat (port : Option Nat) (vc : Nat) (m : TxMsg) : (e.send port vc m).pat = e.pat := rfl
@[simp] theorem Eng.send_slotCfg (port : Option Nat) (vc : Nat) (m : TxMsg) : (e.send port vc m).slotCfg = e.slotCfg := rfl
@[simp] theorem Eng.send_panelMaps (port : Option Nat) (vc : Nat) (m : TxMsg) : (e.send port vc m).panelMaps = e.panelMaps := rfl
@[simp] theorem Eng.send_ports (port : Option Nat) (vc : Nat) (m : TxMsg) : (e.send port vc m).ports = e.ports := rfl
@[simp] theorem Eng.send_peerVer (port : Option Nat) (vc : Nat) (m : TxMsg) : (e.send port vc m).peerVer = e.peerVer := rfl
@[simp] theorem Eng.send_tt (port : Option Nat) (vc : Nat) (m : TxMsg) : (e.send port vc m).tt = e.tt := rfl
@[simp] theorem Eng.send_ttGen (port : Option Nat) (vc : Nat) (m : TxMsg) : (e.send port vc m).ttGen = e.ttGen := rfl
@[simp] theorem Eng.send_ttFullSince (port : Option Nat) (vc : Nat) (m : TxMsg) : (e.send port vc m).ttFullSince = e.ttFullSince := rfl
@[simp] theorem Eng.send_ttFullBy (port : Option Nat) (vc : Nat) (m : TxMsg) : (e.send port vc m).ttFullBy = e.ttFullBy := rfl
@[simp] theorem Eng.send_acks (port : Option Nat) (vc : Nat) (m : TxMsg) : (e.send port vc m).acks = e.acks := rfl
@[simp] theorem Eng.send_copies (port : Option Nat) (vc : Nat) (m : TxMsg) : (e.send port vc m).copies = e.copies := rfl
@[simp] theorem Eng.send_excl (port : Option Nat) (vc : Nat) (m : TxMsg) : (e.send port vc m).excl = e.excl := rfl
@[simp] theorem Eng.send_outq (port : Option Nat) (vc : Nat) (m : TxMsg) : (e.send port vc m).outq = e.outq := rfl
@[simp] theorem Eng.send_fallbacks (port : Option Nat) (vc : Nat) (m : TxMsg) : (e.send port vc m).fallbacks = e.fallbacks := rfl
@[simp] theorem Eng.send_pins (port : Option Nat) (vc : Nat) (m : TxMsg) : (e.send port vc m).pins = e.pins := rfl
@[simp] theorem Eng.send_arbCount (port : Option Nat) (vc : Nat) (m : TxMsg) : (e.send port vc m).arbCount = e.arbCount := rfl
@[simp] theorem Eng.send_arbLast (port : Option Nat) (vc : Nat) (m : TxMsg) : (e.send port vc m).arbLast = e.arbLast := rfl
@[simp] theorem Eng.send_rings (port : Option Nat) (vc : Nat) (m : TxMsg) : (e.send port vc m).rings = e.rings := rfl
@[simp] theorem Eng.send_served (port : Option Nat) (vc : Nat) (m : TxMsg) : (e.send port vc m).served = e.served := rfl
@[simp] theorem Eng.send_cmds (port : Option Nat) (vc : Nat) (m : TxMsg) : (e.send port vc m).cmds = e.cmds := rfl
@[simp] theorem Eng.send_nextCmd (port : Option Nat) (vc : Nat) (m : TxMsg) : (e.send port vc m).nextCmd = e.nextCmd := rfl
@[simp] theorem Eng.send_wq (port : Option Nat) (vc : Nat) (m : TxMsg) : (e.send port vc m).wq = e.wq := rfl
@[simp] theorem Eng.send_evt (port : Option Nat) (vc : Nat) (m : TxMsg) : (e.send port vc m).evt = e.evt := rfl
@[simp] theorem Eng.send_lslots (port : Option Nat) (vc : Nat) (m : TxMsg) : (e.send port vc m).lslots = e.lslots := rfl
@[simp] theorem Eng.send_wcache (port : Option Nat) (vc : Nat) (m : TxMsg) : (e.send port vc m).wcache = e.wcache := rfl
@[simp] theorem Eng.send_tables (port : Option Nat) (vc : Nat) (m : TxMsg) : (e.send port vc m).tables = e.tables := rfl
@[simp] theorem Eng.send_outs (port : Option Nat) (vc : Nat) (m : TxMsg) : (e.send port vc m).outs = e.outs := rfl
@[simp] theorem Eng.send_savedSums (port : Option Nat) (vc : Nat) (m : TxMsg) : (e.send port vc m).savedSums = e.savedSums := rfl
@[simp] theorem Eng.send_works (port : Option Nat) (vc : Nat) (m : TxMsg) : (e.send port vc m).works = e.works := rfl
@[simp] theorem Eng.send_roles (port : Option Nat) (vc : Nat) (m : TxMsg) : (e.send port vc m).roles = e.roles := rfl
@[simp] theorem Eng.send_chans (port : Option Nat) (vc : Nat) (m : TxMsg) : (e.send port vc m).chans = e.chans := rfl
@[simp] theorem Eng.send_groups (port : Option Nat) (vc : Nat) (m : TxMsg) : (e.send port vc m).groups = e.groups := rfl
@[simp] theorem Eng.send_spool (port : Option Nat) (vc : Nat) (m : TxMsg) : (e.send port vc m).spool = e.spool := rfl
@[simp] theorem Eng.send_bob (port : Option Nat) (vc : Nat) (m : TxMsg) : (e.send port vc m).bob = e.bob := rfl
@[simp] theorem Eng.send_pld (port : Option Nat) (vc : Nat) (m : TxMsg) : (e.send port vc m).pld = e.pld := rfl
@[simp] theorem Eng.send_gauges (port : Option Nat) (vc : Nat) (m : TxMsg) : (e.send port vc m).gauges = e.gauges := rfl
@[simp] theorem Eng.send_experts (port : Option Nat) (vc : Nat) (m : TxMsg) : (e.send port vc m).experts = e.experts := rfl
@[simp] theorem Eng.send_srcs (port : Option Nat) (vc : Nat) (m : TxMsg) : (e.send port vc m).srcs = e.srcs := rfl
@[simp] theorem Eng.send_tacks (port : Option Nat) (vc : Nat) (m : TxMsg) : (e.send port vc m).tacks = e.tacks := rfl
@[simp] theorem Eng.send_bank0 (port : Option Nat) (vc : Nat) (m : TxMsg) : (e.send port vc m).bank0 = e.bank0 := rfl
@[simp] theorem Eng.send_bank1 (port : Option Nat) (vc : Nat) (m : TxMsg) : (e.send port vc m).bank1 = e.bank1 := rfl
@[simp] theorem Eng.send_lastBank (port : Option Nat) (vc : Nat) (m : TxMsg) : (e.send port vc m).lastBank = e.lastBank := rfl
@[simp] theorem Eng.send_latches (port : Option Nat) (vc : Nat) (m : TxMsg) : (e.send port vc m).latches = e.latches := rfl
@[simp] theorem Eng.send_diag (port : Option Nat) (vc : Nat) (m : TxMsg) : (e.send port vc m).diag = e.diag := rfl
@[simp] theorem Eng.send_acts (port : Option Nat) (vc : Nat) (m : TxMsg) : (e.send port vc m).acts = e.acts := rfl
@[simp] theorem Eng.send_mgmtAddr (port : Option Nat) (vc : Nat) (m : TxMsg) : (e.send port vc m).mgmtAddr = e.mgmtAddr := rfl
@[simp] theorem Eng.send_mgmtWide (port : Option Nat) (vc : Nat) (m : TxMsg) : (e.send port vc m).mgmtWide = e.mgmtWide := rfl
@[simp] theorem Eng.send_mirror (port : Option Nat) (vc : Nat) (m : TxMsg) : (e.send port vc m).mirror = e.mirror := rfl
@[simp] theorem Eng.send_irqs (port : Option Nat) (vc : Nat) (m : TxMsg) : (e.send port vc m).irqs = e.irqs := rfl
@[simp] theorem Eng.send_rsp (port : Option Nat) (vc : Nat) (m : TxMsg) : (e.send port vc m).rsp = e.rsp := rfl
@[simp] theorem Eng.send_posts (port : Option Nat) (vc : Nat) (m : TxMsg) : (e.send port vc m).posts = e.posts := rfl

@[simp] theorem Eng.store_freeCtr (a : Nat) (bs : List Byte) : (e.store a bs).freeCtr = e.freeCtr := rfl
@[simp] theorem Eng.store_regs (a : Nat) (bs : List Byte) : (e.store a bs).regs = e.regs := rfl
@[simp] theorem Eng.store_time (a : Nat) (bs : List Byte) : (e.store a bs).time = e.time := rfl
@[simp] theorem Eng.store_boot (a : Nat) (bs : List Byte) : (e.store a bs).boot = e.boot := rfl
@[simp] theorem Eng.store_pwr (a : Nat) (bs : List Byte) : (e.store a bs).pwr = e.pwr := rfl
@[simp] theorem Eng.store_flt (a : Nat) (bs : List Byte) : (e.store a bs).flt = e.flt := rfl
@[simp] theorem Eng.store_loader (a : Nat) (bs : List Byte) : (e.store a bs).loader = e.loader := rfl
@[simp] theorem Eng.store_pat (a : Nat) (bs : List Byte) : (e.store a bs).pat = e.pat := rfl
@[simp] theorem Eng.store_slotCfg (a : Nat) (bs : List Byte) : (e.store a bs).slotCfg = e.slotCfg := rfl
@[simp] theorem Eng.store_panelMaps (a : Nat) (bs : List Byte) : (e.store a bs).panelMaps = e.panelMaps := rfl
@[simp] theorem Eng.store_ports (a : Nat) (bs : List Byte) : (e.store a bs).ports = e.ports := rfl
@[simp] theorem Eng.store_peerVer (a : Nat) (bs : List Byte) : (e.store a bs).peerVer = e.peerVer := rfl
@[simp] theorem Eng.store_tt (a : Nat) (bs : List Byte) : (e.store a bs).tt = e.tt := rfl
@[simp] theorem Eng.store_ttGen (a : Nat) (bs : List Byte) : (e.store a bs).ttGen = e.ttGen := rfl
@[simp] theorem Eng.store_ttFullSince (a : Nat) (bs : List Byte) : (e.store a bs).ttFullSince = e.ttFullSince := rfl
@[simp] theorem Eng.store_ttFullBy (a : Nat) (bs : List Byte) : (e.store a bs).ttFullBy = e.ttFullBy := rfl
@[simp] theorem Eng.store_acks (a : Nat) (bs : List Byte) : (e.store a bs).acks = e.acks := rfl
@[simp] theorem Eng.store_copies (a : Nat) (bs : List Byte) : (e.store a bs).copies = e.copies := rfl
@[simp] theorem Eng.store_excl (a : Nat) (bs : List Byte) : (e.store a bs).excl = e.excl := rfl
@[simp] theorem Eng.store_outq (a : Nat) (bs : List Byte) : (e.store a bs).outq = e.outq := rfl
@[simp] theorem Eng.store_fallbacks (a : Nat) (bs : List Byte) : (e.store a bs).fallbacks = e.fallbacks := rfl
@[simp] theorem Eng.store_pins (a : Nat) (bs : List Byte) : (e.store a bs).pins = e.pins := rfl
@[simp] theorem Eng.store_arbCount (a : Nat) (bs : List Byte) : (e.store a bs).arbCount = e.arbCount := rfl
@[simp] theorem Eng.store_arbLast (a : Nat) (bs : List Byte) : (e.store a bs).arbLast = e.arbLast := rfl
@[simp] theorem Eng.store_rings (a : Nat) (bs : List Byte) : (e.store a bs).rings = e.rings := rfl
@[simp] theorem Eng.store_served (a : Nat) (bs : List Byte) : (e.store a bs).served = e.served := rfl
@[simp] theorem Eng.store_cmds (a : Nat) (bs : List Byte) : (e.store a bs).cmds = e.cmds := rfl
@[simp] theorem Eng.store_nextCmd (a : Nat) (bs : List Byte) : (e.store a bs).nextCmd = e.nextCmd := rfl
@[simp] theorem Eng.store_wq (a : Nat) (bs : List Byte) : (e.store a bs).wq = e.wq := rfl
@[simp] theorem Eng.store_evt (a : Nat) (bs : List Byte) : (e.store a bs).evt = e.evt := rfl
@[simp] theorem Eng.store_lslots (a : Nat) (bs : List Byte) : (e.store a bs).lslots = e.lslots := rfl
@[simp] theorem Eng.store_wcache (a : Nat) (bs : List Byte) : (e.store a bs).wcache = e.wcache := rfl
@[simp] theorem Eng.store_tables (a : Nat) (bs : List Byte) : (e.store a bs).tables = e.tables := rfl
@[simp] theorem Eng.store_outs (a : Nat) (bs : List Byte) : (e.store a bs).outs = e.outs := rfl
@[simp] theorem Eng.store_savedSums (a : Nat) (bs : List Byte) : (e.store a bs).savedSums = e.savedSums := rfl
@[simp] theorem Eng.store_works (a : Nat) (bs : List Byte) : (e.store a bs).works = e.works := rfl
@[simp] theorem Eng.store_roles (a : Nat) (bs : List Byte) : (e.store a bs).roles = e.roles := rfl
@[simp] theorem Eng.store_chans (a : Nat) (bs : List Byte) : (e.store a bs).chans = e.chans := rfl
@[simp] theorem Eng.store_groups (a : Nat) (bs : List Byte) : (e.store a bs).groups = e.groups := rfl
@[simp] theorem Eng.store_spool (a : Nat) (bs : List Byte) : (e.store a bs).spool = e.spool := rfl
@[simp] theorem Eng.store_bob (a : Nat) (bs : List Byte) : (e.store a bs).bob = e.bob := rfl
@[simp] theorem Eng.store_pld (a : Nat) (bs : List Byte) : (e.store a bs).pld = e.pld := rfl
@[simp] theorem Eng.store_gauges (a : Nat) (bs : List Byte) : (e.store a bs).gauges = e.gauges := rfl
@[simp] theorem Eng.store_experts (a : Nat) (bs : List Byte) : (e.store a bs).experts = e.experts := rfl
@[simp] theorem Eng.store_srcs (a : Nat) (bs : List Byte) : (e.store a bs).srcs = e.srcs := rfl
@[simp] theorem Eng.store_tacks (a : Nat) (bs : List Byte) : (e.store a bs).tacks = e.tacks := rfl
@[simp] theorem Eng.store_bank0 (a : Nat) (bs : List Byte) : (e.store a bs).bank0 = e.bank0 := rfl
@[simp] theorem Eng.store_bank1 (a : Nat) (bs : List Byte) : (e.store a bs).bank1 = e.bank1 := rfl
@[simp] theorem Eng.store_lastBank (a : Nat) (bs : List Byte) : (e.store a bs).lastBank = e.lastBank := rfl
@[simp] theorem Eng.store_latches (a : Nat) (bs : List Byte) : (e.store a bs).latches = e.latches := rfl
@[simp] theorem Eng.store_diag (a : Nat) (bs : List Byte) : (e.store a bs).diag = e.diag := rfl
@[simp] theorem Eng.store_acts (a : Nat) (bs : List Byte) : (e.store a bs).acts = e.acts := rfl
@[simp] theorem Eng.store_mgmtAddr (a : Nat) (bs : List Byte) : (e.store a bs).mgmtAddr = e.mgmtAddr := rfl
@[simp] theorem Eng.store_mgmtWide (a : Nat) (bs : List Byte) : (e.store a bs).mgmtWide = e.mgmtWide := rfl
@[simp] theorem Eng.store_mirror (a : Nat) (bs : List Byte) : (e.store a bs).mirror = e.mirror := rfl
@[simp] theorem Eng.store_tx (a : Nat) (bs : List Byte) : (e.store a bs).tx = e.tx := rfl
@[simp] theorem Eng.store_irqs (a : Nat) (bs : List Byte) : (e.store a bs).irqs = e.irqs := rfl
@[simp] theorem Eng.store_rsp (a : Nat) (bs : List Byte) : (e.store a bs).rsp = e.rsp := rfl
@[simp] theorem Eng.store_posts (a : Nat) (bs : List Byte) : (e.store a bs).posts = e.posts := rfl

@[simp] theorem Eng.setPslot_wlog (s : Nat) (f : PldSlot → PldSlot) : (e.setPslot s f).wlog = e.wlog := rfl
@[simp] theorem Eng.setPslot_freeCtr (s : Nat) (f : PldSlot → PldSlot) : (e.setPslot s f).freeCtr = e.freeCtr := rfl
@[simp] theorem Eng.setPslot_regs (s : Nat) (f : PldSlot → PldSlot) : (e.setPslot s f).regs = e.regs := rfl
@[simp] theorem Eng.setPslot_time (s : Nat) (f : PldSlot → PldSlot) : (e.setPslot s f).time = e.time := rfl
@[simp] theorem Eng.setPslot_boot (s : Nat) (f : PldSlot → PldSlot) : (e.setPslot s f).boot = e.boot := rfl
@[simp] theorem Eng.setPslot_pwr (s : Nat) (f : PldSlot → PldSlot) : (e.setPslot s f).pwr = e.pwr := rfl
@[simp] theorem Eng.setPslot_flt (s : Nat) (f : PldSlot → PldSlot) : (e.setPslot s f).flt = e.flt := rfl
@[simp] theorem Eng.setPslot_loader (s : Nat) (f : PldSlot → PldSlot) : (e.setPslot s f).loader = e.loader := rfl
@[simp] theorem Eng.setPslot_pat (s : Nat) (f : PldSlot → PldSlot) : (e.setPslot s f).pat = e.pat := rfl
@[simp] theorem Eng.setPslot_slotCfg (s : Nat) (f : PldSlot → PldSlot) : (e.setPslot s f).slotCfg = e.slotCfg := rfl
@[simp] theorem Eng.setPslot_panelMaps (s : Nat) (f : PldSlot → PldSlot) : (e.setPslot s f).panelMaps = e.panelMaps := rfl
@[simp] theorem Eng.setPslot_ports (s : Nat) (f : PldSlot → PldSlot) : (e.setPslot s f).ports = e.ports := rfl
@[simp] theorem Eng.setPslot_peerVer (s : Nat) (f : PldSlot → PldSlot) : (e.setPslot s f).peerVer = e.peerVer := rfl
@[simp] theorem Eng.setPslot_tt (s : Nat) (f : PldSlot → PldSlot) : (e.setPslot s f).tt = e.tt := rfl
@[simp] theorem Eng.setPslot_ttGen (s : Nat) (f : PldSlot → PldSlot) : (e.setPslot s f).ttGen = e.ttGen := rfl
@[simp] theorem Eng.setPslot_ttFullSince (s : Nat) (f : PldSlot → PldSlot) : (e.setPslot s f).ttFullSince = e.ttFullSince := rfl
@[simp] theorem Eng.setPslot_ttFullBy (s : Nat) (f : PldSlot → PldSlot) : (e.setPslot s f).ttFullBy = e.ttFullBy := rfl
@[simp] theorem Eng.setPslot_acks (s : Nat) (f : PldSlot → PldSlot) : (e.setPslot s f).acks = e.acks := rfl
@[simp] theorem Eng.setPslot_copies (s : Nat) (f : PldSlot → PldSlot) : (e.setPslot s f).copies = e.copies := rfl
@[simp] theorem Eng.setPslot_excl (s : Nat) (f : PldSlot → PldSlot) : (e.setPslot s f).excl = e.excl := rfl
@[simp] theorem Eng.setPslot_outq (s : Nat) (f : PldSlot → PldSlot) : (e.setPslot s f).outq = e.outq := rfl
@[simp] theorem Eng.setPslot_fallbacks (s : Nat) (f : PldSlot → PldSlot) : (e.setPslot s f).fallbacks = e.fallbacks := rfl
@[simp] theorem Eng.setPslot_pins (s : Nat) (f : PldSlot → PldSlot) : (e.setPslot s f).pins = e.pins := rfl
@[simp] theorem Eng.setPslot_arbCount (s : Nat) (f : PldSlot → PldSlot) : (e.setPslot s f).arbCount = e.arbCount := rfl
@[simp] theorem Eng.setPslot_arbLast (s : Nat) (f : PldSlot → PldSlot) : (e.setPslot s f).arbLast = e.arbLast := rfl
@[simp] theorem Eng.setPslot_rings (s : Nat) (f : PldSlot → PldSlot) : (e.setPslot s f).rings = e.rings := rfl
@[simp] theorem Eng.setPslot_served (s : Nat) (f : PldSlot → PldSlot) : (e.setPslot s f).served = e.served := rfl
@[simp] theorem Eng.setPslot_cmds (s : Nat) (f : PldSlot → PldSlot) : (e.setPslot s f).cmds = e.cmds := rfl
@[simp] theorem Eng.setPslot_nextCmd (s : Nat) (f : PldSlot → PldSlot) : (e.setPslot s f).nextCmd = e.nextCmd := rfl
@[simp] theorem Eng.setPslot_wq (s : Nat) (f : PldSlot → PldSlot) : (e.setPslot s f).wq = e.wq := rfl
@[simp] theorem Eng.setPslot_evt (s : Nat) (f : PldSlot → PldSlot) : (e.setPslot s f).evt = e.evt := rfl
@[simp] theorem Eng.setPslot_lslots (s : Nat) (f : PldSlot → PldSlot) : (e.setPslot s f).lslots = e.lslots := rfl
@[simp] theorem Eng.setPslot_wcache (s : Nat) (f : PldSlot → PldSlot) : (e.setPslot s f).wcache = e.wcache := rfl
@[simp] theorem Eng.setPslot_tables (s : Nat) (f : PldSlot → PldSlot) : (e.setPslot s f).tables = e.tables := rfl
@[simp] theorem Eng.setPslot_outs (s : Nat) (f : PldSlot → PldSlot) : (e.setPslot s f).outs = e.outs := rfl
@[simp] theorem Eng.setPslot_savedSums (s : Nat) (f : PldSlot → PldSlot) : (e.setPslot s f).savedSums = e.savedSums := rfl
@[simp] theorem Eng.setPslot_works (s : Nat) (f : PldSlot → PldSlot) : (e.setPslot s f).works = e.works := rfl
@[simp] theorem Eng.setPslot_roles (s : Nat) (f : PldSlot → PldSlot) : (e.setPslot s f).roles = e.roles := rfl
@[simp] theorem Eng.setPslot_chans (s : Nat) (f : PldSlot → PldSlot) : (e.setPslot s f).chans = e.chans := rfl
@[simp] theorem Eng.setPslot_groups (s : Nat) (f : PldSlot → PldSlot) : (e.setPslot s f).groups = e.groups := rfl
@[simp] theorem Eng.setPslot_spool (s : Nat) (f : PldSlot → PldSlot) : (e.setPslot s f).spool = e.spool := rfl
@[simp] theorem Eng.setPslot_bob (s : Nat) (f : PldSlot → PldSlot) : (e.setPslot s f).bob = e.bob := rfl
@[simp] theorem Eng.setPslot_gauges (s : Nat) (f : PldSlot → PldSlot) : (e.setPslot s f).gauges = e.gauges := rfl
@[simp] theorem Eng.setPslot_experts (s : Nat) (f : PldSlot → PldSlot) : (e.setPslot s f).experts = e.experts := rfl
@[simp] theorem Eng.setPslot_srcs (s : Nat) (f : PldSlot → PldSlot) : (e.setPslot s f).srcs = e.srcs := rfl
@[simp] theorem Eng.setPslot_tacks (s : Nat) (f : PldSlot → PldSlot) : (e.setPslot s f).tacks = e.tacks := rfl
@[simp] theorem Eng.setPslot_bank0 (s : Nat) (f : PldSlot → PldSlot) : (e.setPslot s f).bank0 = e.bank0 := rfl
@[simp] theorem Eng.setPslot_bank1 (s : Nat) (f : PldSlot → PldSlot) : (e.setPslot s f).bank1 = e.bank1 := rfl
@[simp] theorem Eng.setPslot_lastBank (s : Nat) (f : PldSlot → PldSlot) : (e.setPslot s f).lastBank = e.lastBank := rfl
@[simp] theorem Eng.setPslot_latches (s : Nat) (f : PldSlot → PldSlot) : (e.setPslot s f).latches = e.latches := rfl
@[simp] theorem Eng.setPslot_diag (s : Nat) (f : PldSlot → PldSlot) : (e.setPslot s f).diag = e.diag := rfl
@[simp] theorem Eng.setPslot_acts (s : Nat) (f : PldSlot → PldSlot) : (e.setPslot s f).acts = e.acts := rfl
@[simp] theorem Eng.setPslot_mgmtAddr (s : Nat) (f : PldSlot → PldSlot) : (e.setPslot s f).mgmtAddr = e.mgmtAddr := rfl
@[simp] theorem Eng.setPslot_mgmtWide (s : Nat) (f : PldSlot → PldSlot) : (e.setPslot s f).mgmtWide = e.mgmtWide := rfl
@[simp] theorem Eng.setPslot_mirror (s : Nat) (f : PldSlot → PldSlot) : (e.setPslot s f).mirror = e.mirror := rfl
@[simp] theorem Eng.setPslot_tx (s : Nat) (f : PldSlot → PldSlot) : (e.setPslot s f).tx = e.tx := rfl
@[simp] theorem Eng.setPslot_irqs (s : Nat) (f : PldSlot → PldSlot) : (e.setPslot s f).irqs = e.irqs := rfl
@[simp] theorem Eng.setPslot_rsp (s : Nat) (f : PldSlot → PldSlot) : (e.setPslot s f).rsp = e.rsp := rfl
@[simp] theorem Eng.setPslot_posts (s : Nat) (f : PldSlot → PldSlot) : (e.setPslot s f).posts = e.posts := rfl

@[simp] theorem Eng.setLslot_wlog (s : Nat) (f : LSlot → LSlot) : (e.setLslot s f).wlog = e.wlog := rfl
@[simp] theorem Eng.setLslot_freeCtr (s : Nat) (f : LSlot → LSlot) : (e.setLslot s f).freeCtr = e.freeCtr := rfl
@[simp] theorem Eng.setLslot_regs (s : Nat) (f : LSlot → LSlot) : (e.setLslot s f).regs = e.regs := rfl
@[simp] theorem Eng.setLslot_time (s : Nat) (f : LSlot → LSlot) : (e.setLslot s f).time = e.time := rfl
@[simp] theorem Eng.setLslot_boot (s : Nat) (f : LSlot → LSlot) : (e.setLslot s f).boot = e.boot := rfl
@[simp] theorem Eng.setLslot_pwr (s : Nat) (f : LSlot → LSlot) : (e.setLslot s f).pwr = e.pwr := rfl
@[simp] theorem Eng.setLslot_flt (s : Nat) (f : LSlot → LSlot) : (e.setLslot s f).flt = e.flt := rfl
@[simp] theorem Eng.setLslot_loader (s : Nat) (f : LSlot → LSlot) : (e.setLslot s f).loader = e.loader := rfl
@[simp] theorem Eng.setLslot_pat (s : Nat) (f : LSlot → LSlot) : (e.setLslot s f).pat = e.pat := rfl
@[simp] theorem Eng.setLslot_slotCfg (s : Nat) (f : LSlot → LSlot) : (e.setLslot s f).slotCfg = e.slotCfg := rfl
@[simp] theorem Eng.setLslot_panelMaps (s : Nat) (f : LSlot → LSlot) : (e.setLslot s f).panelMaps = e.panelMaps := rfl
@[simp] theorem Eng.setLslot_ports (s : Nat) (f : LSlot → LSlot) : (e.setLslot s f).ports = e.ports := rfl
@[simp] theorem Eng.setLslot_peerVer (s : Nat) (f : LSlot → LSlot) : (e.setLslot s f).peerVer = e.peerVer := rfl
@[simp] theorem Eng.setLslot_tt (s : Nat) (f : LSlot → LSlot) : (e.setLslot s f).tt = e.tt := rfl
@[simp] theorem Eng.setLslot_ttGen (s : Nat) (f : LSlot → LSlot) : (e.setLslot s f).ttGen = e.ttGen := rfl
@[simp] theorem Eng.setLslot_ttFullSince (s : Nat) (f : LSlot → LSlot) : (e.setLslot s f).ttFullSince = e.ttFullSince := rfl
@[simp] theorem Eng.setLslot_ttFullBy (s : Nat) (f : LSlot → LSlot) : (e.setLslot s f).ttFullBy = e.ttFullBy := rfl
@[simp] theorem Eng.setLslot_acks (s : Nat) (f : LSlot → LSlot) : (e.setLslot s f).acks = e.acks := rfl
@[simp] theorem Eng.setLslot_copies (s : Nat) (f : LSlot → LSlot) : (e.setLslot s f).copies = e.copies := rfl
@[simp] theorem Eng.setLslot_excl (s : Nat) (f : LSlot → LSlot) : (e.setLslot s f).excl = e.excl := rfl
@[simp] theorem Eng.setLslot_outq (s : Nat) (f : LSlot → LSlot) : (e.setLslot s f).outq = e.outq := rfl
@[simp] theorem Eng.setLslot_fallbacks (s : Nat) (f : LSlot → LSlot) : (e.setLslot s f).fallbacks = e.fallbacks := rfl
@[simp] theorem Eng.setLslot_pins (s : Nat) (f : LSlot → LSlot) : (e.setLslot s f).pins = e.pins := rfl
@[simp] theorem Eng.setLslot_arbCount (s : Nat) (f : LSlot → LSlot) : (e.setLslot s f).arbCount = e.arbCount := rfl
@[simp] theorem Eng.setLslot_arbLast (s : Nat) (f : LSlot → LSlot) : (e.setLslot s f).arbLast = e.arbLast := rfl
@[simp] theorem Eng.setLslot_rings (s : Nat) (f : LSlot → LSlot) : (e.setLslot s f).rings = e.rings := rfl
@[simp] theorem Eng.setLslot_served (s : Nat) (f : LSlot → LSlot) : (e.setLslot s f).served = e.served := rfl
@[simp] theorem Eng.setLslot_cmds (s : Nat) (f : LSlot → LSlot) : (e.setLslot s f).cmds = e.cmds := rfl
@[simp] theorem Eng.setLslot_nextCmd (s : Nat) (f : LSlot → LSlot) : (e.setLslot s f).nextCmd = e.nextCmd := rfl
@[simp] theorem Eng.setLslot_wq (s : Nat) (f : LSlot → LSlot) : (e.setLslot s f).wq = e.wq := rfl
@[simp] theorem Eng.setLslot_evt (s : Nat) (f : LSlot → LSlot) : (e.setLslot s f).evt = e.evt := rfl
@[simp] theorem Eng.setLslot_wcache (s : Nat) (f : LSlot → LSlot) : (e.setLslot s f).wcache = e.wcache := rfl
@[simp] theorem Eng.setLslot_tables (s : Nat) (f : LSlot → LSlot) : (e.setLslot s f).tables = e.tables := rfl
@[simp] theorem Eng.setLslot_outs (s : Nat) (f : LSlot → LSlot) : (e.setLslot s f).outs = e.outs := rfl
@[simp] theorem Eng.setLslot_savedSums (s : Nat) (f : LSlot → LSlot) : (e.setLslot s f).savedSums = e.savedSums := rfl
@[simp] theorem Eng.setLslot_works (s : Nat) (f : LSlot → LSlot) : (e.setLslot s f).works = e.works := rfl
@[simp] theorem Eng.setLslot_roles (s : Nat) (f : LSlot → LSlot) : (e.setLslot s f).roles = e.roles := rfl
@[simp] theorem Eng.setLslot_chans (s : Nat) (f : LSlot → LSlot) : (e.setLslot s f).chans = e.chans := rfl
@[simp] theorem Eng.setLslot_groups (s : Nat) (f : LSlot → LSlot) : (e.setLslot s f).groups = e.groups := rfl
@[simp] theorem Eng.setLslot_spool (s : Nat) (f : LSlot → LSlot) : (e.setLslot s f).spool = e.spool := rfl
@[simp] theorem Eng.setLslot_bob (s : Nat) (f : LSlot → LSlot) : (e.setLslot s f).bob = e.bob := rfl
@[simp] theorem Eng.setLslot_pld (s : Nat) (f : LSlot → LSlot) : (e.setLslot s f).pld = e.pld := rfl
@[simp] theorem Eng.setLslot_gauges (s : Nat) (f : LSlot → LSlot) : (e.setLslot s f).gauges = e.gauges := rfl
@[simp] theorem Eng.setLslot_experts (s : Nat) (f : LSlot → LSlot) : (e.setLslot s f).experts = e.experts := rfl
@[simp] theorem Eng.setLslot_srcs (s : Nat) (f : LSlot → LSlot) : (e.setLslot s f).srcs = e.srcs := rfl
@[simp] theorem Eng.setLslot_tacks (s : Nat) (f : LSlot → LSlot) : (e.setLslot s f).tacks = e.tacks := rfl
@[simp] theorem Eng.setLslot_bank0 (s : Nat) (f : LSlot → LSlot) : (e.setLslot s f).bank0 = e.bank0 := rfl
@[simp] theorem Eng.setLslot_bank1 (s : Nat) (f : LSlot → LSlot) : (e.setLslot s f).bank1 = e.bank1 := rfl
@[simp] theorem Eng.setLslot_lastBank (s : Nat) (f : LSlot → LSlot) : (e.setLslot s f).lastBank = e.lastBank := rfl
@[simp] theorem Eng.setLslot_latches (s : Nat) (f : LSlot → LSlot) : (e.setLslot s f).latches = e.latches := rfl
@[simp] theorem Eng.setLslot_diag (s : Nat) (f : LSlot → LSlot) : (e.setLslot s f).diag = e.diag := rfl
@[simp] theorem Eng.setLslot_acts (s : Nat) (f : LSlot → LSlot) : (e.setLslot s f).acts = e.acts := rfl
@[simp] theorem Eng.setLslot_mgmtAddr (s : Nat) (f : LSlot → LSlot) : (e.setLslot s f).mgmtAddr = e.mgmtAddr := rfl
@[simp] theorem Eng.setLslot_mgmtWide (s : Nat) (f : LSlot → LSlot) : (e.setLslot s f).mgmtWide = e.mgmtWide := rfl
@[simp] theorem Eng.setLslot_mirror (s : Nat) (f : LSlot → LSlot) : (e.setLslot s f).mirror = e.mirror := rfl
@[simp] theorem Eng.setLslot_tx (s : Nat) (f : LSlot → LSlot) : (e.setLslot s f).tx = e.tx := rfl
@[simp] theorem Eng.setLslot_irqs (s : Nat) (f : LSlot → LSlot) : (e.setLslot s f).irqs = e.irqs := rfl
@[simp] theorem Eng.setLslot_rsp (s : Nat) (f : LSlot → LSlot) : (e.setLslot s f).rsp = e.rsp := rfl
@[simp] theorem Eng.setLslot_posts (s : Nat) (f : LSlot → LSlot) : (e.setLslot s f).posts = e.posts := rfl

@[simp] theorem Eng.setGroup_wlog (g : Nat) (f : Group → Group) : (e.setGroup g f).wlog = e.wlog := rfl
@[simp] theorem Eng.setGroup_freeCtr (g : Nat) (f : Group → Group) : (e.setGroup g f).freeCtr = e.freeCtr := rfl
@[simp] theorem Eng.setGroup_regs (g : Nat) (f : Group → Group) : (e.setGroup g f).regs = e.regs := rfl
@[simp] theorem Eng.setGroup_time (g : Nat) (f : Group → Group) : (e.setGroup g f).time = e.time := rfl
@[simp] theorem Eng.setGroup_boot (g : Nat) (f : Group → Group) : (e.setGroup g f).boot = e.boot := rfl
@[simp] theorem Eng.setGroup_pwr (g : Nat) (f : Group → Group) : (e.setGroup g f).pwr = e.pwr := rfl
@[simp] theorem Eng.setGroup_flt (g : Nat) (f : Group → Group) : (e.setGroup g f).flt = e.flt := rfl
@[simp] theorem Eng.setGroup_loader (g : Nat) (f : Group → Group) : (e.setGroup g f).loader = e.loader := rfl
@[simp] theorem Eng.setGroup_pat (g : Nat) (f : Group → Group) : (e.setGroup g f).pat = e.pat := rfl
@[simp] theorem Eng.setGroup_slotCfg (g : Nat) (f : Group → Group) : (e.setGroup g f).slotCfg = e.slotCfg := rfl
@[simp] theorem Eng.setGroup_panelMaps (g : Nat) (f : Group → Group) : (e.setGroup g f).panelMaps = e.panelMaps := rfl
@[simp] theorem Eng.setGroup_ports (g : Nat) (f : Group → Group) : (e.setGroup g f).ports = e.ports := rfl
@[simp] theorem Eng.setGroup_peerVer (g : Nat) (f : Group → Group) : (e.setGroup g f).peerVer = e.peerVer := rfl
@[simp] theorem Eng.setGroup_tt (g : Nat) (f : Group → Group) : (e.setGroup g f).tt = e.tt := rfl
@[simp] theorem Eng.setGroup_ttGen (g : Nat) (f : Group → Group) : (e.setGroup g f).ttGen = e.ttGen := rfl
@[simp] theorem Eng.setGroup_ttFullSince (g : Nat) (f : Group → Group) : (e.setGroup g f).ttFullSince = e.ttFullSince := rfl
@[simp] theorem Eng.setGroup_ttFullBy (g : Nat) (f : Group → Group) : (e.setGroup g f).ttFullBy = e.ttFullBy := rfl
@[simp] theorem Eng.setGroup_acks (g : Nat) (f : Group → Group) : (e.setGroup g f).acks = e.acks := rfl
@[simp] theorem Eng.setGroup_copies (g : Nat) (f : Group → Group) : (e.setGroup g f).copies = e.copies := rfl
@[simp] theorem Eng.setGroup_excl (g : Nat) (f : Group → Group) : (e.setGroup g f).excl = e.excl := rfl
@[simp] theorem Eng.setGroup_outq (g : Nat) (f : Group → Group) : (e.setGroup g f).outq = e.outq := rfl
@[simp] theorem Eng.setGroup_fallbacks (g : Nat) (f : Group → Group) : (e.setGroup g f).fallbacks = e.fallbacks := rfl
@[simp] theorem Eng.setGroup_pins (g : Nat) (f : Group → Group) : (e.setGroup g f).pins = e.pins := rfl
@[simp] theorem Eng.setGroup_arbCount (g : Nat) (f : Group → Group) : (e.setGroup g f).arbCount = e.arbCount := rfl
@[simp] theorem Eng.setGroup_arbLast (g : Nat) (f : Group → Group) : (e.setGroup g f).arbLast = e.arbLast := rfl
@[simp] theorem Eng.setGroup_rings (g : Nat) (f : Group → Group) : (e.setGroup g f).rings = e.rings := rfl
@[simp] theorem Eng.setGroup_served (g : Nat) (f : Group → Group) : (e.setGroup g f).served = e.served := rfl
@[simp] theorem Eng.setGroup_cmds (g : Nat) (f : Group → Group) : (e.setGroup g f).cmds = e.cmds := rfl
@[simp] theorem Eng.setGroup_nextCmd (g : Nat) (f : Group → Group) : (e.setGroup g f).nextCmd = e.nextCmd := rfl
@[simp] theorem Eng.setGroup_wq (g : Nat) (f : Group → Group) : (e.setGroup g f).wq = e.wq := rfl
@[simp] theorem Eng.setGroup_evt (g : Nat) (f : Group → Group) : (e.setGroup g f).evt = e.evt := rfl
@[simp] theorem Eng.setGroup_lslots (g : Nat) (f : Group → Group) : (e.setGroup g f).lslots = e.lslots := rfl
@[simp] theorem Eng.setGroup_wcache (g : Nat) (f : Group → Group) : (e.setGroup g f).wcache = e.wcache := rfl
@[simp] theorem Eng.setGroup_tables (g : Nat) (f : Group → Group) : (e.setGroup g f).tables = e.tables := rfl
@[simp] theorem Eng.setGroup_outs (g : Nat) (f : Group → Group) : (e.setGroup g f).outs = e.outs := rfl
@[simp] theorem Eng.setGroup_savedSums (g : Nat) (f : Group → Group) : (e.setGroup g f).savedSums = e.savedSums := rfl
@[simp] theorem Eng.setGroup_works (g : Nat) (f : Group → Group) : (e.setGroup g f).works = e.works := rfl
@[simp] theorem Eng.setGroup_roles (g : Nat) (f : Group → Group) : (e.setGroup g f).roles = e.roles := rfl
@[simp] theorem Eng.setGroup_chans (g : Nat) (f : Group → Group) : (e.setGroup g f).chans = e.chans := rfl
@[simp] theorem Eng.setGroup_spool (g : Nat) (f : Group → Group) : (e.setGroup g f).spool = e.spool := rfl
@[simp] theorem Eng.setGroup_bob (g : Nat) (f : Group → Group) : (e.setGroup g f).bob = e.bob := rfl
@[simp] theorem Eng.setGroup_pld (g : Nat) (f : Group → Group) : (e.setGroup g f).pld = e.pld := rfl
@[simp] theorem Eng.setGroup_gauges (g : Nat) (f : Group → Group) : (e.setGroup g f).gauges = e.gauges := rfl
@[simp] theorem Eng.setGroup_experts (g : Nat) (f : Group → Group) : (e.setGroup g f).experts = e.experts := rfl
@[simp] theorem Eng.setGroup_srcs (g : Nat) (f : Group → Group) : (e.setGroup g f).srcs = e.srcs := rfl
@[simp] theorem Eng.setGroup_tacks (g : Nat) (f : Group → Group) : (e.setGroup g f).tacks = e.tacks := rfl
@[simp] theorem Eng.setGroup_bank0 (g : Nat) (f : Group → Group) : (e.setGroup g f).bank0 = e.bank0 := rfl
@[simp] theorem Eng.setGroup_bank1 (g : Nat) (f : Group → Group) : (e.setGroup g f).bank1 = e.bank1 := rfl
@[simp] theorem Eng.setGroup_lastBank (g : Nat) (f : Group → Group) : (e.setGroup g f).lastBank = e.lastBank := rfl
@[simp] theorem Eng.setGroup_latches (g : Nat) (f : Group → Group) : (e.setGroup g f).latches = e.latches := rfl
@[simp] theorem Eng.setGroup_diag (g : Nat) (f : Group → Group) : (e.setGroup g f).diag = e.diag := rfl
@[simp] theorem Eng.setGroup_acts (g : Nat) (f : Group → Group) : (e.setGroup g f).acts = e.acts := rfl
@[simp] theorem Eng.setGroup_mgmtAddr (g : Nat) (f : Group → Group) : (e.setGroup g f).mgmtAddr = e.mgmtAddr := rfl
@[simp] theorem Eng.setGroup_mgmtWide (g : Nat) (f : Group → Group) : (e.setGroup g f).mgmtWide = e.mgmtWide := rfl
@[simp] theorem Eng.setGroup_mirror (g : Nat) (f : Group → Group) : (e.setGroup g f).mirror = e.mirror := rfl
@[simp] theorem Eng.setGroup_tx (g : Nat) (f : Group → Group) : (e.setGroup g f).tx = e.tx := rfl
@[simp] theorem Eng.setGroup_irqs (g : Nat) (f : Group → Group) : (e.setGroup g f).irqs = e.irqs := rfl
@[simp] theorem Eng.setGroup_rsp (g : Nat) (f : Group → Group) : (e.setGroup g f).rsp = e.rsp := rfl
@[simp] theorem Eng.setGroup_posts (g : Nat) (f : Group → Group) : (e.setGroup g f).posts = e.posts := rfl

@[simp] theorem Eng.setPort_wlog (p : Nat) (f : Port → Port) : (e.setPort p f).wlog = e.wlog := rfl
@[simp] theorem Eng.setPort_freeCtr (p : Nat) (f : Port → Port) : (e.setPort p f).freeCtr = e.freeCtr := rfl
@[simp] theorem Eng.setPort_regs (p : Nat) (f : Port → Port) : (e.setPort p f).regs = e.regs := rfl
@[simp] theorem Eng.setPort_time (p : Nat) (f : Port → Port) : (e.setPort p f).time = e.time := rfl
@[simp] theorem Eng.setPort_boot (p : Nat) (f : Port → Port) : (e.setPort p f).boot = e.boot := rfl
@[simp] theorem Eng.setPort_pwr (p : Nat) (f : Port → Port) : (e.setPort p f).pwr = e.pwr := rfl
@[simp] theorem Eng.setPort_flt (p : Nat) (f : Port → Port) : (e.setPort p f).flt = e.flt := rfl
@[simp] theorem Eng.setPort_loader (p : Nat) (f : Port → Port) : (e.setPort p f).loader = e.loader := rfl
@[simp] theorem Eng.setPort_pat (p : Nat) (f : Port → Port) : (e.setPort p f).pat = e.pat := rfl
@[simp] theorem Eng.setPort_slotCfg (p : Nat) (f : Port → Port) : (e.setPort p f).slotCfg = e.slotCfg := rfl
@[simp] theorem Eng.setPort_panelMaps (p : Nat) (f : Port → Port) : (e.setPort p f).panelMaps = e.panelMaps := rfl
@[simp] theorem Eng.setPort_peerVer (p : Nat) (f : Port → Port) : (e.setPort p f).peerVer = e.peerVer := rfl
@[simp] theorem Eng.setPort_tt (p : Nat) (f : Port → Port) : (e.setPort p f).tt = e.tt := rfl
@[simp] theorem Eng.setPort_ttGen (p : Nat) (f : Port → Port) : (e.setPort p f).ttGen = e.ttGen := rfl
@[simp] theorem Eng.setPort_ttFullSince (p : Nat) (f : Port → Port) : (e.setPort p f).ttFullSince = e.ttFullSince := rfl
@[simp] theorem Eng.setPort_ttFullBy (p : Nat) (f : Port → Port) : (e.setPort p f).ttFullBy = e.ttFullBy := rfl
@[simp] theorem Eng.setPort_acks (p : Nat) (f : Port → Port) : (e.setPort p f).acks = e.acks := rfl
@[simp] theorem Eng.setPort_copies (p : Nat) (f : Port → Port) : (e.setPort p f).copies = e.copies := rfl
@[simp] theorem Eng.setPort_excl (p : Nat) (f : Port → Port) : (e.setPort p f).excl = e.excl := rfl
@[simp] theorem Eng.setPort_outq (p : Nat) (f : Port → Port) : (e.setPort p f).outq = e.outq := rfl
@[simp] theorem Eng.setPort_fallbacks (p : Nat) (f : Port → Port) : (e.setPort p f).fallbacks = e.fallbacks := rfl
@[simp] theorem Eng.setPort_pins (p : Nat) (f : Port → Port) : (e.setPort p f).pins = e.pins := rfl
@[simp] theorem Eng.setPort_arbCount (p : Nat) (f : Port → Port) : (e.setPort p f).arbCount = e.arbCount := rfl
@[simp] theorem Eng.setPort_arbLast (p : Nat) (f : Port → Port) : (e.setPort p f).arbLast = e.arbLast := rfl
@[simp] theorem Eng.setPort_rings (p : Nat) (f : Port → Port) : (e.setPort p f).rings = e.rings := rfl
@[simp] theorem Eng.setPort_served (p : Nat) (f : Port → Port) : (e.setPort p f).served = e.served := rfl
@[simp] theorem Eng.setPort_cmds (p : Nat) (f : Port → Port) : (e.setPort p f).cmds = e.cmds := rfl
@[simp] theorem Eng.setPort_nextCmd (p : Nat) (f : Port → Port) : (e.setPort p f).nextCmd = e.nextCmd := rfl
@[simp] theorem Eng.setPort_wq (p : Nat) (f : Port → Port) : (e.setPort p f).wq = e.wq := rfl
@[simp] theorem Eng.setPort_evt (p : Nat) (f : Port → Port) : (e.setPort p f).evt = e.evt := rfl
@[simp] theorem Eng.setPort_lslots (p : Nat) (f : Port → Port) : (e.setPort p f).lslots = e.lslots := rfl
@[simp] theorem Eng.setPort_wcache (p : Nat) (f : Port → Port) : (e.setPort p f).wcache = e.wcache := rfl
@[simp] theorem Eng.setPort_tables (p : Nat) (f : Port → Port) : (e.setPort p f).tables = e.tables := rfl
@[simp] theorem Eng.setPort_outs (p : Nat) (f : Port → Port) : (e.setPort p f).outs = e.outs := rfl
@[simp] theorem Eng.setPort_savedSums (p : Nat) (f : Port → Port) : (e.setPort p f).savedSums = e.savedSums := rfl
@[simp] theorem Eng.setPort_works (p : Nat) (f : Port → Port) : (e.setPort p f).works = e.works := rfl
@[simp] theorem Eng.setPort_roles (p : Nat) (f : Port → Port) : (e.setPort p f).roles = e.roles := rfl
@[simp] theorem Eng.setPort_chans (p : Nat) (f : Port → Port) : (e.setPort p f).chans = e.chans := rfl
@[simp] theorem Eng.setPort_groups (p : Nat) (f : Port → Port) : (e.setPort p f).groups = e.groups := rfl
@[simp] theorem Eng.setPort_spool (p : Nat) (f : Port → Port) : (e.setPort p f).spool = e.spool := rfl
@[simp] theorem Eng.setPort_bob (p : Nat) (f : Port → Port) : (e.setPort p f).bob = e.bob := rfl
@[simp] theorem Eng.setPort_pld (p : Nat) (f : Port → Port) : (e.setPort p f).pld = e.pld := rfl
@[simp] theorem Eng.setPort_gauges (p : Nat) (f : Port → Port) : (e.setPort p f).gauges = e.gauges := rfl
@[simp] theorem Eng.setPort_experts (p : Nat) (f : Port → Port) : (e.setPort p f).experts = e.experts := rfl
@[simp] theorem Eng.setPort_srcs (p : Nat) (f : Port → Port) : (e.setPort p f).srcs = e.srcs := rfl
@[simp] theorem Eng.setPort_tacks (p : Nat) (f : Port → Port) : (e.setPort p f).tacks = e.tacks := rfl
@[simp] theorem Eng.setPort_bank0 (p : Nat) (f : Port → Port) : (e.setPort p f).bank0 = e.bank0 := rfl
@[simp] theorem Eng.setPort_bank1 (p : Nat) (f : Port → Port) : (e.setPort p f).bank1 = e.bank1 := rfl
@[simp] theorem Eng.setPort_lastBank (p : Nat) (f : Port → Port) : (e.setPort p f).lastBank = e.lastBank := rfl
@[simp] theorem Eng.setPort_latches (p : Nat) (f : Port → Port) : (e.setPort p f).latches = e.latches := rfl
@[simp] theorem Eng.setPort_diag (p : Nat) (f : Port → Port) : (e.setPort p f).diag = e.diag := rfl
@[simp] theorem Eng.setPort_acts (p : Nat) (f : Port → Port) : (e.setPort p f).acts = e.acts := rfl
@[simp] theorem Eng.setPort_mgmtAddr (p : Nat) (f : Port → Port) : (e.setPort p f).mgmtAddr = e.mgmtAddr := rfl
@[simp] theorem Eng.setPort_mgmtWide (p : Nat) (f : Port → Port) : (e.setPort p f).mgmtWide = e.mgmtWide := rfl
@[simp] theorem Eng.setPort_mirror (p : Nat) (f : Port → Port) : (e.setPort p f).mirror = e.mirror := rfl
@[simp] theorem Eng.setPort_tx (p : Nat) (f : Port → Port) : (e.setPort p f).tx = e.tx := rfl
@[simp] theorem Eng.setPort_irqs (p : Nat) (f : Port → Port) : (e.setPort p f).irqs = e.irqs := rfl
@[simp] theorem Eng.setPort_rsp (p : Nat) (f : Port → Port) : (e.setPort p f).rsp = e.rsp := rfl
@[simp] theorem Eng.setPort_posts (p : Nat) (f : Port → Port) : (e.setPort p f).posts = e.posts := rfl

@[simp] theorem Eng.setCmd_wlog (id : Nat) (f : Cmd → Cmd) : (e.setCmd id f).wlog = e.wlog := rfl
@[simp] theorem Eng.setCmd_freeCtr (id : Nat) (f : Cmd → Cmd) : (e.setCmd id f).freeCtr = e.freeCtr := rfl
@[simp] theorem Eng.setCmd_regs (id : Nat) (f : Cmd → Cmd) : (e.setCmd id f).regs = e.regs := rfl
@[simp] theorem Eng.setCmd_time (id : Nat) (f : Cmd → Cmd) : (e.setCmd id f).time = e.time := rfl
@[simp] theorem Eng.setCmd_boot (id : Nat) (f : Cmd → Cmd) : (e.setCmd id f).boot = e.boot := rfl
@[simp] theorem Eng.setCmd_pwr (id : Nat) (f : Cmd → Cmd) : (e.setCmd id f).pwr = e.pwr := rfl
@[simp] theorem Eng.setCmd_flt (id : Nat) (f : Cmd → Cmd) : (e.setCmd id f).flt = e.flt := rfl
@[simp] theorem Eng.setCmd_loader (id : Nat) (f : Cmd → Cmd) : (e.setCmd id f).loader = e.loader := rfl
@[simp] theorem Eng.setCmd_pat (id : Nat) (f : Cmd → Cmd) : (e.setCmd id f).pat = e.pat := rfl
@[simp] theorem Eng.setCmd_slotCfg (id : Nat) (f : Cmd → Cmd) : (e.setCmd id f).slotCfg = e.slotCfg := rfl
@[simp] theorem Eng.setCmd_panelMaps (id : Nat) (f : Cmd → Cmd) : (e.setCmd id f).panelMaps = e.panelMaps := rfl
@[simp] theorem Eng.setCmd_ports (id : Nat) (f : Cmd → Cmd) : (e.setCmd id f).ports = e.ports := rfl
@[simp] theorem Eng.setCmd_peerVer (id : Nat) (f : Cmd → Cmd) : (e.setCmd id f).peerVer = e.peerVer := rfl
@[simp] theorem Eng.setCmd_tt (id : Nat) (f : Cmd → Cmd) : (e.setCmd id f).tt = e.tt := rfl
@[simp] theorem Eng.setCmd_ttGen (id : Nat) (f : Cmd → Cmd) : (e.setCmd id f).ttGen = e.ttGen := rfl
@[simp] theorem Eng.setCmd_ttFullSince (id : Nat) (f : Cmd → Cmd) : (e.setCmd id f).ttFullSince = e.ttFullSince := rfl
@[simp] theorem Eng.setCmd_ttFullBy (id : Nat) (f : Cmd → Cmd) : (e.setCmd id f).ttFullBy = e.ttFullBy := rfl
@[simp] theorem Eng.setCmd_acks (id : Nat) (f : Cmd → Cmd) : (e.setCmd id f).acks = e.acks := rfl
@[simp] theorem Eng.setCmd_copies (id : Nat) (f : Cmd → Cmd) : (e.setCmd id f).copies = e.copies := rfl
@[simp] theorem Eng.setCmd_excl (id : Nat) (f : Cmd → Cmd) : (e.setCmd id f).excl = e.excl := rfl
@[simp] theorem Eng.setCmd_outq (id : Nat) (f : Cmd → Cmd) : (e.setCmd id f).outq = e.outq := rfl
@[simp] theorem Eng.setCmd_fallbacks (id : Nat) (f : Cmd → Cmd) : (e.setCmd id f).fallbacks = e.fallbacks := rfl
@[simp] theorem Eng.setCmd_pins (id : Nat) (f : Cmd → Cmd) : (e.setCmd id f).pins = e.pins := rfl
@[simp] theorem Eng.setCmd_arbCount (id : Nat) (f : Cmd → Cmd) : (e.setCmd id f).arbCount = e.arbCount := rfl
@[simp] theorem Eng.setCmd_arbLast (id : Nat) (f : Cmd → Cmd) : (e.setCmd id f).arbLast = e.arbLast := rfl
@[simp] theorem Eng.setCmd_rings (id : Nat) (f : Cmd → Cmd) : (e.setCmd id f).rings = e.rings := rfl
@[simp] theorem Eng.setCmd_served (id : Nat) (f : Cmd → Cmd) : (e.setCmd id f).served = e.served := rfl
@[simp] theorem Eng.setCmd_nextCmd (id : Nat) (f : Cmd → Cmd) : (e.setCmd id f).nextCmd = e.nextCmd := rfl
@[simp] theorem Eng.setCmd_wq (id : Nat) (f : Cmd → Cmd) : (e.setCmd id f).wq = e.wq := rfl
@[simp] theorem Eng.setCmd_evt (id : Nat) (f : Cmd → Cmd) : (e.setCmd id f).evt = e.evt := rfl
@[simp] theorem Eng.setCmd_lslots (id : Nat) (f : Cmd → Cmd) : (e.setCmd id f).lslots = e.lslots := rfl
@[simp] theorem Eng.setCmd_wcache (id : Nat) (f : Cmd → Cmd) : (e.setCmd id f).wcache = e.wcache := rfl
@[simp] theorem Eng.setCmd_tables (id : Nat) (f : Cmd → Cmd) : (e.setCmd id f).tables = e.tables := rfl
@[simp] theorem Eng.setCmd_outs (id : Nat) (f : Cmd → Cmd) : (e.setCmd id f).outs = e.outs := rfl
@[simp] theorem Eng.setCmd_savedSums (id : Nat) (f : Cmd → Cmd) : (e.setCmd id f).savedSums = e.savedSums := rfl
@[simp] theorem Eng.setCmd_works (id : Nat) (f : Cmd → Cmd) : (e.setCmd id f).works = e.works := rfl
@[simp] theorem Eng.setCmd_roles (id : Nat) (f : Cmd → Cmd) : (e.setCmd id f).roles = e.roles := rfl
@[simp] theorem Eng.setCmd_chans (id : Nat) (f : Cmd → Cmd) : (e.setCmd id f).chans = e.chans := rfl
@[simp] theorem Eng.setCmd_groups (id : Nat) (f : Cmd → Cmd) : (e.setCmd id f).groups = e.groups := rfl
@[simp] theorem Eng.setCmd_spool (id : Nat) (f : Cmd → Cmd) : (e.setCmd id f).spool = e.spool := rfl
@[simp] theorem Eng.setCmd_bob (id : Nat) (f : Cmd → Cmd) : (e.setCmd id f).bob = e.bob := rfl
@[simp] theorem Eng.setCmd_pld (id : Nat) (f : Cmd → Cmd) : (e.setCmd id f).pld = e.pld := rfl
@[simp] theorem Eng.setCmd_gauges (id : Nat) (f : Cmd → Cmd) : (e.setCmd id f).gauges = e.gauges := rfl
@[simp] theorem Eng.setCmd_experts (id : Nat) (f : Cmd → Cmd) : (e.setCmd id f).experts = e.experts := rfl
@[simp] theorem Eng.setCmd_srcs (id : Nat) (f : Cmd → Cmd) : (e.setCmd id f).srcs = e.srcs := rfl
@[simp] theorem Eng.setCmd_tacks (id : Nat) (f : Cmd → Cmd) : (e.setCmd id f).tacks = e.tacks := rfl
@[simp] theorem Eng.setCmd_bank0 (id : Nat) (f : Cmd → Cmd) : (e.setCmd id f).bank0 = e.bank0 := rfl
@[simp] theorem Eng.setCmd_bank1 (id : Nat) (f : Cmd → Cmd) : (e.setCmd id f).bank1 = e.bank1 := rfl
@[simp] theorem Eng.setCmd_lastBank (id : Nat) (f : Cmd → Cmd) : (e.setCmd id f).lastBank = e.lastBank := rfl
@[simp] theorem Eng.setCmd_latches (id : Nat) (f : Cmd → Cmd) : (e.setCmd id f).latches = e.latches := rfl
@[simp] theorem Eng.setCmd_diag (id : Nat) (f : Cmd → Cmd) : (e.setCmd id f).diag = e.diag := rfl
@[simp] theorem Eng.setCmd_acts (id : Nat) (f : Cmd → Cmd) : (e.setCmd id f).acts = e.acts := rfl
@[simp] theorem Eng.setCmd_mgmtAddr (id : Nat) (f : Cmd → Cmd) : (e.setCmd id f).mgmtAddr = e.mgmtAddr := rfl
@[simp] theorem Eng.setCmd_mgmtWide (id : Nat) (f : Cmd → Cmd) : (e.setCmd id f).mgmtWide = e.mgmtWide := rfl
@[simp] theorem Eng.setCmd_mirror (id : Nat) (f : Cmd → Cmd) : (e.setCmd id f).mirror = e.mirror := rfl
@[simp] theorem Eng.setCmd_tx (id : Nat) (f : Cmd → Cmd) : (e.setCmd id f).tx = e.tx := rfl
@[simp] theorem Eng.setCmd_irqs (id : Nat) (f : Cmd → Cmd) : (e.setCmd id f).irqs = e.irqs := rfl
@[simp] theorem Eng.setCmd_rsp (id : Nat) (f : Cmd → Cmd) : (e.setCmd id f).rsp = e.rsp := rfl
@[simp] theorem Eng.setCmd_posts (id : Nat) (f : Cmd → Cmd) : (e.setCmd id f).posts = e.posts := rfl

@[simp] theorem Eng.queueRec_wlog (k : WqKind) (addr : Nat) (bs : List Byte) : (e.queueRec k addr bs).wlog = e.wlog := rfl
@[simp] theorem Eng.queueRec_freeCtr (k : WqKind) (addr : Nat) (bs : List Byte) : (e.queueRec k addr bs).freeCtr = e.freeCtr := rfl
@[simp] theorem Eng.queueRec_regs (k : WqKind) (addr : Nat) (bs : List Byte) : (e.queueRec k addr bs).regs = e.regs := rfl
@[simp] theorem Eng.queueRec_time (k : WqKind) (addr : Nat) (bs : List Byte) : (e.queueRec k addr bs).time = e.time := rfl
@[simp] theorem Eng.queueRec_boot (k : WqKind) (addr : Nat) (bs : List Byte) : (e.queueRec k addr bs).boot = e.boot := rfl
@[simp] theorem Eng.queueRec_pwr (k : WqKind) (addr : Nat) (bs : List Byte) : (e.queueRec k addr bs).pwr = e.pwr := rfl
@[simp] theorem Eng.queueRec_flt (k : WqKind) (addr : Nat) (bs : List Byte) : (e.queueRec k addr bs).flt = e.flt := rfl
@[simp] theorem Eng.queueRec_loader (k : WqKind) (addr : Nat) (bs : List Byte) : (e.queueRec k addr bs).loader = e.loader := rfl
@[simp] theorem Eng.queueRec_pat (k : WqKind) (addr : Nat) (bs : List Byte) : (e.queueRec k addr bs).pat = e.pat := rfl
@[simp] theorem Eng.queueRec_slotCfg (k : WqKind) (addr : Nat) (bs : List Byte) : (e.queueRec k addr bs).slotCfg = e.slotCfg := rfl
@[simp] theorem Eng.queueRec_panelMaps (k : WqKind) (addr : Nat) (bs : List Byte) : (e.queueRec k addr bs).panelMaps = e.panelMaps := rfl
@[simp] theorem Eng.queueRec_ports (k : WqKind) (addr : Nat) (bs : List Byte) : (e.queueRec k addr bs).ports = e.ports := rfl
@[simp] theorem Eng.queueRec_peerVer (k : WqKind) (addr : Nat) (bs : List Byte) : (e.queueRec k addr bs).peerVer = e.peerVer := rfl
@[simp] theorem Eng.queueRec_tt (k : WqKind) (addr : Nat) (bs : List Byte) : (e.queueRec k addr bs).tt = e.tt := rfl
@[simp] theorem Eng.queueRec_ttGen (k : WqKind) (addr : Nat) (bs : List Byte) : (e.queueRec k addr bs).ttGen = e.ttGen := rfl
@[simp] theorem Eng.queueRec_ttFullSince (k : WqKind) (addr : Nat) (bs : List Byte) : (e.queueRec k addr bs).ttFullSince = e.ttFullSince := rfl
@[simp] theorem Eng.queueRec_ttFullBy (k : WqKind) (addr : Nat) (bs : List Byte) : (e.queueRec k addr bs).ttFullBy = e.ttFullBy := rfl
@[simp] theorem Eng.queueRec_acks (k : WqKind) (addr : Nat) (bs : List Byte) : (e.queueRec k addr bs).acks = e.acks := rfl
@[simp] theorem Eng.queueRec_copies (k : WqKind) (addr : Nat) (bs : List Byte) : (e.queueRec k addr bs).copies = e.copies := rfl
@[simp] theorem Eng.queueRec_excl (k : WqKind) (addr : Nat) (bs : List Byte) : (e.queueRec k addr bs).excl = e.excl := rfl
@[simp] theorem Eng.queueRec_outq (k : WqKind) (addr : Nat) (bs : List Byte) : (e.queueRec k addr bs).outq = e.outq := rfl
@[simp] theorem Eng.queueRec_fallbacks (k : WqKind) (addr : Nat) (bs : List Byte) : (e.queueRec k addr bs).fallbacks = e.fallbacks := rfl
@[simp] theorem Eng.queueRec_pins (k : WqKind) (addr : Nat) (bs : List Byte) : (e.queueRec k addr bs).pins = e.pins := rfl
@[simp] theorem Eng.queueRec_arbCount (k : WqKind) (addr : Nat) (bs : List Byte) : (e.queueRec k addr bs).arbCount = e.arbCount := rfl
@[simp] theorem Eng.queueRec_arbLast (k : WqKind) (addr : Nat) (bs : List Byte) : (e.queueRec k addr bs).arbLast = e.arbLast := rfl
@[simp] theorem Eng.queueRec_rings (k : WqKind) (addr : Nat) (bs : List Byte) : (e.queueRec k addr bs).rings = e.rings := rfl
@[simp] theorem Eng.queueRec_served (k : WqKind) (addr : Nat) (bs : List Byte) : (e.queueRec k addr bs).served = e.served := rfl
@[simp] theorem Eng.queueRec_cmds (k : WqKind) (addr : Nat) (bs : List Byte) : (e.queueRec k addr bs).cmds = e.cmds := rfl
@[simp] theorem Eng.queueRec_nextCmd (k : WqKind) (addr : Nat) (bs : List Byte) : (e.queueRec k addr bs).nextCmd = e.nextCmd := rfl
@[simp] theorem Eng.queueRec_evt (k : WqKind) (addr : Nat) (bs : List Byte) : (e.queueRec k addr bs).evt = e.evt := rfl
@[simp] theorem Eng.queueRec_lslots (k : WqKind) (addr : Nat) (bs : List Byte) : (e.queueRec k addr bs).lslots = e.lslots := rfl
@[simp] theorem Eng.queueRec_wcache (k : WqKind) (addr : Nat) (bs : List Byte) : (e.queueRec k addr bs).wcache = e.wcache := rfl
@[simp] theorem Eng.queueRec_tables (k : WqKind) (addr : Nat) (bs : List Byte) : (e.queueRec k addr bs).tables = e.tables := rfl
@[simp] theorem Eng.queueRec_outs (k : WqKind) (addr : Nat) (bs : List Byte) : (e.queueRec k addr bs).outs = e.outs := rfl
@[simp] theorem Eng.queueRec_savedSums (k : WqKind) (addr : Nat) (bs : List Byte) : (e.queueRec k addr bs).savedSums = e.savedSums := rfl
@[simp] theorem Eng.queueRec_works (k : WqKind) (addr : Nat) (bs : List Byte) : (e.queueRec k addr bs).works = e.works := rfl
@[simp] theorem Eng.queueRec_roles (k : WqKind) (addr : Nat) (bs : List Byte) : (e.queueRec k addr bs).roles = e.roles := rfl
@[simp] theorem Eng.queueRec_chans (k : WqKind) (addr : Nat) (bs : List Byte) : (e.queueRec k addr bs).chans = e.chans := rfl
@[simp] theorem Eng.queueRec_groups (k : WqKind) (addr : Nat) (bs : List Byte) : (e.queueRec k addr bs).groups = e.groups := rfl
@[simp] theorem Eng.queueRec_spool (k : WqKind) (addr : Nat) (bs : List Byte) : (e.queueRec k addr bs).spool = e.spool := rfl
@[simp] theorem Eng.queueRec_bob (k : WqKind) (addr : Nat) (bs : List Byte) : (e.queueRec k addr bs).bob = e.bob := rfl
@[simp] theorem Eng.queueRec_pld (k : WqKind) (addr : Nat) (bs : List Byte) : (e.queueRec k addr bs).pld = e.pld := rfl
@[simp] theorem Eng.queueRec_gauges (k : WqKind) (addr : Nat) (bs : List Byte) : (e.queueRec k addr bs).gauges = e.gauges := rfl
@[simp] theorem Eng.queueRec_experts (k : WqKind) (addr : Nat) (bs : List Byte) : (e.queueRec k addr bs).experts = e.experts := rfl
@[simp] theorem Eng.queueRec_srcs (k : WqKind) (addr : Nat) (bs : List Byte) : (e.queueRec k addr bs).srcs = e.srcs := rfl
@[simp] theorem Eng.queueRec_tacks (k : WqKind) (addr : Nat) (bs : List Byte) : (e.queueRec k addr bs).tacks = e.tacks := rfl
@[simp] theorem Eng.queueRec_bank0 (k : WqKind) (addr : Nat) (bs : List Byte) : (e.queueRec k addr bs).bank0 = e.bank0 := rfl
@[simp] theorem Eng.queueRec_bank1 (k : WqKind) (addr : Nat) (bs : List Byte) : (e.queueRec k addr bs).bank1 = e.bank1 := rfl
@[simp] theorem Eng.queueRec_lastBank (k : WqKind) (addr : Nat) (bs : List Byte) : (e.queueRec k addr bs).lastBank = e.lastBank := rfl
@[simp] theorem Eng.queueRec_latches (k : WqKind) (addr : Nat) (bs : List Byte) : (e.queueRec k addr bs).latches = e.latches := rfl
@[simp] theorem Eng.queueRec_diag (k : WqKind) (addr : Nat) (bs : List Byte) : (e.queueRec k addr bs).diag = e.diag := rfl
@[simp] theorem Eng.queueRec_acts (k : WqKind) (addr : Nat) (bs : List Byte) : (e.queueRec k addr bs).acts = e.acts := rfl
@[simp] theorem Eng.queueRec_mgmtAddr (k : WqKind) (addr : Nat) (bs : List Byte) : (e.queueRec k addr bs).mgmtAddr = e.mgmtAddr := rfl
@[simp] theorem Eng.queueRec_mgmtWide (k : WqKind) (addr : Nat) (bs : List Byte) : (e.queueRec k addr bs).mgmtWide = e.mgmtWide := rfl
@[simp] theorem Eng.queueRec_mirror (k : WqKind) (addr : Nat) (bs : List Byte) : (e.queueRec k addr bs).mirror = e.mirror := rfl
@[simp] theorem Eng.queueRec_tx (k : WqKind) (addr : Nat) (bs : List Byte) : (e.queueRec k addr bs).tx = e.tx := rfl
@[simp] theorem Eng.queueRec_irqs (k : WqKind) (addr : Nat) (bs : List Byte) : (e.queueRec k addr bs).irqs = e.irqs := rfl
@[simp] theorem Eng.queueRec_rsp (k : WqKind) (addr : Nat) (bs : List Byte) : (e.queueRec k addr bs).rsp = e.rsp := rfl
@[simp] theorem Eng.queueRec_posts (k : WqKind) (addr : Nat) (bs : List Byte) : (e.queueRec k addr bs).posts = e.posts := rfl

@[simp] theorem Eng.setReg_reg_same (off v : Nat) : (e.setReg off v).reg off = v := by
  simp only [Eng.setReg, Eng.reg, KV.get]
  have h : ∀ (m : KV Nat), KV.find (KV.put m off v) off = some v := by
    intro m
    induction m with
    | nil => simp [KV.put, KV.find]
    | cons c t ih =>
      obtain ⟨a, b⟩ := c
      by_cases h1 : off < a
      · simp [KV.put, KV.find, h1]
      · by_cases h2 : off = a
        · simp [KV.put, KV.find, h2]
        · simp [KV.put, KV.find, h1, h2, ih, Ne.symm h2]
  rw [h]
  rfl

theorem Eng.setReg_reg_other (off v o : Nat) (h : o ≠ off) : (e.setReg off v).reg o = e.reg o := by
  have key : ∀ (m : KV Nat), KV.find (KV.put m off v) o = KV.find m o := by
    intro m
    induction m with
    | nil => simp [KV.put, KV.find, Ne.symm h]
    | cons c t ih =>
      obtain ⟨a, b⟩ := c
      by_cases h1 : off < a
      · simp [KV.put, KV.find, h1, Ne.symm h]
      · by_cases h2 : off = a
        · subst h2; simp [KV.put, KV.find, Ne.symm h]
        · simp only [KV.put, if_neg h1, if_neg h2, KV.find, ih]
  simp only [Eng.reg, Eng.setReg, KV.get, key]

@[simp] theorem Eng.reach_ns (t : Nat) : (e.reach t).time.ns = max e.time.ns t := rfl

end Sys2Proof.Machine
end

