-- ==== Sys2Proof/Laws/Events.lean ====
section
/-! SUPPORT. What waking, raising an event and completing a command can do, said once. -/

namespace Sys2Proof.Machine

variable (e : Eng)

/-- Waking changes the power state's registers alone. -/
theorem Eng.wake_eq : e.wake = { e with pwr := e.wake.pwr } := by
  unfold Eng.wake
  repeat' split
  all_goals rfl

theorem Eng.evtPush_eq (r : List Byte) : (e.evtPush r).2 = { e with regs := (e.evtPush r).2.regs, wq := (e.evtPush r).2.wq, evt := (e.evtPush r).2.evt } := by
  unfold Eng.evtPush
  cases e.evtSize with
  | none => rfl
  | some size =>
    dsimp only
    by_cases h : ((e.reg Reg.evtTail + e.evtQueued) % 2 ^ 32 + 2 ^ 32 - e.reg Reg.evtHead) % 2 ^ 32 ≥ size
    · simp only [if_pos h]; rfl
    · simp only [if_neg h]

theorem Eng.raiseRec_eq (code arg : Nat) (polder : Option Nat) (tag : Nat) :
    (e.raiseRec code arg polder tag).2 =
      { e with regs := (e.raiseRec code arg polder tag).2.regs, wq := (e.raiseRec code arg polder tag).2.wq
               evt := (e.raiseRec code arg polder tag).2.evt, pwr := (e.raiseRec code arg polder tag).2.pwr } := by
  unfold Eng.raiseRec
  dsimp only
  repeat' split
  all_goals first
    | rfl
    | (rw [Eng.wake_eq]; rfl)
    | (rw [Eng.evtPush_eq]; rfl)

/-- Raising an event changes registers, the queue of records, the event ring and, where it wakes the engine, the power state. -/
theorem Eng.raise_eq (code arg : Nat) (polder : Option Nat) (tag : Nat) :
    e.raise code arg polder tag =
      { e with regs := (e.raise code arg polder tag).regs, wq := (e.raise code arg polder tag).wq
               evt := (e.raise code arg polder tag).evt, pwr := (e.raise code arg polder tag).pwr } := by
  unfold Eng.raise
  dsimp only
  split
  · rw [Eng.raiseRec_eq]
    simp only
    rw [Eng.raiseRec_eq]
  · rw [Eng.raiseRec_eq]

@[simp] theorem Eng.wake_wlog : e.wake.wlog = e.wlog := by rw [Eng.wake_eq]
@[simp] theorem Eng.wake_freeCtr : e.wake.freeCtr = e.freeCtr := by rw [Eng.wake_eq]
@[simp] theorem Eng.wake_regs : e.wake.regs = e.regs := by rw [Eng.wake_eq]
@[simp] theorem Eng.wake_time : e.wake.time = e.time := by rw [Eng.wake_eq]
@[simp] theorem Eng.wake_boot : e.wake.boot = e.boot := by rw [Eng.wake_eq]
@[simp] theorem Eng.wake_flt : e.wake.flt = e.flt := by rw [Eng.wake_eq]
@[simp] theorem Eng.wake_loader : e.wake.loader = e.loader := by rw [Eng.wake_eq]
@[simp] theorem Eng.wake_pat : e.wake.pat = e.pat := by rw [Eng.wake_eq]
@[simp] theorem Eng.wake_slotCfg : e.wake.slotCfg = e.slotCfg := by rw [Eng.wake_eq]
@[simp] theorem Eng.wake_panelMaps : e.wake.panelMaps = e.panelMaps := by rw [Eng.wake_eq]
@[simp] theorem Eng.wake_ports : e.wake.ports = e.ports := by rw [Eng.wake_eq]
@[simp] theorem Eng.wake_peerVer : e.wake.peerVer = e.peerVer := by rw [Eng.wake_eq]
@[simp] theorem Eng.wake_tt : e.wake.tt = e.tt := by rw [Eng.wake_eq]
@[simp] theorem Eng.wake_ttGen : e.wake.ttGen = e.ttGen := by rw [Eng.wake_eq]
@[simp] theorem Eng.wake_ttFullSince : e.wake.ttFullSince = e.ttFullSince := by rw [Eng.wake_eq]
@[simp] theorem Eng.wake_ttFullBy : e.wake.ttFullBy = e.ttFullBy := by rw [Eng.wake_eq]
@[simp] theorem Eng.wake_acks : e.wake.acks = e.acks := by rw [Eng.wake_eq]
@[simp] theorem Eng.wake_copies : e.wake.copies = e.copies := by rw [Eng.wake_eq]
@[simp] theorem Eng.wake_excl : e.wake.excl = e.excl := by rw [Eng.wake_eq]
@[simp] theorem Eng.wake_outq : e.wake.outq = e.outq := by rw [Eng.wake_eq]
@[simp] theorem Eng.wake_fallbacks : e.wake.fallbacks = e.fallbacks := by rw [Eng.wake_eq]
@[simp] theorem Eng.wake_pins : e.wake.pins = e.pins := by rw [Eng.wake_eq]
@[simp] theorem Eng.wake_arbCount : e.wake.arbCount = e.arbCount := by rw [Eng.wake_eq]
@[simp] theorem Eng.wake_arbLast : e.wake.arbLast = e.arbLast := by rw [Eng.wake_eq]
@[simp] theorem Eng.wake_rings : e.wake.rings = e.rings := by rw [Eng.wake_eq]
@[simp] theorem Eng.wake_served : e.wake.served = e.served := by rw [Eng.wake_eq]
@[simp] theorem Eng.wake_cmds : e.wake.cmds = e.cmds := by rw [Eng.wake_eq]
@[simp] theorem Eng.wake_nextCmd : e.wake.nextCmd = e.nextCmd := by rw [Eng.wake_eq]
@[simp] theorem Eng.wake_wq : e.wake.wq = e.wq := by rw [Eng.wake_eq]
@[simp] theorem Eng.wake_evt : e.wake.evt = e.evt := by rw [Eng.wake_eq]
@[simp] theorem Eng.wake_lslots : e.wake.lslots = e.lslots := by rw [Eng.wake_eq]
@[simp] theorem Eng.wake_wcache : e.wake.wcache = e.wcache := by rw [Eng.wake_eq]
@[simp] theorem Eng.wake_tables : e.wake.tables = e.tables := by rw [Eng.wake_eq]
@[simp] theorem Eng.wake_outs : e.wake.outs = e.outs := by rw [Eng.wake_eq]
@[simp] theorem Eng.wake_savedSums : e.wake.savedSums = e.savedSums := by rw [Eng.wake_eq]
@[simp] theorem Eng.wake_works : e.wake.works = e.works := by rw [Eng.wake_eq]
@[simp] theorem Eng.wake_roles : e.wake.roles = e.roles := by rw [Eng.wake_eq]
@[simp] theorem Eng.wake_chans : e.wake.chans = e.chans := by rw [Eng.wake_eq]
@[simp] theorem Eng.wake_groups : e.wake.groups = e.groups := by rw [Eng.wake_eq]
@[simp] theorem Eng.wake_spool : e.wake.spool = e.spool := by rw [Eng.wake_eq]
@[simp] theorem Eng.wake_bob : e.wake.bob = e.bob := by rw [Eng.wake_eq]
@[simp] theorem Eng.wake_pld : e.wake.pld = e.pld := by rw [Eng.wake_eq]
@[simp] theorem Eng.wake_gauges : e.wake.gauges = e.gauges := by rw [Eng.wake_eq]
@[simp] theorem Eng.wake_experts : e.wake.experts = e.experts := by rw [Eng.wake_eq]
@[simp] theorem Eng.wake_srcs : e.wake.srcs = e.srcs := by rw [Eng.wake_eq]
@[simp] theorem Eng.wake_tacks : e.wake.tacks = e.tacks := by rw [Eng.wake_eq]
@[simp] theorem Eng.wake_bank0 : e.wake.bank0 = e.bank0 := by rw [Eng.wake_eq]
@[simp] theorem Eng.wake_bank1 : e.wake.bank1 = e.bank1 := by rw [Eng.wake_eq]
@[simp] theorem Eng.wake_lastBank : e.wake.lastBank = e.lastBank := by rw [Eng.wake_eq]
@[simp] theorem Eng.wake_latches : e.wake.latches = e.latches := by rw [Eng.wake_eq]
@[simp] theorem Eng.wake_diag : e.wake.diag = e.diag := by rw [Eng.wake_eq]
@[simp] theorem Eng.wake_acts : e.wake.acts = e.acts := by rw [Eng.wake_eq]
@[simp] theorem Eng.wake_mgmtAddr : e.wake.mgmtAddr = e.mgmtAddr := by rw [Eng.wake_eq]
@[simp] theorem Eng.wake_mgmtWide : e.wake.mgmtWide = e.mgmtWide := by rw [Eng.wake_eq]
@[simp] theorem Eng.wake_mirror : e.wake.mirror = e.mirror := by rw [Eng.wake_eq]
@[simp] theorem Eng.wake_tx : e.wake.tx = e.tx := by rw [Eng.wake_eq]
@[simp] theorem Eng.wake_irqs : e.wake.irqs = e.irqs := by rw [Eng.wake_eq]
@[simp] theorem Eng.wake_rsp : e.wake.rsp = e.rsp := by rw [Eng.wake_eq]
@[simp] theorem Eng.wake_posts : e.wake.posts = e.posts := by rw [Eng.wake_eq]

@[simp] theorem Eng.raise_wlog (code arg : Nat) (polder : Option Nat) (tag : Nat) : (e.raise code arg polder tag).wlog = e.wlog := by rw [Eng.raise_eq]
@[simp] theorem Eng.raise_freeCtr (code arg : Nat) (polder : Option Nat) (tag : Nat) : (e.raise code arg polder tag).freeCtr = e.freeCtr := by rw [Eng.raise_eq]
@[simp] theorem Eng.raise_time (code arg : Nat) (polder : Option Nat) (tag : Nat) : (e.raise code arg polder tag).time = e.time := by rw [Eng.raise_eq]
@[simp] theorem Eng.raise_boot (code arg : Nat) (polder : Option Nat) (tag : Nat) : (e.raise code arg polder tag).boot = e.boot := by rw [Eng.raise_eq]
@[simp] theorem Eng.raise_flt (code arg : Nat) (polder : Option Nat) (tag : Nat) : (e.raise code arg polder tag).flt = e.flt := by rw [Eng.raise_eq]
@[simp] theorem Eng.raise_loader (code arg : Nat) (polder : Option Nat) (tag : Nat) : (e.raise code arg polder tag).loader = e.loader := by rw [Eng.raise_eq]
@[simp] theorem Eng.raise_pat (code arg : Nat) (polder : Option Nat) (tag : Nat) : (e.raise code arg polder tag).pat = e.pat := by rw [Eng.raise_eq]
@[simp] theorem Eng.raise_slotCfg (code arg : Nat) (polder : Option Nat) (tag : Nat) : (e.raise code arg polder tag).slotCfg = e.slotCfg := by rw [Eng.raise_eq]
@[simp] theorem Eng.raise_panelMaps (code arg : Nat) (polder : Option Nat) (tag : Nat) : (e.raise code arg polder tag).panelMaps = e.panelMaps := by rw [Eng.raise_eq]
@[simp] theorem Eng.raise_ports (code arg : Nat) (polder : Option Nat) (tag : Nat) : (e.raise code arg polder tag).ports = e.ports := by rw [Eng.raise_eq]
@[simp] theorem Eng.raise_peerVer (code arg : Nat) (polder : Option Nat) (tag : Nat) : (e.raise code arg polder tag).peerVer = e.peerVer := by rw [Eng.raise_eq]
@[simp] theorem Eng.raise_tt (code arg : Nat) (polder : Option Nat) (tag : Nat) : (e.raise code arg polder tag).tt = e.tt := by rw [Eng.raise_eq]
@[simp] theorem Eng.raise_ttGen (code arg : Nat) (polder : Option Nat) (tag : Nat) : (e.raise code arg polder tag).ttGen = e.ttGen := by rw [Eng.raise_eq]
@[simp] theorem Eng.raise_ttFullSince (code arg : Nat) (polder : Option Nat) (tag : Nat) : (e.raise code arg polder tag).ttFullSince = e.ttFullSince := by rw [Eng.raise_eq]
@[simp] theorem Eng.raise_ttFullBy (code arg : Nat) (polder : Option Nat) (tag : Nat) : (e.raise code arg polder tag).ttFullBy = e.ttFullBy := by rw [Eng.raise_eq]
@[simp] theorem Eng.raise_acks (code arg : Nat) (polder : Option Nat) (tag : Nat) : (e.raise code arg polder tag).acks = e.acks := by rw [Eng.raise_eq]
@[simp] theorem Eng.raise_copies (code arg : Nat) (polder : Option Nat) (tag : Nat) : (e.raise code arg polder tag).copies = e.copies := by rw [Eng.raise_eq]
@[simp] theorem Eng.raise_excl (code arg : Nat) (polder : Option Nat) (tag : Nat) : (e.raise code arg polder tag).excl = e.excl := by rw [Eng.raise_eq]
@[simp] theorem Eng.raise_outq (code arg : Nat) (polder : Option Nat) (tag : Nat) : (e.raise code arg polder tag).outq = e.outq := by rw [Eng.raise_eq]
@[simp] theorem Eng.raise_fallbacks (code arg : Nat) (polder : Option Nat) (tag : Nat) : (e.raise code arg polder tag).fallbacks = e.fallbacks := by rw [Eng.raise_eq]
@[simp] theorem Eng.raise_pins (code arg : Nat) (polder : Option Nat) (tag : Nat) : (e.raise code arg polder tag).pins = e.pins := by rw [Eng.raise_eq]
@[simp] theorem Eng.raise_arbCount (code arg : Nat) (polder : Option Nat) (tag : Nat) : (e.raise code arg polder tag).arbCount = e.arbCount := by rw [Eng.raise_eq]
@[simp] theorem Eng.raise_arbLast (code arg : Nat) (polder : Option Nat) (tag : Nat) : (e.raise code arg polder tag).arbLast = e.arbLast := by rw [Eng.raise_eq]
@[simp] theorem Eng.raise_rings (code arg : Nat) (polder : Option Nat) (tag : Nat) : (e.raise code arg polder tag).rings = e.rings := by rw [Eng.raise_eq]
@[simp] theorem Eng.raise_served (code arg : Nat) (polder : Option Nat) (tag : Nat) : (e.raise code arg polder tag).served = e.served := by rw [Eng.raise_eq]
@[simp] theorem Eng.raise_cmds (code arg : Nat) (polder : Option Nat) (tag : Nat) : (e.raise code arg polder tag).cmds = e.cmds := by rw [Eng.raise_eq]
@[simp] theorem Eng.raise_nextCmd (code arg : Nat) (polder : Option Nat) (tag : Nat) : (e.raise code arg polder tag).nextCmd = e.nextCmd := by rw [Eng.raise_eq]
@[simp] theorem Eng.raise_lslots (code arg : Nat) (polder : Option Nat) (tag : Nat) : (e.raise code arg polder tag).lslots = e.lslots := by rw [Eng.raise_eq]
@[simp] theorem Eng.raise_wcache (code arg : Nat) (polder : Option Nat) (tag : Nat) : (e.raise code arg polder tag).wcache = e.wcache := by rw [Eng.raise_eq]
@[simp] theorem Eng.raise_tables (code arg : Nat) (polder : Option Nat) (tag : Nat) : (e.raise code arg polder tag).tables = e.tables := by rw [Eng.raise_eq]
@[simp] theorem Eng.raise_outs (code arg : Nat) (polder : Option Nat) (tag : Nat) : (e.raise code arg polder tag).outs = e.outs := by rw [Eng.raise_eq]
@[simp] theorem Eng.raise_savedSums (code arg : Nat) (polder : Option Nat) (tag : Nat) : (e.raise code arg polder tag).savedSums = e.savedSums := by rw [Eng.raise_eq]
@[simp] theorem Eng.raise_works (code arg : Nat) (polder : Option Nat) (tag : Nat) : (e.raise code arg polder tag).works = e.works := by rw [Eng.raise_eq]
@[simp] theorem Eng.raise_roles (code arg : Nat) (polder : Option Nat) (tag : Nat) : (e.raise code arg polder tag).roles = e.roles := by rw [Eng.raise_eq]
@[simp] theorem Eng.raise_chans (code arg : Nat) (polder : Option Nat) (tag : Nat) : (e.raise code arg polder tag).chans = e.chans := by rw [Eng.raise_eq]
@[simp] theorem Eng.raise_groups (code arg : Nat) (polder : Option Nat) (tag : Nat) : (e.raise code arg polder tag).groups = e.groups := by rw [Eng.raise_eq]
@[simp] theorem Eng.raise_spool (code arg : Nat) (polder : Option Nat) (tag : Nat) : (e.raise code arg polder tag).spool = e.spool := by rw [Eng.raise_eq]
@[simp] theorem Eng.raise_bob (code arg : Nat) (polder : Option Nat) (tag : Nat) : (e.raise code arg polder tag).bob = e.bob := by rw [Eng.raise_eq]
@[simp] theorem Eng.raise_pld (code arg : Nat) (polder : Option Nat) (tag : Nat) : (e.raise code arg polder tag).pld = e.pld := by rw [Eng.raise_eq]
@[simp] theorem Eng.raise_gauges (code arg : Nat) (polder : Option Nat) (tag : Nat) : (e.raise code arg polder tag).gauges = e.gauges := by rw [Eng.raise_eq]
@[simp] theorem Eng.raise_experts (code arg : Nat) (polder : Option Nat) (tag : Nat) : (e.raise code arg polder tag).experts = e.experts := by rw [Eng.raise_eq]
@[simp] theorem Eng.raise_srcs (code arg : Nat) (polder : Option Nat) (tag : Nat) : (e.raise code arg polder tag).srcs = e.srcs := by rw [Eng.raise_eq]
@[simp] theorem Eng.raise_tacks (code arg : Nat) (polder : Option Nat) (tag : Nat) : (e.raise code arg polder tag).tacks = e.tacks := by rw [Eng.raise_eq]
@[simp] theorem Eng.raise_bank0 (code arg : Nat) (polder : Option Nat) (tag : Nat) : (e.raise code arg polder tag).bank0 = e.bank0 := by rw [Eng.raise_eq]
@[simp] theorem Eng.raise_bank1 (code arg : Nat) (polder : Option Nat) (tag : Nat) : (e.raise code arg polder tag).bank1 = e.bank1 := by rw [Eng.raise_eq]
@[simp] theorem Eng.raise_lastBank (code arg : Nat) (polder : Option Nat) (tag : Nat) : (e.raise code arg polder tag).lastBank = e.lastBank := by rw [Eng.raise_eq]
@[simp] theorem Eng.raise_latches (code arg : Nat) (polder : Option Nat) (tag : Nat) : (e.raise code arg polder tag).latches = e.latches := by rw [Eng.raise_eq]
@[simp] theorem Eng.raise_diag (code arg : Nat) (polder : Option Nat) (tag : Nat) : (e.raise code arg polder tag).diag = e.diag := by rw [Eng.raise_eq]
@[simp] theorem Eng.raise_acts (code arg : Nat) (polder : Option Nat) (tag : Nat) : (e.raise code arg polder tag).acts = e.acts := by rw [Eng.raise_eq]
@[simp] theorem Eng.raise_mgmtAddr (code arg : Nat) (polder : Option Nat) (tag : Nat) : (e.raise code arg polder tag).mgmtAddr = e.mgmtAddr := by rw [Eng.raise_eq]
@[simp] theorem Eng.raise_mgmtWide (code arg : Nat) (polder : Option Nat) (tag : Nat) : (e.raise code arg polder tag).mgmtWide = e.mgmtWide := by rw [Eng.raise_eq]
@[simp] theorem Eng.raise_mirror (code arg : Nat) (polder : Option Nat) (tag : Nat) : (e.raise code arg polder tag).mirror = e.mirror := by rw [Eng.raise_eq]
@[simp] theorem Eng.raise_tx (code arg : Nat) (polder : Option Nat) (tag : Nat) : (e.raise code arg polder tag).tx = e.tx := by rw [Eng.raise_eq]
@[simp] theorem Eng.raise_irqs (code arg : Nat) (polder : Option Nat) (tag : Nat) : (e.raise code arg polder tag).irqs = e.irqs := by rw [Eng.raise_eq]
@[simp] theorem Eng.raise_rsp (code arg : Nat) (polder : Option Nat) (tag : Nat) : (e.raise code arg polder tag).rsp = e.rsp := by rw [Eng.raise_eq]
@[simp] theorem Eng.raise_posts (code arg : Nat) (polder : Option Nat) (tag : Nat) : (e.raise code arg polder tag).posts = e.posts := by rw [Eng.raise_eq]

end Sys2Proof.Machine
end

