-- ==== Sys2Proof/Laws/FaultEvents.lean ====
section
/-! SUPPORT. What a fault's event, and looking again at the replacement and ready conditions, can do. -/

namespace Sys2Proof.Machine

variable (e : Eng)

@[simp] theorem Eng.fltEvent_wlog (code : Nat) (bay dike quarter pos : Option Nat) : (e.fltEvent code bay dike quarter pos).wlog = e.wlog := by
  rw [Eng.fltEvent, Eng.raise_wlog, Eng.setReg_wlog]
@[simp] theorem Eng.fltEvent_freeCtr (code : Nat) (bay dike quarter pos : Option Nat) : (e.fltEvent code bay dike quarter pos).freeCtr = e.freeCtr := by
  rw [Eng.fltEvent, Eng.raise_freeCtr, Eng.setReg_freeCtr]
@[simp] theorem Eng.fltEvent_time (code : Nat) (bay dike quarter pos : Option Nat) : (e.fltEvent code bay dike quarter pos).time = e.time := by
  rw [Eng.fltEvent, Eng.raise_time, Eng.setReg_time]
@[simp] theorem Eng.fltEvent_boot (code : Nat) (bay dike quarter pos : Option Nat) : (e.fltEvent code bay dike quarter pos).boot = e.boot := by
  rw [Eng.fltEvent, Eng.raise_boot, Eng.setReg_boot]
@[simp] theorem Eng.fltEvent_flt (code : Nat) (bay dike quarter pos : Option Nat) : (e.fltEvent code bay dike quarter pos).flt = e.flt := by
  rw [Eng.fltEvent, Eng.raise_flt, Eng.setReg_flt]
@[simp] theorem Eng.fltEvent_loader (code : Nat) (bay dike quarter pos : Option Nat) : (e.fltEvent code bay dike quarter pos).loader = e.loader := by
  rw [Eng.fltEvent, Eng.raise_loader, Eng.setReg_loader]
@[simp] theorem Eng.fltEvent_pat (code : Nat) (bay dike quarter pos : Option Nat) : (e.fltEvent code bay dike quarter pos).pat = e.pat := by
  rw [Eng.fltEvent, Eng.raise_pat, Eng.setReg_pat]
@[simp] theorem Eng.fltEvent_slotCfg (code : Nat) (bay dike quarter pos : Option Nat) : (e.fltEvent code bay dike quarter pos).slotCfg = e.slotCfg := by
  rw [Eng.fltEvent, Eng.raise_slotCfg, Eng.setReg_slotCfg]
@[simp] theorem Eng.fltEvent_panelMaps (code : Nat) (bay dike quarter pos : Option Nat) : (e.fltEvent code bay dike quarter pos).panelMaps = e.panelMaps := by
  rw [Eng.fltEvent, Eng.raise_panelMaps, Eng.setReg_panelMaps]
@[simp] theorem Eng.fltEvent_ports (code : Nat) (bay dike quarter pos : Option Nat) : (e.fltEvent code bay dike quarter pos).ports = e.ports := by
  rw [Eng.fltEvent, Eng.raise_ports, Eng.setReg_ports]
@[simp] theorem Eng.fltEvent_peerVer (code : Nat) (bay dike quarter pos : Option Nat) : (e.fltEvent code bay dike quarter pos).peerVer = e.peerVer := by
  rw [Eng.fltEvent, Eng.raise_peerVer, Eng.setReg_peerVer]
@[simp] theorem Eng.fltEvent_tt (code : Nat) (bay dike quarter pos : Option Nat) : (e.fltEvent code bay dike quarter pos).tt = e.tt := by
  rw [Eng.fltEvent, Eng.raise_tt, Eng.setReg_tt]
@[simp] theorem Eng.fltEvent_ttGen (code : Nat) (bay dike quarter pos : Option Nat) : (e.fltEvent code bay dike quarter pos).ttGen = e.ttGen := by
  rw [Eng.fltEvent, Eng.raise_ttGen, Eng.setReg_ttGen]
@[simp] theorem Eng.fltEvent_ttFullSince (code : Nat) (bay dike quarter pos : Option Nat) : (e.fltEvent code bay dike quarter pos).ttFullSince = e.ttFullSince := by
  rw [Eng.fltEvent, Eng.raise_ttFullSince, Eng.setReg_ttFullSince]
@[simp] theorem Eng.fltEvent_ttFullBy (code : Nat) (bay dike quarter pos : Option Nat) : (e.fltEvent code bay dike quarter pos).ttFullBy = e.ttFullBy := by
  rw [Eng.fltEvent, Eng.raise_ttFullBy, Eng.setReg_ttFullBy]
@[simp] theorem Eng.fltEvent_acks (code : Nat) (bay dike quarter pos : Option Nat) : (e.fltEvent code bay dike quarter pos).acks = e.acks := by
  rw [Eng.fltEvent, Eng.raise_acks, Eng.setReg_acks]
@[simp] theorem Eng.fltEvent_copies (code : Nat) (bay dike quarter pos : Option Nat) : (e.fltEvent code bay dike quarter pos).copies = e.copies := by
  rw [Eng.fltEvent, Eng.raise_copies, Eng.setReg_copies]
@[simp] theorem Eng.fltEvent_excl (code : Nat) (bay dike quarter pos : Option Nat) : (e.fltEvent code bay dike quarter pos).excl = e.excl := by
  rw [Eng.fltEvent, Eng.raise_excl, Eng.setReg_excl]
@[simp] theorem Eng.fltEvent_outq (code : Nat) (bay dike quarter pos : Option Nat) : (e.fltEvent code bay dike quarter pos).outq = e.outq := by
  rw [Eng.fltEvent, Eng.raise_outq, Eng.setReg_outq]
@[simp] theorem Eng.fltEvent_fallbacks (code : Nat) (bay dike quarter pos : Option Nat) : (e.fltEvent code bay dike quarter pos).fallbacks = e.fallbacks := by
  rw [Eng.fltEvent, Eng.raise_fallbacks, Eng.setReg_fallbacks]
@[simp] theorem Eng.fltEvent_pins (code : Nat) (bay dike quarter pos : Option Nat) : (e.fltEvent code bay dike quarter pos).pins = e.pins := by
  rw [Eng.fltEvent, Eng.raise_pins, Eng.setReg_pins]
@[simp] theorem Eng.fltEvent_arbCount (code : Nat) (bay dike quarter pos : Option Nat) : (e.fltEvent code bay dike quarter pos).arbCount = e.arbCount := by
  rw [Eng.fltEvent, Eng.raise_arbCount, Eng.setReg_arbCount]
@[simp] theorem Eng.fltEvent_arbLast (code : Nat) (bay dike quarter pos : Option Nat) : (e.fltEvent code bay dike quarter pos).arbLast = e.arbLast := by
  rw [Eng.fltEvent, Eng.raise_arbLast, Eng.setReg_arbLast]
@[simp] theorem Eng.fltEvent_rings (code : Nat) (bay dike quarter pos : Option Nat) : (e.fltEvent code bay dike quarter pos).rings = e.rings := by
  rw [Eng.fltEvent, Eng.raise_rings, Eng.setReg_rings]
@[simp] theorem Eng.fltEvent_served (code : Nat) (bay dike quarter pos : Option Nat) : (e.fltEvent code bay dike quarter pos).served = e.served := by
  rw [Eng.fltEvent, Eng.raise_served, Eng.setReg_served]
@[simp] theorem Eng.fltEvent_cmds (code : Nat) (bay dike quarter pos : Option Nat) : (e.fltEvent code bay dike quarter pos).cmds = e.cmds := by
  rw [Eng.fltEvent, Eng.raise_cmds, Eng.setReg_cmds]
@[simp] theorem Eng.fltEvent_nextCmd (code : Nat) (bay dike quarter pos : Option Nat) : (e.fltEvent code bay dike quarter pos).nextCmd = e.nextCmd := by
  rw [Eng.fltEvent, Eng.raise_nextCmd, Eng.setReg_nextCmd]
@[simp] theorem Eng.fltEvent_lslots (code : Nat) (bay dike quarter pos : Option Nat) : (e.fltEvent code bay dike quarter pos).lslots = e.lslots := by
  rw [Eng.fltEvent, Eng.raise_lslots, Eng.setReg_lslots]
@[simp] theorem Eng.fltEvent_wcache (code : Nat) (bay dike quarter pos : Option Nat) : (e.fltEvent code bay dike quarter pos).wcache = e.wcache := by
  rw [Eng.fltEvent, Eng.raise_wcache, Eng.setReg_wcache]
@[simp] theorem Eng.fltEvent_tables (code : Nat) (bay dike quarter pos : Option Nat) : (e.fltEvent code bay dike quarter pos).tables = e.tables := by
  rw [Eng.fltEvent, Eng.raise_tables, Eng.setReg_tables]
@[simp] theorem Eng.fltEvent_outs (code : Nat) (bay dike quarter pos : Option Nat) : (e.fltEvent code bay dike quarter pos).outs = e.outs := by
  rw [Eng.fltEvent, Eng.raise_outs, Eng.setReg_outs]
@[simp] theorem Eng.fltEvent_savedSums (code : Nat) (bay dike quarter pos : Option Nat) : (e.fltEvent code bay dike quarter pos).savedSums = e.savedSums := by
  rw [Eng.fltEvent, Eng.raise_savedSums, Eng.setReg_savedSums]
@[simp] theorem Eng.fltEvent_works (code : Nat) (bay dike quarter pos : Option Nat) : (e.fltEvent code bay dike quarter pos).works = e.works := by
  rw [Eng.fltEvent, Eng.raise_works, Eng.setReg_works]
@[simp] theorem Eng.fltEvent_roles (code : Nat) (bay dike quarter pos : Option Nat) : (e.fltEvent code bay dike quarter pos).roles = e.roles := by
  rw [Eng.fltEvent, Eng.raise_roles, Eng.setReg_roles]
@[simp] theorem Eng.fltEvent_chans (code : Nat) (bay dike quarter pos : Option Nat) : (e.fltEvent code bay dike quarter pos).chans = e.chans := by
  rw [Eng.fltEvent, Eng.raise_chans, Eng.setReg_chans]
@[simp] theorem Eng.fltEvent_groups (code : Nat) (bay dike quarter pos : Option Nat) : (e.fltEvent code bay dike quarter pos).groups = e.groups := by
  rw [Eng.fltEvent, Eng.raise_groups, Eng.setReg_groups]
@[simp] theorem Eng.fltEvent_spool (code : Nat) (bay dike quarter pos : Option Nat) : (e.fltEvent code bay dike quarter pos).spool = e.spool := by
  rw [Eng.fltEvent, Eng.raise_spool, Eng.setReg_spool]
@[simp] theorem Eng.fltEvent_bob (code : Nat) (bay dike quarter pos : Option Nat) : (e.fltEvent code bay dike quarter pos).bob = e.bob := by
  rw [Eng.fltEvent, Eng.raise_bob, Eng.setReg_bob]
@[simp] theorem Eng.fltEvent_pld (code : Nat) (bay dike quarter pos : Option Nat) : (e.fltEvent code bay dike quarter pos).pld = e.pld := by
  rw [Eng.fltEvent, Eng.raise_pld, Eng.setReg_pld]
@[simp] theorem Eng.fltEvent_gauges (code : Nat) (bay dike quarter pos : Option Nat) : (e.fltEvent code bay dike quarter pos).gauges = e.gauges := by
  rw [Eng.fltEvent, Eng.raise_gauges, Eng.setReg_gauges]
@[simp] theorem Eng.fltEvent_experts (code : Nat) (bay dike quarter pos : Option Nat) : (e.fltEvent code bay dike quarter pos).experts = e.experts := by
  rw [Eng.fltEvent, Eng.raise_experts, Eng.setReg_experts]
@[simp] theorem Eng.fltEvent_srcs (code : Nat) (bay dike quarter pos : Option Nat) : (e.fltEvent code bay dike quarter pos).srcs = e.srcs := by
  rw [Eng.fltEvent, Eng.raise_srcs, Eng.setReg_srcs]
@[simp] theorem Eng.fltEvent_tacks (code : Nat) (bay dike quarter pos : Option Nat) : (e.fltEvent code bay dike quarter pos).tacks = e.tacks := by
  rw [Eng.fltEvent, Eng.raise_tacks, Eng.setReg_tacks]
@[simp] theorem Eng.fltEvent_bank0 (code : Nat) (bay dike quarter pos : Option Nat) : (e.fltEvent code bay dike quarter pos).bank0 = e.bank0 := by
  rw [Eng.fltEvent, Eng.raise_bank0, Eng.setReg_bank0]
@[simp] theorem Eng.fltEvent_bank1 (code : Nat) (bay dike quarter pos : Option Nat) : (e.fltEvent code bay dike quarter pos).bank1 = e.bank1 := by
  rw [Eng.fltEvent, Eng.raise_bank1, Eng.setReg_bank1]
@[simp] theorem Eng.fltEvent_lastBank (code : Nat) (bay dike quarter pos : Option Nat) : (e.fltEvent code bay dike quarter pos).lastBank = e.lastBank := by
  rw [Eng.fltEvent, Eng.raise_lastBank, Eng.setReg_lastBank]
@[simp] theorem Eng.fltEvent_latches (code : Nat) (bay dike quarter pos : Option Nat) : (e.fltEvent code bay dike quarter pos).latches = e.latches := by
  rw [Eng.fltEvent, Eng.raise_latches, Eng.setReg_latches]
@[simp] theorem Eng.fltEvent_diag (code : Nat) (bay dike quarter pos : Option Nat) : (e.fltEvent code bay dike quarter pos).diag = e.diag := by
  rw [Eng.fltEvent, Eng.raise_diag, Eng.setReg_diag]
@[simp] theorem Eng.fltEvent_acts (code : Nat) (bay dike quarter pos : Option Nat) : (e.fltEvent code bay dike quarter pos).acts = e.acts := by
  rw [Eng.fltEvent, Eng.raise_acts, Eng.setReg_acts]
@[simp] theorem Eng.fltEvent_mgmtAddr (code : Nat) (bay dike quarter pos : Option Nat) : (e.fltEvent code bay dike quarter pos).mgmtAddr = e.mgmtAddr := by
  rw [Eng.fltEvent, Eng.raise_mgmtAddr, Eng.setReg_mgmtAddr]
@[simp] theorem Eng.fltEvent_mgmtWide (code : Nat) (bay dike quarter pos : Option Nat) : (e.fltEvent code bay dike quarter pos).mgmtWide = e.mgmtWide := by
  rw [Eng.fltEvent, Eng.raise_mgmtWide, Eng.setReg_mgmtWide]
@[simp] theorem Eng.fltEvent_mirror (code : Nat) (bay dike quarter pos : Option Nat) : (e.fltEvent code bay dike quarter pos).mirror = e.mirror := by
  rw [Eng.fltEvent, Eng.raise_mirror, Eng.setReg_mirror]
@[simp] theorem Eng.fltEvent_tx (code : Nat) (bay dike quarter pos : Option Nat) : (e.fltEvent code bay dike quarter pos).tx = e.tx := by
  rw [Eng.fltEvent, Eng.raise_tx, Eng.setReg_tx]
@[simp] theorem Eng.fltEvent_irqs (code : Nat) (bay dike quarter pos : Option Nat) : (e.fltEvent code bay dike quarter pos).irqs = e.irqs := by
  rw [Eng.fltEvent, Eng.raise_irqs, Eng.setReg_irqs]
@[simp] theorem Eng.fltEvent_rsp (code : Nat) (bay dike quarter pos : Option Nat) : (e.fltEvent code bay dike quarter pos).rsp = e.rsp := by
  rw [Eng.fltEvent, Eng.raise_rsp, Eng.setReg_rsp]
@[simp] theorem Eng.fltEvent_posts (code : Nat) (bay dike quarter pos : Option Nat) : (e.fltEvent code bay dike quarter pos).posts = e.posts := by
  rw [Eng.fltEvent, Eng.raise_posts, Eng.setReg_posts]

@[simp] theorem Eng.setReplace_wlog : e.setReplace.wlog = e.wlog := by
  unfold Eng.setReplace
  by_cases h : e.replaceWord = e.reg Reg.engReplace
  · rw [if_pos h]
  · rw [if_neg h]; cases capabilityOnly (e.reg Reg.engReplace) e.replaceWord
    · rw [if_neg Bool.false_ne_true, Eng.raise_wlog, Eng.post_wlog, Eng.setReg_wlog]
    · rw [if_pos rfl, Eng.setReg_wlog]
@[simp] theorem Eng.markDegraded_wlog : e.markDegraded.wlog = e.wlog := by
  unfold Eng.markDegraded; split <;> rfl
@[simp] theorem Eng.updateReplace_wlog : e.updateReplace.wlog = e.wlog := by
  rw [Eng.updateReplace, Eng.setReplace_wlog, Eng.markDegraded_wlog]
@[simp] theorem Eng.setReplace_freeCtr : e.setReplace.freeCtr = e.freeCtr := by
  unfold Eng.setReplace
  by_cases h : e.replaceWord = e.reg Reg.engReplace
  · rw [if_pos h]
  · rw [if_neg h]; cases capabilityOnly (e.reg Reg.engReplace) e.replaceWord
    · rw [if_neg Bool.false_ne_true, Eng.raise_freeCtr, Eng.post_freeCtr, Eng.setReg_freeCtr]
    · rw [if_pos rfl, Eng.setReg_freeCtr]
@[simp] theorem Eng.markDegraded_freeCtr : e.markDegraded.freeCtr = e.freeCtr := by
  unfold Eng.markDegraded; split <;> rfl
@[simp] theorem Eng.updateReplace_freeCtr : e.updateReplace.freeCtr = e.freeCtr := by
  rw [Eng.updateReplace, Eng.setReplace_freeCtr, Eng.markDegraded_freeCtr]
@[simp] theorem Eng.setReplace_time : e.setReplace.time = e.time := by
  unfold Eng.setReplace
  by_cases h : e.replaceWord = e.reg Reg.engReplace
  · rw [if_pos h]
  · rw [if_neg h]; cases capabilityOnly (e.reg Reg.engReplace) e.replaceWord
    · rw [if_neg Bool.false_ne_true, Eng.raise_time, Eng.post_time, Eng.setReg_time]
    · rw [if_pos rfl, Eng.setReg_time]
@[simp] theorem Eng.markDegraded_time : e.markDegraded.time = e.time := by
  unfold Eng.markDegraded; split <;> rfl
@[simp] theorem Eng.updateReplace_time : e.updateReplace.time = e.time := by
  rw [Eng.updateReplace, Eng.setReplace_time, Eng.markDegraded_time]
@[simp] theorem Eng.setReplace_boot : e.setReplace.boot = e.boot := by
  unfold Eng.setReplace
  by_cases h : e.replaceWord = e.reg Reg.engReplace
  · rw [if_pos h]
  · rw [if_neg h]; cases capabilityOnly (e.reg Reg.engReplace) e.replaceWord
    · rw [if_neg Bool.false_ne_true, Eng.raise_boot, Eng.post_boot, Eng.setReg_boot]
    · rw [if_pos rfl, Eng.setReg_boot]
@[simp] theorem Eng.markDegraded_boot : e.markDegraded.boot = e.boot := by
  unfold Eng.markDegraded; split <;> rfl
@[simp] theorem Eng.updateReplace_boot : e.updateReplace.boot = e.boot := by
  rw [Eng.updateReplace, Eng.setReplace_boot, Eng.markDegraded_boot]
@[simp] theorem Eng.setReplace_flt : e.setReplace.flt = e.flt := by
  unfold Eng.setReplace
  by_cases h : e.replaceWord = e.reg Reg.engReplace
  · rw [if_pos h]
  · rw [if_neg h]; cases capabilityOnly (e.reg Reg.engReplace) e.replaceWord
    · rw [if_neg Bool.false_ne_true, Eng.raise_flt, Eng.post_flt, Eng.setReg_flt]
    · rw [if_pos rfl, Eng.setReg_flt]
@[simp] theorem Eng.markDegraded_flt : e.markDegraded.flt = e.flt := by
  unfold Eng.markDegraded; split <;> rfl
@[simp] theorem Eng.updateReplace_flt : e.updateReplace.flt = e.flt := by
  rw [Eng.updateReplace, Eng.setReplace_flt, Eng.markDegraded_flt]
@[simp] theorem Eng.setReplace_loader : e.setReplace.loader = e.loader := by
  unfold Eng.setReplace
  by_cases h : e.replaceWord = e.reg Reg.engReplace
  · rw [if_pos h]
  · rw [if_neg h]; cases capabilityOnly (e.reg Reg.engReplace) e.replaceWord
    · rw [if_neg Bool.false_ne_true, Eng.raise_loader, Eng.post_loader, Eng.setReg_loader]
    · rw [if_pos rfl, Eng.setReg_loader]
@[simp] theorem Eng.markDegraded_loader : e.markDegraded.loader = e.loader := by
  unfold Eng.markDegraded; split <;> rfl
@[simp] theorem Eng.updateReplace_loader : e.updateReplace.loader = e.loader := by
  rw [Eng.updateReplace, Eng.setReplace_loader, Eng.markDegraded_loader]
@[simp] theorem Eng.setReplace_pat : e.setReplace.pat = e.pat := by
  unfold Eng.setReplace
  by_cases h : e.replaceWord = e.reg Reg.engReplace
  · rw [if_pos h]
  · rw [if_neg h]; cases capabilityOnly (e.reg Reg.engReplace) e.replaceWord
    · rw [if_neg Bool.false_ne_true, Eng.raise_pat, Eng.post_pat, Eng.setReg_pat]
    · rw [if_pos rfl, Eng.setReg_pat]
@[simp] theorem Eng.markDegraded_pat : e.markDegraded.pat = e.pat := by
  unfold Eng.markDegraded; split <;> rfl
@[simp] theorem Eng.updateReplace_pat : e.updateReplace.pat = e.pat := by
  rw [Eng.updateReplace, Eng.setReplace_pat, Eng.markDegraded_pat]
@[simp] theorem Eng.setReplace_slotCfg : e.setReplace.slotCfg = e.slotCfg := by
  unfold Eng.setReplace
  by_cases h : e.replaceWord = e.reg Reg.engReplace
  · rw [if_pos h]
  · rw [if_neg h]; cases capabilityOnly (e.reg Reg.engReplace) e.replaceWord
    · rw [if_neg Bool.false_ne_true, Eng.raise_slotCfg, Eng.post_slotCfg, Eng.setReg_slotCfg]
    · rw [if_pos rfl, Eng.setReg_slotCfg]
@[simp] theorem Eng.markDegraded_slotCfg : e.markDegraded.slotCfg = e.slotCfg := by
  unfold Eng.markDegraded; split <;> rfl
@[simp] theorem Eng.updateReplace_slotCfg : e.updateReplace.slotCfg = e.slotCfg := by
  rw [Eng.updateReplace, Eng.setReplace_slotCfg, Eng.markDegraded_slotCfg]
@[simp] theorem Eng.setReplace_panelMaps : e.setReplace.panelMaps = e.panelMaps := by
  unfold Eng.setReplace
  by_cases h : e.replaceWord = e.reg Reg.engReplace
  · rw [if_pos h]
  · rw [if_neg h]; cases capabilityOnly (e.reg Reg.engReplace) e.replaceWord
    · rw [if_neg Bool.false_ne_true, Eng.raise_panelMaps, Eng.post_panelMaps, Eng.setReg_panelMaps]
    · rw [if_pos rfl, Eng.setReg_panelMaps]
@[simp] theorem Eng.markDegraded_panelMaps : e.markDegraded.panelMaps = e.panelMaps := by
  unfold Eng.markDegraded; split <;> rfl
@[simp] theorem Eng.updateReplace_panelMaps : e.updateReplace.panelMaps = e.panelMaps := by
  rw [Eng.updateReplace, Eng.setReplace_panelMaps, Eng.markDegraded_panelMaps]
@[simp] theorem Eng.setReplace_ports : e.setReplace.ports = e.ports := by
  unfold Eng.setReplace
  by_cases h : e.replaceWord = e.reg Reg.engReplace
  · rw [if_pos h]
  · rw [if_neg h]; cases capabilityOnly (e.reg Reg.engReplace) e.replaceWord
    · rw [if_neg Bool.false_ne_true, Eng.raise_ports, Eng.post_ports, Eng.setReg_ports]
    · rw [if_pos rfl, Eng.setReg_ports]
@[simp] theorem Eng.markDegraded_ports : e.markDegraded.ports = e.ports := by
  unfold Eng.markDegraded; split <;> rfl
@[simp] theorem Eng.updateReplace_ports : e.updateReplace.ports = e.ports := by
  rw [Eng.updateReplace, Eng.setReplace_ports, Eng.markDegraded_ports]
@[simp] theorem Eng.setReplace_peerVer : e.setReplace.peerVer = e.peerVer := by
  unfold Eng.setReplace
  by_cases h : e.replaceWord = e.reg Reg.engReplace
  · rw [if_pos h]
  · rw [if_neg h]; cases capabilityOnly (e.reg Reg.engReplace) e.replaceWord
    · rw [if_neg Bool.false_ne_true, Eng.raise_peerVer, Eng.post_peerVer, Eng.setReg_peerVer]
    · rw [if_pos rfl, Eng.setReg_peerVer]
@[simp] theorem Eng.markDegraded_peerVer : e.markDegraded.peerVer = e.peerVer := by
  unfold Eng.markDegraded; split <;> rfl
@[simp] theorem Eng.updateReplace_peerVer : e.updateReplace.peerVer = e.peerVer := by
  rw [Eng.updateReplace, Eng.setReplace_peerVer, Eng.markDegraded_peerVer]
@[simp] theorem Eng.setReplace_tt : e.setReplace.tt = e.tt := by
  unfold Eng.setReplace
  by_cases h : e.replaceWord = e.reg Reg.engReplace
  · rw [if_pos h]
  · rw [if_neg h]; cases capabilityOnly (e.reg Reg.engReplace) e.replaceWord
    · rw [if_neg Bool.false_ne_true, Eng.raise_tt, Eng.post_tt, Eng.setReg_tt]
    · rw [if_pos rfl, Eng.setReg_tt]
@[simp] theorem Eng.markDegraded_tt : e.markDegraded.tt = e.tt := by
  unfold Eng.markDegraded; split <;> rfl
@[simp] theorem Eng.updateReplace_tt : e.updateReplace.tt = e.tt := by
  rw [Eng.updateReplace, Eng.setReplace_tt, Eng.markDegraded_tt]
@[simp] theorem Eng.setReplace_ttGen : e.setReplace.ttGen = e.ttGen := by
  unfold Eng.setReplace
  by_cases h : e.replaceWord = e.reg Reg.engReplace
  · rw [if_pos h]
  · rw [if_neg h]; cases capabilityOnly (e.reg Reg.engReplace) e.replaceWord
    · rw [if_neg Bool.false_ne_true, Eng.raise_ttGen, Eng.post_ttGen, Eng.setReg_ttGen]
    · rw [if_pos rfl, Eng.setReg_ttGen]
@[simp] theorem Eng.markDegraded_ttGen : e.markDegraded.ttGen = e.ttGen := by
  unfold Eng.markDegraded; split <;> rfl
@[simp] theorem Eng.updateReplace_ttGen : e.updateReplace.ttGen = e.ttGen := by
  rw [Eng.updateReplace, Eng.setReplace_ttGen, Eng.markDegraded_ttGen]
@[simp] theorem Eng.setReplace_ttFullSince : e.setReplace.ttFullSince = e.ttFullSince := by
  unfold Eng.setReplace
  by_cases h : e.replaceWord = e.reg Reg.engReplace
  · rw [if_pos h]
  · rw [if_neg h]; cases capabilityOnly (e.reg Reg.engReplace) e.replaceWord
    · rw [if_neg Bool.false_ne_true, Eng.raise_ttFullSince, Eng.post_ttFullSince, Eng.setReg_ttFullSince]
    · rw [if_pos rfl, Eng.setReg_ttFullSince]
@[simp] theorem Eng.markDegraded_ttFullSince : e.markDegraded.ttFullSince = e.ttFullSince := by
  unfold Eng.markDegraded; split <;> rfl
@[simp] theorem Eng.updateReplace_ttFullSince : e.updateReplace.ttFullSince = e.ttFullSince := by
  rw [Eng.updateReplace, Eng.setReplace_ttFullSince, Eng.markDegraded_ttFullSince]
@[simp] theorem Eng.setReplace_ttFullBy : e.setReplace.ttFullBy = e.ttFullBy := by
  unfold Eng.setReplace
  by_cases h : e.replaceWord = e.reg Reg.engReplace
  · rw [if_pos h]
  · rw [if_neg h]; cases capabilityOnly (e.reg Reg.engReplace) e.replaceWord
    · rw [if_neg Bool.false_ne_true, Eng.raise_ttFullBy, Eng.post_ttFullBy, Eng.setReg_ttFullBy]
    · rw [if_pos rfl, Eng.setReg_ttFullBy]
@[simp] theorem Eng.markDegraded_ttFullBy : e.markDegraded.ttFullBy = e.ttFullBy := by
  unfold Eng.markDegraded; split <;> rfl
@[simp] theorem Eng.updateReplace_ttFullBy : e.updateReplace.ttFullBy = e.ttFullBy := by
  rw [Eng.updateReplace, Eng.setReplace_ttFullBy, Eng.markDegraded_ttFullBy]
@[simp] theorem Eng.setReplace_acks : e.setReplace.acks = e.acks := by
  unfold Eng.setReplace
  by_cases h : e.replaceWord = e.reg Reg.engReplace
  · rw [if_pos h]
  · rw [if_neg h]; cases capabilityOnly (e.reg Reg.engReplace) e.replaceWord
    · rw [if_neg Bool.false_ne_true, Eng.raise_acks, Eng.post_acks, Eng.setReg_acks]
    · rw [if_pos rfl, Eng.setReg_acks]
@[simp] theorem Eng.markDegraded_acks : e.markDegraded.acks = e.acks := by
  unfold Eng.markDegraded; split <;> rfl
@[simp] theorem Eng.updateReplace_acks : e.updateReplace.acks = e.acks := by
  rw [Eng.updateReplace, Eng.setReplace_acks, Eng.markDegraded_acks]
@[simp] theorem Eng.setReplace_copies : e.setReplace.copies = e.copies := by
  unfold Eng.setReplace
  by_cases h : e.replaceWord = e.reg Reg.engReplace
  · rw [if_pos h]
  · rw [if_neg h]; cases capabilityOnly (e.reg Reg.engReplace) e.replaceWord
    · rw [if_neg Bool.false_ne_true, Eng.raise_copies, Eng.post_copies, Eng.setReg_copies]
    · rw [if_pos rfl, Eng.setReg_copies]
@[simp] theorem Eng.markDegraded_copies : e.markDegraded.copies = e.copies := by
  unfold Eng.markDegraded; split <;> rfl
@[simp] theorem Eng.updateReplace_copies : e.updateReplace.copies = e.copies := by
  rw [Eng.updateReplace, Eng.setReplace_copies, Eng.markDegraded_copies]
@[simp] theorem Eng.setReplace_excl : e.setReplace.excl = e.excl := by
  unfold Eng.setReplace
  by_cases h : e.replaceWord = e.reg Reg.engReplace
  · rw [if_pos h]
  · rw [if_neg h]; cases capabilityOnly (e.reg Reg.engReplace) e.replaceWord
    · rw [if_neg Bool.false_ne_true, Eng.raise_excl, Eng.post_excl, Eng.setReg_excl]
    · rw [if_pos rfl, Eng.setReg_excl]
@[simp] theorem Eng.markDegraded_excl : e.markDegraded.excl = e.excl := by
  unfold Eng.markDegraded; split <;> rfl
@[simp] theorem Eng.updateReplace_excl : e.updateReplace.excl = e.excl := by
  rw [Eng.updateReplace, Eng.setReplace_excl, Eng.markDegraded_excl]
@[simp] theorem Eng.setReplace_outq : e.setReplace.outq = e.outq := by
  unfold Eng.setReplace
  by_cases h : e.replaceWord = e.reg Reg.engReplace
  · rw [if_pos h]
  · rw [if_neg h]; cases capabilityOnly (e.reg Reg.engReplace) e.replaceWord
    · rw [if_neg Bool.false_ne_true, Eng.raise_outq, Eng.post_outq, Eng.setReg_outq]
    · rw [if_pos rfl, Eng.setReg_outq]
@[simp] theorem Eng.markDegraded_outq : e.markDegraded.outq = e.outq := by
  unfold Eng.markDegraded; split <;> rfl
@[simp] theorem Eng.updateReplace_outq : e.updateReplace.outq = e.outq := by
  rw [Eng.updateReplace, Eng.setReplace_outq, Eng.markDegraded_outq]
@[simp] theorem Eng.setReplace_fallbacks : e.setReplace.fallbacks = e.fallbacks := by
  unfold Eng.setReplace
  by_cases h : e.replaceWord = e.reg Reg.engReplace
  · rw [if_pos h]
  · rw [if_neg h]; cases capabilityOnly (e.reg Reg.engReplace) e.replaceWord
    · rw [if_neg Bool.false_ne_true, Eng.raise_fallbacks, Eng.post_fallbacks, Eng.setReg_fallbacks]
    · rw [if_pos rfl, Eng.setReg_fallbacks]
@[simp] theorem Eng.markDegraded_fallbacks : e.markDegraded.fallbacks = e.fallbacks := by
  unfold Eng.markDegraded; split <;> rfl
@[simp] theorem Eng.updateReplace_fallbacks : e.updateReplace.fallbacks = e.fallbacks := by
  rw [Eng.updateReplace, Eng.setReplace_fallbacks, Eng.markDegraded_fallbacks]
@[simp] theorem Eng.setReplace_pins : e.setReplace.pins = e.pins := by
  unfold Eng.setReplace
  by_cases h : e.replaceWord = e.reg Reg.engReplace
  · rw [if_pos h]
  · rw [if_neg h]; cases capabilityOnly (e.reg Reg.engReplace) e.replaceWord
    · rw [if_neg Bool.false_ne_true, Eng.raise_pins, Eng.post_pins, Eng.setReg_pins]
    · rw [if_pos rfl, Eng.setReg_pins]
@[simp] theorem Eng.markDegraded_pins : e.markDegraded.pins = e.pins := by
  unfold Eng.markDegraded; split <;> rfl
@[simp] theorem Eng.updateReplace_pins : e.updateReplace.pins = e.pins := by
  rw [Eng.updateReplace, Eng.setReplace_pins, Eng.markDegraded_pins]
@[simp] theorem Eng.setReplace_arbCount : e.setReplace.arbCount = e.arbCount := by
  unfold Eng.setReplace
  by_cases h : e.replaceWord = e.reg Reg.engReplace
  · rw [if_pos h]
  · rw [if_neg h]; cases capabilityOnly (e.reg Reg.engReplace) e.replaceWord
    · rw [if_neg Bool.false_ne_true, Eng.raise_arbCount, Eng.post_arbCount, Eng.setReg_arbCount]
    · rw [if_pos rfl, Eng.setReg_arbCount]
@[simp] theorem Eng.markDegraded_arbCount : e.markDegraded.arbCount = e.arbCount := by
  unfold Eng.markDegraded; split <;> rfl
@[simp] theorem Eng.updateReplace_arbCount : e.updateReplace.arbCount = e.arbCount := by
  rw [Eng.updateReplace, Eng.setReplace_arbCount, Eng.markDegraded_arbCount]
@[simp] theorem Eng.setReplace_arbLast : e.setReplace.arbLast = e.arbLast := by
  unfold Eng.setReplace
  by_cases h : e.replaceWord = e.reg Reg.engReplace
  · rw [if_pos h]
  · rw [if_neg h]; cases capabilityOnly (e.reg Reg.engReplace) e.replaceWord
    · rw [if_neg Bool.false_ne_true, Eng.raise_arbLast, Eng.post_arbLast, Eng.setReg_arbLast]
    · rw [if_pos rfl, Eng.setReg_arbLast]
@[simp] theorem Eng.markDegraded_arbLast : e.markDegraded.arbLast = e.arbLast := by
  unfold Eng.markDegraded; split <;> rfl
@[simp] theorem Eng.updateReplace_arbLast : e.updateReplace.arbLast = e.arbLast := by
  rw [Eng.updateReplace, Eng.setReplace_arbLast, Eng.markDegraded_arbLast]
@[simp] theorem Eng.setReplace_rings : e.setReplace.rings = e.rings := by
  unfold Eng.setReplace
  by_cases h : e.replaceWord = e.reg Reg.engReplace
  · rw [if_pos h]
  · rw [if_neg h]; cases capabilityOnly (e.reg Reg.engReplace) e.replaceWord
    · rw [if_neg Bool.false_ne_true, Eng.raise_rings, Eng.post_rings, Eng.setReg_rings]
    · rw [if_pos rfl, Eng.setReg_rings]
@[simp] theorem Eng.markDegraded_rings : e.markDegraded.rings = e.rings := by
  unfold Eng.markDegraded; split <;> rfl
@[simp] theorem Eng.updateReplace_rings : e.updateReplace.rings = e.rings := by
  rw [Eng.updateReplace, Eng.setReplace_rings, Eng.markDegraded_rings]
@[simp] theorem Eng.setReplace_served : e.setReplace.served = e.served := by
  unfold Eng.setReplace
  by_cases h : e.replaceWord = e.reg Reg.engReplace
  · rw [if_pos h]
  · rw [if_neg h]; cases capabilityOnly (e.reg Reg.engReplace) e.replaceWord
    · rw [if_neg Bool.false_ne_true, Eng.raise_served, Eng.post_served, Eng.setReg_served]
    · rw [if_pos rfl, Eng.setReg_served]
@[simp] theorem Eng.markDegraded_served : e.markDegraded.served = e.served := by
  unfold Eng.markDegraded; split <;> rfl
@[simp] theorem Eng.updateReplace_served : e.updateReplace.served = e.served := by
  rw [Eng.updateReplace, Eng.setReplace_served, Eng.markDegraded_served]
@[simp] theorem Eng.setReplace_cmds : e.setReplace.cmds = e.cmds := by
  unfold Eng.setReplace
  by_cases h : e.replaceWord = e.reg Reg.engReplace
  · rw [if_pos h]
  · rw [if_neg h]; cases capabilityOnly (e.reg Reg.engReplace) e.replaceWord
    · rw [if_neg Bool.false_ne_true, Eng.raise_cmds, Eng.post_cmds, Eng.setReg_cmds]
    · rw [if_pos rfl, Eng.setReg_cmds]
@[simp] theorem Eng.updateReplace_cmds : e.updateReplace.cmds = e.markDegraded.cmds := by
  rw [Eng.updateReplace, Eng.setReplace_cmds]
@[simp] theorem Eng.setReplace_nextCmd : e.setReplace.nextCmd = e.nextCmd := by
  unfold Eng.setReplace
  by_cases h : e.replaceWord = e.reg Reg.engReplace
  · rw [if_pos h]
  · rw [if_neg h]; cases capabilityOnly (e.reg Reg.engReplace) e.replaceWord
    · rw [if_neg Bool.false_ne_true, Eng.raise_nextCmd, Eng.post_nextCmd, Eng.setReg_nextCmd]
    · rw [if_pos rfl, Eng.setReg_nextCmd]
@[simp] theorem Eng.markDegraded_nextCmd : e.markDegraded.nextCmd = e.nextCmd := by
  unfold Eng.markDegraded; split <;> rfl
@[simp] theorem Eng.updateReplace_nextCmd : e.updateReplace.nextCmd = e.nextCmd := by
  rw [Eng.updateReplace, Eng.setReplace_nextCmd, Eng.markDegraded_nextCmd]
@[simp] theorem Eng.setReplace_lslots : e.setReplace.lslots = e.lslots := by
  unfold Eng.setReplace
  by_cases h : e.replaceWord = e.reg Reg.engReplace
  · rw [if_pos h]
  · rw [if_neg h]; cases capabilityOnly (e.reg Reg.engReplace) e.replaceWord
    · rw [if_neg Bool.false_ne_true, Eng.raise_lslots, Eng.post_lslots, Eng.setReg_lslots]
    · rw [if_pos rfl, Eng.setReg_lslots]
@[simp] theorem Eng.markDegraded_lslots : e.markDegraded.lslots = e.lslots := by
  unfold Eng.markDegraded; split <;> rfl
@[simp] theorem Eng.updateReplace_lslots : e.updateReplace.lslots = e.lslots := by
  rw [Eng.updateReplace, Eng.setReplace_lslots, Eng.markDegraded_lslots]
@[simp] theorem Eng.setReplace_wcache : e.setReplace.wcache = e.wcache := by
  unfold Eng.setReplace
  by_cases h : e.replaceWord = e.reg Reg.engReplace
  · rw [if_pos h]
  · rw [if_neg h]; cases capabilityOnly (e.reg Reg.engReplace) e.replaceWord
    · rw [if_neg Bool.false_ne_true, Eng.raise_wcache, Eng.post_wcache, Eng.setReg_wcache]
    · rw [if_pos rfl, Eng.setReg_wcache]
@[simp] theorem Eng.markDegraded_wcache : e.markDegraded.wcache = e.wcache := by
  unfold Eng.markDegraded; split <;> rfl
@[simp] theorem Eng.updateReplace_wcache : e.updateReplace.wcache = e.wcache := by
  rw [Eng.updateReplace, Eng.setReplace_wcache, Eng.markDegraded_wcache]
@[simp] theorem Eng.setReplace_tables : e.setReplace.tables = e.tables := by
  unfold Eng.setReplace
  by_cases h : e.replaceWord = e.reg Reg.engReplace
  · rw [if_pos h]
  · rw [if_neg h]; cases capabilityOnly (e.reg Reg.engReplace) e.replaceWord
    · rw [if_neg Bool.false_ne_true, Eng.raise_tables, Eng.post_tables, Eng.setReg_tables]
    · rw [if_pos rfl, Eng.setReg_tables]
@[simp] theorem Eng.markDegraded_tables : e.markDegraded.tables = e.tables := by
  unfold Eng.markDegraded; split <;> rfl
@[simp] theorem Eng.updateReplace_tables : e.updateReplace.tables = e.tables := by
  rw [Eng.updateReplace, Eng.setReplace_tables, Eng.markDegraded_tables]
@[simp] theorem Eng.setReplace_outs : e.setReplace.outs = e.outs := by
  unfold Eng.setReplace
  by_cases h : e.replaceWord = e.reg Reg.engReplace
  · rw [if_pos h]
  · rw [if_neg h]; cases capabilityOnly (e.reg Reg.engReplace) e.replaceWord
    · rw [if_neg Bool.false_ne_true, Eng.raise_outs, Eng.post_outs, Eng.setReg_outs]
    · rw [if_pos rfl, Eng.setReg_outs]
@[simp] theorem Eng.markDegraded_outs : e.markDegraded.outs = e.outs := by
  unfold Eng.markDegraded; split <;> rfl
@[simp] theorem Eng.updateReplace_outs : e.updateReplace.outs = e.outs := by
  rw [Eng.updateReplace, Eng.setReplace_outs, Eng.markDegraded_outs]
@[simp] theorem Eng.setReplace_savedSums : e.setReplace.savedSums = e.savedSums := by
  unfold Eng.setReplace
  by_cases h : e.replaceWord = e.reg Reg.engReplace
  · rw [if_pos h]
  · rw [if_neg h]; cases capabilityOnly (e.reg Reg.engReplace) e.replaceWord
    · rw [if_neg Bool.false_ne_true, Eng.raise_savedSums, Eng.post_savedSums, Eng.setReg_savedSums]
    · rw [if_pos rfl, Eng.setReg_savedSums]
@[simp] theorem Eng.markDegraded_savedSums : e.markDegraded.savedSums = e.savedSums := by
  unfold Eng.markDegraded; split <;> rfl
@[simp] theorem Eng.updateReplace_savedSums : e.updateReplace.savedSums = e.savedSums := by
  rw [Eng.updateReplace, Eng.setReplace_savedSums, Eng.markDegraded_savedSums]
@[simp] theorem Eng.setReplace_works : e.setReplace.works = e.works := by
  unfold Eng.setReplace
  by_cases h : e.replaceWord = e.reg Reg.engReplace
  · rw [if_pos h]
  · rw [if_neg h]; cases capabilityOnly (e.reg Reg.engReplace) e.replaceWord
    · rw [if_neg Bool.false_ne_true, Eng.raise_works, Eng.post_works, Eng.setReg_works]
    · rw [if_pos rfl, Eng.setReg_works]
@[simp] theorem Eng.markDegraded_works : e.markDegraded.works = e.works := by
  unfold Eng.markDegraded; split <;> rfl
@[simp] theorem Eng.updateReplace_works : e.updateReplace.works = e.works := by
  rw [Eng.updateReplace, Eng.setReplace_works, Eng.markDegraded_works]
@[simp] theorem Eng.setReplace_roles : e.setReplace.roles = e.roles := by
  unfold Eng.setReplace
  by_cases h : e.replaceWord = e.reg Reg.engReplace
  · rw [if_pos h]
  · rw [if_neg h]; cases capabilityOnly (e.reg Reg.engReplace) e.replaceWord
    · rw [if_neg Bool.false_ne_true, Eng.raise_roles, Eng.post_roles, Eng.setReg_roles]
    · rw [if_pos rfl, Eng.setReg_roles]
@[simp] theorem Eng.markDegraded_roles : e.markDegraded.roles = e.roles := by
  unfold Eng.markDegraded; split <;> rfl
@[simp] theorem Eng.updateReplace_roles : e.updateReplace.roles = e.roles := by
  rw [Eng.updateReplace, Eng.setReplace_roles, Eng.markDegraded_roles]
@[simp] theorem Eng.setReplace_chans : e.setReplace.chans = e.chans := by
  unfold Eng.setReplace
  by_cases h : e.replaceWord = e.reg Reg.engReplace
  · rw [if_pos h]
  · rw [if_neg h]; cases capabilityOnly (e.reg Reg.engReplace) e.replaceWord
    · rw [if_neg Bool.false_ne_true, Eng.raise_chans, Eng.post_chans, Eng.setReg_chans]
    · rw [if_pos rfl, Eng.setReg_chans]
@[simp] theorem Eng.markDegraded_chans : e.markDegraded.chans = e.chans := by
  unfold Eng.markDegraded; split <;> rfl
@[simp] theorem Eng.updateReplace_chans : e.updateReplace.chans = e.chans := by
  rw [Eng.updateReplace, Eng.setReplace_chans, Eng.markDegraded_chans]
@[simp] theorem Eng.setReplace_groups : e.setReplace.groups = e.groups := by
  unfold Eng.setReplace
  by_cases h : e.replaceWord = e.reg Reg.engReplace
  · rw [if_pos h]
  · rw [if_neg h]; cases capabilityOnly (e.reg Reg.engReplace) e.replaceWord
    · rw [if_neg Bool.false_ne_true, Eng.raise_groups, Eng.post_groups, Eng.setReg_groups]
    · rw [if_pos rfl, Eng.setReg_groups]
@[simp] theorem Eng.markDegraded_groups : e.markDegraded.groups = e.groups := by
  unfold Eng.markDegraded; split <;> rfl
@[simp] theorem Eng.updateReplace_groups : e.updateReplace.groups = e.groups := by
  rw [Eng.updateReplace, Eng.setReplace_groups, Eng.markDegraded_groups]
@[simp] theorem Eng.setReplace_spool : e.setReplace.spool = e.spool := by
  unfold Eng.setReplace
  by_cases h : e.replaceWord = e.reg Reg.engReplace
  · rw [if_pos h]
  · rw [if_neg h]; cases capabilityOnly (e.reg Reg.engReplace) e.replaceWord
    · rw [if_neg Bool.false_ne_true, Eng.raise_spool, Eng.post_spool, Eng.setReg_spool]
    · rw [if_pos rfl, Eng.setReg_spool]
@[simp] theorem Eng.markDegraded_spool : e.markDegraded.spool = e.spool := by
  unfold Eng.markDegraded; split <;> rfl
@[simp] theorem Eng.updateReplace_spool : e.updateReplace.spool = e.spool := by
  rw [Eng.updateReplace, Eng.setReplace_spool, Eng.markDegraded_spool]
@[simp] theorem Eng.setReplace_bob : e.setReplace.bob = e.bob := by
  unfold Eng.setReplace
  by_cases h : e.replaceWord = e.reg Reg.engReplace
  · rw [if_pos h]
  · rw [if_neg h]; cases capabilityOnly (e.reg Reg.engReplace) e.replaceWord
    · rw [if_neg Bool.false_ne_true, Eng.raise_bob, Eng.post_bob, Eng.setReg_bob]
    · rw [if_pos rfl, Eng.setReg_bob]
@[simp] theorem Eng.markDegraded_bob : e.markDegraded.bob = e.bob := by
  unfold Eng.markDegraded; split <;> rfl
@[simp] theorem Eng.updateReplace_bob : e.updateReplace.bob = e.bob := by
  rw [Eng.updateReplace, Eng.setReplace_bob, Eng.markDegraded_bob]
@[simp] theorem Eng.setReplace_pld : e.setReplace.pld = e.pld := by
  unfold Eng.setReplace
  by_cases h : e.replaceWord = e.reg Reg.engReplace
  · rw [if_pos h]
  · rw [if_neg h]; cases capabilityOnly (e.reg Reg.engReplace) e.replaceWord
    · rw [if_neg Bool.false_ne_true, Eng.raise_pld, Eng.post_pld, Eng.setReg_pld]
    · rw [if_pos rfl, Eng.setReg_pld]
@[simp] theorem Eng.markDegraded_pld : e.markDegraded.pld = e.pld := by
  unfold Eng.markDegraded; split <;> rfl
@[simp] theorem Eng.updateReplace_pld : e.updateReplace.pld = e.pld := by
  rw [Eng.updateReplace, Eng.setReplace_pld, Eng.markDegraded_pld]
@[simp] theorem Eng.setReplace_gauges : e.setReplace.gauges = e.gauges := by
  unfold Eng.setReplace
  by_cases h : e.replaceWord = e.reg Reg.engReplace
  · rw [if_pos h]
  · rw [if_neg h]; cases capabilityOnly (e.reg Reg.engReplace) e.replaceWord
    · rw [if_neg Bool.false_ne_true, Eng.raise_gauges, Eng.post_gauges, Eng.setReg_gauges]
    · rw [if_pos rfl, Eng.setReg_gauges]
@[simp] theorem Eng.markDegraded_gauges : e.markDegraded.gauges = e.gauges := by
  unfold Eng.markDegraded; split <;> rfl
@[simp] theorem Eng.updateReplace_gauges : e.updateReplace.gauges = e.gauges := by
  rw [Eng.updateReplace, Eng.setReplace_gauges, Eng.markDegraded_gauges]
@[simp] theorem Eng.setReplace_experts : e.setReplace.experts = e.experts := by
  unfold Eng.setReplace
  by_cases h : e.replaceWord = e.reg Reg.engReplace
  · rw [if_pos h]
  · rw [if_neg h]; cases capabilityOnly (e.reg Reg.engReplace) e.replaceWord
    · rw [if_neg Bool.false_ne_true, Eng.raise_experts, Eng.post_experts, Eng.setReg_experts]
    · rw [if_pos rfl, Eng.setReg_experts]
@[simp] theorem Eng.markDegraded_experts : e.markDegraded.experts = e.experts := by
  unfold Eng.markDegraded; split <;> rfl
@[simp] theorem Eng.updateReplace_experts : e.updateReplace.experts = e.experts := by
  rw [Eng.updateReplace, Eng.setReplace_experts, Eng.markDegraded_experts]
@[simp] theorem Eng.setReplace_srcs : e.setReplace.srcs = e.srcs := by
  unfold Eng.setReplace
  by_cases h : e.replaceWord = e.reg Reg.engReplace
  · rw [if_pos h]
  · rw [if_neg h]; cases capabilityOnly (e.reg Reg.engReplace) e.replaceWord
    · rw [if_neg Bool.false_ne_true, Eng.raise_srcs, Eng.post_srcs, Eng.setReg_srcs]
    · rw [if_pos rfl, Eng.setReg_srcs]
@[simp] theorem Eng.markDegraded_srcs : e.markDegraded.srcs = e.srcs := by
  unfold Eng.markDegraded; split <;> rfl
@[simp] theorem Eng.updateReplace_srcs : e.updateReplace.srcs = e.srcs := by
  rw [Eng.updateReplace, Eng.setReplace_srcs, Eng.markDegraded_srcs]
@[simp] theorem Eng.setReplace_tacks : e.setReplace.tacks = e.tacks := by
  unfold Eng.setReplace
  by_cases h : e.replaceWord = e.reg Reg.engReplace
  · rw [if_pos h]
  · rw [if_neg h]; cases capabilityOnly (e.reg Reg.engReplace) e.replaceWord
    · rw [if_neg Bool.false_ne_true, Eng.raise_tacks, Eng.post_tacks, Eng.setReg_tacks]
    · rw [if_pos rfl, Eng.setReg_tacks]
@[simp] theorem Eng.markDegraded_tacks : e.markDegraded.tacks = e.tacks := by
  unfold Eng.markDegraded; split <;> rfl
@[simp] theorem Eng.updateReplace_tacks : e.updateReplace.tacks = e.tacks := by
  rw [Eng.updateReplace, Eng.setReplace_tacks, Eng.markDegraded_tacks]
@[simp] theorem Eng.setReplace_bank0 : e.setReplace.bank0 = e.bank0 := by
  unfold Eng.setReplace
  by_cases h : e.replaceWord = e.reg Reg.engReplace
  · rw [if_pos h]
  · rw [if_neg h]; cases capabilityOnly (e.reg Reg.engReplace) e.replaceWord
    · rw [if_neg Bool.false_ne_true, Eng.raise_bank0, Eng.post_bank0, Eng.setReg_bank0]
    · rw [if_pos rfl, Eng.setReg_bank0]
@[simp] theorem Eng.markDegraded_bank0 : e.markDegraded.bank0 = e.bank0 := by
  unfold Eng.markDegraded; split <;> rfl
@[simp] theorem Eng.updateReplace_bank0 : e.updateReplace.bank0 = e.bank0 := by
  rw [Eng.updateReplace, Eng.setReplace_bank0, Eng.markDegraded_bank0]
@[simp] theorem Eng.setReplace_bank1 : e.setReplace.bank1 = e.bank1 := by
  unfold Eng.setReplace
  by_cases h : e.replaceWord = e.reg Reg.engReplace
  · rw [if_pos h]
  · rw [if_neg h]; cases capabilityOnly (e.reg Reg.engReplace) e.replaceWord
    · rw [if_neg Bool.false_ne_true, Eng.raise_bank1, Eng.post_bank1, Eng.setReg_bank1]
    · rw [if_pos rfl, Eng.setReg_bank1]
@[simp] theorem Eng.markDegraded_bank1 : e.markDegraded.bank1 = e.bank1 := by
  unfold Eng.markDegraded; split <;> rfl
@[simp] theorem Eng.updateReplace_bank1 : e.updateReplace.bank1 = e.bank1 := by
  rw [Eng.updateReplace, Eng.setReplace_bank1, Eng.markDegraded_bank1]
@[simp] theorem Eng.setReplace_lastBank : e.setReplace.lastBank = e.lastBank := by
  unfold Eng.setReplace
  by_cases h : e.replaceWord = e.reg Reg.engReplace
  · rw [if_pos h]
  · rw [if_neg h]; cases capabilityOnly (e.reg Reg.engReplace) e.replaceWord
    · rw [if_neg Bool.false_ne_true, Eng.raise_lastBank, Eng.post_lastBank, Eng.setReg_lastBank]
    · rw [if_pos rfl, Eng.setReg_lastBank]
@[simp] theorem Eng.markDegraded_lastBank : e.markDegraded.lastBank = e.lastBank := by
  unfold Eng.markDegraded; split <;> rfl
@[simp] theorem Eng.updateReplace_lastBank : e.updateReplace.lastBank = e.lastBank := by
  rw [Eng.updateReplace, Eng.setReplace_lastBank, Eng.markDegraded_lastBank]
@[simp] theorem Eng.setReplace_latches : e.setReplace.latches = e.latches := by
  unfold Eng.setReplace
  by_cases h : e.replaceWord = e.reg Reg.engReplace
  · rw [if_pos h]
  · rw [if_neg h]; cases capabilityOnly (e.reg Reg.engReplace) e.replaceWord
    · rw [if_neg Bool.false_ne_true, Eng.raise_latches, Eng.post_latches, Eng.setReg_latches]
    · rw [if_pos rfl, Eng.setReg_latches]
@[simp] theorem Eng.markDegraded_latches : e.markDegraded.latches = e.latches := by
  unfold Eng.markDegraded; split <;> rfl
@[simp] theorem Eng.updateReplace_latches : e.updateReplace.latches = e.latches := by
  rw [Eng.updateReplace, Eng.setReplace_latches, Eng.markDegraded_latches]
@[simp] theorem Eng.setReplace_diag : e.setReplace.diag = e.diag := by
  unfold Eng.setReplace
  by_cases h : e.replaceWord = e.reg Reg.engReplace
  · rw [if_pos h]
  · rw [if_neg h]; cases capabilityOnly (e.reg Reg.engReplace) e.replaceWord
    · rw [if_neg Bool.false_ne_true, Eng.raise_diag, Eng.post_diag, Eng.setReg_diag]
    · rw [if_pos rfl, Eng.setReg_diag]
@[simp] theorem Eng.markDegraded_diag : e.markDegraded.diag = e.diag := by
  unfold Eng.markDegraded; split <;> rfl
@[simp] theorem Eng.updateReplace_diag : e.updateReplace.diag = e.diag := by
  rw [Eng.updateReplace, Eng.setReplace_diag, Eng.markDegraded_diag]
@[simp] theorem Eng.setReplace_acts : e.setReplace.acts = e.acts := by
  unfold Eng.setReplace
  by_cases h : e.replaceWord = e.reg Reg.engReplace
  · rw [if_pos h]
  · rw [if_neg h]; cases capabilityOnly (e.reg Reg.engReplace) e.replaceWord
    · rw [if_neg Bool.false_ne_true, Eng.raise_acts, Eng.post_acts, Eng.setReg_acts]
    · rw [if_pos rfl, Eng.setReg_acts]
@[simp] theorem Eng.markDegraded_acts : e.markDegraded.acts = e.acts := by
  unfold Eng.markDegraded; split <;> rfl
@[simp] theorem Eng.updateReplace_acts : e.updateReplace.acts = e.acts := by
  rw [Eng.updateReplace, Eng.setReplace_acts, Eng.markDegraded_acts]
@[simp] theorem Eng.setReplace_mgmtAddr : e.setReplace.mgmtAddr = e.mgmtAddr := by
  unfold Eng.setReplace
  by_cases h : e.replaceWord = e.reg Reg.engReplace
  · rw [if_pos h]
  · rw [if_neg h]; cases capabilityOnly (e.reg Reg.engReplace) e.replaceWord
    · rw [if_neg Bool.false_ne_true, Eng.raise_mgmtAddr, Eng.post_mgmtAddr, Eng.setReg_mgmtAddr]
    · rw [if_pos rfl, Eng.setReg_mgmtAddr]
@[simp] theorem Eng.markDegraded_mgmtAddr : e.markDegraded.mgmtAddr = e.mgmtAddr := by
  unfold Eng.markDegraded; split <;> rfl
@[simp] theorem Eng.updateReplace_mgmtAddr : e.updateReplace.mgmtAddr = e.mgmtAddr := by
  rw [Eng.updateReplace, Eng.setReplace_mgmtAddr, Eng.markDegraded_mgmtAddr]
@[simp] theorem Eng.setReplace_mgmtWide : e.setReplace.mgmtWide = e.mgmtWide := by
  unfold Eng.setReplace
  by_cases h : e.replaceWord = e.reg Reg.engReplace
  · rw [if_pos h]
  · rw [if_neg h]; cases capabilityOnly (e.reg Reg.engReplace) e.replaceWord
    · rw [if_neg Bool.false_ne_true, Eng.raise_mgmtWide, Eng.post_mgmtWide, Eng.setReg_mgmtWide]
    · rw [if_pos rfl, Eng.setReg_mgmtWide]
@[simp] theorem Eng.markDegraded_mgmtWide : e.markDegraded.mgmtWide = e.mgmtWide := by
  unfold Eng.markDegraded; split <;> rfl
@[simp] theorem Eng.updateReplace_mgmtWide : e.updateReplace.mgmtWide = e.mgmtWide := by
  rw [Eng.updateReplace, Eng.setReplace_mgmtWide, Eng.markDegraded_mgmtWide]
@[simp] theorem Eng.setReplace_mirror : e.setReplace.mirror = e.mirror := by
  unfold Eng.setReplace
  by_cases h : e.replaceWord = e.reg Reg.engReplace
  · rw [if_pos h]
  · rw [if_neg h]; cases capabilityOnly (e.reg Reg.engReplace) e.replaceWord
    · rw [if_neg Bool.false_ne_true, Eng.raise_mirror, Eng.post_mirror, Eng.setReg_mirror]
    · rw [if_pos rfl, Eng.setReg_mirror]
@[simp] theorem Eng.markDegraded_mirror : e.markDegraded.mirror = e.mirror := by
  unfold Eng.markDegraded; split <;> rfl
@[simp] theorem Eng.updateReplace_mirror : e.updateReplace.mirror = e.mirror := by
  rw [Eng.updateReplace, Eng.setReplace_mirror, Eng.markDegraded_mirror]
@[simp] theorem Eng.setReplace_tx : e.setReplace.tx = e.tx := by
  unfold Eng.setReplace
  by_cases h : e.replaceWord = e.reg Reg.engReplace
  · rw [if_pos h]
  · rw [if_neg h]; cases capabilityOnly (e.reg Reg.engReplace) e.replaceWord
    · rw [if_neg Bool.false_ne_true, Eng.raise_tx, Eng.post_tx, Eng.setReg_tx]
    · rw [if_pos rfl, Eng.setReg_tx]
@[simp] theorem Eng.markDegraded_tx : e.markDegraded.tx = e.tx := by
  unfold Eng.markDegraded; split <;> rfl
@[simp] theorem Eng.updateReplace_tx : e.updateReplace.tx = e.tx := by
  rw [Eng.updateReplace, Eng.setReplace_tx, Eng.markDegraded_tx]
@[simp] theorem Eng.setReplace_irqs : e.setReplace.irqs = e.irqs := by
  unfold Eng.setReplace
  by_cases h : e.replaceWord = e.reg Reg.engReplace
  · rw [if_pos h]
  · rw [if_neg h]; cases capabilityOnly (e.reg Reg.engReplace) e.replaceWord
    · rw [if_neg Bool.false_ne_true, Eng.raise_irqs, Eng.post_irqs, Eng.setReg_irqs]
    · rw [if_pos rfl, Eng.setReg_irqs]
@[simp] theorem Eng.markDegraded_irqs : e.markDegraded.irqs = e.irqs := by
  unfold Eng.markDegraded; split <;> rfl
@[simp] theorem Eng.updateReplace_irqs : e.updateReplace.irqs = e.irqs := by
  rw [Eng.updateReplace, Eng.setReplace_irqs, Eng.markDegraded_irqs]
@[simp] theorem Eng.setReplace_rsp : e.setReplace.rsp = e.rsp := by
  unfold Eng.setReplace
  by_cases h : e.replaceWord = e.reg Reg.engReplace
  · rw [if_pos h]
  · rw [if_neg h]; cases capabilityOnly (e.reg Reg.engReplace) e.replaceWord
    · rw [if_neg Bool.false_ne_true, Eng.raise_rsp, Eng.post_rsp, Eng.setReg_rsp]
    · rw [if_pos rfl, Eng.setReg_rsp]
@[simp] theorem Eng.markDegraded_rsp : e.markDegraded.rsp = e.rsp := by
  unfold Eng.markDegraded; split <;> rfl
@[simp] theorem Eng.updateReplace_rsp : e.updateReplace.rsp = e.rsp := by
  rw [Eng.updateReplace, Eng.setReplace_rsp, Eng.markDegraded_rsp]

@[simp] theorem Eng.updateReady_wlog : e.updateReady.wlog = e.wlog := by
  unfold Eng.updateReady; dsimp only; repeat' split
  all_goals simp only [Eng.raise_wlog, Eng.setReplace_wlog]
@[simp] theorem Eng.updateReady_freeCtr : e.updateReady.freeCtr = e.freeCtr := by
  unfold Eng.updateReady; dsimp only; repeat' split
  all_goals simp only [Eng.raise_freeCtr, Eng.setReplace_freeCtr]
@[simp] theorem Eng.updateReady_time : e.updateReady.time = e.time := by
  unfold Eng.updateReady; dsimp only; repeat' split
  all_goals simp only [Eng.raise_time, Eng.setReplace_time]
@[simp] theorem Eng.updateReady_flt : e.updateReady.flt = e.flt := by
  unfold Eng.updateReady; dsimp only; repeat' split
  all_goals simp only [Eng.raise_flt, Eng.setReplace_flt]
@[simp] theorem Eng.updateReady_loader : e.updateReady.loader = e.loader := by
  unfold Eng.updateReady; dsimp only; repeat' split
  all_goals simp only [Eng.raise_loader, Eng.setReplace_loader]
@[simp] theorem Eng.updateReady_pat : e.updateReady.pat = e.pat := by
  unfold Eng.updateReady; dsimp only; repeat' split
  all_goals simp only [Eng.raise_pat, Eng.setReplace_pat]
@[simp] theorem Eng.updateReady_slotCfg : e.updateReady.slotCfg = e.slotCfg := by
  unfold Eng.updateReady; dsimp only; repeat' split
  all_goals simp only [Eng.raise_slotCfg, Eng.setReplace_slotCfg]
@[simp] theorem Eng.updateReady_panelMaps : e.updateReady.panelMaps = e.panelMaps := by
  unfold Eng.updateReady; dsimp only; repeat' split
  all_goals simp only [Eng.raise_panelMaps, Eng.setReplace_panelMaps]
@[simp] theorem Eng.updateReady_ports : e.updateReady.ports = e.ports := by
  unfold Eng.updateReady; dsimp only; repeat' split
  all_goals simp only [Eng.raise_ports, Eng.setReplace_ports]
@[simp] theorem Eng.updateReady_peerVer : e.updateReady.peerVer = e.peerVer := by
  unfold Eng.updateReady; dsimp only; repeat' split
  all_goals simp only [Eng.raise_peerVer, Eng.setReplace_peerVer]
@[simp] theorem Eng.updateReady_tt : e.updateReady.tt = e.tt := by
  unfold Eng.updateReady; dsimp only; repeat' split
  all_goals simp only [Eng.raise_tt, Eng.setReplace_tt]
@[simp] theorem Eng.updateReady_ttGen : e.updateReady.ttGen = e.ttGen := by
  unfold Eng.updateReady; dsimp only; repeat' split
  all_goals simp only [Eng.raise_ttGen, Eng.setReplace_ttGen]
@[simp] theorem Eng.updateReady_ttFullSince : e.updateReady.ttFullSince = e.ttFullSince := by
  unfold Eng.updateReady; dsimp only; repeat' split
  all_goals simp only [Eng.raise_ttFullSince, Eng.setReplace_ttFullSince]
@[simp] theorem Eng.updateReady_ttFullBy : e.updateReady.ttFullBy = e.ttFullBy := by
  unfold Eng.updateReady; dsimp only; repeat' split
  all_goals simp only [Eng.raise_ttFullBy, Eng.setReplace_ttFullBy]
@[simp] theorem Eng.updateReady_acks : e.updateReady.acks = e.acks := by
  unfold Eng.updateReady; dsimp only; repeat' split
  all_goals simp only [Eng.raise_acks, Eng.setReplace_acks]
@[simp] theorem Eng.updateReady_copies : e.updateReady.copies = e.copies := by
  unfold Eng.updateReady; dsimp only; repeat' split
  all_goals simp only [Eng.raise_copies, Eng.setReplace_copies]
@[simp] theorem Eng.updateReady_excl : e.updateReady.excl = e.excl := by
  unfold Eng.updateReady; dsimp only; repeat' split
  all_goals simp only [Eng.raise_excl, Eng.setReplace_excl]
@[simp] theorem Eng.updateReady_outq : e.updateReady.outq = e.outq := by
  unfold Eng.updateReady; dsimp only; repeat' split
  all_goals simp only [Eng.raise_outq, Eng.setReplace_outq]
@[simp] theorem Eng.updateReady_fallbacks : e.updateReady.fallbacks = e.fallbacks := by
  unfold Eng.updateReady; dsimp only; repeat' split
  all_goals simp only [Eng.raise_fallbacks, Eng.setReplace_fallbacks]
@[simp] theorem Eng.updateReady_pins : e.updateReady.pins = e.pins := by
  unfold Eng.updateReady; dsimp only; repeat' split
  all_goals simp only [Eng.raise_pins, Eng.setReplace_pins]
@[simp] theorem Eng.updateReady_arbCount : e.updateReady.arbCount = e.arbCount := by
  unfold Eng.updateReady; dsimp only; repeat' split
  all_goals simp only [Eng.raise_arbCount, Eng.setReplace_arbCount]
@[simp] theorem Eng.updateReady_arbLast : e.updateReady.arbLast = e.arbLast := by
  unfold Eng.updateReady; dsimp only; repeat' split
  all_goals simp only [Eng.raise_arbLast, Eng.setReplace_arbLast]
@[simp] theorem Eng.updateReady_rings : e.updateReady.rings = e.rings := by
  unfold Eng.updateReady; dsimp only; repeat' split
  all_goals simp only [Eng.raise_rings, Eng.setReplace_rings]
@[simp] theorem Eng.updateReady_served : e.updateReady.served = e.served := by
  unfold Eng.updateReady; dsimp only; repeat' split
  all_goals simp only [Eng.raise_served, Eng.setReplace_served]
@[simp] theorem Eng.updateReady_cmds : e.updateReady.cmds = e.cmds := by
  unfold Eng.updateReady; dsimp only; repeat' split
  all_goals simp only [Eng.raise_cmds, Eng.setReplace_cmds]
@[simp] theorem Eng.updateReady_nextCmd : e.updateReady.nextCmd = e.nextCmd := by
  unfold Eng.updateReady; dsimp only; repeat' split
  all_goals simp only [Eng.raise_nextCmd, Eng.setReplace_nextCmd]
@[simp] theorem Eng.updateReady_lslots : e.updateReady.lslots = e.lslots := by
  unfold Eng.updateReady; dsimp only; repeat' split
  all_goals simp only [Eng.raise_lslots, Eng.setReplace_lslots]
@[simp] theorem Eng.updateReady_wcache : e.updateReady.wcache = e.wcache := by
  unfold Eng.updateReady; dsimp only; repeat' split
  all_goals simp only [Eng.raise_wcache, Eng.setReplace_wcache]
@[simp] theorem Eng.updateReady_tables : e.updateReady.tables = e.tables := by
  unfold Eng.updateReady; dsimp only; repeat' split
  all_goals simp only [Eng.raise_tables, Eng.setReplace_tables]
@[simp] theorem Eng.updateReady_outs : e.updateReady.outs = e.outs := by
  unfold Eng.updateReady; dsimp only; repeat' split
  all_goals simp only [Eng.raise_outs, Eng.setReplace_outs]
@[simp] theorem Eng.updateReady_savedSums : e.updateReady.savedSums = e.savedSums := by
  unfold Eng.updateReady; dsimp only; repeat' split
  all_goals simp only [Eng.raise_savedSums, Eng.setReplace_savedSums]
@[simp] theorem Eng.updateReady_works : e.updateReady.works = e.works := by
  unfold Eng.updateReady; dsimp only; repeat' split
  all_goals simp only [Eng.raise_works, Eng.setReplace_works]
@[simp] theorem Eng.updateReady_roles : e.updateReady.roles = e.roles := by
  unfold Eng.updateReady; dsimp only; repeat' split
  all_goals simp only [Eng.raise_roles, Eng.setReplace_roles]
@[simp] theorem Eng.updateReady_chans : e.updateReady.chans = e.chans := by
  unfold Eng.updateReady; dsimp only; repeat' split
  all_goals simp only [Eng.raise_chans, Eng.setReplace_chans]
@[simp] theorem Eng.updateReady_groups : e.updateReady.groups = e.groups := by
  unfold Eng.updateReady; dsimp only; repeat' split
  all_goals simp only [Eng.raise_groups, Eng.setReplace_groups]
@[simp] theorem Eng.updateReady_spool : e.updateReady.spool = e.spool := by
  unfold Eng.updateReady; dsimp only; repeat' split
  all_goals simp only [Eng.raise_spool, Eng.setReplace_spool]
@[simp] theorem Eng.updateReady_bob : e.updateReady.bob = e.bob := by
  unfold Eng.updateReady; dsimp only; repeat' split
  all_goals simp only [Eng.raise_bob, Eng.setReplace_bob]
@[simp] theorem Eng.updateReady_pld : e.updateReady.pld = e.pld := by
  unfold Eng.updateReady; dsimp only; repeat' split
  all_goals simp only [Eng.raise_pld, Eng.setReplace_pld]
@[simp] theorem Eng.updateReady_gauges : e.updateReady.gauges = e.gauges := by
  unfold Eng.updateReady; dsimp only; repeat' split
  all_goals simp only [Eng.raise_gauges, Eng.setReplace_gauges]
@[simp] theorem Eng.updateReady_experts : e.updateReady.experts = e.experts := by
  unfold Eng.updateReady; dsimp only; repeat' split
  all_goals simp only [Eng.raise_experts, Eng.setReplace_experts]
@[simp] theorem Eng.updateReady_srcs : e.updateReady.srcs = e.srcs := by
  unfold Eng.updateReady; dsimp only; repeat' split
  all_goals simp only [Eng.raise_srcs, Eng.setReplace_srcs]
@[simp] theorem Eng.updateReady_tacks : e.updateReady.tacks = e.tacks := by
  unfold Eng.updateReady; dsimp only; repeat' split
  all_goals simp only [Eng.raise_tacks, Eng.setReplace_tacks]
@[simp] theorem Eng.updateReady_bank0 : e.updateReady.bank0 = e.bank0 := by
  unfold Eng.updateReady; dsimp only; repeat' split
  all_goals simp only [Eng.raise_bank0, Eng.setReplace_bank0]
@[simp] theorem Eng.updateReady_bank1 : e.updateReady.bank1 = e.bank1 := by
  unfold Eng.updateReady; dsimp only; repeat' split
  all_goals simp only [Eng.raise_bank1, Eng.setReplace_bank1]
@[simp] theorem Eng.updateReady_lastBank : e.updateReady.lastBank = e.lastBank := by
  unfold Eng.updateReady; dsimp only; repeat' split
  all_goals simp only [Eng.raise_lastBank, Eng.setReplace_lastBank]
@[simp] theorem Eng.updateReady_latches : e.updateReady.latches = e.latches := by
  unfold Eng.updateReady; dsimp only; repeat' split
  all_goals simp only [Eng.raise_latches, Eng.setReplace_latches]
@[simp] theorem Eng.updateReady_diag : e.updateReady.diag = e.diag := by
  unfold Eng.updateReady; dsimp only; repeat' split
  all_goals simp only [Eng.raise_diag, Eng.setReplace_diag]
@[simp] theorem Eng.updateReady_acts : e.updateReady.acts = e.acts := by
  unfold Eng.updateReady; dsimp only; repeat' split
  all_goals simp only [Eng.raise_acts, Eng.setReplace_acts]
@[simp] theorem Eng.updateReady_mgmtAddr : e.updateReady.mgmtAddr = e.mgmtAddr := by
  unfold Eng.updateReady; dsimp only; repeat' split
  all_goals simp only [Eng.raise_mgmtAddr, Eng.setReplace_mgmtAddr]
@[simp] theorem Eng.updateReady_mgmtWide : e.updateReady.mgmtWide = e.mgmtWide := by
  unfold Eng.updateReady; dsimp only; repeat' split
  all_goals simp only [Eng.raise_mgmtWide, Eng.setReplace_mgmtWide]
@[simp] theorem Eng.updateReady_mirror : e.updateReady.mirror = e.mirror := by
  unfold Eng.updateReady; dsimp only; repeat' split
  all_goals simp only [Eng.raise_mirror, Eng.setReplace_mirror]
@[simp] theorem Eng.updateReady_tx : e.updateReady.tx = e.tx := by
  unfold Eng.updateReady; dsimp only; repeat' split
  all_goals simp only [Eng.raise_tx, Eng.setReplace_tx]
@[simp] theorem Eng.updateReady_irqs : e.updateReady.irqs = e.irqs := by
  unfold Eng.updateReady; dsimp only; repeat' split
  all_goals simp only [Eng.raise_irqs, Eng.setReplace_irqs]
@[simp] theorem Eng.updateReady_rsp : e.updateReady.rsp = e.rsp := by
  unfold Eng.updateReady; dsimp only; repeat' split
  all_goals simp only [Eng.raise_rsp, Eng.setReplace_rsp]

/-- Looking at the ready conditions changes no more of the bring-up record than READY and what its first rise fixes. -/
theorem Eng.updateReady_boot : e.updateReady.boot =
    { e.boot with ready := e.updateReady.boot.ready, everReady := e.updateReady.boot.everReady, bootNs := e.updateReady.boot.bootNs } := by
  unfold Eng.updateReady
  dsimp only
  repeat' split
  all_goals simp only [Eng.raise_boot, Eng.setReplace_boot]

end Sys2Proof.Machine
end

