-- ==== Sys2Proof/Laws/Mem.lean ====
section
/-! SUPPORT. Every operation on HBM keeps its canonical form; what a write leaves alone. -/

namespace Sys2Proof.Machine

theorem Mem.wf_iff (m : Mem) : Mem.wf m = true ↔ m.Pairwise (fun a b => a.1 < b.1) ∧ ∀ c ∈ m, c.2 ≠ 0 := by
  simp [Mem.wf]

theorem Mem.wf_nil : Mem.wf [] = true := by decide

theorem Mem.cells_mem (bs : List Byte) (a : Nat) (c : Host.Cell) (h : c ∈ Mem.cells a bs) :
    a ≤ c.1 ∧ c.1 < a + bs.length ∧ c.2 ≠ 0 := by
  induction bs generalizing a with
  | nil => simp [Mem.cells] at h
  | cons b t ih =>
    simp only [Mem.cells] at h
    split at h
    · have := ih _ h
      simp only [List.length_cons]
      exact ⟨by omega, by omega, this.2.2⟩
    · rcases List.mem_cons.1 h with h | h
      · subst h; simp_all
      · have := ih _ h
        simp only [List.length_cons]
        exact ⟨by omega, by omega, this.2.2⟩

theorem Mem.cells_pairwise (bs : List Byte) (a : Nat) : (Mem.cells a bs).Pairwise (fun a b => a.1 < b.1) := by
  induction bs generalizing a with
  | nil => simp [Mem.cells]
  | cons b t ih =>
    simp only [Mem.cells]
    split
    · exact ih _
    · refine List.pairwise_cons.2 ⟨fun c hc => ?_, ih _⟩
      have := Mem.cells_mem t (a + 1) c hc
      show a < c.1
      omega

theorem Mem.writeAt_wf (m : Mem) (a : Nat) (bs : List Byte) (h : Mem.wf m = true) : Mem.wf (Mem.writeAt m a bs) = true := by
  rw [Mem.wf_iff] at h ⊢
  obtain ⟨hp, hz⟩ := h
  refine ⟨?_, ?_⟩
  · refine List.pairwise_append.2 ⟨hp.filter _, List.pairwise_append.2 ⟨Mem.cells_pairwise bs a, hp.filter _, ?_⟩, ?_⟩
    · intro c hc d hd
      have h1 := Mem.cells_mem bs a c hc
      have h2 : a + bs.length ≤ d.1 := by simpa using (List.mem_filter.1 hd).2
      omega
    · intro c hc d hd
      have h1 : c.1 < a := by simpa using (List.mem_filter.1 hc).2
      rcases List.mem_append.1 hd with hd | hd
      · have := Mem.cells_mem bs a d hd
        omega
      · have h2 : a + bs.length ≤ d.1 := by simpa using (List.mem_filter.1 hd).2
        omega
  · intro c hc
    rcases List.mem_append.1 hc with hc | hc
    · exact hz c (List.mem_filter.1 hc).1
    · rcases List.mem_append.1 hc with hc | hc
      · exact (Mem.cells_mem bs a c hc).2.2
      · exact hz c (List.mem_filter.1 hc).1

theorem Mem.write_wf (m : Mem) (a : Nat) (bs : List Byte) (h : Mem.wf m = true) : Mem.wf (Mem.write m a bs) = true :=
  Mem.writeAt_wf _ _ _ (Mem.writeAt_wf _ _ _ h)

theorem KV.find_append {α : Type} (l k : KV α) (q : Nat) : KV.find (l ++ k) q = (KV.find l q).or (KV.find k q) := by
  induction l with
  | nil => simp [KV.find]
  | cons c t ih =>
    obtain ⟨a, v⟩ := c
    simp only [List.cons_append, KV.find]
    split
    · rfl
    · exact ih

theorem KV.find_filter {α : Type} (p : Nat → Bool) (l : KV α) (q : Nat) :
    KV.find (l.filter (fun c => p c.1)) q = if p q then KV.find l q else none := by
  induction l with
  | nil => simp [KV.find]
  | cons c t ih =>
    obtain ⟨a, v⟩ := c
    by_cases hp : p a <;> by_cases hq : a = q <;> simp_all [KV.find]

theorem Mem.find_cells (bs : List Byte) (a q : Nat) :
    (KV.find (Mem.cells a bs) q).getD 0 = if a ≤ q then bs.getD (q - a) 0 else 0 := by
  induction bs generalizing a with
  | nil => simp [Mem.cells, KV.find]
  | cons b t ih =>
    have key : (KV.find (Mem.cells (a + 1) t) q).getD 0 = if a + 1 ≤ q then t.getD (q - (a + 1)) 0 else 0 := ih (a + 1)
    rcases Nat.lt_trichotomy a q with h | h | h
    · obtain ⟨d, hd⟩ : ∃ d, q - a = d + 1 := ⟨q - a - 1, by omega⟩
      have hd' : q - (a + 1) = d := by omega
      have : a ≤ q := by omega
      have h2 : a + 1 ≤ q := by omega
      have h3 : a ≠ q := by omega
      rw [if_pos h2, hd'] at key
      simp only [Mem.cells]
      split <;> simp only [KV.find, if_neg h3, hd, List.getD_cons_succ] <;> exact key
    · subst h
      rw [if_neg (by omega)] at key
      simp only [Mem.cells]
      split <;> simp_all [KV.find]
    · rw [if_neg (by omega)] at key
      have h3 : a ≠ q := by omega
      simp only [Mem.cells]
      split <;> simp only [KV.find, if_neg h3, if_neg (show ¬ a ≤ q by omega)] <;> exact key

theorem Mem.cells_out (bs : List Byte) (a q : Nat) (h : q < a ∨ a + bs.length ≤ q) : KV.find (Mem.cells a bs) q = none := by
  induction bs generalizing a with
  | nil => rfl
  | cons b t ih =>
    have ht := ih (a + 1) (by simp only [List.length_cons] at h; omega)
    simp only [Mem.cells]
    split
    · exact ht
    · have : a ≠ q := by simp only [List.length_cons] at h; omega
      simp [KV.find, this, ht]

/-- What a write below the top leaves at each address. -/
theorem Mem.byte_writeAt (m : Mem) (a : Nat) (bs : List Byte) (x : Nat) :
    Mem.byte (Mem.writeAt m a bs) x = if a ≤ x ∧ x < a + bs.length then bs.getD (x - a) 0 else Mem.byte m x := by
  have h1 := KV.find_filter (fun k => decide (k < a)) m x
  have h2 := KV.find_filter (fun k => decide (a + bs.length ≤ k)) m x
  simp only [Mem.byte, KV.get, Mem.writeAt, KV.find_append]
  by_cases h : a ≤ x ∧ x < a + bs.length
  · have g1 : decide (x < a) = false := by simp; omega
    have g2 : decide (a + bs.length ≤ x) = false := by simp; omega
    rw [h1, h2, g1, g2, if_pos h]
    have := Mem.find_cells bs a x
    rw [if_pos h.1] at this
    simpa using this
  · rw [if_neg h, Mem.cells_out bs a x (by omega), h1, h2]
    by_cases g : x < a
    · have : ¬ a + bs.length ≤ x := by omega
      simp [g, this]
    · have : a + bs.length ≤ x := by omega
      simp [g, this]

/-- A write inside the address space stores its bytes and leaves every other address as it was. -/
theorem Mem.byte_write (m : Mem) (a : Nat) (bs : List Byte) (x : Nat) (h : a + bs.length ≤ memTop) (hl : bs ≠ []) :
    Mem.byte (Mem.write m a bs) x = if a ≤ x ∧ x < a + bs.length then bs.getD (x - a) 0 else Mem.byte m x := by
  have hpos : 0 < bs.length := List.length_pos_iff.2 hl
  have ha : a % memTop = a := Nat.mod_eq_of_lt (by omega)
  have ht : bs.take (memTop - a) = bs := List.take_of_length_le (by omega)
  have hd : bs.drop (memTop - a) = [] := List.drop_of_length_le (by omega)
  simp only [Mem.write, ha, ht, hd]
  rw [Mem.byte_writeAt _ 0 []]
  simp [Mem.byte_writeAt]

theorem Eng.view_wf (e : Eng) (m : Mem) (h : Mem.wf m = true) : Mem.wf (e.view m) = true := by
  unfold Eng.view
  induction e.wlog with
  | nil => exact h
  | cons w t ih => exact Mem.write_wf _ _ _ ih

end Sys2Proof.Machine
end

