-- ==== Sys2Proof/Laws/Shapes.lean ====
section
/-! SUPPORT. Each meaning as the operation it carries out, one equation per command. -/

namespace Sys2Proof.Machine

theorem exec_powerGood (r : BootRecords) (s : State) : exec (.powerGood r) s =
    s.apply (fun _ e => e.powerGood r) := rfl

theorem exec_spinePhaseDone (s : State) : exec (.spinePhaseDone) s =
    s.apply (fun _ e => e.spineDone) := rfl

theorem exec_waveRelease (wave : Nat) (s : State) : exec (.waveRelease wave) s =
    s.onPower (fun _ e => e.releaseWave wave) := rfl

theorem exec_waveSelftestDone (wave : Nat) (failedBays : List Nat) (s : State) : exec (.waveSelftestDone wave failedBays) s =
    s.onPower (fun _ e => e.waveTested wave failedBays) := rfl

theorem exec_linkTrained (port : Nat) (up : Bool) (peerMin peerMax : Nat) (swred fixedOrder : Bool) (ownChip peerChip : Nat) (s : State) : exec (.linkTrained port up peerMin peerMax swred fixedOrder ownChip peerChip) s =
    s.onPower (fun m e => e.linkTrained m port up peerMin peerMax swred fixedOrder ownChip peerChip) := rfl

theorem exec_peerVersionLearned (chip version : Nat) (s : State) : exec (.peerVersionLearned chip version) s =
    s.onPower (fun _ e => e.learnVersion chip version) := rfl

theorem exec_linkStateChange (port : Nat) (up : Bool) (s : State) : exec (.linkStateChange port up) s =
    s.onPower (fun m e => e.linkChange m port up) := rfl

theorem exec_clockMissing (island : Nat) (s : State) : exec (.clockMissing island) s =
    s.onPower (fun _ e => e.clockLost island) := rfl

theorem exec_engPorstN (s : State) : exec (.engPorstN) s =
    s.apply (fun _ e => e.powerOnReset) := rfl

theorem exec_engCrstN (s : State) : exec (.engCrstN) s =
    s.onPower (fun _ e => e.requestReset .compute) := rfl

theorem exec_tapePorstN (pufOk : Bool) (s : State) : exec (.tapePorstN pufOk) s =
    s.tapeApply false (fun t _ => t.powerOn pufOk) := rfl

theorem exec_load (bcast : Bool) (s : State) : exec (.load bcast) s =
    s.onPower (fun m e => e.mmioWrite m Reg.patCtrl false (1 + 2 * bcast.toNat)) := rfl

theorem exec_abort (s : State) : exec (.abort) s =
    s.onPower (fun m e => e.mmioWrite m Reg.patCtrl false 4) := rfl

theorem exec_localReadComplete (s : State) : exec (.localReadComplete) s =
    s.onPower (fun m e => e.localRead m) := rfl

theorem exec_verifyDone (s : State) : exec (.verifyDone) s =
    s.onPower (fun m e => if e.loader.st == .verifying then e.verifyStaged m else e) := rfl

theorem exec_applyDone (s : State) : exec (.applyDone) s =
    s.onPower (fun m e => if e.loader.st == .applying then (e.applyStaged m).settle m else e) := rfl

theorem exec_patternFrame (src : Nat) (h : PatHdr) (payload : Received) (s : State) : exec (.patternFrame src h payload) s =
    s.onPower (fun _ e => e.patFrame src h payload.bytes payload.read) := rfl

theorem exec_frameTimeout (s : State) : exec (.frameTimeout) s =
    s.onPower (fun _ e => e.framesStop) := rfl

theorem exec_repairBitmap (src : Nat) (missing : List Nat) (s : State) : exec (.repairBitmap src missing) s =
    s.onPower (fun _ e => e.takeBitmap src missing) := rfl

theorem exec_repairRequest (src : Nat) (seqs : List Nat) (s : State) : exec (.repairRequest src seqs) s =
    s.onPower (fun _ e => e.serveRack src seqs) := rfl

theorem exec_repairRoundTimeout (s : State) : exec (.repairRoundTimeout) s =
    s.onPower (fun m e => e.roundOver m) := rfl

theorem exec_stateReport (chip st : Nat) (s : State) : exec (.stateReport chip st) s =
    s.onPower (fun _ e => e.takeReport chip st) := rfl

theorem exec_hallStatusTimeout (s : State) : exec (.hallStatusTimeout) s =
    s.onPower (fun _ e => e.hallLate) := rfl

theorem exec_stepBoundary (slot : Nat) (s : State) : exec (.stepBoundary slot) s =
    s.onPower (fun m e => e.stepBoundary m slot) := rfl

theorem exec_doorbell (queue byteOff : Nat) (wide : Bool) (value : Nat) (s : State) : exec (.doorbell queue byteOff wide value) s =
    s.onPower (fun _ e => e.doorbell queue byteOff wide value) := rfl

theorem exec_descriptorFetch (ring : Nat) (s : State) : exec (.descriptorFetch ring) s =
    s.onPower (fun m e => e.fetchNow m ring) := rfl

theorem exec_waitPoll (ring idx : Nat) (s : State) : exec (.waitPoll ring idx) s =
    s.onPower (fun m e => match e.openAt ring idx with
    | some id => e.tryStart m id
    | none => e) := rfl

theorem exec_dependencyReleased (ring idx : Nat) (s : State) : exec (.dependencyReleased ring idx) s =
    s.onPower (fun m e => match e.openAt ring idx with
    | some id => e.tryStart m id
    | none => e) := rfl

theorem exec_completionStall (ring : Nat) (s : State) : exec (.completionStall ring) s =
    s.onPower (fun _ e => e.cplStall ring) := rfl

theorem exec_cplHead (slot value : Nat) (s : State) : exec (.cplHead slot value) s =
    s.onPower (fun m e => e.mmioWrite m (slotReg slot Reg.pldCplHead) false value) := rfl

theorem exec_attach (slot : Nat) (s : State) : exec (.attach slot) s =
    s.onPower (fun m e => e.mmioWrite m (slotReg slot Reg.pldRingCmd) false 1) := rfl

theorem exec_detach (slot : Nat) (s : State) : exec (.detach slot) s =
    s.onPower (fun m e => e.mmioWrite m (slotReg slot Reg.pldRingCmd) false 2) := rfl

theorem exec_clearStop (slot : Nat) (s : State) : exec (.clearStop slot) s =
    s.onPower (fun m e => e.mmioWrite m (slotReg slot Reg.pldRingCmd) false 4) := rfl

theorem exec_memoryWriteAck (s : State) : exec (.memoryWriteAck) s =
    s.onPower (fun m e => e.writeAck m) := rfl

theorem exec_memoryReadReturn (line : Nat) (stat retry : LineStat) (what : ReadPurpose) (s : State) : exec (.memoryReadReturn line stat retry what) s =
    s.onPower (fun m e => e.readReturn m line stat retry what) := rfl

theorem exec_nop (ring idx : Nat) (s : State) : exec (.nop ring idx) s =
    s.onPower (fun m e => e.runCmd m ring idx opNop (fun c e => e.complete c.id stOk)) := rfl

theorem exec_fence (ring idx : Nat) (s : State) : exec (.fence ring idx) s =
    s.onPower (fun m e => e.runCmd m ring idx opFence (fun _ e => e.settleFences)) := rfl

theorem exec_cancel (ring idx : Nat) (s : State) : exec (.cancel ring idx) s =
    s.onPower (fun m e => match e.cmdAt ring idx opCancel with
    | some c => if c.phase == .held && !c.done && e.polderRuns c.polder && e.flt.recovery != some .compute then e.cancelNow m c else e
    | none => e) := rfl

theorem exec_score (ring idx : Nat) (s : State) : exec (.score ring idx) s =
    s.onPower (fun m e => e.runCmd m ring idx opScore (fun c e => (e.scoreNow m c).settle m)) := rfl

theorem exec_route (ring idx : Nat) (s : State) : exec (.route ring idx) s =
    s.onPower (fun m e => e.runCmd m ring idx opRoute (fun c e => (e.startRoute m c).settle m)) := rfl

theorem exec_tileSelected (ring idx tile : Nat) (s : State) : exec (.tileSelected ring idx tile) s =
    s.onPower (fun m e => match e.runningRoute ring idx with
    | some c => (e.selectTile m c tile).settle m
    | none => match e.runningScore ring idx with
      | some c => (e.scoreTile m c tile).settle m
      | none => e) := rfl

theorem exec_tablePass (table : Nat) (band : Option Nat) (mismatch checker : Bool) (wc : LineStat) (line : Nat) (s : State) : exec (.tablePass table band mismatch checker wc line) s =
    s.onPower (fun m e => e.passDone m table band mismatch checker wc line) := rfl

theorem exec_bidFrame (port : Option Nat) (chunkId : Nat) (h : FitHdr) (recs : List BidRec) (rd : SpoolRead) (s : State) : exec (.bidFrame port chunkId h recs rd) s =
    s.onPower (fun m e => e.arrive m (.bid port chunkId h recs) rd false) := rfl

theorem exec_grantFrame (port : Option Nat) (chunkId : Nat) (h : FitHdr) (recs : List GrantRec) (rd : SpoolRead) (s : State) : exec (.grantFrame port chunkId h recs rd) s =
    s.onPower (fun m e => e.arrive m (.grant port chunkId h recs) rd false) := rfl

theorem exec_claimFrame (port : Option Nat) (chunkId : Nat) (h : FitHdr) (recs : List BidRec) (rd : SpoolRead) (s : State) : exec (.claimFrame port chunkId h recs rd) s =
    s.onPower (fun m e => e.arrive m (.claim port chunkId h recs) rd false) := rfl

theorem exec_reserveRetry (slot step : Nat) (s : State) : exec (.reserveRetry slot step) s =
    s.onPower (fun m e => (e.reserveAgain slot step).settle m) := rfl

theorem exec_reserveTimeout (slot step : Nat) (s : State) : exec (.reserveTimeout slot step) s =
    s.onPower (fun m e => (e.reserveLate slot step).settle m) := rfl

theorem exec_pleatSortDone (ring idx : Nat) (s : State) : exec (.pleatSortDone ring idx) s =
    s.onPower (fun m e => match e.runningRoute ring idx with
    | some c => if (e.workById c.id).any (fun w => w.phase == .sorting) then (e.pleat c.id).settle m else e
    | none => e) := rfl

theorem exec_burstGrant (s : State) : exec (.burstGrant) s =
    s.onPower (fun m e => (e.burst m).settle m) := rfl

theorem exec_dispatchChunk (port : Option Nat) (h : ChunkHdr) (payload : List Byte) (rd : SpoolRead) (s : State) : exec (.dispatchChunk port h payload rd) s =
    s.onPower (fun m e => e.arriveChunk m port h payload rd false) := rfl

theorem exec_voidList (port : Option Nat) (h : ChunkHdr) (payload : List Byte) (rd : SpoolRead) (s : State) : exec (.voidList port h payload rd) s =
    s.onPower (fun m e => e.arriveChunk m port h payload rd false) := rfl

theorem exec_returnChunk (port : Option Nat) (h : ChunkHdr) (payload : List Byte) (rd : SpoolRead) (s : State) : exec (.returnChunk port h payload rd) s =
    s.onPower (fun m e => e.arriveChunk m port h payload rd false) := rfl

theorem exec_backwardDispatchChunk (port : Option Nat) (h : ChunkHdr) (payload : List Byte) (rd : SpoolRead) (s : State) : exec (.backwardDispatchChunk port h payload rd) s =
    s.onPower (fun m e => e.arriveChunk m port h payload rd false) := rfl

theorem exec_backwardReturnChunk (port : Option Nat) (h : ChunkHdr) (payload : List Byte) (rd : SpoolRead) (s : State) : exec (.backwardReturnChunk port h payload rd) s =
    s.onPower (fun m e => e.arriveChunk m port h payload rd false) := rfl

theorem exec_copyChunk (port : Option Nat) (h : ChunkHdr) (payload : List Byte) (rd : SpoolRead) (s : State) : exec (.copyChunk port h payload rd) s =
    s.onPower (fun m e => e.arriveChunk m port h payload rd false) := rfl

theorem exec_ack (chip : Nat) (ids : List Nat) (s : State) : exec (.ack chip ids) s =
    s.onPower (fun m e => (ids.foldl (fun (e : Eng) i => e.ackOne chip i) e).settle m) := rfl

theorem exec_nak (chip id : Nat) (s : State) : exec (.nak chip id) s =
    s.onPower (fun m e => match e.ttNamed chip id with
    | some it => (e.replay m it.1 false).settle m
    | none => e) := rfl

theorem exec_ackTimeout (entry : Nat) (s : State) : exec (.ackTimeout entry) s =
    s.onPower (fun m e => (e.ackLate m entry).settle m) := rfl

theorem exec_pathExclusionExpiry (chip port : Nat) (s : State) : exec (.pathExclusionExpiry chip port) s =
    s.onPower (fun m e => (e.includePath m chip port).settle m) := rfl

theorem exec_ackCoalesceTimeout (chip : Nat) (s : State) : exec (.ackCoalesceTimeout chip) s =
    s.onPower (fun _ e => match KV.find e.acks chip with
    | some a => (e.reach (a.since + 1000)).sendAcks chip
    | none => e) := rfl

theorem exec_combine (ring idx : Nat) (s : State) : exec (.combine ring idx) s =
    s.onPower (fun m e => e.runCmd m ring idx opCombine (fun c e => (e.combineNow m c).settle m)) := rfl

theorem exec_ret (ring idx : Nat) (s : State) : exec (.ret ring idx) s =
    s.onPower (fun m e => e.runCmd m ring idx opReturn (fun c e => (e.startReturn m c false).settle m)) := rfl

theorem exec_routeBwd (ring idx : Nat) (s : State) : exec (.routeBwd ring idx) s =
    s.onPower (fun m e => e.runCmd m ring idx opRouteBwd (fun c e => (e.routeBwdNow m c).settle m)) := rfl

theorem exec_returnBwd (ring idx : Nat) (s : State) : exec (.returnBwd ring idx) s =
    s.onPower (fun m e => e.runCmd m ring idx opReturnBwd (fun c e => (e.startReturn m c true).settle m)) := rfl

theorem exec_combineBwd (ring idx : Nat) (s : State) : exec (.combineBwd ring idx) s =
    s.onPower (fun m e => e.runCmd m ring idx opCombineBwd (fun c e => (e.combineBwdNow m c).settle m)) := rfl

theorem exec_copy (ring idx : Nat) (s : State) : exec (.copy ring idx) s =
    s.onPower (fun m e => e.runCmd m ring idx opCopy (fun c e => (e.startCopy c).settle m)) := rfl

theorem exec_stepEnd (ring idx : Nat) (s : State) : exec (.stepEnd ring idx) s =
    s.onPower (fun m e => e.runCmd m ring idx opStepEnd (fun c e => (e.endStep c).settle m)) := rfl

theorem exec_tack (ring idx : Nat) (s : State) : exec (.tack ring idx) s =
    s.onPower (fun m e => e.runCmd m ring idx opTack (fun c e => (e.startTack c).settle m)) := rfl

theorem exec_barrier (ring idx : Nat) (s : State) : exec (.barrier ring idx) s =
    s.onPower (fun m e => e.runCmd m ring idx opBarrier (fun c e => (e.startBarrier m c).settle m)) := rfl

theorem exec_admitSeq (ring idx : Nat) (s : State) : exec (.admitSeq ring idx) s =
    s.onPower (fun m e => e.runCmd m ring idx opAdmit (fun c e => (e.admitNew c).settle m)) := rfl

theorem exec_retire (ring idx : Nat) (s : State) : exec (.retire ring idx) s =
    s.onPower (fun m e => e.runCmd m ring idx opRetire (fun c e => (e.retireNew c).settle m)) := rfl

theorem exec_release (ring idx : Nat) (s : State) : exec (.release ring idx) s =
    s.onPower (fun m e => e.runCmd m ring idx opRelease (fun c e => (e.releaseNow c).settle m)) := rfl

theorem exec_bcast (ring idx : Nat) (s : State) : exec (.bcast ring idx) s =
    s.onPower (fun m e => e.runCmd m ring idx opBcast (fun c e => (e.startOp m false c).settle m)) := rfl

theorem exec_reduce (ring idx : Nat) (s : State) : exec (.reduce ring idx) s =
    s.onPower (fun m e => e.runCmd m ring idx opReduce (fun c e => (e.startOp m true c).settle m)) := rfl

theorem exec_groupForm (ring idx : Nat) (s : State) : exec (.groupForm ring idx) s =
    s.onPower (fun m e => e.runCmd m ring idx opGroupForm (fun c e => (e.startForm m c).settle m)) := rfl

theorem exec_groupReform (ring idx : Nat) (s : State) : exec (.groupReform ring idx) s =
    s.onPower (fun m e => e.runCmd m ring idx opGroupReform (fun c e => (e.startReform m c).settle m)) := rfl

theorem exec_formUp (port : Option Nat) (h : ChunkHdr) (payload : Received) (s : State) : exec (.formUp port h payload) s =
    s.onPower (fun m e => e.arriveChunk m port h payload.bytes payload.read false) := rfl

theorem exec_formDown (port : Option Nat) (h : ChunkHdr) (payload : Received) (s : State) : exec (.formDown port h payload) s =
    s.onPower (fun m e => e.arriveChunk m port h payload.bytes payload.read false) := rfl

theorem exec_formTimeout (group : Nat) (s : State) : exec (.formTimeout group) s =
    s.onPower (fun m e => (e.formLate group).settle m) := rfl

theorem exec_countUp (port : Option Nat) (h : ChunkHdr) (payload : Received) (s : State) : exec (.countUp port h payload) s =
    s.onPower (fun m e => e.arriveChunk m port h payload.bytes payload.read false) := rfl

theorem exec_countDown (port : Option Nat) (h : ChunkHdr) (payload : Received) (s : State) : exec (.countDown port h payload) s =
    s.onPower (fun m e => e.arriveChunk m port h payload.bytes payload.read false) := rfl

theorem exec_bcastData (port : Option Nat) (h : ChunkHdr) (payload : List Byte) (rd : SpoolRead) (s : State) : exec (.bcastData port h payload rd) s =
    s.onPower (fun m e => e.arriveChunk m port h payload rd false) := rfl

theorem exec_reduceData (port : Option Nat) (h : ChunkHdr) (payload : List Byte) (rd : SpoolRead) (sumBad : Bool) (s : State) : exec (.reduceData port h payload rd sumBad) s =
    s.onPower (fun m e => e.arriveChunk m port h payload rd sumBad) := rfl

theorem exec_factorData (port : Option Nat) (h : ChunkHdr) (payload : List Byte) (rd : SpoolRead) (s : State) : exec (.factorData port h payload rd) s =
    s.onPower (fun m e => e.arriveChunk m port h payload rd false) := rfl

theorem exec_swRefused (port : Option Nat) (h : ChunkHdr) (payload : Received) (s : State) : exec (.swRefused port h payload) s =
    s.onPower (fun m e => e.arriveChunk m port h payload.bytes payload.read false) := rfl

theorem exec_collectiveAbort (port : Option Nat) (h : ChunkHdr) (payload : Received) (s : State) : exec (.collectiveAbort port h payload) s =
    s.onPower (fun m e => e.arriveChunk m port h payload.bytes payload.read false) := rfl

theorem exec_barrierUp (port : Option Nat) (h : ChunkHdr) (payload : Received) (s : State) : exec (.barrierUp port h payload) s =
    s.onPower (fun m e => e.arriveChunk m port h payload.bytes payload.read false) := rfl

theorem exec_barrierDown (port : Option Nat) (h : ChunkHdr) (payload : Received) (s : State) : exec (.barrierDown port h payload) s =
    s.onPower (fun m e => e.arriveChunk m port h payload.bytes payload.read false) := rfl

theorem exec_barrierRelease (group bseq : Nat) (s : State) : exec (.barrierRelease group bseq) s =
    s.onPower (fun m e => (e.barrierGo group bseq false).settle m) := rfl

theorem exec_tackNotice (port : Option Nat) (h : ChunkHdr) (payload : Received) (s : State) : exec (.tackNotice port h payload) s =
    s.onPower (fun m e => e.arriveChunk m port h payload.bytes payload.read false) := rfl

theorem exec_tackLatch (s : State) : exec (.tackLatch) s =
    s.onPower (fun m e => e.latch.settle m) := rfl

theorem exec_syncTimer (s : State) : exec (.syncTimer) s =
    s.onPower (fun _ e => e.syncStart) := rfl

theorem exec_syncMessage (msg : SyncMsg) (at_ : Nat) (s : State) : exec (.syncMessage msg at_) s =
    s.onPower (fun _ e => e.syncTake msg at_) := rfl

theorem exec_syncTimeout (s : State) : exec (.syncTimeout) s =
    s.onPower (fun _ e => e.syncLost) := rfl

theorem exec_create (slot id : Nat) (s : State) : exec (.create slot id) s =
    s.slotWrite slot pcCreate id := rfl

theorem exec_createDone (slot : Nat) (s : State) : exec (.createDone slot) s =
    s.onPower (fun m e => e.createEnd m slot) := rfl

theorem exec_destroy (slot : Nat) (s : State) : exec (.destroy slot) s =
    s.slotWrite slot pcDestroy 0 := rfl

theorem exec_destroyDone (slot : Nat) (s : State) : exec (.destroyDone slot) s =
    s.onPower (fun m e => e.destroyEnd m slot) := rfl

theorem exec_schDestroyId (id : Nat) (s : State) : exec (.schDestroyId id) s =
    s.onPower (fun m e => e.mmioWrite m Reg.schDestroyId false id) := rfl

theorem exec_park (slot : Nat) (s : State) : exec (.park slot) s =
    s.slotWrite slot pcPark 0 := rfl

theorem exec_parkDone (slot : Nat) (s : State) : exec (.parkDone slot) s =
    s.onPower (fun m e => e.parkEnd m slot) := rfl

theorem exec_unpark (slot : Nat) (s : State) : exec (.unpark slot) s =
    s.slotWrite slot pcUnpark 0 := rfl

theorem exec_unparkDone (slot : Nat) (s : State) : exec (.unparkDone slot) s =
    s.onPower (fun m e => e.unparkEnd m slot) := rfl

theorem exec_evict (slot : Nat) (s : State) : exec (.evict slot) s =
    s.slotWrite slot pcEvict 0 := rfl

theorem exec_evictDone (slot : Nat) (s : State) : exec (.evictDone slot) s =
    s.onPower (fun m e => e.evictEnd m slot) := rfl

theorem exec_quarantineEnd (template : Nat) (s : State) : exec (.quarantineEnd template) s =
    s.onPower (fun m e => e.quarantineOver m template) := rfl

theorem exec_restore (slot id : Nat) (s : State) : exec (.restore slot id) s =
    s.slotWrite slot pcRestore id := rfl

theorem exec_restoreDone (slot : Nat) (s : State) : exec (.restoreDone slot) s =
    s.onPower (fun m e => e.restoreEnd m slot) := rfl

theorem exec_consent (slot byteOff : Nat) (wide : Bool) (value : Nat) (s : State) : exec (.consent slot byteOff wide value) s =
    s.onPower (fun m e => e.mmioWrite m (slotReg slot Reg.pldConsent + byteOff) wide value) := rfl

theorem exec_consentTimeout (slot : Nat) (s : State) : exec (.consentTimeout slot) s =
    s.onPower (fun _ e => e.consentLate slot) := rfl

theorem exec_tideWindowStart (s : State) : exec (.tideWindowStart) s =
    s.onPower (fun m e => e.windowStart m) := rfl

theorem exec_tideWindowEnd (overrunNs : Nat) (s : State) : exec (.tideWindowEnd overrunNs) s =
    s.onPower (fun m e => e.windowEnd m overrunNs) := rfl

theorem exec_slowdownUpdate (s : State) : exec (.slowdownUpdate) s =
    s.onPower (fun _ e => e.slowdowns) := rfl

theorem exec_engMode (value : Nat) (s : State) : exec (.engMode value) s =
    s.onPower (fun m e => e.mmioWrite m Reg.engMode false value) := rfl

theorem exec_detSeed (byteOff : Nat) (wide : Bool) (value : Nat) (s : State) : exec (.detSeed byteOff wide value) s =
    s.onPower (fun m e => e.mmioWrite m (Reg.detSeed + byteOff) wide value) := rfl

theorem exec_bind (s : State) : exec (.bind) s =
    s.onPower (fun m e => e.mmioWrite m Reg.ctWcmd false wcBind) := rfl

theorem exec_unbind (s : State) : exec (.unbind) s =
    s.onPower (fun m e => e.mmioWrite m Reg.ctWcmd false wcUnbind) := rfl

theorem exec_invalidate (s : State) : exec (.invalidate) s =
    s.onPower (fun m e => e.mmioWrite m Reg.ctWcmd false wcInvalidate) := rfl

theorem exec_bindFillDone (slot : Nat) (s : State) : exec (.bindFillDone slot) s =
    s.onPower (fun m e => e.bindFilled m slot) := rfl

theorem exec_wcmdPendExecute (slot : Nat) (s : State) : exec (.wcmdPendExecute slot) s =
    s.onPower (fun m e => e.weightLatched m slot) := rfl

theorem exec_selBiasAddr (byteOff : Nat) (wide : Bool) (value : Nat) (s : State) : exec (.selBiasAddr byteOff wide value) s =
    s.onPower (fun m e => e.mmioWrite m (Reg.selBiasaddr + byteOff) wide value) := rfl

theorem exec_biasZeroingDone (slot : Nat) (s : State) : exec (.biasZeroingDone slot) s =
    s.onPower (fun _ e => e.biasZeroed slot) := rfl

theorem exec_biasPendExecute (slot : Nat) (s : State) : exec (.biasPendExecute slot) s =
    s.onPower (fun _ e => e.biasLatched slot) := rfl

theorem exec_hemDiagCmd (value : Nat) (s : State) : exec (.hemDiagCmd value) s =
    s.onPower (fun m e => e.mmioWrite m Reg.hemDiagCmd false value) := rfl

theorem exec_diagDone (s : State) : exec (.diagDone) s =
    s.onPower (fun _ e => e.diagOut) := rfl

theorem exec_tblScrub (repaired differ half : Nat) (s : State) : exec (.tblScrub repaired differ half) s =
    s.onPower (fun _ e => e.scrubTables repaired differ half) := rfl

theorem exec_scrub (cell : Nat) (stat : LineStat) (again : Bool) (s : State) : exec (.scrub cell stat again) s =
    s.onPower (fun _ e => e.scrubCell cell stat again) := rfl

theorem exec_sweepDone (queue : Nat) (s : State) : exec (.sweepDone queue) s =
    s.onPower (fun m e => (e.sweepEnd queue).settle m) := rfl

theorem exec_backpressureTimeout (queue : Nat) (s : State) : exec (.backpressureTimeout queue) s =
    s.onPower (fun _ e => e.backpressure queue) := rfl

theorem exec_mxRel (handle count : Nat) (s : State) : exec (.mxRel handle count) s =
    s.onPower (fun _ e => e.takeRelease handle count) := rfl

theorem exec_releaseMessage (s : State) : exec (.releaseMessage) s =
    s.onPower (fun m e => e.drainRelease m) := rfl

theorem exec_bobInit (s : State) : exec (.bobInit) s =
    s.onPower (fun m e => e.mmioWrite m Reg.bobCtrl false (2 + e.reg Reg.bobCtrl % 2)) := rfl

theorem exec_poolConfigWrite (off : Nat) (wide : Bool) (value : Nat) (s : State) : exec (.poolConfigWrite off wide value) s =
    s.onPower (fun m e => e.mmioWrite m off wide value) := rfl

theorem exec_initDone (s : State) : exec (.initDone) s =
    s.onPower (fun m e => if e.bob.busy then { e with bob.busy := false }.settle m else e) := rfl

theorem exec_poolEmptyTimeout (pool : Nat) (s : State) : exec (.poolEmptyTimeout pool) s =
    s.onPower (fun _ e => e.poolLate pool) := rfl

theorem exec_laneMismatch (quarter logical lane cycle : Nat) (s : State) : exec (.laneMismatch quarter logical lane cycle) s =
    s.onPower (fun _ e => e.laneFails quarter logical lane cycle) := rfl

theorem exec_halfMismatch (unit half : Nat) (s : State) : exec (.halfMismatch unit half) s =
    s.onPower (fun m e => (e.halfFails unit half).settle m) := rfl

theorem exec_gussetSubstitution (s : State) : exec (.gussetSubstitution) s =
    s.onPower (fun _ e => e.substituted) := rfl

theorem exec_bayReset (bay : Nat) (s : State) : exec (.bayReset bay) s =
    s.onPower (fun _ e => e.bayFault bay) := rfl

theorem exec_bayResetDone (bay : Nat) (passed : Bool) (s : State) : exec (.bayResetDone bay passed) s =
    s.onPower (fun m e => e.bayResetEnds m bay passed) := rfl

theorem exec_dikeReset (dike : Nat) (s : State) : exec (.dikeReset dike) s =
    s.onPower (fun _ e => if e.flt.dikesContained.contains dike then e else e.addFault (.dike dike)) := rfl

theorem exec_dikeResetDone (dike : Nat) (passed : Bool) (s : State) : exec (.dikeResetDone dike passed) s =
    s.onPower (fun m e => e.dikeResetEnds m dike passed) := rfl

theorem exec_computeReset (s : State) : exec (.computeReset) s =
    s.onPower (fun _ e => e.addFault .compute) := rfl

theorem exec_computeResetDone (passed : Bool) (s : State) : exec (.computeResetDone passed) s =
    s.onPower (fun m e => e.computeEnds m passed) := rfl

theorem exec_computeResetRequest (s : State) : exec (.computeResetRequest) s =
    s.onPower (fun m e => e.mmioWrite m Reg.engReset false 1) := rfl

theorem exec_bayResetRequest (bay : Nat) (s : State) : exec (.bayResetRequest bay) s =
    s.onPower (fun m e => e.mmioWrite m Reg.engReset false (2 + bay * 256)) := rfl

theorem exec_hold (nseq chip : Nat) (s : State) : exec (.hold nseq chip) s =
    s.onPower (fun _ e => e.notice nseq (fun e => e.applyHold chip)) := rfl

theorem exec_resume (nseq chip : Nat) (s : State) : exec (.resume nseq chip) s =
    s.onPower (fun m e => e.notice nseq (fun e => (e.endHold m chip).settle m)) := rfl

theorem exec_lost (nseq chip : Nat) (s : State) : exec (.lost nseq chip) s =
    s.onPower (fun m e => e.notice nseq (fun e => e.noticeLost m chip)) := rfl

theorem exec_clearNotice (nseq chip : Nat) (s : State) : exec (.clearNotice nseq chip) s =
    s.onPower (fun _ e => e.notice nseq (fun e => e.applyClear chip)) := rfl

theorem exec_suspect (nseq chip : Nat) (s : State) : exec (.suspect nseq chip) s =
    s.onPower (fun _ e => e.notice nseq (fun e => e.suspectChip chip)) := rfl

theorem exec_probe (src : Nat) (s : State) : exec (.probe src) s =
    s.onPower (fun _ e => if e.flt.recovery = some .compute then e else e.transmit (e.towards src) 7 64 (.probeAnswer src)) := rfl

theorem exec_probeAnswer (chip : Nat) (s : State) : exec (.probeAnswer chip) s =
    s.onPower (fun m e => e.probeAnswered m chip) := rfl

theorem exec_probeTimeout (chip : Nat) (s : State) : exec (.probeTimeout chip) s =
    s.onPower (fun _ e => e.probeLate chip) := rfl

theorem exec_wakeTol (value : Nat) (s : State) : exec (.wakeTol value) s =
    s.onPower (fun m e => e.mmioWrite m Reg.wakeTol false value) := rfl

theorem exec_idleTimeout (s : State) : exec (.idleTimeout) s =
    s.onPower (fun _ e => e.idleLong) := rfl

theorem exec_tideWake (s : State) : exec (.tideWake) s =
    s.onPower (fun _ e => e.tideWake) := rfl

theorem exec_powerEntryDone (s : State) : exec (.powerEntryDone) s =
    s.onPower (fun _ e => e.entryDone) := rfl

theorem exec_powerExitDone (saveReadable : Bool) (s : State) : exec (.powerExitDone saveReadable) s =
    s.onPower (fun m e => (e.exitDone m saveReadable).serveAccesses m) := rfl

theorem exec_engFunc (value : Nat) (s : State) : exec (.engFunc value) s =
    s.onPower (fun m e => e.mmioWrite m Reg.engFunc false value) := rfl

theorem exec_funcTransitionDone (fn : Nat) (s : State) : exec (.funcTransitionDone fn) s =
    s.onPower (fun _ e => e.funcDone fn) := rfl

theorem exec_gauBind (byteOff : Nat) (wide : Bool) (value : Nat) (s : State) : exec (.gauBind byteOff wide value) s =
    s.onPower (fun m e => e.mmioWrite m (Reg.gauBind + byteOff) wide value) := rfl

theorem exec_gauClear (s : State) : exec (.gauClear) s =
    s.onPower (fun m e => e.mmioWrite m Reg.gauCmd false 1) := rfl

theorem exec_gauClearAll (s : State) : exec (.gauClearAll) s =
    s.onPower (fun m e => e.mmioWrite m Reg.gauCmd false 2) := rfl

theorem exec_levelSample (us : Nat) (s : State) : exec (.levelSample us) s =
    s.onPower (fun _ e => e.sampleLevels us) := rfl

theorem exec_evtHead (value : Nat) (s : State) : exec (.evtHead value) s =
    s.onPower (fun m e => e.mmioWrite m Reg.evtHead false value) := rfl

theorem exec_evtBase (off : Nat) (wide : Bool) (value : Nat) (s : State) : exec (.evtBase off wide value) s =
    s.onPower (fun m e => e.mmioWrite m off wide value) := rfl

theorem exec_managementAddress (addr : Nat) (s : State) : exec (.managementAddress addr) s =
    s.onPower (fun _ e => { e with mgmtAddr := field addr 0 23, mgmtWide := bit addr 23 }) := rfl

theorem exec_registerWrite (mgmt : Bool) (off : Nat) (wide : Bool) (value : Nat) (s : State) : exec (.registerWrite mgmt off wide value) s =
    s.onPower (fun m e => if mgmt then e.mgmtWrite m off wide value else e.mmioWrite m off wide value) := rfl

theorem exec_senseFrame (bits : Nat) (s : State) : exec (.senseFrame bits) s =
    s.tapeApply false (fun t _ => t.sense bits) := rfl

theorem exec_periodClose (s : State) : exec (.periodClose) s =
    s.tapeApply false (fun t _ => t.close) := rfl

theorem exec_handshakeAnswer (s : State) : exec (.handshakeAnswer) s =
    s.tapeApply s.tape.waiting (fun t e => if e.boot.powered && e.flt.recovery != some .compute then t.answer e else t) := rfl

theorem exec_handshakeTimeout (s : State) : exec (.handshakeTimeout) s =
    s.tapeApply s.tape.waiting (fun t _ => t.unanswered) := rfl

theorem exec_tapePfwN (s : State) : exec (.tapePfwN) s =
    s.tapeApply true (fun t _ => t.powerFailing) := rfl

theorem exec_getIdentity (s : State) : exec (.getIdentity) s =
    s.tapeApply false (fun t _ => t.port (fun t =>
    t.reply (.bytes (fitTo 32 t.pub ++ leBytes 1 tapeRomVer ++ leBytes 1 t.sealed.toNat ++ leBytes 8 t.sealSeq)))) := rfl

theorem exec_getStatus (s : State) : exec (.getStatus) s =
    s.tapeApply false (fun t _ => t.port (fun t =>
    t.reply (.bytes (leBytes 4 t.status ++ leBytes 8 t.legal ++ leBytes 8 t.reverse ++ leBytes 8 (t.seq - 1))))) := rfl

theorem exec_readRecord (seq : Nat) (s : State) : exec (.readRecord seq) s =
    s.tapeApply false (fun t _ => t.port (fun t => t.reply (.bytes (t.recordOf seq)))) := rfl

theorem exec_challenge (nonce : List Byte) (s : State) : exec (.challenge nonce) s =
    s.tapeApply (s.tape.running && !s.tape.powerFail) (fun t _ => t.port (fun t =>
    if t.powerFail then t.reply .nack
    else
      let t := t.record 4 0 false (fitTo 32 nonce)
      ({ t with lastChallenge := t.recordOf (t.seq - 1) }).reply .ack)) := rfl

theorem exec_readChallenge (s : State) : exec (.readChallenge) s =
    s.tapeApply false (fun t _ => t.port (fun t =>
    t.reply (if t.lastChallenge.isEmpty then .nack else .bytes t.lastChallenge))) := rfl

theorem exec_getClient (client : Nat) (s : State) : exec (.getClient client) s =
    s.tapeApply false (fun t _ => t.port (fun t => t.reply (.bytes (leBytes 8 (KV.get 0 t.totals (client % 2 ^ 16)))))) := rfl

theorem exec_calibrate (vOfs vGain iOfs iGain : Nat) (s : State) : exec (.calibrate vOfs vGain iOfs iGain) s =
    s.tapeApply false (fun t _ => t.port (fun t =>
    if t.sealed then t.reply .nack
    else ({ t with vOfs := toSigned 32 vOfs, vGain := toSigned 32 vGain, iOfs := toSigned 32 iOfs
                   iGain := toSigned 32 iGain }).reply .ack)) := rfl

theorem exec_seal (s : State) : exec (.seal) s =
    s.tapeApply (s.tape.running && !s.tape.sealed) (fun t _ => t.port (fun t =>
    if t.sealed then t.reply .nack else t.sealNow.reply .ack)) := rfl

theorem exec_mmioRead (mgmt : Bool) (off : Nat) (wide : Bool) (s : State) : exec (.mmioRead mgmt off wide) s =
    s.onPower (fun _ e => if mgmt then e.mgmtRead else e.mmioRead off wide) := rfl

theorem exec_keySlotRevoked (keySlot : Nat) (s : State) : exec (.keySlotRevoked keySlot) s =
    s.onPower (fun _ e => e.revokeKey keySlot) := rfl

theorem exec_containmentCleared (bay dike : Option Nat) (s : State) : exec (.containmentCleared bay dike) s =
    s.onPower (fun m e => (e.clearContained bay dike).settle m) := rfl

theorem exec_timeRootDesignated (s : State) : exec (.timeRootDesignated) s =
    s.onPower (fun _ e => e.becomeRoot) := rfl

end Sys2Proof.Machine
end

