-- ==== Sys2Proof/Laws/Rows.lean ====
section
/-! SUPPORT. What carrying out a command can do, said once: the state it leaves, the queue and Tape it does not touch, HBM's
form it keeps. -/

namespace Sys2Proof.Machine

variable (s : State) (f : Mem → Eng → Eng)

/-- A command of the engine, once there is power, leaves what its work leaves. -/
theorem State.onPower_eq (h : s.eng.boot.powered = true) : s.onPower f = .next (s.leaves (f s.hbm s.work)) := by
  simp [State.onPower, State.apply, State.leaves, State.work, h]

/-- Before power-good a command of the engine changes nothing. -/
theorem State.onPower_off (h : s.eng.boot.powered = false) : s.onPower f = .next { s with eng := { s.eng with wlog := [] } } := by
  simp [State.onPower, State.apply, h, Eng.view]

theorem State.apply_next : ∃ t, s.apply f = .next t ∧ t.pending = s.pending ∧ t.tape = s.tape ∧ t.eng.wlog = [] := by
  simp [State.apply]

theorem State.onPower_next : ∃ t, s.onPower f = .next t ∧ t.pending = s.pending ∧ t.tape = s.tape ∧ t.eng.wlog = [] :=
  State.apply_next s _

theorem State.apply_wf (h : Mem.wf s.hbm = true) (t : State) (ht : s.apply f = .next t) : Mem.wf t.hbm = true := by
  simp only [State.apply, Host.Outcome.next.injEq] at ht
  subst ht
  exact Eng.view_wf _ _ h

/-- What carrying out any command is: work of the engine that waits for power-good, one of the three commands that do not,
or work of Tape. -/
theorem exec_shape (c : Instr) : (c.ofTape = false ∧ ∃ f, exec c s = s.onPower f) ∨
    (c.ofTape = false ∧ ((∃ r, c = .powerGood r) ∨ c = .spinePhaseDone ∨ c = .engPorstN) ∧ ∃ f, exec c s = s.apply f) ∨
    (c.ofTape = true ∧ ∃ b f, exec c s = s.tapeApply b f) :=
  match c with
  | .powerGood r => Or.inr (Or.inl ⟨rfl, Or.inl ⟨r, rfl⟩, _, exec_powerGood r s⟩)
  | .spinePhaseDone => Or.inr (Or.inl ⟨rfl, Or.inr (Or.inl rfl), _, exec_spinePhaseDone s⟩)
  | .waveRelease wave => Or.inl ⟨rfl, _, exec_waveRelease wave s⟩
  | .waveSelftestDone wave failedBays => Or.inl ⟨rfl, _, exec_waveSelftestDone wave failedBays s⟩
  | .linkTrained port up peerMin peerMax swred fixedOrder ownChip peerChip => Or.inl ⟨rfl, _, exec_linkTrained port up peerMin peerMax swred fixedOrder ownChip peerChip s⟩
  | .peerVersionLearned chip version => Or.inl ⟨rfl, _, exec_peerVersionLearned chip version s⟩
  | .linkStateChange port up => Or.inl ⟨rfl, _, exec_linkStateChange port up s⟩
  | .clockMissing island => Or.inl ⟨rfl, _, exec_clockMissing island s⟩
  | .engPorstN => Or.inr (Or.inl ⟨rfl, Or.inr (Or.inr rfl), _, exec_engPorstN s⟩)
  | .engCrstN => Or.inl ⟨rfl, _, exec_engCrstN s⟩
  | .tapePorstN pufOk => Or.inr (Or.inr ⟨rfl, _, _, exec_tapePorstN pufOk s⟩)
  | .load bcast => Or.inl ⟨rfl, _, exec_load bcast s⟩
  | .abort => Or.inl ⟨rfl, _, exec_abort s⟩
  | .localReadComplete => Or.inl ⟨rfl, _, exec_localReadComplete s⟩
  | .verifyDone => Or.inl ⟨rfl, _, exec_verifyDone s⟩
  | .applyDone => Or.inl ⟨rfl, _, exec_applyDone s⟩
  | .patternFrame src h payload => Or.inl ⟨rfl, _, exec_patternFrame src h payload s⟩
  | .frameTimeout => Or.inl ⟨rfl, _, exec_frameTimeout s⟩
  | .repairBitmap src missing => Or.inl ⟨rfl, _, exec_repairBitmap src missing s⟩
  | .repairRequest src seqs => Or.inl ⟨rfl, _, exec_repairRequest src seqs s⟩
  | .repairRoundTimeout => Or.inl ⟨rfl, _, exec_repairRoundTimeout s⟩
  | .stateReport chip st => Or.inl ⟨rfl, _, exec_stateReport chip st s⟩
  | .hallStatusTimeout => Or.inl ⟨rfl, _, exec_hallStatusTimeout s⟩
  | .stepBoundary slot => Or.inl ⟨rfl, _, exec_stepBoundary slot s⟩
  | .doorbell queue byteOff wide value => Or.inl ⟨rfl, _, exec_doorbell queue byteOff wide value s⟩
  | .descriptorFetch ring => Or.inl ⟨rfl, _, exec_descriptorFetch ring s⟩
  | .waitPoll ring idx => Or.inl ⟨rfl, _, exec_waitPoll ring idx s⟩
  | .dependencyReleased ring idx => Or.inl ⟨rfl, _, exec_dependencyReleased ring idx s⟩
  | .completionStall ring => Or.inl ⟨rfl, _, exec_completionStall ring s⟩
  | .cplHead slot value => Or.inl ⟨rfl, _, exec_cplHead slot value s⟩
  | .attach slot => Or.inl ⟨rfl, _, exec_attach slot s⟩
  | .detach slot => Or.inl ⟨rfl, _, exec_detach slot s⟩
  | .clearStop slot => Or.inl ⟨rfl, _, exec_clearStop slot s⟩
  | .memoryWriteAck => Or.inl ⟨rfl, _, exec_memoryWriteAck s⟩
  | .memoryReadReturn line stat retry what => Or.inl ⟨rfl, _, exec_memoryReadReturn line stat retry what s⟩
  | .nop ring idx => Or.inl ⟨rfl, _, exec_nop ring idx s⟩
  | .fence ring idx => Or.inl ⟨rfl, _, exec_fence ring idx s⟩
  | .cancel ring idx => Or.inl ⟨rfl, _, exec_cancel ring idx s⟩
  | .score ring idx => Or.inl ⟨rfl, _, exec_score ring idx s⟩
  | .route ring idx => Or.inl ⟨rfl, _, exec_route ring idx s⟩
  | .tileSelected ring idx tile => Or.inl ⟨rfl, _, exec_tileSelected ring idx tile s⟩
  | .tablePass table band mismatch checker wc line => Or.inl ⟨rfl, _, exec_tablePass table band mismatch checker wc line s⟩
  | .bidFrame port chunkId h recs rd => Or.inl ⟨rfl, _, exec_bidFrame port chunkId h recs rd s⟩
  | .grantFrame port chunkId h recs rd => Or.inl ⟨rfl, _, exec_grantFrame port chunkId h recs rd s⟩
  | .claimFrame port chunkId h recs rd => Or.inl ⟨rfl, _, exec_claimFrame port chunkId h recs rd s⟩
  | .reserveRetry slot step => Or.inl ⟨rfl, _, exec_reserveRetry slot step s⟩
  | .reserveTimeout slot step => Or.inl ⟨rfl, _, exec_reserveTimeout slot step s⟩
  | .pleatSortDone ring idx => Or.inl ⟨rfl, _, exec_pleatSortDone ring idx s⟩
  | .burstGrant => Or.inl ⟨rfl, _, exec_burstGrant s⟩
  | .dispatchChunk port h payload rd => Or.inl ⟨rfl, _, exec_dispatchChunk port h payload rd s⟩
  | .voidList port h payload rd => Or.inl ⟨rfl, _, exec_voidList port h payload rd s⟩
  | .returnChunk port h payload rd => Or.inl ⟨rfl, _, exec_returnChunk port h payload rd s⟩
  | .backwardDispatchChunk port h payload rd => Or.inl ⟨rfl, _, exec_backwardDispatchChunk port h payload rd s⟩
  | .backwardReturnChunk port h payload rd => Or.inl ⟨rfl, _, exec_backwardReturnChunk port h payload rd s⟩
  | .copyChunk port h payload rd => Or.inl ⟨rfl, _, exec_copyChunk port h payload rd s⟩
  | .ack chip ids => Or.inl ⟨rfl, _, exec_ack chip ids s⟩
  | .nak chip id => Or.inl ⟨rfl, _, exec_nak chip id s⟩
  | .ackTimeout entry => Or.inl ⟨rfl, _, exec_ackTimeout entry s⟩
  | .pathExclusionExpiry chip port => Or.inl ⟨rfl, _, exec_pathExclusionExpiry chip port s⟩
  | .ackCoalesceTimeout chip => Or.inl ⟨rfl, _, exec_ackCoalesceTimeout chip s⟩
  | .combine ring idx => Or.inl ⟨rfl, _, exec_combine ring idx s⟩
  | .ret ring idx => Or.inl ⟨rfl, _, exec_ret ring idx s⟩
  | .routeBwd ring idx => Or.inl ⟨rfl, _, exec_routeBwd ring idx s⟩
  | .returnBwd ring idx => Or.inl ⟨rfl, _, exec_returnBwd ring idx s⟩
  | .combineBwd ring idx => Or.inl ⟨rfl, _, exec_combineBwd ring idx s⟩
  | .copy ring idx => Or.inl ⟨rfl, _, exec_copy ring idx s⟩
  | .stepEnd ring idx => Or.inl ⟨rfl, _, exec_stepEnd ring idx s⟩
  | .tack ring idx => Or.inl ⟨rfl, _, exec_tack ring idx s⟩
  | .barrier ring idx => Or.inl ⟨rfl, _, exec_barrier ring idx s⟩
  | .admitSeq ring idx => Or.inl ⟨rfl, _, exec_admitSeq ring idx s⟩
  | .retire ring idx => Or.inl ⟨rfl, _, exec_retire ring idx s⟩
  | .release ring idx => Or.inl ⟨rfl, _, exec_release ring idx s⟩
  | .bcast ring idx => Or.inl ⟨rfl, _, exec_bcast ring idx s⟩
  | .reduce ring idx => Or.inl ⟨rfl, _, exec_reduce ring idx s⟩
  | .groupForm ring idx => Or.inl ⟨rfl, _, exec_groupForm ring idx s⟩
  | .groupReform ring idx => Or.inl ⟨rfl, _, exec_groupReform ring idx s⟩
  | .formUp port h payload => Or.inl ⟨rfl, _, exec_formUp port h payload s⟩
  | .formDown port h payload => Or.inl ⟨rfl, _, exec_formDown port h payload s⟩
  | .formTimeout group => Or.inl ⟨rfl, _, exec_formTimeout group s⟩
  | .countUp port h payload => Or.inl ⟨rfl, _, exec_countUp port h payload s⟩
  | .countDown port h payload => Or.inl ⟨rfl, _, exec_countDown port h payload s⟩
  | .bcastData port h payload rd => Or.inl ⟨rfl, _, exec_bcastData port h payload rd s⟩
  | .reduceData port h payload rd sumBad => Or.inl ⟨rfl, _, exec_reduceData port h payload rd sumBad s⟩
  | .factorData port h payload rd => Or.inl ⟨rfl, _, exec_factorData port h payload rd s⟩
  | .swRefused port h payload => Or.inl ⟨rfl, _, exec_swRefused port h payload s⟩
  | .collectiveAbort port h payload => Or.inl ⟨rfl, _, exec_collectiveAbort port h payload s⟩
  | .barrierUp port h payload => Or.inl ⟨rfl, _, exec_barrierUp port h payload s⟩
  | .barrierDown port h payload => Or.inl ⟨rfl, _, exec_barrierDown port h payload s⟩
  | .barrierRelease group bseq => Or.inl ⟨rfl, _, exec_barrierRelease group bseq s⟩
  | .tackNotice port h payload => Or.inl ⟨rfl, _, exec_tackNotice port h payload s⟩
  | .tackLatch => Or.inl ⟨rfl, _, exec_tackLatch s⟩
  | .syncTimer => Or.inl ⟨rfl, _, exec_syncTimer s⟩
  | .syncMessage msg at_ => Or.inl ⟨rfl, _, exec_syncMessage msg at_ s⟩
  | .syncTimeout => Or.inl ⟨rfl, _, exec_syncTimeout s⟩
  | .create slot id => Or.inl ⟨rfl, _, exec_create slot id s⟩
  | .createDone slot => Or.inl ⟨rfl, _, exec_createDone slot s⟩
  | .destroy slot => Or.inl ⟨rfl, _, exec_destroy slot s⟩
  | .destroyDone slot => Or.inl ⟨rfl, _, exec_destroyDone slot s⟩
  | .schDestroyId id => Or.inl ⟨rfl, _, exec_schDestroyId id s⟩
  | .park slot => Or.inl ⟨rfl, _, exec_park slot s⟩
  | .parkDone slot => Or.inl ⟨rfl, _, exec_parkDone slot s⟩
  | .unpark slot => Or.inl ⟨rfl, _, exec_unpark slot s⟩
  | .unparkDone slot => Or.inl ⟨rfl, _, exec_unparkDone slot s⟩
  | .evict slot => Or.inl ⟨rfl, _, exec_evict slot s⟩
  | .evictDone slot => Or.inl ⟨rfl, _, exec_evictDone slot s⟩
  | .quarantineEnd template => Or.inl ⟨rfl, _, exec_quarantineEnd template s⟩
  | .restore slot id => Or.inl ⟨rfl, _, exec_restore slot id s⟩
  | .restoreDone slot => Or.inl ⟨rfl, _, exec_restoreDone slot s⟩
  | .consent slot byteOff wide value => Or.inl ⟨rfl, _, exec_consent slot byteOff wide value s⟩
  | .consentTimeout slot => Or.inl ⟨rfl, _, exec_consentTimeout slot s⟩
  | .tideWindowStart => Or.inl ⟨rfl, _, exec_tideWindowStart s⟩
  | .tideWindowEnd overrunNs => Or.inl ⟨rfl, _, exec_tideWindowEnd overrunNs s⟩
  | .slowdownUpdate => Or.inl ⟨rfl, _, exec_slowdownUpdate s⟩
  | .engMode value => Or.inl ⟨rfl, _, exec_engMode value s⟩
  | .detSeed byteOff wide value => Or.inl ⟨rfl, _, exec_detSeed byteOff wide value s⟩
  | .bind => Or.inl ⟨rfl, _, exec_bind s⟩
  | .unbind => Or.inl ⟨rfl, _, exec_unbind s⟩
  | .invalidate => Or.inl ⟨rfl, _, exec_invalidate s⟩
  | .bindFillDone slot => Or.inl ⟨rfl, _, exec_bindFillDone slot s⟩
  | .wcmdPendExecute slot => Or.inl ⟨rfl, _, exec_wcmdPendExecute slot s⟩
  | .selBiasAddr byteOff wide value => Or.inl ⟨rfl, _, exec_selBiasAddr byteOff wide value s⟩
  | .biasZeroingDone slot => Or.inl ⟨rfl, _, exec_biasZeroingDone slot s⟩
  | .biasPendExecute slot => Or.inl ⟨rfl, _, exec_biasPendExecute slot s⟩
  | .hemDiagCmd value => Or.inl ⟨rfl, _, exec_hemDiagCmd value s⟩
  | .diagDone => Or.inl ⟨rfl, _, exec_diagDone s⟩
  | .tblScrub repaired differ half => Or.inl ⟨rfl, _, exec_tblScrub repaired differ half s⟩
  | .scrub cell stat again => Or.inl ⟨rfl, _, exec_scrub cell stat again s⟩
  | .sweepDone queue => Or.inl ⟨rfl, _, exec_sweepDone queue s⟩
  | .backpressureTimeout queue => Or.inl ⟨rfl, _, exec_backpressureTimeout queue s⟩
  | .mxRel handle count => Or.inl ⟨rfl, _, exec_mxRel handle count s⟩
  | .releaseMessage => Or.inl ⟨rfl, _, exec_releaseMessage s⟩
  | .bobInit => Or.inl ⟨rfl, _, exec_bobInit s⟩
  | .poolConfigWrite off wide value => Or.inl ⟨rfl, _, exec_poolConfigWrite off wide value s⟩
  | .initDone => Or.inl ⟨rfl, _, exec_initDone s⟩
  | .poolEmptyTimeout pool => Or.inl ⟨rfl, _, exec_poolEmptyTimeout pool s⟩
  | .laneMismatch quarter logical lane cycle => Or.inl ⟨rfl, _, exec_laneMismatch quarter logical lane cycle s⟩
  | .halfMismatch unit half => Or.inl ⟨rfl, _, exec_halfMismatch unit half s⟩
  | .gussetSubstitution => Or.inl ⟨rfl, _, exec_gussetSubstitution s⟩
  | .bayReset bay => Or.inl ⟨rfl, _, exec_bayReset bay s⟩
  | .bayResetDone bay passed => Or.inl ⟨rfl, _, exec_bayResetDone bay passed s⟩
  | .dikeReset dike => Or.inl ⟨rfl, _, exec_dikeReset dike s⟩
  | .dikeResetDone dike passed => Or.inl ⟨rfl, _, exec_dikeResetDone dike passed s⟩
  | .computeReset => Or.inl ⟨rfl, _, exec_computeReset s⟩
  | .computeResetDone passed => Or.inl ⟨rfl, _, exec_computeResetDone passed s⟩
  | .computeResetRequest => Or.inl ⟨rfl, _, exec_computeResetRequest s⟩
  | .bayResetRequest bay => Or.inl ⟨rfl, _, exec_bayResetRequest bay s⟩
  | .hold nseq chip => Or.inl ⟨rfl, _, exec_hold nseq chip s⟩
  | .resume nseq chip => Or.inl ⟨rfl, _, exec_resume nseq chip s⟩
  | .lost nseq chip => Or.inl ⟨rfl, _, exec_lost nseq chip s⟩
  | .clearNotice nseq chip => Or.inl ⟨rfl, _, exec_clearNotice nseq chip s⟩
  | .suspect nseq chip => Or.inl ⟨rfl, _, exec_suspect nseq chip s⟩
  | .probe src => Or.inl ⟨rfl, _, exec_probe src s⟩
  | .probeAnswer chip => Or.inl ⟨rfl, _, exec_probeAnswer chip s⟩
  | .probeTimeout chip => Or.inl ⟨rfl, _, exec_probeTimeout chip s⟩
  | .wakeTol value => Or.inl ⟨rfl, _, exec_wakeTol value s⟩
  | .idleTimeout => Or.inl ⟨rfl, _, exec_idleTimeout s⟩
  | .tideWake => Or.inl ⟨rfl, _, exec_tideWake s⟩
  | .powerEntryDone => Or.inl ⟨rfl, _, exec_powerEntryDone s⟩
  | .powerExitDone saveReadable => Or.inl ⟨rfl, _, exec_powerExitDone saveReadable s⟩
  | .engFunc value => Or.inl ⟨rfl, _, exec_engFunc value s⟩
  | .funcTransitionDone fn => Or.inl ⟨rfl, _, exec_funcTransitionDone fn s⟩
  | .gauBind byteOff wide value => Or.inl ⟨rfl, _, exec_gauBind byteOff wide value s⟩
  | .gauClear => Or.inl ⟨rfl, _, exec_gauClear s⟩
  | .gauClearAll => Or.inl ⟨rfl, _, exec_gauClearAll s⟩
  | .levelSample us => Or.inl ⟨rfl, _, exec_levelSample us s⟩
  | .evtHead value => Or.inl ⟨rfl, _, exec_evtHead value s⟩
  | .evtBase off wide value => Or.inl ⟨rfl, _, exec_evtBase off wide value s⟩
  | .managementAddress addr => Or.inl ⟨rfl, _, exec_managementAddress addr s⟩
  | .registerWrite mgmt off wide value => Or.inl ⟨rfl, _, exec_registerWrite mgmt off wide value s⟩
  | .senseFrame bits => Or.inr (Or.inr ⟨rfl, _, _, exec_senseFrame bits s⟩)
  | .periodClose => Or.inr (Or.inr ⟨rfl, _, _, exec_periodClose s⟩)
  | .handshakeAnswer => Or.inr (Or.inr ⟨rfl, _, _, exec_handshakeAnswer s⟩)
  | .handshakeTimeout => Or.inr (Or.inr ⟨rfl, _, _, exec_handshakeTimeout s⟩)
  | .tapePfwN => Or.inr (Or.inr ⟨rfl, _, _, exec_tapePfwN s⟩)
  | .getIdentity => Or.inr (Or.inr ⟨rfl, _, _, exec_getIdentity s⟩)
  | .getStatus => Or.inr (Or.inr ⟨rfl, _, _, exec_getStatus s⟩)
  | .readRecord seq => Or.inr (Or.inr ⟨rfl, _, _, exec_readRecord seq s⟩)
  | .challenge nonce => Or.inr (Or.inr ⟨rfl, _, _, exec_challenge nonce s⟩)
  | .readChallenge => Or.inr (Or.inr ⟨rfl, _, _, exec_readChallenge s⟩)
  | .getClient client => Or.inr (Or.inr ⟨rfl, _, _, exec_getClient client s⟩)
  | .calibrate vOfs vGain iOfs iGain => Or.inr (Or.inr ⟨rfl, _, _, exec_calibrate vOfs vGain iOfs iGain s⟩)
  | .seal => Or.inr (Or.inr ⟨rfl, _, _, exec_seal s⟩)
  | .mmioRead mgmt off wide => Or.inl ⟨rfl, _, exec_mmioRead mgmt off wide s⟩
  | .keySlotRevoked keySlot => Or.inl ⟨rfl, _, exec_keySlotRevoked keySlot s⟩
  | .containmentCleared bay dike => Or.inl ⟨rfl, _, exec_containmentCleared bay dike s⟩
  | .timeRootDesignated => Or.inl ⟨rfl, _, exec_timeRootDesignated s⟩

@[simp] theorem State.leaves_pending (e : Eng) : (s.leaves e).pending = s.pending := rfl
@[simp] theorem State.leaves_tape (e : Eng) : (s.leaves e).tape = s.tape := rfl
@[simp] theorem State.leaves_wlog (e : Eng) : (s.leaves e).eng.wlog = [] := rfl

/-- Where the Spool has found no fault in itself, a command leaves the engine as its work left it. -/
theorem State.leaves_clean (e : Eng) (h : e.spool.corrupt = false) :
    s.leaves e = { s with hbm := e.view s.hbm, eng := { e with wlog := [] } } := by
  simp [State.leaves, Eng.takeCorrupt, h]

@[simp] theorem State.work_wlog : s.work.wlog = [] := rfl

end Sys2Proof.Machine
end

