-- ==== Sys2Proof/Tests/Slice0.lean ====
section
/-! SUPPORT. Tests: ill-formed commands refused, one step of each family against the spec's own figures, and for each
statement with hypotheses a state and operands that meet them. -/

namespace Sys2Proof.Tests

open Sys2Proof Sys2Proof.Machine

set_option Elab.async false

/-- A powered engine in phase 3, changed by `f`. -/
def st (f : Eng → Eng) : State :=
  { State.reset with eng := f { State.reset.eng with boot := { State.reset.eng.boot with powered := true, phase := 3 } } }

/-- That engine. -/
def s0 : State := st id

/-- That engine with its loader changed. -/
def sl (f : Loader → Loader) : State := st (fun e => { e with loader := f e.loader })

/-- That engine with its bring-up record changed. -/
def sb (f : Boot → Boot) : State := st (fun e => { e with boot := f e.boot })

/-- That engine with fault control changed. -/
def sf (f : Flt → Flt) : State := st (fun e => { e with flt := f e.flt })

/-- That engine with its power state changed. -/
def sp (f : Pwr → Pwr) : State := st (fun e => { e with pwr := f e.pwr })

theorem test_s0_alert : s0.alert := by unfold State.alert State.on; and_intros <;> decide

/-! ### Witnesses: bring-up and links -/

theorem test_meets_StepRunsFrontCommand : ({ s0 with pending := [.bobInit] } : State).pending = Instr.bobInit :: [] ∧ s0.pending = [] := by decide

theorem test_meets_StepKeepsInv : State.reset.Inv ∧ step State.reset = .next State.reset.tick := by
  refine ⟨?_, rfl⟩; unfold State.Inv; and_intros <;> decide

theorem test_meets_TapeStandsApart : Instr.abort.ofTape = false ∧ Instr.seal.ofTape = true ∧
    ∃ t u, exec .abort State.reset = .next t ∧ exec .seal State.reset = .next u := ⟨by decide, by decide, _, _, rfl, rfl⟩

theorem test_meets_NothingBeforePower : State.reset.eng.boot.powered = false ∧ State.reset.eng.wlog = [] ∧ Instr.abort.ofTape = false ∧
    Instr.abort ≠ .engPorstN ∧ (∀ r, Instr.abort ≠ .powerGood r) ∧ ∃ t, exec .abort State.reset = .next t :=
  ⟨by decide, by decide, by decide, by decide, nofun, _, rfl⟩

theorem test_meets_PowerGoodThenVariantRecord : State.reset.eng.boot.powered = false ∧ s0.eng.boot.powered = true ∧
    (List.replicate 4 ({} : KeySlot)).length = 4 ∧ (1 < s0.eng.portCount ∧ 1 < s0.eng.ports.length) ∧
    s0.eng.boot.phase ≠ 1 ∧ (sb (fun b => { b with phase := 1 })).eng.boot.phase = 1 := by decide

theorem test_meets_WavesAreReleasedAndTested :
    (sb (fun b => { b with phase := 2, wavesReleased := [0] })).on ∧
    (sb (fun b => { b with phase := 2, wavesReleased := [0, 1, 2, 3, 4] })).on ∧
    (5 = (sb (fun b => { b with phase := 2, wavesReleased := [0, 1, 2, 3, 4] })).eng.boot.wavesReleased.length) ∧
    (sb (fun b => { b with wavesReleased := [0] })).eng.boot.wavesReleased.contains 0 = true ∧
    (sb (fun b => { b with wavesReleased := [0] })).eng.boot.wavesDone.contains 0 = false ∧
    (∀ b ∈ dikeBays 0, b ∉ [6, 35]) ∧ (∃ b ∈ dikeBays 0, b ∈ [5]) ∧
    (dikeBays 0).filter (fun b => [0, 1, 2, 3, 4, 5].contains b) = dikeBays 0 ∧
    (dikeBays 0).filter (fun b => [5].contains b) ≠ dikeBays 0 ∧ 35 ∈ dikeBays 5 := by
  unfold State.on; and_intros <;> decide

theorem test_meets_LinksRunAtTheirVersionsAndStates : s0.on ∧ s0.eng.boot.phase ≥ 2 ∧ s0.eng.portPresent 0 = true ∧
    s0.eng.portPresent 11 = true ∧ (s0.eng.port 0).link ≠ 2 ∧ max 2 4 ≤ min 4 15 ∧ min 4 1 < max 2 0 ∧
    s0.eng.portCfg 0 = none ∧ (7 ≠ s0.eng.chip) ∧
    ((st (fun e => e.setPort 0 (fun p => { p with link := 2, negVer := 4 }))).eng.port 0).link = 2 ∧
    ((st (fun e => e.setPort 0 (fun p => { p with link := 2, negVer := 4 }))).eng.port 0).negVer ≠ 0 ∧
    ((st (fun e => e.setPort 0 (fun p => { p with negVer := 4 }))).eng.port 0).link = 0 := by
  unfold State.on; and_intros <;> decide

theorem test_meets_ResetsAndLostClocks : s0.on ∧ s0.eng.flt.recovery = none ∧ s0.eng.pwr.trans = false ∧ s0.eng.pwr.cur = 0 ∧
    s0.eng.flt.queue = [] := by unfold State.on; and_intros <;> decide

/-! ### Witnesses: the Pattern loader -/

/-- An empty Pattern frame of image 7, frame 0 of 1, with its CRC. -/
def frame0 (flags : Nat) : PatHdr :=
  { patternId := 7, seq := 0, total := 1, plen := 0, fflags := flags
    crc := (crc32c (({ patternId := 7, seq := 0, total := 1, plen := 0, fflags := flags } : PatHdr).bytes28 ++ [])).toNat }

theorem test_meets_LoadsAreTakenAndWaitForBringUp : s0.alert ∧ (sl (fun l => { l with st := .verifying })).alert ∧
    (sl (fun l => { l with st := .applying })).eng.loader.st = .applying ∧ s0.eng.loader.st ≠ .verifying ∧ s0.eng.loader.st ≠ .applying ∧
    s0.eng.loader.reloadNeeded = false ∧ s0.eng.anyResident = false ∧
    (st (fun e => e.setPslot 15 (fun p => { p with st := .running }))).eng.anyResident = true ∧
    (st (fun e => e.setReg Reg.patLen 64)).eng.reg Reg.patLen = 64 ∧ (st (fun e => e.setReg Reg.patLen 16777216)).eng.reg Reg.patLen ≤ 16777216 ∧
    (st (fun e => e.setReg Reg.patLen 65)).eng.reg Reg.patLen % 64 ≠ 0 ∧ s0.eng.reg Reg.patLen < 64 ∧
    16777216 < (st (fun e => e.setReg Reg.patLen 16777280)).eng.reg Reg.patLen ∧
    (st (fun e => { e with loader := { e.loader with st := .receiving, localRead := true }
                           boot := { e.boot with wavesDone := [0, 1, 2, 3, 4, 5] }
                           ports := List.replicate 16 { link := 2 } })).eng.linksDone = true ∧
    (sb (fun b => { b with phase := 1 })).eng.linksDone = false := by
  unfold State.alert State.on; and_intros <;> decide

theorem test_meets_VerificationAndRevocation : s0.on ∧ s0.eng.loader.st ≠ .verifying ∧
    (sl (fun l => { l with st := .verifying })).eng.loader.st = .verifying ∧ s0.eng.loader.loadPend = false ∧
    (sl (fun l => { l with st := .verifying })).work.badFrames = [] ∧
    (st (fun e => { e with loader := { e.loader with st := .verifying, frames := [(0, [])] }, spool := { e.spool with bad := [e.areaCell 0 1] } })).work.badFrames ≠ [] ∧
    (∀ k, (sb (fun b => { b with keys := [{ key := zeros 32, occupied := true, revoked := true }] })).eng.boot.keys[rdLE [] 26 1]? = some k →
      k.revoked = true) := by
  unfold State.on; refine ⟨by decide, by decide, by decide, by decide, by decide, by decide, fun k h => ?_⟩
  have : some ({ key := zeros 32, occupied := true, revoked := true } : KeySlot) = some k := h
  cases this; rfl

theorem test_meets_ApplyPutsThePatternInForce : (sl (fun l => { l with st := .applying, staged := some {} })).on ∧
    (sl (fun l => { l with st := .applying, staged := some {} })).eng.loader.staged = some {} ∧ s0.eng.loader.st ≠ .applying ∧
    s0.eng.loader.loadPend = false ∧ s0.eng.loader.reload = false ∧ s0.eng.loader.reloadNeeded = false ∧
    (sl (fun l => { l with localRead := true })).eng.loader.localRead = true ∧ (st (fun e => e.setReg Reg.patKeep 4096)).eng.reg Reg.patKeep ≠ 0 := by unfold State.on; and_intros <;> decide

theorem test_meets_FramesAreHeldCountedOrDiscarded : s0.on ∧ (sb (fun b => { b with phase := 1 })).eng.boot.phase < 2 ∧
    (sl (fun l => { l with st := .incomplete })).eng.loader.st = .incomplete ∧ 2 ≤ s0.eng.boot.phase ∧ s0.eng.loader.st = .empty ∧
    ({ frame0 0 with crc := (frame0 0).crc + 1 } : PatHdr).crc ≠ (crc32c ((frame0 0).bytes28 ++ [])).toNat ∧
    (frame0 0).crc = (crc32c ((frame0 0).bytes28 ++ [])).toNat ∧
    (sl (fun l => { l with firstId := some 8 })).eng.loader.firstId = some 8 ∧ 8 ≠ (frame0 0).patternId ∧
    (sl (fun l => { l with firstId := some 7, total := 1 })).eng.loader.firstId = some (frame0 0).patternId ∧
    (frame0 0).total = (sl (fun l => { l with firstId := some 7, total := 1 })).eng.loader.total ∧
    (KV.find (sl (fun l => { l with frames := [(0, [])] })).eng.loader.frames 0).isSome = true ∧
    (sl (fun l => { l with sending := true, st := .applied })).eng.loader.sending = true ∧ (frame0 0).plen ≤ 4096 ∧
    s0.eng.loader.firstId = none ∧ s0.eng.loader.sending = false ∧ s0.eng.loader.localRead = false ∧ bit (frame0 0).fflags 0 = false ∧
    KV.find s0.eng.loader.frames 0 = none ∧ (frame0 0).seq < (frame0 0).total ∧ (frame0 0).total ≤ 4096 ∧
    ([] : List Byte).length = (frame0 0).plen ∧ (sb (fun b => { b with wavesDone := [0, 1, 2, 3, 4, 5] })).work.stages 0 = true := by
  unfold State.on; and_intros <;> decide +kernel

theorem test_meets_ReceptionEndsAndIsRepaired :
    (sl (fun l => { l with st := .receiving, firstId := some 7, total := 1 })).on ∧
    (frame0 1).total = (sl (fun l => { l with st := .receiving, firstId := some 7, total := 1 })).eng.loader.total ∧
    (frame0 1).crc = (crc32c ((frame0 1).bytes28 ++ [])).toNat ∧ bit (frame0 1).fflags 0 = true ∧
    s0.eng.loader.sending = false ∧ (0 < (sl (fun l => { l with st := .receiving, total := 1 })).eng.loader.total) ∧
    (sl (fun l => { l with st := .receiving, total := 1 })).eng.loader.missing ≠ [] ∧
    (sl (fun l => { l with st := .receiving, total := 1, frames := [(0, [])] })).eng.loader.missing = [] ∧
    (sl (fun l => { l with st := .repair, repairRound := 2 })).eng.loader.repairRound < 3 ∧
    (3 ≤ (sl (fun l => { l with st := .repair, repairRound := 3, total := 1 })).eng.loader.repairRound) ∧
    onlyBlocksMissing (sl (fun l => { l with st := .repair, repairRound := 3, total := 1 })).eng.loader.gathered
      (sl (fun l => { l with st := .repair, repairRound := 3, total := 1 })).eng.loader.missing = false ∧
    onlyBlocksMissing s0.eng.loader.gathered [] = true := by
  unfold State.on; and_intros <;> decide +kernel

theorem test_meets_LeadersServeAndCountReports : s0.on ∧ s0.work.leadsTray = true ∧
    (sb (fun b => { b with chipId := some 1 })).work.leadsTray = false ∧ (5 ≠ s0.eng.chip) ∧
    (∀ n ∈ [0], ((sl (fun l => { l with frames := [(0, [])] })).eng.loader.frame? n).isSome = true) ∧
    (sl (fun l => { l with hallClosed := false, hallOk := [3] })).eng.loader.hallOk.contains 3 = true ∧
    s0.eng.loader.rootTopo.hasTray 0 0 = false ∧ s0.eng.loader.hallClosed = true ∧
    (sl (fun l => { l with hallClosed := false, sending := false })).eng.loader.hallClosed = false ∧
    (sl (fun l => { l with sending := true })).eng.loader.sending = true ∧
    (sl (fun l => { l with staged := some { topo := { trayMask := [(0, 1)] } }, hallClosed := false })).eng.loader.rootTopo.hasTray
      (chipRack 15) (chipTray 15) = true := by
  unfold State.on; and_intros <;> decide

/-! ### Witnesses: rings, commands and scoring -/

/-- A template of the consent class with every resource it may need, and one of the reserved class. -/
def tmpl : Template :=
  { tclass := 0, slotBase := 0, slotCount := 4, queueBase := 0, queueCount := 64, cellQuota := 1000, bobQuota := List.replicate 8 1000
    shuttleMask := 0xFFFF, ringQuota := 16, prioCeil := 7, tflags := 0 }

/-- A flat, biased slot of one panel and width 256. -/
def cfg0 : SlotCfg :=
  { mode := 0x80, k := 2, kp := 0, alts := 0, wireFmt := 1, rowFmt := 1, dDiv := 1, fDiv := 1, panels := 1, freeboard := 64, rho := 0, rhidDiv := 0
    biasEta := 0, biasClamp := 0, wcBase := 0, wcSize := 12288, ecCap := 0 }

/-- A Pattern of one tray with that slot, with the consent class as template 0 and the reserved class as template 1. -/
def pat0 : Pattern :=
  { patternId := 1, major := 4, topo := { jobChips := 16, jobRacks := 1, trayMask := [(0, 1)] }, slots := [(0, cfg0)]
    templates := [(0, tmpl), (1, { tmpl with tclass := 1 })] }

/-- A descriptor of an opcode whose operands are the given bytes. -/
def desc (op : Nat) (ops : List Byte) : Desc := { opcode := op, fmt := 3, flags := 0, prio := 0, tag := 0, slot := 0, step := 0, ops := fitTo 40 ops }

/-- A command of ring 0 and polder 0 that has started. -/
def cmd (op : Nat) (ops : List Byte) : Cmd := { id := 0, ring := 0, idx := 0, polder := 0, rslot := 0, d := desc op ops, phase := .started }

/-- That Pattern applied, polder 0 running in slot 0 and polder 1 in slot 1 with ring 0 attached and a pool of 256 buffers for each size, layer slot 0
bound to an image at 4096 that is cached, its bias vector at 8192, and the given commands. -/
def run (cmds : List Cmd) (f : Eng → Eng) : State :=
  { st (fun e => f { (List.range 8).foldl (fun (e : Eng) p => (e.setReg (Reg.bobPoolBase p) (2 ^ 40 + p * 2 ^ 36)).setReg (Reg.bobPoolCount p) 256) e with
      pat := some pat0, slotCfg := pat0.slots, loader := { e.loader with st := .applied }, cmds := cmds, nextCmd := cmds.length
      pld := { e.pld with slots := [{ st := .running, polder := 0 }, { st := .running, polder := 1 }] ++ List.replicate 14 {} }
      bob := { e.bob with ready := true }
      spool := { e.spool with cfg := (List.range 7).map (fun q => (q, { qclass := q, quarter := 0, minCells := 1, maxCells := 64, ctCells := 1, qflags := 0 })) }
      rings := [(0, { st := .attached, owner := 0 })]
      lslots := [(0, { bound := true, boundAddr := 4096, cached := true, bias := 8192 })] }) with
    hbm := [(4102, 1), (4104, 1)] }

/-- One command that has started, on that engine. -/
def one (op : Nat) (ops : List Byte) : State := run [cmd op ops] id

/-- That engine with ring 0 changed. -/
def ring (f : Ring → Ring) : State := run [] (fun e => e.setRing 0 f)

theorem test_meets_DoorbellsAreCheckedInOrder : (ring id).on ∧ s0.on ∧ s0.eng.loader.st ≠ .applied ∧ (ring id).eng.loader.st = .applied ∧
    ((ring id).eng.ring 1).st = .detached ∧ ((ring id).eng.ring 0).win.queue ≠ 1 ∧ ((ring id).eng.ring 0).win.queue = 0 ∧
    ((ring id).eng.ring 0).st = .attached ∧ ((ring (fun g => { g with st := .stopped })).eng.ring 0).st = .stopped ∧
    toSigned 32 (idxSub 0 0) ≤ 0 ∧ 0 < toSigned 32 (idxSub 65536 0) ∧ idxSub 65536 0 ≤ 2 ^ ((ring id).eng.ring 0).win.ringLog ∧
    0 < toSigned 32 (idxSub 65537 0) ∧ 2 ^ ((ring id).eng.ring 0).win.ringLog < idxSub 65537 0 := by
  unfold State.on; and_intros <;> decide

theorem test_meets_HeadWritesAcceptOnlyWhatWasWritten : (ring id).window 0 0 ∧ (ring id).alert ∧
    0 ≤ toSigned 32 (idxSub 0 0) ∧ toSigned 32 (idxSub 0 0) ≤ toSigned 32 (idxSub ((ring id).eng.ring 0).ctail ((ring id).eng.ring 0).chead) ∧
    ¬ (toSigned 32 (idxSub 1 0) ≤ toSigned 32 (idxSub ((ring id).eng.ring 0).ctail ((ring id).eng.ring 0).chead)) ∧
    ¬ (0 ≤ toSigned 32 (idxSub 0xFFFFFFFF ((ring id).eng.reg Reg.evtHead))) ∧ (ring id).eng.reg Reg.evtTail = 0 := by
  unfold State.window State.alert State.on; and_intros <;> decide

theorem test_meets_FetchTakesAnnouncedDescriptors : (ring (fun g => { g with tail := 3 })).alert ∧
    (ring (fun g => { g with tail := 3 })).eng.loader.st = .applied ∧ ((ring (fun g => { g with tail := 3 })).eng.ring 0).st = .attached ∧
    (ring id).eng.slotOf ((ring id).eng.ring 0).owner = some 0 ∧ ((ring id).eng.pslot 0).st = .running ∧
    3 = min (idxSub ((ring (fun g => { g with tail := 3 })).eng.ring 0).tail 0) (4096 / descSize 0) ∧
    (KV.keys (ring (fun g => { g with tail := 3 })).eng.rings).Nodup ∧ (∀ kg ∈ (ring (fun g => { g with tail := 3 })).eng.rings, kg.2.head < 2 ^ 32) ∧
    (ring (fun g => { g with tail := 3 })).eng.queueRings ((ring (fun g => { g with tail := 3 })).eng.ring 0).win.queue = [(0, 3)] ∧
    (run [] (fun e => { e with rings := [(0, { st := .attached, owner := 0, tail := 3 }), (1, { st := .attached, owner := 0, tail := 1 })] })).eng.queueRings 0 =
      [(0, 3), (1, 1)] := by
  unfold State.alert State.on; and_intros <;> decide

/-- A held NOP, with an error of its own, or waiting for a word at 0. -/
def held (err : Option Nat) (flags wait : Nat) : Cmd :=
  { cmd opNop [] with phase := .held, err := err, d := { desc opNop [] with flags := flags, waitValue := wait } }

theorem test_meets_HeldCommandsStartWhenFree :
    (run [held none 0 0] id).on ∧ (run [held none 0 0] id).eng.openAt 0 0 = some 0 ∧ (run [held none 0 0] id).eng.cmd? 0 = some (held none 0 0) ∧
    (held none 0 0).d.wait = false ∧ (run [held none 0 0] id).work.startable (held none 0 0) = true ∧
    (run [held none 0 0] id).work.endsAtStart (held none 0 0) = none ∧
    (run [held (some stBad) 0 0] id).work.startable (held (some stBad) 0 0) = true ∧
    (run [held (some stBad) 0 0] id).work.endsAtStart (held (some stBad) 0 0) = some stBad ∧
    (run [held none 0 0] (fun e => e.setRing 0 (fun g => { g with st := .stopped }))).work.startable (held none 0 0) = false ∧
    (held none 8 1).d.wait = true ∧ (held none 8 1).waitOk = false ∧ (held none 8 1).done = false ∧ (held none 8 1).err = none ∧
    toSigned 32 (leNat (Mem.read (run [held none 8 1] id).hbm 0 4) + 2 ^ 32 - 1) < 0 ∧
    0 ≤ toSigned 32 (leNat (Mem.read (run [held none 8 0] id).hbm 0 4) + 2 ^ 32 - 0) ∧
    ((run [held none 8 0] id).work.setCmd 0 (fun _ => { held none 8 0 with waitOk := true })).startable { held none 8 0 with waitOk := true } = true ∧
    ((run [held none 8 0] id).work.setCmd 0 (fun _ => { held none 8 0 with waitOk := true })).endsAtStart { held none 8 0 with waitOk := true } = none ∧
    ((run [held none 10 0] id).work.setCmd 0 (fun _ => { held none 10 0 with waitOk := true, count := some 0 })).startable
      { held none 10 0 with waitOk := true, count := some 0 } = true ∧
    ((run [held none 10 0] id).work.setCmd 0 (fun _ => { held none 10 0 with waitOk := true, count := some 0 })).endsAtStart
      { held none 10 0 with waitOk := true, count := some 0 } = some stOk ∧
    (run [held none 0 0] (fun e => e.setRing 0 (fun g => { g with st := .stopped }))).work.unheld (held none 0 0) = false ∧
    (run [held none 0 0] (fun e => { e with spool := {} })).work.unheld (held none 0 0) = true ∧
    (run [held none 0 0] (fun e => { e with spool := {} })).work.startable (held none 0 0) = false := by
  unfold State.on; and_intros <;> decide

theorem test_meets_RingWindowsAttachDetachAndClear :
    (ring id).alert ∧ ((ring id).eng.pslot 0).st ≠ .empty ∧ ((ring id).eng.ring 0).st ≠ .draining ∧
    (ring id).work.attachCheck 0 0 {} = stVersion ∧ (ring (fun _ => {})).work.attachCheck 0 0 { cfg := 0x300, queue := 5 } = stOk ∧
    (ring id).window 0 0 ∧ (ring (fun g => { g with st := .draining })).window 0 0 ∧
    ((ring (fun g => { g with st := .draining })).eng.ring 0).st = .draining ∧ (ring (fun g => { g with st := .stopped })).window 0 0 ∧
    ((ring id).eng.ring 0).stalled = false ∧ ((ring (fun g => { g with stallAt := some 5 })).eng.ring 0).stallAt = some 5 ∧
    ((ring id).eng.ring 0).stallAt = none := by
  unfold State.window State.alert State.on; and_intros <;> decide

/-- A record to be written at 64 with one command of ring 0 open. -/
def wq (k : WqKind) : State := run [cmd opNop []] (fun e => { e with wq := [⟨k, 64, zeros 32⟩] })

theorem test_meets_MemoryAnswersAreTaken : (wq .line).on ∧ (wq .line).eng.wq = ⟨.line, 64, zeros 32⟩ :: [] ∧
    64 + (zeros 32).length ≤ memTop ∧ zeros 32 ≠ [] ∧ (wq .event).eng.wq = ⟨.event, 64, zeros 32⟩ :: [] ∧
    (wq (.headWb 0)).eng.wq = ⟨.headWb 0, 64, zeros 32⟩ :: [] ∧ (wq (.deferred 0 true)).eng.wq = ⟨.deferred 0 true, 64, zeros 32⟩ :: [] ∧
    KV.find (wq .line).eng.rings 0 = some { st := .attached, owner := 0 } ∧
    (wq (.completion 0 0 true)).eng.wq = ⟨.completion 0 0 true, 64, zeros 32⟩ :: [] ∧ (wq .line).eng.cmd? 0 = some (cmd opNop []) := by
  unfold State.on; and_intros <;> decide

/-- A line that no descriptor has bytes in, and the second announced descriptor of a ring. -/
theorem test_meets_MemoryAnswersAreTaken_reads : (ring id).on ∧ (∀ slot, ReadPurpose.deepSave ≠ .weight slot) ∧ (∀ n, ReadPurpose.deepSave ≠ .bobbin n) ∧
    ((ring (fun g => { g with tail := 2 })).eng.ring 0).st = .attached ∧ ((ring (fun g => { g with tail := 2 })).eng.ring 0).aheadOf 64 = some 1 ∧
    ((ring (fun g => { g with tail := 2 })).eng.ring 0).aheadOf 4096 = none ∧
    2047 < (ring id).eng.bufTotal ∧ ((ring id).eng.bentry 2047).retired = false ∧ (ring id).eng.slotPolder 0 = some 0 ∧
    (∀ c ∈ (ring id).eng.cmds, c.d.slot ≠ 0) := by
  refine ⟨by unfold State.on; decide, nofun, nofun, ?_⟩; and_intros <;> decide

theorem test_meets_NopFenceAndCancelComplete : (one opNop []).runs 0 0 opNop (cmd opNop []) ∧ (one opFence [1]).runs 0 0 opFence (cmd opFence [1]) ∧
    (run [{ cmd opCancel [] with phase := .held }] id).eng.cmdAt 0 0 opCancel = some { cmd opCancel [] with phase := .held } ∧
    ({ cmd opCancel [] with phase := .held } : Cmd).err = none ∧
    (run [{ cmd opCancel [] with phase := .held }] id).eng.polderRuns 0 = true ∧ (one opNop []).eng.flt.recovery ≠ some .compute := by
  unfold State.runs State.on; and_intros <;> decide

theorem test_meets_EveryEndQueuesOneRecord :
    (run [{ cmd opNop [] with slotHeld := true }] id).eng.cmd? 0 = some { cmd opNop [] with slotHeld := true } ∧
    (run [{ cmd opNop [] with done := true }] id).eng.cmd? 0 = some { cmd opNop [] with done := true } ∧
    (run [cmd opNop []] (fun e => e.setRing 0 (fun g => { g with ctail := 65536 }))).eng.cplFree 0 = 0 := by
  and_intros <;> decide

/-- A SCORE of one row at 64, written to 128. -/
def scoreOps : List Byte := leBytes 8 64 ++ leBytes 8 128 ++ leBytes 8 0 ++ leBytes 4 1

theorem test_meets_ScoreWritesOneRecordPerToken : (one opScore scoreOps).runs 0 0 opScore (cmd opScore scoreOps) ∧
    (∃ e, ((one opScore scoreOps).run (cmd opScore scoreOps)).imageCheck (one opScore scoreOps).hbm (cmd opScore scoreOps) = .ok e) ∧
    (∃ e, ((run [cmd opScore scoreOps] (fun e => { e with lslots := [] })).run (cmd opScore scoreOps)).imageCheck [] (cmd opScore scoreOps) =
      .fail stBad e) ∧
    (∃ e, ((run [cmd opScore scoreOps] (fun e => { e with flt := { e.flt with ctAbsent := [0, 1] } })).run (cmd opScore scoreOps)).imageCheck []
      (cmd opScore scoreOps) = .fault e) := by
  refine ⟨?_, ⟨_, rfl⟩, ⟨_, rfl⟩, ⟨_, rfl⟩⟩; unfold State.runs State.on; and_intros <;> decide

/-- A SCORE under way with the given number of tokens. -/
def scoring (n : Nat) : Cmd := { cmd opScore (leBytes 8 64 ++ leBytes 8 128 ++ leBytes 8 0 ++ leBytes 4 n) with phase := .running }

theorem test_meets_ScoreWritesOneRecordPerToken_tiles : (run [scoring 80] id).on ∧ (run [scoring 80] id).work.runningRoute 0 0 = none ∧
    (run [scoring 80] id).work.runningScore 0 0 = some (scoring 80) ∧ (run [scoring 80] id).eng.cmd? 0 = some (scoring 80) ∧
    tileTokens ((run [scoring 80] id).work.cfgOf 0) (scoring 80).tokens 1 ≠ [] ∧ (scoring 80).tilesDone.contains 1 = false ∧
    ((scoring 80).tilesDone.length + 1 < ceilDiv (scoring 80).tokens ((run [scoring 80] id).work.cfgOf 0).tile) ∧
    (run [scoring 1] id).work.runningScore 0 0 = some (scoring 1) ∧ tileTokens ((run [scoring 1] id).work.cfgOf 0) (scoring 1).tokens 0 ≠ [] ∧
    ceilDiv (scoring 1).tokens ((run [scoring 1] id).work.cfgOf 0).tile ≤ (scoring 1).tilesDone.length + 1 := by
  unfold State.on; and_intros <;> decide

/-- Whether an area was given. -/
def isGot : AreaAns → Bool
  | .got _ _ => true
  | _ => false

theorem got_of {x : AreaAns} (h : isGot x = true) : ∃ a e, x = .got a e := by
  cases x with
  | got a e => exact ⟨a, e, rfl⟩
  | quota => cases h
  | wait => cases h

theorem test_meets_RouteStartsItsRoles : (one opRoute scoreOps).runs 0 0 opRoute (cmd opRoute scoreOps) ∧
    ((one opRoute scoreOps).run (cmd opRoute scoreOps)).noChannels (cmd opRoute scoreOps) = false ∧
    ((run [cmd opRoute scoreOps] (fun e => { e with pat := none })).run (cmd opRoute scoreOps)).noChannels (cmd opRoute scoreOps) = true ∧
    ({ cmd opRoute scoreOps with count := some 0 } : Cmd).count = some 0 ∧ (cmd opRoute scoreOps).count ≠ some 0 ∧
    (∃ e, ((run [cmd opRoute scoreOps] (fun e => { e with lslots := [] })).run (cmd opRoute scoreOps)).imageCheck [] (cmd opRoute scoreOps) = .fail stBad e) ∧
    (∃ e, ((one opRoute scoreOps).run (cmd opRoute scoreOps)).imageCheck (one opRoute scoreOps).hbm (cmd opRoute scoreOps) = .ok e ∧
      (∀ w ∈ e.works, w.slot ≠ 0 ∨ w.step % 2 ≠ 0 ∨ w.cmd = 0) ∧ ∃ a e1, e.takeArea 0 0 (e.cfgOf 0) 1 false false = .got a e1) ∧
    (cmd opRoute scoreOps).tokens ≠ 0 ∧
    (match ((run [cmd opRoute scoreOps] (fun e => { e with bob := {} })).run (cmd opRoute scoreOps)).takeArea 0 0 cfg0 1 false false with
      | .wait _ => true
      | _ => false) = true := by
  refine ⟨by unfold State.runs State.on; and_intros <;> decide, by decide, by decide, by decide, by decide, ⟨_, rfl⟩, ?_, by decide, by decide +kernel⟩
  exact ⟨_, rfl, by decide, got_of (by decide +kernel)⟩

/-- A source role of 80 tokens at work for a ROUTE. -/
def source (ph : SrcPhase) : RouteWork :=
  { cmd := 0, polder := 0, slot := 0, step := 0, epoch := 0, detm := false, seed := 0, tag := 0, tokens := 80, rows := 64, mask := 0, routes := 128, phase := ph }

/-- That role on the engine. -/
def routing (ph : SrcPhase) : State := run [{ cmd opRoute scoreOps with phase := .running }] (fun e => { e with works := [source ph] })

theorem test_meets_TilesAreSelectedThenPleatsSorted : (routing .scoring).on ∧
    (routing .scoring).work.runningRoute 0 0 = some { cmd opRoute scoreOps with phase := .running } ∧
    (routing .scoring).eng.workById 0 = some (source .scoring) ∧ (source .scoring).tilesDone.contains 0 = false ∧
    tileTokens ((routing .scoring).work.cfgOf 0) 80 0 ≠ [] ∧ tileTokens ((routing .scoring).work.cfgOf 0) 80 1 ≠ [] ∧
    (source .scoring).sel.length + (tileTokens ((routing .scoring).work.cfgOf 0) 80 0).length < 80 ∧ (source .sorting).phase = .sorting := by
  unfold State.on; and_intros <;> decide

/-- The first pass of a running SCORE's first tile, its weights in the array, and those that follow in the shadow. -/
def passJob : PassJob := { cmd := 0, tile := 0, stage := 1, block := 0 }
def weights (seg : Nat) : CellWeights := { job := passJob, seg := seg, cols := [] }

theorem test_meets_PassesRunSegmentsAndFindFailingColumns_segments : ({} : Cells).stat = none ∧ ({ stat := some (weights 0) } : Cells).stat = some (weights 0) ∧
    (run [scoring 1] id).eng.cmd? (weights 0).job.cmd = some (scoring 1) ∧ (0 ∈ (run [scoring 1] id).eng.openRows (run [scoring 1] id).hbm (scoring 1) 0) ∧
    ((run [scoring 1] id).eng.scoreCtx (run [scoring 1] id).hbm (scoring 1) cfg0).lastSeg false passJob 0 = false ∧
    ((run [scoring 1] id).eng.scoreCtx (run [scoring 1] id).hbm (scoring 1) cfg0).lastSeg false passJob 100 = true ∧
    (0 ∈ (if (weights 0).job.stage = 2 then [(weights 0).job.token] else (run [scoring 1] id).eng.openRows (run [scoring 1] id).hbm (scoring 1) 0)) := by
  and_intros <;> decide

/-- Operands of two segments, in a format with block scales and in one without. -/
theorem test_meets_SegmentsAddUpToTheLogit : (0 ≤ 4) ∧ (64 ∣ 2 * segLen 0 false) ∧ (64 ∣ 4 * segLen 3 true) ∧
    (List.replicate (2 * segLen 0 false) fZero).length = 2 * segLen 0 false ∧ isMxW 0 = false ∧ isMxW 3 = true ∧
    (List.replicate (4 * segLen 3 true / 32) fZero).length = 4 * segLen 3 true / 32 := by
  and_intros <;> decide +kernel

theorem test_meets_PassesRunSegmentsAndFindFailingColumns : s0.on ∧ (sf (fun f => { f with ctAbsent := [1] })).eng.ctPresent 1 = false ∧
    s0.eng.ctPresent 1 = true ∧ bit ((st (fun e => e.setReg Reg.ctCtrl 0)).eng.reg Reg.ctCtrl) 1 = false ∧ bit ((st (fun e => e.setReg Reg.ctCtrl 2)).eng.reg Reg.ctCtrl) 1 = true ∧
    (0 < s0.eng.tables.length) ∧ (s0.eng.table 0).missed ≠ some ((s0.eng.table 0).passes % 64) ∧ (st (fun e => e.setReg Reg.ctColmap0 0)).eng.checker 0 = none ∧
    ((st (fun e => e.setTable 0 (fun k => { k with passes := 65, missed := some 1 }))).eng.table 0).missed =
      some (((st (fun e => e.setTable 0 (fun k => { k with passes := 65, missed := some 1 }))).eng.table 0).passes % 64) ∧
    (st (fun e => e.setReg Reg.ctCtrl 2)).eng.checker 0 = some 0 ∧ (st (fun e => e.setReg Reg.ctCtrl 2)).eng.sparesUsed 0 < 3 ∧
    (st (fun e => e.setReg Reg.ctCtrl 2)).eng.idleSpare 0 = some 1 ∧
    3 ≤ (st (fun e => (e.setReg Reg.ctCtrl 2).setReg Reg.ctColmap0 0x83828140)).eng.sparesUsed 0 := by
  unfold State.on; and_intros <;> decide

/-- A host role of expert 5 with one place taken of two. -/
def host : HostRole :=
  { slot := 0, step := 0, polder := 0, rslot := 0, cap := 2, detm := false, epoch := 0
    experts := [(1, { expert := 5, places := [{ src := 9, token := 1, rank := 0 }] })] }

theorem test_meets_HostsGrantAndReserve : (5 ∈ [5]) ∧ (5 ∉ ([6] : List Nat)) ∧ ({ host with closed := true } : HostRole).closed = true ∧
    ({ host with nomem := true } : HostRole).nomem = true ∧ ({ host with detm := true, reserving := true } : HostRole).detm = true ∧
    ((run [] (fun e => { e with roles := [{ host with bwdWanted := true }] })).eng.role 0 0).any (fun h => h.bwdWanted) = true ∧
    ((ring id).eng.role 0 0).any (fun h => h.bwdWanted) = false ∧ (∀ je ∈ host.experts, je.2.expert ≠ 6) ∧
    host.experts.find? (fun je => je.2.expert == 5) = some (1, { expert := 5, places := [{ src := 9, token := 1, rank := 0 }] }) ∧
    ([{ src := 9, token := 1, rank := 0 }] : List Place).findIdx? (fun p => p.src == 9 && p.token == 1 && p.rank == 0 && !p.void) = some 0 ∧
    ([{ src := 9, token := 1, rank := 0 }] : List Place).findIdx? (fun p => p.src == 9 && p.token == 2 && p.rank == 0 && !p.void) = none ∧
    host.nomem = false ∧ host.closed = false ∧ 1 < host.cap ∧ ({ host with cap := 1 } : HostRole).cap ≤ 1 ∧
    (ring id).work.unmet 0 0 = none ∧
    (run [] (fun e => { e with roles := [{ host with reserving := true }] })).work.unmet 0 0 = some { host with reserving := true } ∧
    ((run [] (fun e => { e with roles := [{ host with reserving := true }] })).work.tryReserve 0 0).1 = true ∧
    ((run [] (fun e => { e with roles := [{ host with reserving := true }], bob := {} })).work.tryReserve 0 0).1 = false ∧ host.detm = false := by
  and_intros <;> decide +kernel

/-! ### Witnesses: packets, chunks and bursts -/

/-- The header of a sound 0 B COPY chunk of polder 0 for chip 0, and one with another value in HCRC. -/
def hdr : ChunkHdr := { kind := 5, src := 9, dst := 0, pcrc := (crc32c []).toNat, hcrc := (crc32c ({ kind := 5, src := 9, dst := 0, pcrc := (crc32c []).toNat } : ChunkHdr).bytes60).toNat }
def badHdr : ChunkHdr := { hdr with hcrc := hdr.hcrc + 1 }

/-- That chunk in queue 0, of 8 words of which some are written and read. -/
def queued (h : ChunkHdr) (written read : Nat) (aborted : Bool) (rd : SpoolRead) : SPkt :=
  { id := 1, words := 8, written := written, read := read, aborted := aborted, item := .rx 0 (.chunk none h []), rd := rd }
def spooled (p : SPkt) : State :=
  run [] (fun e => { e.setQueue 0 (fun q => { q with cells := [2000], pkts := [p] }) with
    spool.cfg := [(0, { qclass := 0, quarter := 0, minCells := 1, maxCells := 64, ctCells := 1, qflags := 1 })] })

theorem test_meets_ArrivingPacketsAreQueued : (ring id).on ∧ (Instr.copyChunk none hdr [] .good).packet = some (.chunk none hdr [], .good, false) ∧
    (ring id).work.arrives (some 0) = false ∧ (ring id).work.arrives none = true ∧ (RxPkt.chunk none hdr []).dst = (ring id).eng.chip ∧
    (RxPkt.chunk none { hdr with dst := 3 } []).dst ≠ (ring id).eng.chip ∧ (ring id).eng.flt.recovery ≠ some .compute ∧
    (RxPkt.chunk none badHdr []).headerOk = false ∧ (RxPkt.chunk none hdr []).headerOk = true ∧
    (sp (fun p => { p with cur := 1 })).eng.pwr.cur ≠ 0 ∧ (ring id).eng.pwr.cur = 0 ∧ (ring id).eng.pwr.trans = false ∧
    (ring id).work.begun (.chunk none hdr []) = false ∧ (spooled (queued hdr 4 0 false .good)).work.begun (.chunk none hdr []) = true ∧
    (spooled (queued hdr 4 0 false .good)).work.arrives none = true ∧ s0.work.pktQueue (.chunk none hdr []) = none ∧ (ring id).work.pktQueue (.chunk none hdr []) = some 0 := by
  unfold State.on; and_intros <;> decide +kernel

theorem test_meets_ConsumersCheckThenAnswer :
    ((spooled (queued hdr 8 0 false .good)).eng.squeue 0).pkts.findIdx? (fun p => !p.kept && !p.leaves) = some 0 ∧
    ((spooled (queued hdr 8 0 false .good)).eng.squeue 0).pkts[0]? = some (queued hdr 8 0 false .good) ∧
    (queued hdr 8 0 false .good).item = .rx 0 (.chunk none hdr []) ∧ (queued hdr 4 0 true .good).aborted = true ∧
    (queued hdr 8 0 false .good).ended = true ∧ (queued hdr 4 0 false .good).ended = false ∧ 0 < 4 ∧
    (spooled (queued hdr 8 0 false .good)).eng.cutsThrough 0 8 (.chunk none hdr []) = true ∧
    (spooled (queued hdr 8 0 false .good)).eng.cutsThrough 1 8 (.chunk none hdr []) = false ∧
    (RxPkt.chunk none hdr []).sound = true ∧ (spooled (queued hdr 8 0 false .good)).eng.firstBad 0 0 (queued hdr 8 0 false .good) = none ∧
    (spooled (queued hdr 8 0 false (.badData 1))).eng.firstBad 0 0 (queued hdr 8 0 false (.badData 1)) = some (1, false) ∧
    (spooled (queued hdr 8 0 false (.badMeta 1))).eng.firstBad 0 0 (queued hdr 8 0 false (.badMeta 1)) = some (1, true) ∧
    ((spooled (queued hdr 8 0 false .good)).eng.setQueue 0 (fun q => { q with sweeping := true }) |>.squeue 0).sweeping = true ∧
    ((ring id).eng.squeue 0).sweeping = false ∧ (ring id).eng.pktReady (.chunk none hdr []) = true ∧
    (ring id).eng.pktReady (.chunk none { hdr with kind := 1 } []) = false ∧ hdr.kind ≠ 6 ∧ ({ hdr with plen := 1 } : ChunkHdr).plen ≠ ([] : List Byte).length ∧
    hdr.pcrc = (crc32c []).toNat ∧ hdr.plen = ([] : List Byte).length ∧ hdr.kind = 5 ∧ (KV.get ⟨[], 0⟩ s0.eng.acks 9).ids.length < 63 ∧
    63 ≤ (KV.get ⟨[], 0⟩ (st (fun e => { e with acks := [(9, ⟨List.replicate 63 1, 0⟩)] })).eng.acks 9).ids.length := by
  and_intros <;> decide +kernel

/-- The transfer table with one entry for chip 9, sent by port 2 after failures. -/
def entry (fails : KV Nat) (unsent : Bool) : TtEntry :=
  { cmd := 0, hdr := { hdr with src := 0, dst := 9 }, src := .copy 0, port := some 2, vc := 0, fails := fails, firstNs := 0, sentNs := 0, unsent := unsent }
def table (fails : KV Nat) (unsent : Bool) : State :=
  run [] (fun e => { e.setPort 2 (fun p => { p with link := 2 }) with tt := [(0, entry fails unsent)], excl := [⟨9, 3, 50⟩], acks := [(9, ⟨[1], 0⟩)] })

theorem test_meets_TransferTableFollowsAnswers : (table [] false).on ∧ (table [] false).work.ttNamed 9 1 = none ∧
    (table [] false).work.ttNamed 9 0 = some (0, entry [] false) ∧
    ((table [] false).work.failAttempt 0 (entry [] false)).1.fails.length < 3 ∧
    (((table [] false).work.failAttempt 0 (entry [] false)).1.fails.map (·.2)).sum < 8 ∧
    8 ≤ (((table [(2, 7)] false).work.failAttempt 0 (entry [(2, 7)] false)).1.fails.map (·.2)).sum ∧
    3 ≤ ((table [(0, 1), (1, 1)] false).work.failAttempt 0 (entry [(0, 1), (1, 1)] false)).1.fails.length ∧
    (entry [] false).hdr.dst ≠ (table [] false).eng.chip ∧ KV.find (table [] false).eng.tt 0 = some (entry [] false) ∧
    (entry [] true).unsent = true ∧ ((table [] false).eng.port 2).link = 2 ∧ KV.get 0 (entry [(2, 2)] false).fails 2 = 2 ∧
    (table [] false).eng.excl.any (fun x => x.chip == 9 && x.port == 2) = false ∧
    (table [] false).eng.excl.find? (fun x => x.chip == 9 && x.port == 3) = some ⟨9, 3, 50⟩ ∧
    KV.find (table [] false).eng.acks 9 = some ⟨[1], 0⟩ := by
  unfold State.on; and_intros <;> decide +kernel

/-- A channel with one job, granted as the arbiter's count stands. -/
def channel (job : Job) (count : Nat) : State := run [cmd opCopy []] (fun e => { e with chans := [(3, ⟨0, 0, 0, 1, [job], 0⟩)], arbCount := count })

theorem test_meets_BurstsMoveOnePagePart : (s0.eng.readFrom hdr (.bytes []) 0 = none) ∧
    (s0.eng.readFrom { hdr with plen := 64 } (.copy 64) 32 = some (96, 32, 1, 1)) ∧ (channel (.copy 4095 64 2) 15).work.arbitrate = some 3 ∧ (channel (.copy 4095 64 2) 0).work.arbitrate = some 3 ∧
    s0.work.arbitrate = none ∧ (channel (.copy 4095 64 2) 0).on ∧
    KV.find (channel (.copy 4095 64 2) 0).eng.chans 3 = some ⟨0, 0, 0, 1, [.copy 4095 64 2], 0⟩ ∧ 1 = min 2 (4096 - 4095 % 4096) ∧
    (channel (.chunk { hdr with plen := 64 } (.copy 0) 64) 0).work.arbitrate = some 3 ∧
    KV.find (channel (.chunk { hdr with plen := 64 } (.copy 0) 64) 0).eng.chans 3 = some ⟨0, 0, 0, 1, [.chunk { hdr with plen := 64 } (.copy 0) 64], 0⟩ := by
  unfold State.on; and_intros <;> decide +kernel

/-! ### Witnesses: combining, returns, copies, steps and tacks -/

/-- A source role that waits for its COMBINE or its backward path, with its areas. -/
def stepWork (fwd bwd : Bool) : RouteWork :=
  { source .sent with tokens := 1, area := { live := fwd }, bwdArea := { live := bwd } }

/-- That role beside one running command. -/
def combining (op : Nat) (fwd bwd : Bool) : State := run [cmd op []] (fun e => { e with works := [stepWork fwd bwd] })

theorem test_meets_CombineWritesTokenSums : (combining opCombine true false).runs 0 0 opCombine (cmd opCombine []) ∧
    (one opCombine []).eng.workOf 0 0 0 = none ∧ (combining opCombine true false).eng.workOf 0 0 0 = some (stepWork true false) ∧
    (combining opCombine true false).work.recordMatches (combining opCombine true false).hbm 0 (cmd opCombine []) = true ∧
    (combining opCombine true false).work.recordMatches [(4, 1)] 0 (cmd opCombine []) = false ∧ (stepWork true false).area.live = true ∧
    (stepWork false true).area.live = false ∧ (combining opCombineBwd true true).runs 0 0 opCombineBwd (cmd opCombineBwd []) ∧
    (stepWork true true).bwdArea.live = true ∧ (stepWork true true).superseded = false ∧ (stepWork true true).combineCmd = none ∧
    ({ stepWork true true with superseded := true } : RouteWork).superseded = true ∧
    (({ stepWork true true with combineCmd := some 0 } : RouteWork).combineCmd.bind (one opCombine []).eng.cmd? = some (cmd opCombine []) ∧
      (cmd opCombine []).done = false) ∧
    (∃ e, ((run [cmd opCombineBwd []] (fun e => { e with flt := { e.flt with ctAbsent := [0, 1] } })).run (cmd opCombineBwd [])).imageCheck []
      (cmd opCombineBwd []) = .fault e) ∧
    (∃ e, ((combining opCombineBwd true true).run (cmd opCombineBwd [])).imageCheck (one opNop []).hbm (cmd opCombineBwd []) = .ok e ∧
      (e.lslot 0).wgen = (stepWork true true).wgen ∧ (e.lslot 0).wgen ≠ ({ stepWork true true with wgen := 5 } : RouteWork).wgen) ∧
    (∃ e, ((combining opCombineBwd true true).run (cmd opCombineBwd [])).imageCheck [] (cmd opCombineBwd []) = .fail stBad e) ∧
    (run [{ cmd opCombine [] with phase := .running }] (fun e => { e with works := [{ stepWork true false with combineCmd := some 0 }] })).eng.workById 0 =
      some { stepWork true false with combineCmd := some 0 } ∧ (stepWork true false).combined = [] ∧
    ({ cmd opCombine [] with phase := .running } : Cmd).err = none ∧
    (run [{ cmd opCombine [] with phase := .running }] (fun e => { e with works := [{ stepWork true false with combineCmd := some 0 }] })).eng.workOf 0 0 0 =
      some { stepWork true false with combineCmd := some 0 } ∧
    (∀ t, t < 1 → (stepWork true false).tokenReady false t = true) := by
  refine ⟨by unfold State.runs State.on; and_intros <;> decide, by decide, by decide, by decide, by decide, by decide, by decide,
    by unfold State.runs State.on; and_intros <;> decide, by decide, by decide, by decide, by decide, by decide, ⟨_, rfl⟩, ⟨_, rfl, by decide, by decide⟩,
    ⟨_, rfl⟩, by decide, by decide, by decide, by decide, by decide⟩

/-- A host role of step 0 with rows of two sources, one landing place void, READY written. -/
def readyHost : HostRole :=
  { host with ready := true, bwdReady := true, experts := [(1, { expert := 5, places := [{ src := 9, token := 1, rank := 0 }, { src := 7, token := 1, rank := 0, void := true }] })] }

/-- That role with one running command on a channel. -/
def returning (op : Nat) (ops : List Byte) : State :=
  run [cmd op ops] (fun e => { e with roles := [readyHost], chans := [(3, ⟨0, 0, 0, 1, [], 0⟩)] })

theorem test_meets_ReturnsAndBackwardPleatsGoOut : (returning opReturn []).runs 0 0 opReturn (cmd opReturn []) ∧
    (returning opReturnBwd []).runs 0 0 opReturnBwd (cmd opReturnBwd []) ∧
    ((returning opReturn []).run (cmd opReturn [])).returnCheck (returning opReturn []).hbm (cmd opReturn []) false = (none, 0) ∧
    ((one opReturn []).run (cmd opReturn [])).returnCheck [] (cmd opReturn []) false = (some stBad, 0) ∧ stBad ≠ stAlign ∧
    ((returning opReturn (leBytes 8 0 ++ zeros 16 ++ leBytes 4 1)).run (cmd opReturn (leBytes 8 0 ++ zeros 16 ++ leBytes 4 1))).returnCheck
      [(8, 1), (80, 1)] (cmd opReturn (leBytes 8 0 ++ zeros 16 ++ leBytes 4 1)) false = (some stAlign, 1) ∧
    (returning opReturn []).eng.role 0 0 = some readyHost ∧ KV.find (returning opReturn []).eng.chans 3 = some ⟨0, 0, 0, 1, [], 0⟩ ∧
    (combining opRouteBwd true false).runs 0 0 opRouteBwd (cmd opRouteBwd []) ∧
    (combining opRouteBwd true false).work.recordMatches (one opNop []).hbm 0 (cmd opRouteBwd []) = true ∧
    (stepWork true false).bwdArea.live = false ∧ (stepWork true true).bwdArea.live = true ∧
    (∃ a e, ((combining opRouteBwd true false).run (cmd opRouteBwd [])).takeArea 0 0 cfg0 1 false true = .got a e) ∧
    (match ((run [cmd opRouteBwd []] (fun e => { e with bob := {} })).run (cmd opRouteBwd [])).takeArea 0 0 cfg0 1 false true with
      | .wait _ => true
      | _ => false) = true := by
  refine ⟨by unfold State.runs State.on; and_intros <;> decide, by unfold State.runs State.on; and_intros <;> decide, by decide, by decide, by decide,
    by decide, by decide, by decide, by unfold State.runs State.on; and_intros <;> decide, by decide, by decide, by decide,
    got_of (by decide +kernel), by decide +kernel⟩

/-- Operands of a COPY of 64 bytes from 0 to 4096, local or to chip 9. -/
def copyOps (remote : Nat) : List Byte := leBytes 8 0 ++ leBytes 8 4096 ++ leBytes 8 64 ++ leBytes 4 remote

/-- A step of slot 0 that STEP_END finds. -/
def stepping (op : Nat) (i : StepInfo) (roles : List HostRole) : State := run [cmd op []] (fun e => { e with
  lslots := [(0, { steps := [i] })], roles := roles })

theorem test_meets_CopiesAndStepEnds : (one opCopy (copyOps 0)).runs 0 0 opCopy (cmd opCopy (copyOps 0)) ∧ (cmd opCopy []).copyLen = 0 ∧
    (cmd opCopy (copyOps 0)).copyLen ≠ 0 ∧ (cmd opCopy (copyOps 0)).d.remote = false ∧ (cmd opCopy (copyOps 0x80000009)).d.remote = true ∧
    (sf (fun f => { f with lost := [some 9] })).eng.isLost 9 = true ∧ (ring id).eng.isLost 9 = false ∧ 0 < (ring id).work.chunkMax 9 ∧
    (stepping opStepEnd { step := 0 } []).runs 0 0 opStepEnd (cmd opStepEnd []) ∧
    (stepping opStepEnd { step := 0 } []).eng.stepInfo 0 0 = some { step := 0 } ∧ ({ step := 0, ended := true } : StepInfo).ended = true ∧
    (stepping opStepEnd { step := 0 } [host]).eng.role 0 0 = some host ∧ host.closed = false ∧ host.experts ≠ [] ∧
    (∀ h, (stepping opStepEnd { step := 0 } []).eng.role 0 0 = some h → h.closed = true) ∧
    ({ host with closed := true } : HostRole).closed = true := by
  refine ⟨by unfold State.runs State.on; and_intros <;> decide, by decide, by decide, by decide, by decide, by decide, by decide, by decide,
    by unfold State.runs State.on; and_intros <;> decide, by decide, by decide, by decide, by decide, by decide, ?_, by decide⟩
  intro h hh; cases hh

/-- Pending tacks on an engine with one running TACK of time 7. -/
def tacking (l : List Tack) : State := run [cmd opTack (leBytes 8 7)] (fun e => { e with tacks := l })

theorem test_meets_TacksLatchEveryCounter : (tacking []).runs 0 0 opTack (cmd opTack (leBytes 8 7)) ∧ (cmd opTack (leBytes 8 7)).d.scope ≠ 1 ∧
    (tacking [{ t := 7, scope := false }]).eng.tacks.any (fun k => k.t == (cmd opTack (leBytes 8 7)).d.a) = true ∧
    (tacking []).eng.tacks.any (fun k => k.t == 7) = false ∧ 8 ≤ (tacking (List.replicate 8 { t := 5, scope := false })).eng.tacks.length ∧
    (tacking [{ t := 5, scope := false }, { t := 9, scope := false }]).eng.tacks.Pairwise (fun a b => a.t ≤ b.t) ∧
    (tacking [{ t := 5, scope := false }]).eng.tacks = { t := 5, scope := false } :: [] ∧ ({ t := 5, scope := false } : Tack).due = false ∧
    (tacking [{ t := 5, scope := false, cmds := [0] }]).eng.cmd? 0 = some (cmd opTack (leBytes 8 7)) := by
  unfold State.runs State.on; and_intros <;> decide

/-! ### Witnesses: bobbins, tables and Spool -/

/-- Operands of an ADMIT of SEQ 5 that reserves n buffers of pool 0, of a command of the reserved class. -/
def admitCmd (n : Nat) : Cmd := { cmd opAdmit (leBytes 4 5 ++ zeros 4 ++ leBytes 2 n) with polder := 1 }

/-- A Pattern with a TIDE section, so that the reserved class exists, in polder 1's window. -/
def tidal (e : Eng) : Eng := { e with pat := some { pat0 with tidePeriod := 100 }, pld := { e.pld with window := some 1 } }

/-- An engine with one buffer in use, as the given entry. -/
def buffer (op : Nat) (ops : List Byte) (b : BEntry) : State := run [cmd op ops] (fun e => { e with bob := { e.bob with entries := [(3, b)] } })

theorem test_meets_ReservesAndReleasesAnswerTheirChecks : (run [admitCmd 1] tidal).runs 0 0 opAdmit (admitCmd 1) ∧
    (run [admitCmd 1] tidal).eng.reservedClass 1 = true ∧ (run [admitCmd 1] tidal).eng.reservedClass 0 = false ∧
    (∀ x ∈ (run [admitCmd 1] tidal).eng.bob.seqs.filter (fun x => x.polder == 1), x.seq ≠ 5) ∧
    (∀ p, p < 8 → (admitCmd 1).d.resv.getD p 0 ≤ (run [admitCmd 1] tidal).eng.bobQ 1 p) ∧ (run [admitCmd 1001] tidal).eng.bobQ 1 0 < (admitCmd 1001).d.resv.getD 0 0 ∧
    (one opRetire []).runs 0 0 opRetire (cmd opRetire []) ∧ (one opRelease []).runs 0 0 opRelease (cmd opRelease []) ∧
    (one opRelease []).eng.releaseRange 0 0 = none ∧ (one opRelease []).eng.releaseRange 2047 1 = none ∧
    (one opRelease []).eng.releaseRange 3 1 = some [3] ∧ field (2 ^ 26 + 3) 26 6 ≠ 0 ∧ field 3 26 6 = 0 ∧
    (buffer opRelease [] { st := .held, owner := 1, count := 1 }).eng.bentry 3 = { st := .held, owner := 1, count := 1 } ∧
    ((ring id).eng.bentry 4).st = .free ∧ 0 < ({ st := .held, owner := 1, count := 2 } : BEntry).count ∧
    (ring id).eng.bob.fifo.length < 256 ∧ 256 ≤ (run [] (fun e => { e with bob := { e.bob with fifo := List.replicate 256 (3, 1) } })).eng.bob.fifo.length ∧
    (run [] (fun e => { e with bob := { e.bob with fifo := [(3, 0)] } })).alert ∧
    (run [] (fun e => { e with bob := { e.bob with fifo := [(3, 0)] } })).eng.bob.fifo = (3, 0) :: [] := by
  unfold State.runs State.alert State.on; and_intros <;> decide +kernel

theorem test_meets_PoolsAreSetUpOnceNothingIsHeld : (buffer opNop [] { st := .held, count := 1 }).alert ∧ isPoolReg Reg.bobTable = true ∧
    isPoolReg (Reg.bobPoolBase 7) = true ∧ isPoolReg (Reg.bobPoolCount 7) = true ∧ isPoolReg (Reg.bobPoolCount 7 + 4) = false ∧
    true = isWide (Reg.bobPoolBase 0) ∧ false = isWide (Reg.bobPoolCount 0) ∧ (buffer opNop [] { st := .orphan, count := 1 }).eng.heldAny = true ∧
    (ring id).eng.heldAny = false ∧ (ring id).eng.configValid = true ∧ s0.eng.configValid = false ∧ s0.eng.bob.busy = false ∧
    (st (fun e => { e with bob := { e.bob with busy := true } })).eng.bob.busy = true ∧
    (run [cmd opRoute []] (fun e => { e with bob := { e.bob with waits := [⟨[7], .area 0, 0, 0, 0, 5, false⟩] } })).eng.bob.waits.find?
      (fun w => w.pools.contains 7 && !w.raised) = some ⟨[7], .area 0, 0, 0, 0, 5, false⟩ := by
  unfold State.alert State.on; and_intros <;> decide +kernel

theorem test_meets_PoolRegistersHoldFastAndStick : (ring id).alert ∧ isPoolReg (Reg.bobPoolCount 0) = true ∧ isPoolReg Reg.bobTable = true ∧
    false = isWide (Reg.bobPoolCount 0) ∧ (ring id).eng.heldAny = false ∧ (buffer opNop [] { st := .reserved }).eng.heldAny = true ∧
    (ring id).eng.flt.recovery ≠ some .compute := by
  unfold State.alert State.on; and_intros <;> decide +kernel

/-- A powered engine whose bank 47 is scrubbed, with its cell 48047 as the given queues hold it. -/
def scrubbed (cells : List Nat) : State :=
  st (fun e => { e with pat := some { pat0 with banks := [(47, ⟨768, 0, 1000⟩)] }, spool := { e.spool with queues := [(0, { cells := cells })] } })

theorem test_meets_TablesAndSpoolLookAfterThemselves : (st (fun e => { e with diag := some 1 })).alert ∧ s0.eng.diag = none ∧
    (sf (fun f => { f with hemAbsent := [0, 1] })).eng.hemPresent 0 = false ∧ (sf (fun f => { f with hemAbsent := [0, 1] })).eng.hemPresent 1 = false ∧
    9 < field 10 0 4 ∧ field 9 0 4 ≤ 9 ∧ bit 0x100 8 = true ∧ s0.eng.pat = none ∧ (ring id).eng.pat = some pat0 ∧ s0.eng.hemPresent 1 = true ∧
    (st (fun e => { e with diag := some 1 })).eng.diag = some 1 ∧ bit ((st (fun e => e.setReg Reg.hemCtrl 1)).eng.reg Reg.hemCtrl) 0 = true ∧
    ((st (fun e => { (e.setReg Reg.patKeep 4096) with loader := { e.loader with kept := true } })).work.bump Reg.hemTblErr 0 16 1).keptCopy = true ∧
    (s0.work.bump Reg.hemTblErr 0 16 1).keptCopy = false ∧ 1 ∉ s0.eng.flt.hemAbsent ∧
    (scrubbed []).on ∧ 47 = 48047 % 48 ∧ (scrubbed []).eng.bankPresent 47 = true ∧ (scrubbed []).eng.pwr.cur < 2 ∧
    KV.find ({ pat0 with banks := [(47, ⟨768, 0, 1000⟩)] } : Pattern).banks 47 = some ⟨768, 0, 1000⟩ ∧ 48047 ∉ (scrubbed []).eng.spool.retired ∧
    0 < ({ pool := 768, pinned := 0, scrubUs := 1000 } : BankCfg).scrubUs ∧
    (∀ r ∈ ((scrubbed []).eng.sbank 47).freed, (scrubbed []).eng.pinned 47 ≤ r ∧ r < ((scrubbed []).eng.sbank 47).fresh) ∧
    (∃ k, k < 48 ∧ (scrubbed []).eng.bankPresent k = true ∧ ((scrubbed []).eng.sbank k).scrubbed.length +
      ((scrubbed []).eng.spool.retired.filter (fun x => x % 48 == k)).length < 4095) ∧ 48047 ∉ (scrubbed []).eng.spool.faulty ∧
    (scrubbed [48047]).work.cellUsed 48047 = true ∧
    (scrubbed []).work.cellUsed 48047 = false ∧
    ((st (fun e => e.setQueue 8191 (fun q => { q with sweeping := true }))).eng.squeue 8191).sweeping = true ∧
    (st (fun e => { e with spool.held := [⟨none, 0, 0, .chunk none hdr [], .good, some { since := 5 }⟩] })).eng.spool.held.find? (fun h => h.queue == 0 &&
      h.wait.any (fun w => !w.told)) = some ⟨none, 0, 0, .chunk none hdr [], .good, some { since := 5 }⟩ ∧
    s0.eng.spool.held.find? (fun h => h.queue == 0 && h.wait.any (fun w => !w.told)) = none ∧ (s0.eng.squeue 0).wait = none ∧
    ((st (fun e => e.setQueue 0 (fun q => { q with wait := some { since := 5 } }))).eng.squeue 0).wait = some { since := 5 } ∧
    ({ since := 5 } : Wait).told = false ∧ ({ since := 5, told := true } : Wait).told = true := by
  refine ⟨by unfold State.alert State.on; decide, ?_⟩
  unfold State.on; and_intros
  all_goals first | decide +kernel | exact ⟨0, by decide +kernel⟩

/-- The banks of the Spool lose no cell to retirement on a fresh engine. -/
theorem test_meets_scrub_banks : ∀ k, ((scrubbed []).eng.sbank k).retired < 255 := by
  intro k; by_cases h : k < 48
  · have : ∀ k, k < 48 → ((scrubbed []).eng.sbank k).retired < 255 := by decide
    exact this k h
  · simp only [Eng.sbank, scrubbed, st, State.reset, List.getD_eq_getElem?_getD]
    rw [List.getElem?_eq_none (by simp; omega)]; decide

/-! ### Witnesses: collectives, time, polders and steps -/

/-- A formed group of chips 0 and 9, in epoch 1, on an engine with one running command. -/
def formed : Group := { st := .formed, epoch := 1, members := [0, 9] }
def grouped (op : Nat) (ops : List Byte) (g : Group) : State := run [cmd op ops] (fun e => { e with groups := [(0, g)] })

/-- GROUP_FORM of the two members at 64; BCAST and REDUCE of 64 bytes at 0; BARRIER of group 0 or of the job. -/
def formOps : List Byte := leBytes 8 64 ++ leBytes 4 2 ++ leBytes 1 0
def reformOps (n epoch : Nat) : List Byte := leBytes 8 64 ++ leBytes 4 n ++ leBytes 2 0 ++ leBytes 2 epoch
def collOps (dtype root : Nat) : List Byte := leBytes 8 0 ++ leBytes 8 64 ++ leBytes 1 0 ++ leBytes 1 dtype ++ leBytes 2 1 ++ leBytes 4 root
def barOps (g epoch : Nat) : List Byte := leBytes 1 g ++ leBytes 1 0 ++ leBytes 2 epoch

theorem test_meets_GroupsFormAndReform : (one opGroupForm formOps).runs 0 0 opGroupForm (cmd opGroupForm formOps) ∧
    ((one opGroupForm formOps).run (cmd opGroupForm formOps)).chipList [(66, 2)] 64 2 = none ∧
    ((one opGroupForm formOps).run (cmd opGroupForm formOps)).chipList [(68, 9)] 64 2 = some [0, 9] ∧ ascending [0, 9] = true ∧ ascending [9, 0] = false ∧
    (one opGroupForm formOps).eng.chip ∈ [0, 9] ∧ (one opGroupForm formOps).eng.chip ∉ [1, 2] ∧
    (∀ x ∈ [0, 9], (one opGroupForm formOps).eng.topo.hasTray (chipRack x) (chipTray x) = true) ∧
    (one opGroupForm formOps).eng.topo.hasTray (chipRack 16) (chipTray 16) = false ∧ ((one opGroupForm formOps).eng.group 0).st = .unformed ∧
    (grouped opGroupReform (reformOps 1 1) formed).runs 0 0 opGroupReform (cmd opGroupReform (reformOps 1 1)) ∧
    (grouped opGroupReform (reformOps 1 1) formed).eng.group (cmd opGroupReform (reformOps 1 1)).d.group = formed ∧
    ({ formed with owner := 3 } : Group).owner ≠ 0 ∧ formed.epoch = (cmd opGroupReform (reformOps 1 1)).d.groupEpoch ∧
    formed.epoch ≠ (cmd opGroupReform (reformOps 1 2)).d.groupEpoch ∧ ({ formed with st := .forming } : Group).st ≠ .formed ∧
    ((grouped opGroupReform (reformOps 1 1) formed).run (cmd opGroupReform (reformOps 1 1))).chipList [(64, 5)] 64 1 = some [5] ∧
    2 ≤ (formed.members.filter (fun x => !([5].contains x))).length ∧ (formed.members.filter (fun x => !([9].contains x))).length < 2 ∧
    (one opGroupForm formOps).eng.marked 64 8 = true ∧ (run [] (fun e => { e with acts := [(0, 4096)] })).eng.marked 64 8 = false ∧
    (∃ o : CollOp, ({ formed with ops := [o] } : Group).ops ≠ []) ∧ formed.ops = [] ∧ (grouped opNop [] formed).eng.chip ∉ [5] ∧ (grouped opNop [] formed).eng.chip ∈ [0] ∧
    ((grouped opNop [] { formed with st := .forming, form := some ⟨0, 0, 0, false, [], false⟩ }).eng.group 0).form = some ⟨0, 0, 0, false, [], false⟩ ∧
    (grouped opNop [] { formed with st := .reforming, form := some ⟨0, 0, 0, false, [], false⟩ }).on := by
  unfold State.runs State.on; and_intros
  all_goals first | decide +kernel | exact ⟨{ seq := 0, cmd := 0, reduce := false, dtype := 0, root := 0, buf := 0, out := 0, len := 0, detm := false, polder := 0 }, by decide⟩

theorem test_meets_CollectivesAndBarriersTakeTheirNumbers : (grouped opBcast (collOps 0 1) formed).runs 0 0 opBcast (cmd opBcast (collOps 0 1)) ∧
    (grouped opReduce (collOps 2 1) formed).runs 0 0 opReduce (cmd opReduce (collOps 2 1)) ∧
    (grouped opBcast (collOps 0 1) formed).eng.group (cmd opBcast (collOps 0 1)).d.group = formed ∧ formed.owner = 0 ∧ formed.st = .formed ∧
    ({ formed with owner := 3 } : Group).owner ≠ 0 ∧ formed.epoch = (cmd opBcast (collOps 0 1)).d.groupEpoch ∧
    ({ formed with epoch := 2 } : Group).epoch ≠ (cmd opBcast (collOps 0 1)).d.groupEpoch ∧ (cmd opBcast (collOps 0 1)).d.root < formed.members.length ∧
    formed.members.length ≤ (cmd opBcast (collOps 0 2)).d.root ∧ (cmd opBcast (collOps 0 1)).count.getD (cmd opBcast (collOps 0 1)).d.len % 64 = 0 ∧
    ({ cmd opBcast (collOps 0 1) with count := some 65 } : Cmd).count.getD 0 % 64 ≠ 0 ∧ (cmd opReduce (collOps 2 1)).d.dtype = 2 ∧ formed.factorOk = false ∧
    (cmd opReduce (collOps 0 1)).d.dtype ≠ 2 ∧ ({ formed with factorOk := true } : Group).factorOk = true ∧
    (grouped opReduce (collOps 2 1) formed).work.factorLenBad (grouped opReduce (collOps 2 1) formed).hbm 0 64 = false ∧
    (grouped opBarrier (barOps 0 1) formed).runs 0 0 opBarrier (cmd opBarrier (barOps 0 1)) ∧ (cmd opBarrier (barOps 255 1)).d.group = 255 ∧
    (cmd opBarrier (barOps 255 1)).d.groupEpoch ≠ 0 ∧ (cmd opBarrier (barOps 0 1)).d.group ≠ 255 ∧
    ({ cmd opBarrier (barOps 0 1) with bseq := some 4 } : Cmd).bseq = some 4 ∧ (∀ b ∈ formed.barriers, b.bseq ≠ 4) ∧
    ((grouped opBarrier (barOps 0 1) { formed with barriers := [{ bseq := 4, cmd := 0, trel := some 50 }] }).eng.group 0).barriers.find? (fun b => b.bseq == 4) =
      some { bseq := 4, cmd := 0, trel := some 50 } ∧ (grouped opBarrier (barOps 0 1) formed).eng.cmd? 0 = some (cmd opBarrier (barOps 0 1)) ∧
    (cmd opBarrier (barOps 0 1)).done = false := by
  unfold State.runs State.on; and_intros <;> decide +kernel

/-- The header of a sound ABORT of group 0. -/
def abortHdr : ChunkHdr :=
  let h : ChunkHdr := { kind := 6, op := 8, epoch := 1, src := 9, dst := 0, pcrc := (crc32c []).toNat }
  { h with hcrc := (crc32c h.bytes60).toNat }

theorem test_meets_ControlMessagesAreCheckedThenTaken : (Instr.collectiveAbort none abortHdr ⟨[], .good⟩).message = some (none, abortHdr, []) ∧
    (Instr.tackNotice none { abortHdr with op := 12 } ⟨[], .good⟩).message = some (none, { abortHdr with op := 12 }, []) ∧
    ChunkHdr.isControl abortHdr = true ∧ abortHdr.plen ≠ [0].length ∧ abortHdr.pcrc ≠ (crc32c [0]).toNat ∧ abortHdr.pcrc = (crc32c []).toNat ∧
    abortHdr.plen = ([] : List Byte).length ∧ abortHdr.epoch = ((grouped opNop [] formed).eng.group abortHdr.slot).epoch ∧
    ((grouped opNop [] formed).eng.group abortHdr.slot).st = .formed ∧
    ({ abortHdr with epoch := 2 } : ChunkHdr).epoch ≠ ((grouped opNop [] formed).eng.group abortHdr.slot).epoch ∧
    olderEpoch 2 1 = true ∧ olderEpoch 1 2 = false ∧ (1 ≠ 2) ∧ ({ abortHdr with op := 6 } : ChunkHdr).op = 6 ∧
    ({ formed with st := .reforming, form := some ⟨0, 0, 0, false, [], false⟩ } : Group).form = some ⟨0, 0, 0, false, [], false⟩ ∧
    rdLE (zeros 10) 9 1 = 0 := by
  and_intros <;> decide +kernel

/-- A chip that has asked chip 0 for the time at t1 = 5. -/
def child (c : Nat) : State := st (fun e => { e with boot := { e.boot with chipId := some c }, time := { e.time with asked := some (0, 5) } })

/-- A chip that is not the time root has a time parent. -/
theorem test_meets_timeParent : ∃ c p, (child c).on ∧ (child c).work.timeParent = some p := by
  have key : ∀ c, Config.timeRootChip.toNat ≠ c → ∃ p, (child c).work.timeParent = some p := fun c h => by
    have hs : ((child c).work.timeParent).isSome = true := by
      show (List.find? (fun x => x != c) _).isSome = true
      rw [List.find?_isSome]
      exact ⟨Config.timeRootChip.toNat, by simp, by simpa using h⟩
    exact Option.isSome_iff_exists.mp hs
  by_cases h : Config.timeRootChip.toNat = 1
  · obtain ⟨p, hp⟩ := key 2 (by omega)
    exact ⟨2, p, by unfold State.on; decide, hp⟩
  · obtain ⟨p, hp⟩ := key 1 h
    exact ⟨1, p, by unfold State.on; decide, hp⟩

theorem test_meets_HallTimeAndPromises : (child 1).on ∧
    (st (fun e => { e with time := { e.time with root := true } })).work.timeParent = none ∧ ({ peer := 0, reply := true } : SyncMsg).reply = true ∧
    ({ peer := 0, reply := false } : SyncMsg).reply = false ∧ (child 1).eng.time.asked = some (0, 5) ∧ (child 1).eng.time.asked ≠ some (0, 6) ∧
    s0.alert ∧ bit 0 0 = s0.eng.detm ∧ bit 1 0 ≠ s0.eng.detm ∧ halfOk 4 false 7 = true ∧ halfOk 0 true (2 ^ 64 - 1) = true ∧
    (s0.eng.pslot s0.eng.seedSlot).st = .empty ∧ ((ring id).eng.pslot (ring id).eng.seedSlot).st ≠ .empty ∧ (ring id).alert ∧
    BitVec.ofNat 64 (mergeHalf ((ring id).eng.pslot 0).seed.toNat 4 false 7) ≠ ((ring id).eng.pslot 0).seed := by
  unfold State.alert State.on; and_intros <;> decide

/-- Polder 0's slot in a state, with a latched command. -/
def slot (ps : PldState) (pend : Option (Nat × Nat)) : State := run [] (fun e => e.setPslot 0 (fun p => { p with st := ps, pend := pend }))

/-- Polder 1 evicted, its slot empty, as chapter 13 keeps it. -/
def away : Evicted :=
  { polder := 1, save := 4096, client := 0, seed := 0, incarnation := 0, acc := {}, ringSel := 0, wins := [], results := [], fault := 0, faultTag := 0
    consentErr := 0, saveNeed := 0, rings := [], cmds := [], queues := [], slots := [], piece := none, cfgs := [], maps := [] }
def evicted (ps : PldState) : State := run [] (fun e => e.setPslot 1 (fun p => { p with st := ps, polder := 1 }) |>.setPslot 0 (fun p => p) |> (fun e =>
  { e with pld := { e.pld with evicted := [away] } }))

theorem test_meets_SlotCommandsAreTakenLatchedOrRefused : (slot .running none).alert ∧ ((slot .running none).eng.pslot 0).st.target = .running ∧
    pcApplies pcUnpark .running = false ∧ ((slot .running none).eng.pslot 0).pend = none ∧ pcEffect pcUnpark = .running ∧
    ((slot .running (some (pcPark, 0))).eng.pslot 0).pend ≠ none ∧ (slot .creating none).alert ∧ PldState.creating.target ≠ .creating ∧
    pcApplies pcPark PldState.creating.target = true ∧ pcApplies pcUnpark PldState.creating.target = false ∧
    ((slot .parked none).eng.pslot 0).st = .parked ∧ (slot .parked none).eng.pld.slots.length = 16 ∧
    ((slot .parked none).work.setPslot 0 (fun q => { q with pend := none })).quiet 0 = true ∧
    ((run [] (fun e => { e with roles := [host] })).work.setPslot 0 (fun q => { q with pend := none })).quiet 0 = false ∧
    ((slot .empty none).eng.pslot 0).st = .empty ∧
    ((slot .empty none).work.setPslot 0 (fun q => { q with pend := none })).appliedTemplate 9 = none ∧
    ((slot .empty none).work.setPslot 0 (fun q => { q with pend := none })).appliedTemplate 0 = some tmpl ∧
    ((slot .empty none).work.setPslot 0 (fun q => { q with pend := none })).idLive 0 pcCreate 1 = true ∧
    ((slot .empty none).work.setPslot 0 (fun q => { q with pend := none })).idLive 0 pcCreate 0 = false ∧
    ((slot .empty none).work.setPslot 0 (fun q => { q with pend := none })).idLive 0 pcRestore 0 = true ∧
    ((evicted .empty).work.setPslot 1 (fun q => { q with pend := none })).idLive 1 pcRestore 1 = false ∧
    ((evicted .empty).work.setPslot 1 (fun q => { q with pend := none })).idWaits 1 1 = false ∧
    ((slot .empty none).work.setPslot 0 (fun q => { q with pend := none })).idWaits 0 17 = true ∧
    ((slot .empty none).work.setPslot 0 (fun q => { q with pend := none })).idWaits 0 0 = false ∧ ((slot .empty none).eng.pslot 0).stagePlen = 0 ∧
    (4096 % 4096 = 0 ∧ 4096 ≠ 0) ∧ (slot .empty none).eng.marked 4096 1 = true ∧
    (run [] (fun e => { e with acts := [(0, 8192)] })).eng.marked 4096 1 = false ∧ (evicted .empty).eng.slotOf 1 = none ∧
    (ring id).eng.slotOf 1 ≠ none ∧ (evicted .empty).alert ∧ (evicted .empty).eng.evicted? 1 = some away ∧ (slot .empty none).eng.evicted? 1 = none := by
  unfold State.alert State.on; and_intros <;> decide +kernel

theorem test_meets_SlotTransitionsEndInTheirState : (slot .creating none).on ∧ ((slot .creating none).eng.pslot 0).st = .creating ∧
    ((slot .creating none).eng.pslot 0).st ≠ .parking ∧ (slot .creating none).eng.pld.slots.length = 16 ∧ (slot .creating none).eng.pat = some pat0 ∧
    (slot .creating none).eng.template 0 = some tmpl ∧ KV.find (slot .creating none).eng.pld.pieces 0 = none ∧
    ((slot .destroying none).eng.pslot 0).st = .destroying ∧ ((slot .parking none).eng.pslot 0).st = .parking ∧
    ((slot .unparking none).eng.pslot 0).st = .unparking ∧ ((slot .evicting none).eng.pslot 0).st = .evicting ∧
    ((evicted .restoring).eng.pslot 1).st = .restoring ∧ (evicted .restoring).eng.template 1 = some { tmpl with tclass := 1 } ∧
    (evicted .restoring).eng.evicted? ((evicted .restoring).eng.pslot 1).polder = some away ∧
    s0.eng.pld.quarantine.all (fun q => q.1 != 3) = true ∧
    (st (fun e => { e with pld := { e.pld with quarantine := [(3, 50)] } })).eng.pld.quarantine.find? (fun q => q.1 == 3) = some (3, 50) := by
  unfold State.on; and_intros <;> decide +kernel

/-- An ended step of polder p on slot 0, with its edit list at 0x10000 and the bias vector b. -/
def ended (p b : Nat) (i : StepInfo) (m : Mem) : State :=
  { run [] (fun e => { tidal e with lslots := [(0, { bias := b, steps := [{ i with polder := p, ended := true }] })] }) with hbm := m }

theorem test_meets_StepBoundariesApplyWhatWaited : (ended 1 0 { step := 0 } []).on ∧
    ((ended 1 0 { step := 0 } []).eng.lslot 0).steps.find? (fun i => i.ended && !i.boundary && !i.awaiting) =
      some { step := 0, polder := 1, ended := true } ∧
    (ended 1 0 { step := 0 } []).eng.consentClass 1 = false ∧ (ended 0 8192 { step := 0 } []).eng.consentClass 0 = true ∧
    ((ended 0 8192 { step := 0 } []).eng.cfgOf 0).biased = true ∧ ((ended 0 8192 { step := 0 } []).eng.lslot 0).bias ≠ 0 ∧
    ((ended 0 0 { step := 0 } []).eng.lslot 0).bias = 0 ∧
    ((ended 0 8192 { step := 0, editAddr := 65536 } []).work.applyEdit [] 0 { step := 0, editAddr := 65536 }).1 = some 0 ∧
    ((ended 0 8192 { step := 0, editAddr := 65536 } []).work.applyEdit [(65545, 1)] 0 { step := 0, editAddr := 65536 }).1 = some 256 ∧
    ((ended 0 8192 { step := 1, editAddr := 65536 } []).work.applyEdit [] 0 { step := 1, editAddr := 65536 }).1 = none ∧
    (ring id).eng.admitFits { polder := 1, seq := 0, slot := 0, resv := [1], cmd := 0 } = true ∧
    (ring id).eng.behindDeferred { polder := 1, seq := 0, slot := 0, resv := [1], cmd := 0 } = false ∧
    (ring id).eng.admitFits { polder := 1, seq := 0, slot := 0, resv := [257], cmd := 0 } = false := by
  unfold State.on; and_intros <;> decide +kernel

/-- A step of polder 0 that waits for consent until 90. -/
def awaiting : State := run [] (fun e => { e with lslots := [(0, { steps := [{ step := 7, ended := true, deadline := 90 }] })] })

/-- A Pattern with a tide of 100 µs and one entry, for polder 0. -/
def tide (e : Eng) : Eng := { e with pat := some { pat0 with tidePeriod := 100, tide := [⟨0, 50, 0, true⟩] } }

theorem test_meets_ConsentTideAndSlowdownRunOnTime : awaiting.alert ∧ (awaiting.eng.pslot 0).st ≠ .empty ∧ halfOk 0 true 7 = true ∧ field 7 32 8 = 0 ∧
    (awaiting.eng.lslot 0).steps.find? (fun i => i.awaiting && i.step == 7 && i.polder == 0) = some { step := 7, ended := true, deadline := 90 } ∧
    (awaiting.eng.lslot 0).steps.find? (fun i => i.awaiting && i.step == 8 && i.polder == 0) = none ∧ awaiting.eng.time.ns ≤ 90 ∧
    0 ∈ awaiting.eng.polderSlots 0 ∧ 5 ∉ awaiting.eng.polderSlots 0 ∧
    90 < (run [] (fun e => { e with time := { e.time with ns := 91 } })).eng.time.ns ∧
    (awaiting.eng.lslot 0).steps.find? (fun i => i.awaiting && i.deadline != noDeadline) = some { step := 7, ended := true, deadline := 90 } ∧
    awaiting.eng.slotOf 0 = some 0 ∧ s0.eng.tidePeriod = 0 ∧ (run [] tide).on ∧ (run [] tide).eng.tidePeriod ≠ 0 ∧ (run [] tide).eng.pld.window = none ∧
    (run [] tide).eng.tideActive = some ⟨0, 50, 0, true⟩ ∧
    (run [] (fun e => { e with pld := { e.pld with window := some 0 } })).eng.pld.window = some 0 ∧ ((ring id).eng.pslot 0).st ≠ .empty := by
  unfold State.alert State.on; and_intros <;> decide +kernel

/-! ### Witnesses: weights, faults, power, gauges, registers and Tape -/

/-- Layer slot 0 as given, beside the given commands. -/
def lslot (l : LSlot) (cmds : List Cmd) : State := run cmds (fun e => { e with lslots := [(0, l)] })

theorem test_meets_WeightsAndBiasBindBehindTheirReaders : (ring id).alert ∧ field ((ring id).eng.reg Reg.ctSlotSel) 0 8 = 0 ∧
    (one opScore []).eng.readersRun 0 [opScore, opRoute, opCombineBwd] = true ∧ (ring id).eng.readersRun 0 [opScore, opRoute, opCombineBwd] = false ∧
    ((ring id).eng.lslot 0).wpend = none ∧ ((lslot { wpend := some (wcBind, 4096) } []).eng.lslot 0).wpend = some (wcBind, 4096) ∧
    ((ring id).eng.setLslot 0 (fun l => { l with wpend := none })).bindCheck (ring id).hbm 0 4096 = stOk ∧
    ((ring id).eng.setLslot 0 (fun l => { l with wpend := none })).bindCheck (ring id).hbm 0 4097 ≠ stOk ∧
    KV.find (ring id).eng.slotCfg 0 = some cfg0 ∧ cfg0.shares cfg0 = true ∧ cfg0.shares { cfg0 with wcBase := 20000 } = false ∧
    (64 % 64 = 0 ∧ ((lslot { biasZeroing := true, bias := 64 } []).eng.lslot 0).bias ≠ 0) ∧ ((ring id).eng.lslot 0).loading = false ∧ ((lslot { loading := true } []).eng.lslot 0).loading = true ∧
    halfOk 4 false 1 = true ∧ mergeHalf 64 4 false 1 % 64 = 0 ∧ mergeHalf 0 0 true 65 % 64 ≠ 0 ∧ field ((ring id).eng.reg Reg.selSlotSel) 0 8 = 0 ∧
    (one opRoute []).eng.readersRun 0 [opScore, opRoute] = true ∧ (ring id).eng.readersRun 0 [opScore, opRoute] = false ∧
    ((ring id).eng.lslot 0).biasPend = none ∧ ((lslot { biasPend := some 64 } []).eng.lslot 0).biasPend = some 64 ∧
    ((ring id).eng.lslot 0).biasZeroing = false ∧ ((lslot { biasZeroing := true, bias := 64 } []).eng.lslot 0).biasZeroing = true ∧
    64 + 256 * ((lslot { biasZeroing := true, bias := 64 } []).eng.cfgOf 0).panels ≤ memTop := by
  unfold State.alert State.on; and_intros <;> decide +kernel

theorem test_meets_FailedClustersAndHalvesAreReplaced : s0.on ∧ s0.eng.quarterCount ≤ 4 ∧ 3 < s0.eng.quarterCount ∧
    bit (s0.eng.qmapByte 3 15) 7 = false ∧ bit ((st (fun e => e.setQmapByte 0 0 0x80)).eng.qmapByte 0 0) 7 = true ∧
    KV.find (sf (fun f => { f with laneLast := [(7, 100)] })).eng.flt.laneLast 7 = some 100 ∧ 100 + 1024 < 1125 ∧ 100 ≤ 1124 ∧ 1124 ≤ 100 + 1024 ∧
    s0.eng.flt.recovery = none ∧ s0.eng.flt.queue = [] ∧ s0.eng.pwr.trans = false ∧
    (sf (fun f => { f with recovery := some (.substitution 1 17) })).eng.flt.recovery = some (.substitution 1 17) ∧
    (s0.eng.setReg (Reg.fltFailed 0) (setBit (s0.eng.reg (Reg.fltFailed 0)) 17 true)).mappedAt 0 17 = some 15 ∧
    (s0.eng.setReg (Reg.fltFailed 0) (setBit (s0.eng.reg (Reg.fltFailed 0)) 17 true)).chooseGusset 0 17 = some 5 ∧
    ((s0.eng.setReg Reg.fltCtrl 0).setReg (Reg.fltFailed 0) (setBit 0 17 true)).chooseGusset 0 17 = none ∧
    0 ∉ s0.eng.flt.hemAbsent ∧ 1 ∈ (sf (fun f => { f with hemAbsent := [1] })).eng.flt.hemAbsent ∧ 1 ∉ s0.eng.flt.selAbsent ∧
    1 ∉ s0.eng.flt.pltAbsent ∧ 1 ∉ s0.eng.flt.semAbsent := by
  unfold State.on; and_intros <;> decide +kernel

theorem test_meets_BaysAndDikesAreResetOrContained : s0.alert ∧ 35 ∈ (sf (fun f => { f with baysContained := [35] })).eng.flt.baysContained ∧
    35 ∉ s0.eng.flt.baysContained ∧ 35 / 6 ∉ s0.eng.flt.dikesContained ∧ 5 ∈ (sf (fun f => { f with dikesContained := [5] })).eng.flt.dikesContained ∧
    KV.find (sf (fun f => { f with bayResetNs := [(35, 0)] })).eng.flt.bayResetNs 35 = some 0 ∧ s0.eng.time.ns < 0 + 10000000000 ∧
    (st (fun e => { e with time := { e.time with ns := 10000000000 } })).eng.time.ns ≥ 0 + 10000000000 ∧
    (sf (fun f => { f with recovery := some (.bay 35) })).eng.flt.queue = [] ∧ (sf (fun f => { f with recovery := some (.dike 5) })).eng.flt.queue = [] ∧
    35 ∈ (sf (fun f => { f with baysReset := [35] })).eng.flt.baysReset ∧ 35 ∉ s0.eng.flt.baysReset ∧ KV.find s0.eng.flt.bayResetNs 35 = none ∧ s0.eng.flt.recovery = none ∧ s0.eng.flt.queue = [] ∧
    s0.eng.pwr.trans = false ∧ s0.eng.bayDown 35 = false ∧ (sf (fun f => { f with baysContained := [35] })).eng.bayDown 35 = true ∧
    (sf (fun f => { f with recovery := some (.bay 35) })).on ∧ (sf (fun f => { f with recovery := some (.bay 35) })).eng.flt.recovery = some (.bay 35) ∧
    (sf (fun f => { f with recovery := some (.dike 5) })).eng.flt.recovery = some (.dike 5) ∧
    (sf (fun f => { f with recovery := some (.dike 5) })).eng.flt.recovery ≠ none ∧
    bit s0.eng.loader.baysUncfg 35 = false ∧ bit (sl (fun l => { l with baysUncfg := 2 ^ 35 })).eng.loader.baysUncfg 35 = true := by
  unfold State.alert State.on; and_intros <;> decide +kernel

/-- An engine in a compute reset, with a kept copy or none. -/
def resetting (kept : Bool) : State := st (fun e => { e.setReg Reg.patKeep (if kept then 4096 else 0) with
  flt := { e.flt with recovery := some .compute }, loader := { e.loader with kept := kept } })

theorem test_meets_ComputeResetKeepsItsRecords : s0.alert ∧ s0.eng.flt.recovery ≠ some .compute ∧ (resetting true).on ∧
    (resetting true).eng.flt.recovery = some .compute ∧ (resetting false).eng.keptCopy = false ∧ (resetting false).eng.flt.queue = [] ∧
    (resetting false).eng.pwr.accesses = [] ∧ (resetting false).eng.flt.recovery = some .compute ∧ (resetting true).eng.keptCopy = true ∧
    (sf (fun f => { f with recovery := some (.bay 0) })).alert ∧ FaultRec.compute ∉ (sf (fun f => { f with recovery := some (.bay 0) })).eng.flt.queue := by
  unfold State.alert State.on; and_intros <;> decide +kernel

/-- The engine holding toward chip 9 as given. -/
def holds (h : HoldRec) : State := sf (fun f => { f with holds := [(9, h)] })

theorem test_meets_NoticesActInTheirOrder : s0.on ∧ (sf (fun f => { f with nseq := 5, nseqAny := true })).work.wake.newer 5 = false ∧
    (sf (fun f => { f with nseq := 65535, nseqAny := true })).work.wake.newer 0 = true ∧ s0.work.wake.newer 0 = true ∧ s0.eng.isLost 9 = false ∧
    9 ≠ s0.eng.chip ∧ (sf (fun f => { f with lost := [some 9] })).eng.isLost 9 = true ∧ s0.eng.holding 9 = false ∧
    (resetting false).eng.flt.recovery = some .compute ∧ 256 ≤ (sf (fun f => { f with lost := List.replicate 256 (some 7) })).eng.flt.lost.length ∧
    none ∉ (sf (fun f => { f with lost := List.replicate 256 (some 7) })).eng.flt.lost ∧ s0.eng.flt.lost.length < 256 ∧
    none ∈ (sf (fun f => { f with lost := [none] })).eng.flt.lost ∧ KV.find s0.eng.flt.holds 9 = none ∧
    KV.find (holds { noticed := true }).eng.flt.holds 9 = some { noticed := true } ∧ (holds { suspected := true, probes := 3 }).on ∧
    KV.find (holds { suspected := true, probes := 3 }).eng.flt.holds 9 = some { suspected := true, probes := 3 } ∧
    ({ suspected := true } : HoldRec).noticed = false ∧ ({ suspected := true, noticed := true } : HoldRec).noticed = true ∧
    (∃ k c, (k, c) ∈ (run [] id).eng.slotCfg) ∧ (sf (fun f => { f with lost := [some 9] })).on ∧ s0.eng.isLost 9 = false ∧
    ({ suspected := true, probes := 2 } : HoldRec).probes < 3 ∧ ({ suspected := true, reported := true } : HoldRec).reported = true := by
  unfold State.on; and_intros
  all_goals first | decide +kernel | exact ⟨0, cfg0, by decide⟩

/-- An engine on its way from one power state to another. -/
def going (cur target : Nat) (pend : Bool) : State := sp (fun p => { p with cur := cur, target := target, trans := true, wakePend := pend })

theorem test_meets_PowerStatesAreEnteredAndLeft :
    (st (fun e => { e.setReg Reg.wakeTol 1000000000 with boot := { e.boot with ready := true } })).work.idle = true ∧
    (st (fun e => { e.setReg Reg.wakeTol 1000000000 with boot := { e.boot with ready := true } })).eng.pwr.cur <
      (st (fun e => { e.setReg Reg.wakeTol 1000000000 with boot := { e.boot with ready := true } })).work.powerLimit.1 ∧
    s0.eng.boot.ready = false ∧ (going 0 1 false).on ∧ (going 0 1 false).eng.pwr.trans = true ∧ (going 0 4 true).eng.pwr.target ≠ 0 ∧
    (going 0 4 true).eng.pwr.wakePend = true ∧ (going 0 1 false).eng.flt.queue = [] ∧ (going 4 0 false).eng.pwr.target = 0 ∧
    (going 4 0 false).eng.reg Reg.pwrDeepSave + 16777216 ≤ memTop ∧
    (going 4 0 false).eng.reg Reg.bobTable + 8 * (going 4 0 false).eng.bufTotal ≤ memTop ∧
    ((run [] (fun e => { e with pwr := { e.pwr with cur := 1 } })).eng.pwr.cur ≠ 0 ∧ (run [] (fun e => { e with pwr := { e.pwr with cur := 1 } })).eng.pwr.trans = false) ∧
    0 = max s0.eng.pwr.cur s0.eng.pwr.target ∧ (run [] (fun e => { e with pat := some { pat0 with tidePeriod := 100, tide := [⟨0, 50, 1, true⟩] }, pwr := { e.pwr with cur := 1 } })).work.nextWindow
      (run [] (fun e => { e with pat := some { pat0 with tidePeriod := 100, tide := [⟨0, 50, 1, true⟩] }, pwr := { e.pwr with cur := 1 } })).work.residentTide = some 0 ∧
    s0.alert ∧ (∀ f ∈ (List.range 6).filter s0.work.funcPresent, f < 4 → bit 0x30 f = false) ∧
    (∃ f ∈ (List.range 6).filter s0.work.funcPresent, f < 4 ∧ bit 0x3F f = true) ∧
    (∃ f ∈ (List.range 6).filter s0.work.funcPresent, 4 ≤ f ∧ bit 0x3F f = true) ∧ s0.eng.pwr.funcState.length = 6 ∧
    (sp (fun p => { p with funcState := [1, 2, 3, 3, 3, 3] })).eng.funcSt 0 = 1 ∧ (sp (fun p => { p with funcState := [1, 2, 3, 3, 3, 3] })).eng.funcSt 1 = 2 ∧
    s0.eng.funcSt 5 ≠ 1 ∧ s0.eng.funcSt 5 ≠ 2 := by
  unfold State.alert State.on; and_intros <;> decide +kernel

theorem test_meets_GaugesBindClearAndSample : s0.alert ∧ halfOk 4 false 0 = true ∧ s0.work.bindOk 0 = true ∧
    s0.work.bindOk (Nat.land (mergeHalf 0 0 true 0xFF) bindMask) = false ∧
    5 * 1000 < (st (fun e => { e with time := { e.time with ns := 5001 } })).eng.time.ns ∧ s0.eng.time.ns ≤ 0 * 1000 := by
  unfold State.alert State.on; and_intros <;> decide +kernel

theorem test_meets_RegisterAccessesReachTheirRegister : s0.alert ∧ Reg.patLen ∈ [Reg.patLen, Reg.evtMask] ∧ 2 % 4 ≠ 0 ∧ 4 % 8 ≠ 0 ∧
    (sp (fun p => { p with cur := 1 })).work.accessWaits Reg.patLen false true = true ∧
    (sp (fun p => { p with cur := 1 })).work.accessWaits Reg.patLen false false = true ∧ s0.work.accessWaits Reg.patLen false false = false ∧
    halfOk 0 true 0 = true ∧ s0.eng.evtEmpty = true ∧ (st (fun e => e.setReg Reg.evtTail 1)).eng.evtEmpty = false ∧
    field (Nat.land 0x3F000000 evtCfgMask) 0 5 = field (s0.eng.reg Reg.evtCfg) 0 5 ∧ field (Nat.land 0x1F evtCfgMask) 0 5 ≠ field (s0.eng.reg Reg.evtCfg) 0 5 := by
  unfold State.alert State.on; and_intros <;> decide +kernel

/-- A state whose Tape is as given. -/
def meter (t : Tape) : State := { s0 with tape := t }

/-- The frame of the spec's R403 example: 52.000 V and 40.000 A in codes that gain 2^20 passes through, SEQ 0. -/
def frame52 : Nat := let x := 5200 * 2 ^ 40 + 4000 * 2 ^ 16; x + crc8 x

theorem test_meets_TapeMetersAndApportions : (meter { running := true }).tape.running = true ∧ (meter { running := true }).tape.powerFail = false ∧
    (meter { running := true }).tape.frameValid frame52 = true ∧ (meter { running := true }).tape.frameValid 1 = false ∧ s0.tape.running = false ∧
    (meter { running := true, waiting := true }).eng.boot.powered = true ∧ (meter { running := true, waiting := true }).eng.flt.recovery ≠ some .compute ∧
    (meter { running := true, waiting := true }).tape.waiting = true ∧ (∀ c, KV.get 0 (meter {}).tape.totals c < 2 ^ 64) ∧
    1 % 60 ≠ 0 ∧ (meter { running := true, waiting := true, periods := 60 }).tape.periods % 60 = 0 := by
  refine ⟨by decide, by decide, by decide +kernel, by decide +kernel, by decide, by decide, by decide, by decide, fun c => ?_, by decide, by decide⟩
  show (0 : Nat) < 2 ^ 64; decide

theorem test_meets_TapeRecordsSealsAndAnswers : ({} : Tape).log.length ≤ 10922 ∧ (meter { running := true }).tape.running = true ∧
    s0.tape.running = false ∧ (meter { running := true }).tape.powerFail = false ∧ (meter { running := true, powerFail := true }).tape.powerFail = true ∧
    (meter { running := true, sealed := true }).tape.sealed = true ∧ (meter { running := true }).tape.sealed = false ∧
    ({ log := [(2, zeros 384)] } : Tape).log.find? (fun r => r.1 == 2) = some (2, zeros 384) ∧ ({} : Tape).log.find? (fun r => r.1 == 2) = none ∧
    (zeros 32).length = 32 := by
  and_intros <;> decide +kernel

/-! ### Ill-formed commands -/

/-- Every command of a list is refused by `wf`. -/
def refused (l : List Instr) : Bool := l.all (fun i => !i.wf)

theorem test_wf_bringUp : refused [.waveRelease 6, .waveSelftestDone 0 [36], .waveSelftestDone 6 [], .linkTrained 16 true 0 0 false false 0 0,
    .linkTrained 0 true 16 0 false false 0 0, .linkTrained 0 true 0 16 false false 0 0, .linkTrained 0 true 0 0 false false (2 ^ 17) 0,
    .linkTrained 0 true 0 0 false false 0 (2 ^ 17), .peerVersionLearned (2 ^ 17) 0, .peerVersionLearned 0 16, .linkStateChange 16 true,
    .clockMissing 5, .keySlotRevoked 4, .containmentCleared (some 36) none, .containmentCleared none (some 6),
    .powerGood ⟨none, List.replicate 5 {}, [], [], [], 0, 0, []⟩, .powerGood ⟨none, [], [0, 0, 0, 0, 0], [], [], 0, 0, []⟩,
    .powerGood ⟨none, [], [], [0, 0, 0, 0, 0], [], 0, 0, []⟩, .powerGood ⟨none, [], [], [], [0, 0, 0, 0, 0], 0, 0, []⟩,
    .powerGood ⟨none, [], [], [], [], 0, 0, List.replicate 257 0⟩] = true := by decide +kernel

theorem test_wf_pattern : refused [.patternFrame (2 ^ 17) ⟨0, 0, 0, 0, 0, 0⟩ ⟨[], .good⟩, .patternFrame 0 ⟨2 ^ 64, 0, 0, 0, 0, 0⟩ ⟨[], .good⟩,
    .patternFrame 0 ⟨0, 2 ^ 32, 0, 0, 0, 0⟩ ⟨[], .good⟩, .patternFrame 0 ⟨0, 0, 2 ^ 32, 0, 0, 0⟩ ⟨[], .good⟩, .patternFrame 0 ⟨0, 0, 0, 1, 0, 0⟩ ⟨[], .good⟩,
    .patternFrame 0 ⟨0, 0, 0, 0, 2 ^ 16, 0⟩ ⟨[], .good⟩, .patternFrame 0 ⟨0, 0, 0, 4097, 0, 0⟩ ⟨zeros 4097, .good⟩, .repairBitmap (2 ^ 17) [], .repairRequest (2 ^ 17) [],
    .stateReport (2 ^ 17) 5, .stepBoundary 256] = true := by decide +kernel

theorem test_wf_rings : refused [.doorbell 8192 0 true 0, .doorbell 0 4 true 0, .doorbell 0 2 false 0, .doorbell 0 16 false 0, .doorbell 0 0 false (2 ^ 32),
    .doorbell 0 0 true (2 ^ 64), .descriptorFetch 1024, .completionStall 1024, .cplHead 16 0, .cplHead 0 (2 ^ 32), .attach 16, .detach 16, .clearStop 16,
    .memoryReadReturn 1 .ok .ok .deepSave, .memoryReadReturn (2 ^ 52) .ok .ok .deepSave] = true := by decide +kernel

theorem test_wf_commands : refused [.waitPoll 1024 0, .dependencyReleased 0 (2 ^ 32), .nop 1024 0, .fence 1024 0, .cancel 1024 0, .score 1024 0,
    .route 1024 0, .pleatSortDone 1024 0, .combine 1024 0, .ret 1024 0, .routeBwd 1024 0, .returnBwd 1024 0, .combineBwd 1024 0, .copy 1024 0, .stepEnd 1024 0,
    .tack 1024 0, .barrier 1024 0, .admitSeq 1024 0, .retire 1024 0, .release 1024 0, .bcast 1024 0, .reduce 1024 0, .groupForm 1024 0, .groupReform 1024 0,
    .tileSelected 1024 0 0, .tablePass 2 none false false .ok 0, .tablePass 0 (some 4) false false .ok 0, .tablePass 0 none false false .ok 1,
    .tablePass 0 none false false .ok (2 ^ 52), .reserveRetry 256 0, .reserveTimeout 256 0] = true := by decide +kernel

/-- A fitting frame header, and a chunk header, of a KIND. -/
def fit (kind : Nat) : FitHdr := ⟨kind, 0, 0, 0, 0, 0, 0, 0, 0, 0⟩
def chk (kind op : Nat) : ChunkHdr := { kind := kind, op := op, src := 0, dst := 0 }

theorem test_wf_frames : refused [.bidFrame (some 16) 0 (fit 1) [] .good, .bidFrame none (2 ^ 16) (fit 1) [] .good, .bidFrame none 0 (fit 2) [] .good,
    .bidFrame none 0 (fit 1) [⟨0, 0, 0, 0, 0, 0⟩] .good, .bidFrame none 0 { fit 1 with count := 1 } [⟨2 ^ 32, 0, 0, 0, 0, 0⟩] .good,
    .grantFrame none 0 (fit 1) [] .good, .grantFrame none 0 { fit 2 with count := 1 } [⟨2 ^ 20, 0, 0⟩] .good, .grantFrame (some 16) 0 (fit 2) [] .good,
    .claimFrame none 0 (fit 1) [] .good, .claimFrame (some 16) 0 (fit 3) [] .good] = true := by decide +kernel

theorem test_wf_chunks : refused [.dispatchChunk none (chk 2 0) [] .good, .dispatchChunk (some 16) (chk 1 0) [] .good, .dispatchChunk none (chk 1 0) [0] .good,
    .returnChunk none (chk 1 0) [] .good, .backwardDispatchChunk none (chk 1 0) [] .good, .backwardReturnChunk none (chk 1 0) [] .good,
    .copyChunk none (chk 1 0) [] .good, .voidList none (chk 1 0) [] .good, .countUp none (chk 6 2) ⟨[], .good⟩, .countDown none (chk 6 1) ⟨[], .good⟩, .bcastData none (chk 6 4) [] .good,
    .reduceData none (chk 6 3) [] .good false, .factorData none (chk 6 4) [] .good, .formUp none (chk 6 7) ⟨[], .good⟩, .formDown none (chk 6 6) ⟨[], .good⟩,
    .collectiveAbort none (chk 6 9) ⟨[], .good⟩, .swRefused none (chk 6 8) ⟨[], .good⟩, .barrierUp none (chk 6 11) ⟨[], .good⟩, .barrierDown none (chk 6 10) ⟨[], .good⟩, .tackNotice none (chk 6 11) ⟨[], .good⟩,
    .dispatchChunk none { chk 1 0 with src := 2 ^ 17 } [] .good, .dispatchChunk none { chk 1 0 with hcrc := 2 ^ 32 } [] .good] = true := by decide +kernel

theorem test_wf_links : refused [.ack (2 ^ 17) [], .ack 0 [2 ^ 16], .nak (2 ^ 17) 0, .nak 0 (2 ^ 16), .ackTimeout 4096, .pathExclusionExpiry (2 ^ 17) 0,
    .pathExclusionExpiry 0 16, .ackCoalesceTimeout (2 ^ 17), .formTimeout 64, .barrierRelease 64 0, .syncMessage { peer := 2 ^ 17, reply := false } 0,
    .hold (2 ^ 16) 0, .resume 0 (2 ^ 17), .lost (2 ^ 16) 0, .clearNotice (2 ^ 16) 0, .suspect (2 ^ 16) 0, .probe (2 ^ 17), .probeAnswer (2 ^ 17),
    .probeTimeout (2 ^ 17)] = true := by decide +kernel

theorem test_wf_slots : refused [.create 16 0, .create 0 256, .restore 16 0, .createDone 16, .destroy 16, .destroyDone 16, .park 16, .parkDone 16, .unpark 16,
    .unparkDone 16, .evict 16, .evictDone 16, .restoreDone 16, .schDestroyId 256, .quarantineEnd 16, .consent 16 0 true 0, .consent 0 4 true 0,
    .consent 0 1 false 0, .consentTimeout 256] = true := by decide +kernel

theorem test_wf_registers : refused [.engMode (2 ^ 32), .hemDiagCmd (2 ^ 32), .wakeTol (2 ^ 32), .engFunc (2 ^ 32), .evtHead (2 ^ 32), .detSeed 4 true 0,
    .selBiasAddr 2 false 0, .gauBind 0 true (2 ^ 64), .bindFillDone 256, .wcmdPendExecute 256, .biasZeroingDone 256, .biasPendExecute 256, .tblScrub 0 0 2,
    .scrub 196608 .ok false, .sweepDone 8192, .backpressureTimeout 8192, .mxRel (2 ^ 32) 0, .mxRel 0 4096, .poolConfigWrite 0xC0000 true 0,
    .poolConfigWrite 0xC010C false 0, .poolConfigWrite 0xC0104 true 0, .poolEmptyTimeout 8, .laneMismatch 4 0 0 0, .laneMismatch 0 16 0 0, .laneMismatch 0 0 8 0,
    .halfMismatch 4 0, .halfMismatch 0 2, .bayReset 36, .bayResetDone 36 true, .dikeReset 6, .dikeResetDone 6 true, .bayResetRequest 64, .funcTransitionDone 6,
    .evtBase 0x7C false 0, .evtBase 0x8C false 0, .evtBase 0x84 true 0, .managementAddress (2 ^ 24), .registerWrite false 2 false 0,
    .registerWrite false (2 ^ 23) false 0, .registerWrite false 0 false (2 ^ 32), .mmioRead false 4 true, .mmioRead true (2 ^ 23) false] = true := by decide +kernel

theorem test_wf_tape : refused [.senseFrame (2 ^ 64), .readRecord (2 ^ 64), .challenge [], .getClient (2 ^ 16), .calibrate (2 ^ 32) 0 0 0, .calibrate 0 (2 ^ 32) 0 0,
    .calibrate 0 0 (2 ^ 32) 0, .calibrate 0 0 0 (2 ^ 32)] = true := by decide +kernel

/-! ### Against figures of the spec -/

/-- A fact about the state that a command answers. -/
def after (i : Instr) (s : State) (p : State → Bool) : Bool :=
  match exec i s with
  | .next t => p t
  | _ => false

/-- The Tape whose codes are microvolts and microamperes over 10,000. -/
def gain : Tape := { running := true, vGain := 10000 * 2 ^ 20, iGain := 10000 * 2 ^ 20 }

/-- R403's example: one sample of 52.000 V and 40.000 A adds 1.664 × 10^16 aJ. -/
theorem test_sense_example : after (.senseFrame frame52) (meter gain) (fun t => t.tape.acc == 16640000000000000) = true := by decide +kernel

/-- R403's example: shares of 2,080,000 mJ among activities 5.10 × 10^13 and 3.05 × 10^13, 1 mJ unattributed. -/
theorem test_apportion_example :
    let t := Tape.apportion 2080000 [(0x31, 51000000000000), (0x52, 30500000000000)] {}
    KV.get 0 t.totals 0x31 = 1301595 ∧ KV.get 0 t.totals 0x52 = 778404 ∧ t.minuteUnattr = 1 := by decide

/-- R13: rack × 128 + tray × 16 + chip. -/
theorem test_chip_id : chipRack 0x1FFFF = 1023 ∧ chipTray 0x1FFFF = 7 ∧ chipRack 0x93 = 1 ∧ chipTray 0x93 = 1 := by decide

/-- R15: bay 17 is cluster 17 of quarters 0 and 2, bay 18 cluster 0 of quarters 1 and 3. -/
theorem test_bays : bayOf 0 17 = 17 ∧ bayOf 2 17 = 17 ∧ bayOf 1 0 = 18 ∧ bayOf 3 17 = 35 ∧ dikeBays 5 = [30, 31, 32, 33, 34, 35] := by decide

/-- Table 3-2, check 5: a TAIL more than 2^n ahead stops the ring with RING_OVERRUN. -/
theorem test_doorbell_overrun : after (.doorbell 0 0 true 65537) (ring id) (fun t => (t.eng.ring 0).st == .stopped) = true := by decide +kernel

/-- Table 3-2, check 6: TAIL is updated, the ring named in bits [41:32]. -/
theorem test_doorbell_tail : after (.doorbell 0 0 true 65536) (ring id) (fun t => (t.eng.ring 0).tail == 65536 && (t.eng.ring 0).head == 0) = true := by
  decide +kernel

/-- R65: a completion head beyond the tail is refused, and CHEAD stays. -/
theorem test_head_refused : after (.cplHead 0 1) (ring id) (fun t => (t.eng.ring 0).chead == 0) = true := by decide +kernel

/-- R178: a burst ends at the page's end; one byte of 4095 on is moved. -/
theorem test_burst_page : after .burstGrant (channel (.copy 4095 64 2) 0) (fun t =>
    (KV.find t.eng.chans 3).any (fun c => c.jobs == [.copy 4096 65 1])) = true := by decide +kernel

/-- R276 and R294: the epoch after 0xFFFF is 1, and the survivors have it while they still form again. -/
theorem test_epoch_skips_zero : after (.groupReform 0 0) { grouped opGroupReform (reformOps 1 65535) { formed with epoch := 65535, members := [0, 5, 9] } with
    hbm := [(64, 5)] } (fun t => (t.eng.group 0).epoch == 1 && (t.eng.group 0).members == [0, 9]) = true := by decide +kernel

/-- R332: d = ((t2 − t1) − (t4 − t3)) / 2, here ((105 − 5) − (45 − 5)) / 2 = 30 ps. -/
theorem test_sync_offset : after (.syncMessage { peer := 0, reply := true, t1 := 5, t2 := 105, t3 := 5 } 45) (child 1) (fun t =>
    t.eng.time.offsets == [30]) = true := by decide +kernel

/-- R340: a write of DETM that changes nothing raises no event. -/
theorem test_mode_same : after (.engMode 0) s0 (fun t => t.eng.wq == [] && !t.eng.detm) = true := by decide +kernel

/-- R301: PARK of a RUNNING slot starts to park it; of an EMPTY slot it is refused BAD_DESCRIPTOR. -/
theorem test_park : after (.park 0) (slot .running none) (fun t => (t.eng.pslot 0).st == .parking) = true ∧
    after (.park 0) (slot .empty none) (fun t => (t.eng.pslot 0).st == .empty && (t.eng.pslot 0).result == stBad) = true := by
  and_intros <;> decide +kernel

/-- R259: a pool register does not change while a buffer is held. -/
theorem test_pool_held : after (.poolConfigWrite (Reg.bobPoolCount 0) false 7) (buffer opNop [] { st := .held, count := 1 }) (fun t =>
    t.eng.reg (Reg.bobPoolCount 0) == 256 && t.eng.bob.refused) = true := by decide +kernel

/-- R407: after the seal CALIBRATE is refused and changes no constant. -/
theorem test_calibrate_sealed : after (.calibrate 1 2 3 4) (meter { running := true, sealed := true }) (fun t =>
    t.tape.replies == [.nack] && t.tape.vGain == 0) = true := by decide +kernel

/-- The SHA-256 digest of "abc" (FIPS 180-4), on which keys, images and records rest. -/
theorem test_sha256_abc : leNat ((sha256 [0x61, 0x62, 0x63]).take 4) = 0xbf1678ba := by decide +kernel

/-- The CRC-32C of "123456789" (RFC 3720). -/
theorem test_crc32c : crc32c [0x31, 0x32, 0x33, 0x34, 0x35, 0x36, 0x37, 0x38, 0x39] = 0xE3069283 := by decide +kernel

/-- No row of the table gives bits. -/
theorem test_no_words : decodeTableWord 16 0 = none ∧ (s0.withFetchWord 16 0) = s0 := ⟨rfl, rfl⟩

end Sys2Proof.Tests
end

section
/-! SUPPORT. Accesses of the two ports: when one is carried out at once, and which register it reaches (R379, R418, R437). -/

namespace Sys2Proof.Machine

/-! ### The state a command leaves -/

/-- A command whose work writes no HBM and finds no fault of the Spool leaves the engine as the work left it. -/
theorem State.leaves_eq (s : State) (e : Eng) (hc : e.spool.corrupt = false) (hw : e.wlog = []) :
    s.leaves e = { s with eng := e } := by
  rw [State.leaves_clean s e hc]
  simp only [Eng.view, hw, List.foldr_nil]
  rw [← hw]

/-- The width of a write of half, or all, of a 64-bit register. -/
theorem halfOk_cases {byteOff v : Nat} {wide : Bool} (h : halfOk byteOff wide v = true) :
    (wide = true ∧ byteOff = 0) ∨ (wide = false ∧ (byteOff = 0 ∨ byteOff = 4) ∧ v < 2 ^ 32) := by
  cases wide <;> simp_all [halfOk, valueOk]

/-! ### The access gate (R379) -/

theorem Eng.accessWaits_of_awake (e : Eng) (h : e.awake = true) (off : Nat) (wide write : Bool) :
    e.accessWaits off wide write = false := by
  have ha : e.active = true := (Bool.and_eq_true_iff.1 h).1
  simp [Eng.accessWaits, h, ha]

/-- An access that R418 does not accept never waits. -/
theorem Eng.accessWaits_of_not_ok (e : Eng) {off : Nat} {wide : Bool} (h : accessOk off wide = false) (write : Bool) :
    e.accessWaits off wide write = false := by
  simp [Eng.accessWaits, h]

theorem State.alert.awake {s : State} (h : s.alert) : s.work.awake = true := by
  obtain ⟨_, hcur, htrans, hrec⟩ := h
  simp [Eng.awake, Eng.active, State.work, hcur, htrans, hrec]

theorem Eng.mmioWrite_of_waits (e : Eng) (m : Mem) {off : Nat} {wide : Bool} (v : Nat) (hp : e.boot.powered = true)
    (h : e.accessWaits off wide true = true) : e.mmioWrite m off wide v = e.waitAccess ⟨false, off, wide, some v⟩ := by
  simp [Eng.mmioWrite, hp, h]

theorem Eng.mmioWrite_of_served (e : Eng) (m : Mem) {off : Nat} {wide : Bool} (v : Nat) (hp : e.boot.powered = true)
    (h : e.accessWaits off wide true = false) : e.mmioWrite m off wide v = e.writeAccess m false off wide v := by
  simp [Eng.mmioWrite, hp, h]

theorem Eng.mmioRead_of_waits (e : Eng) {off : Nat} {wide : Bool} (hp : e.boot.powered = true)
    (h : e.accessWaits off wide false = true) : e.mmioRead off wide = e.waitAccess ⟨false, off, wide, none⟩ := by
  simp [Eng.mmioRead, hp, h]

theorem Eng.mmioRead_of_served (e : Eng) {off : Nat} {wide : Bool} (hp : e.boot.powered = true)
    (h : e.accessWaits off wide false = false) : e.mmioRead off wide = e.answer false off wide := by
  simp [Eng.mmioRead, hp, h]

theorem Eng.mgmtWrite_of_powered (e : Eng) (m : Mem) (off : Nat) (wide : Bool) (v : Nat) (hp : e.boot.powered = true) :
    e.mgmtWrite m off wide v = Eng.writeAccess m true off wide v { e with mgmtAddr := off, mgmtWide := wide } := if_pos hp

theorem Eng.mgmtRead_of_powered (e : Eng) (hp : e.boot.powered = true) : e.mgmtRead = e.answer true e.mgmtAddr e.mgmtWide := if_pos hp

/-- On an alert engine a write by the MMIO port is carried out at once. -/
theorem State.alert.mmioWrite {s : State} (h : s.alert) (off : Nat) (wide : Bool) (v : Nat) :
    s.work.mmioWrite s.hbm off wide v = s.work.writeAccess s.hbm false off wide v :=
  Eng.mmioWrite_of_served _ _ v h.1.1 (Eng.accessWaits_of_awake _ h.awake off wide true)

/-- On an alert engine a read by the MMIO port is answered at once. -/
theorem State.alert.mmioRead {s : State} (h : s.alert) (off : Nat) (wide : Bool) :
    s.work.mmioRead off wide = s.work.answer false off wide :=
  Eng.mmioRead_of_served _ h.1.1 (Eng.accessWaits_of_awake _ h.awake off wide false)

/-! ### One access (R418) -/

theorem accessOk_of_misaligned {off : Nat} {wide : Bool} (h : off % (if wide then 8 else 4) ≠ 0) : accessOk off wide = false := by
  simp [accessOk, h]

theorem Eng.writeAccess_of_not_ok (e : Eng) (m : Mem) (mgmt : Bool) {off : Nat} {wide : Bool} (v : Nat)
    (h : accessOk off wide = false) : e.writeAccess m mgmt off wide v = e := by
  simp [Eng.writeAccess, h]

@[simp] theorem Eng.readClears_rsp (e : Eng) (off : Nat) : (e.readClears off).rsp = e.rsp := by
  unfold Eng.readClears
  repeat' split
  all_goals rfl

theorem Eng.readClears_of_ne (e : Eng) {off : Nat} (ht : off ≠ Reg.shuTtStatus) (hq : off ≠ Reg.splQstat) : e.readClears off = e := by
  rw [Eng.readClears, if_neg ht, if_neg hq]

@[simp] theorem Eng.readAccess_rsp (e : Eng) (mgmt : Bool) (off : Nat) (wide : Bool) : (e.readAccess mgmt off wide).2.rsp = e.rsp := by
  unfold Eng.readAccess
  repeat' split
  all_goals simp

/-- An answer joins those given before. -/
theorem Eng.answer_eq (e : Eng) (mgmt : Bool) (off : Nat) (wide : Bool) :
    e.answer mgmt off wide = { (e.readAccess mgmt off wide).2 with
      rsp := (e.readAccess mgmt off wide).2.rsp ++ [⟨mgmt, off, (e.readAccess mgmt off wide).1⟩] } := rfl

/-- A read that reaches neither register that reading clears leaves the engine alone. -/
theorem Eng.readAccess_snd_of_ne (e : Eng) (mgmt : Bool) {off : Nat} (wide : Bool)
    (h : ∀ r ∈ [Reg.shuTtStatus, Reg.splQstat], off ≠ r ∧ off + 4 ≠ r) : (e.readAccess mgmt off wide).2 = e := by
  obtain ⟨ht, ht4⟩ := h Reg.shuTtStatus (by simp)
  obtain ⟨hq, hq4⟩ := h Reg.splQstat (by simp)
  unfold Eng.readAccess
  repeat' split
  all_goals simp only [Eng.readClears_of_ne _ ht hq, Eng.readClears_of_ne _ ht4 hq4]

/-- A register that is no counter, and holds none, reads the same in every view (R393). -/
theorem Eng.readView_of_not_counter (e : Eng) (mgmt : Bool) {off : Nat} (hc : isCounter off = false)
    (ht : off ≠ Reg.shuTtStatus) (hq : off ≠ Reg.splQstat) : e.readView mgmt off = e.readLive off := by
  unfold Eng.readView
  split
  · rfl
  · simp [hc, ht, hq]

/-! ### Registers that only store what is written (R11, R431) -/

/-- Registers of the collective unit's block that only store their writable bits. -/
def plainColRegs : List Nat := [Reg.colCtrl, Reg.colGroupSel, Reg.colFormTo]

/-- 32-bit registers of the other blocks that store their writable bits, do nothing else, and read back what they hold. -/
def plainOtherRegs : List Nat :=
  [Reg.patLen, Reg.bobQuery, Reg.ctSlotSel, Reg.hemSlotSel, Reg.selSlotSel, Reg.pltSlotSel, Reg.semSlotSel, Reg.bobPolderSel, Reg.fltLostSel,
   Reg.ctCtrl, Reg.schCtrl, Reg.fltCtrl, Reg.gauView, Reg.hemCtrl, Reg.pltRtSel, Reg.slcAckTo, Reg.gauExpSel, Reg.slcPeerverSel,
   Reg.splQsel, Reg.splCellSel, Reg.bobPoolSel, Reg.detSeedSel, Reg.gauSel, Reg.evtMask]

/-- The 32-bit registers that only store what is written. -/
def plainRegs : List Nat := plainOtherRegs ++ plainColRegs

/-- Each lies in the window below the doorbells, is no half of a 64-bit register and no counter, and reading it clears nothing. -/
theorem plainRegs_place : ∀ off ∈ plainRegs, accessOk off false = true ∧ off < 0x200000 ∧ isWide off = false ∧ isWide (off - 4) = false ∧
    isCounter off = false ∧ off ≠ Reg.shuTtStatus ∧ off ≠ Reg.splQstat := by
  decide

/-- The collective unit's registers that neither count its groups nor show the selected one are plain storage. -/
theorem Eng.readCol_of_ne (e : Eng) {off : Nat} (hs : off ≠ Reg.colStatus)
    (hg : off ∉ [Reg.colGstat, Reg.colGmembers, Reg.colGexclude, Reg.colGseq, Reg.colGflags]) : e.readCol off = e.reg off := by
  simp only [List.mem_cons, List.not_mem_nil, or_false, not_or] at hg
  obtain ⟨h1, h2, h3, h4, h5⟩ := hg
  simp [Eng.readCol, hs, h1, h2, h3, h4, h5]

theorem Eng.readLive_plainCol (e : Eng) : ∀ off ∈ plainColRegs, e.readLive off = e.reg off := by
  have hplace : ∀ off ∈ plainColRegs, off / 0x10000 = 13 ∧ off ≠ Reg.colStatus ∧
      off ∉ [Reg.colGstat, Reg.colGmembers, Reg.colGexclude, Reg.colGseq, Reg.colGflags] := by decide
  intro off h
  obtain ⟨hb, hs, hg⟩ := hplace off h
  rw [Eng.readLive, hb]
  exact e.readCol_of_ne hs hg

/-- No block gives a plain register a value of its own: the address alone leads each read to plain storage. -/
theorem Eng.readLive_plain (e : Eng) : ∀ off ∈ plainRegs, e.readLive off = e.reg off := by
  refine List.forall_mem_append.2 ⟨?_, e.readLive_plainCol⟩
  simp only [plainOtherRegs, List.forall_mem_cons, List.not_mem_nil, false_implies, implies_true, and_true]
  and_intros
  all_goals rfl

/-- No register's own effect takes a write of a plain register: the address alone leads each write to plain storage. -/
theorem Eng.writeVal_plain (e : Eng) (m : Mem) (mgmt : Bool) (v : Nat) :
    ∀ off ∈ plainRegs, e.writeVal m mgmt off 0 false v = e.setReg off (Nat.land v (plainMask off)) := by
  simp only [plainRegs, plainOtherRegs, plainColRegs, List.cons_append, List.nil_append, List.forall_mem_cons, List.not_mem_nil,
    false_implies, implies_true, and_true]
  and_intros
  all_goals rfl

theorem Eng.writeAccess_plain (e : Eng) (m : Mem) (mgmt : Bool) {off v : Nat} (h : off ∈ plainRegs) (hv : v < 2 ^ 32) :
    e.writeAccess m mgmt off false v = e.setReg off (Nat.land v (plainMask off)) := by
  obtain ⟨hok, hlt, hw, hw4, -⟩ := plainRegs_place off h
  have hdb : ¬ (0x200000 ≤ off ∧ off < 0x220000) := by omega
  calc e.writeAccess m mgmt off false v
      = e.writeVal m mgmt off 0 false (v % 2 ^ 32) := by simp [Eng.writeAccess, Eng.write32, hok, hdb, hw, hw4]
    _ = e.setReg off (Nat.land v (plainMask off)) := by rw [Nat.mod_eq_of_lt hv, e.writeVal_plain m mgmt v off h]

theorem Eng.readAccess_plain (e : Eng) (mgmt : Bool) {off : Nat} (h : off ∈ plainRegs) :
    e.readAccess mgmt off false = (e.reg off % 2 ^ 32, e) := by
  obtain ⟨hok, -, hw, hw4, hc, ht, hq⟩ := plainRegs_place off h
  simp [Eng.readAccess, Eng.read32, hok, hw, hw4, e.readClears_of_ne ht hq, e.readView_of_not_counter mgmt hc ht hq, e.readLive_plain off h]

/-! ### The event ring's place and size (R433, R434) -/

/-- A write of half, or all, of TWK_EVT_BASE reaches it, by whatever port. -/
theorem Eng.writeAccess_evtBase (e : Eng) (m : Mem) (mgmt : Bool) {off v : Nat} {wide : Bool} (h : halfOk off wide v = true) :
    e.writeAccess m mgmt (Reg.evtBase + off) wide v = e.writeEvtBase off wide v := by
  rcases halfOk_cases h with ⟨rfl, rfl⟩ | ⟨rfl, rfl | rfl, hv⟩
  · rfl
  · exact congrArg (fun x => e.writeEvtBase 0 false x) (Nat.mod_eq_of_lt hv)
  · exact congrArg (fun x => e.writeEvtBase 4 false x) (Nat.mod_eq_of_lt hv)

theorem Eng.writeAccess_evtCfg (e : Eng) (m : Mem) (mgmt : Bool) {v : Nat} (hv : v < 2 ^ 32) :
    e.writeAccess m mgmt Reg.evtCfg false v = e.writeEvtCfg v :=
  congrArg (fun x => e.writeEvtCfg x) (Nat.mod_eq_of_lt hv)

theorem Eng.writeEvtBase_of_empty (e : Eng) (byteOff : Nat) (wide : Bool) (v : Nat) (h : e.evtEmpty = true) :
    e.writeEvtBase byteOff wide v = (e.setReg Reg.evtBase (mergeHalf (e.reg Reg.evtBase) byteOff wide v)).evtRestart := by
  rw [Eng.writeEvtBase, if_pos h]

theorem Eng.writeEvtBase_of_filled (e : Eng) (byteOff : Nat) (wide : Bool) (v : Nat) (h : e.evtEmpty = false) :
    e.writeEvtBase byteOff wide v = e := by
  simp [Eng.writeEvtBase, h]

/-- A write that keeps LOG2 stores the other fields of TWK_EVT_CFG and leaves the ring where it is. -/
theorem Eng.writeEvtCfg_of_same (e : Eng) {v : Nat} (h : field (Nat.land v evtCfgMask) 0 5 = field (e.reg Reg.evtCfg) 0 5) :
    e.writeEvtCfg v = e.setReg Reg.evtCfg (Nat.land v evtCfgMask) := if_pos h

theorem Eng.writeEvtCfg_of_empty (e : Eng) {v : Nat} (h : field (Nat.land v evtCfgMask) 0 5 ≠ field (e.reg Reg.evtCfg) 0 5)
    (he : e.evtEmpty = true) : e.writeEvtCfg v = (e.setReg Reg.evtCfg (Nat.land v evtCfgMask)).evtRestart :=
  (if_neg h).trans (if_pos he)

theorem Eng.writeEvtCfg_of_filled (e : Eng) {v : Nat} (h : field (Nat.land v evtCfgMask) 0 5 ≠ field (e.reg Reg.evtCfg) 0 5)
    (he : e.evtEmpty = false) : e.writeEvtCfg v = e :=
  (if_neg h).trans (if_neg (by simp [he]))

/-! ### The ports' commands as work of the engine -/

theorem exec_registerWrite_mmio {s : State} (h : s.eng.boot.powered = true) (off : Nat) (wide : Bool) (v : Nat) :
    exec (.registerWrite false off wide v) s = .next (s.leaves (s.work.mmioWrite s.hbm off wide v)) :=
  (exec_registerWrite false off wide v s).trans (s.onPower_eq _ h)

theorem exec_registerWrite_mgmt {s : State} (h : s.eng.boot.powered = true) (off : Nat) (wide : Bool) (v : Nat) :
    exec (.registerWrite true off wide v) s = .next (s.leaves (s.work.mgmtWrite s.hbm off wide v)) :=
  (exec_registerWrite true off wide v s).trans (s.onPower_eq _ h)

theorem exec_mmioRead_mmio {s : State} (h : s.eng.boot.powered = true) (off : Nat) (wide : Bool) :
    exec (.mmioRead false off wide) s = .next (s.leaves (s.work.mmioRead off wide)) :=
  (exec_mmioRead false off wide s).trans (s.onPower_eq _ h)

theorem exec_mmioRead_mgmt {s : State} (h : s.eng.boot.powered = true) (off : Nat) (wide : Bool) :
    exec (.mmioRead true off wide) s = .next (s.leaves s.work.mgmtRead) :=
  (exec_mmioRead true off wide s).trans (s.onPower_eq _ h)

/-- Writing a plain register by the MMIO port stores its writable bits, and nothing else. -/
theorem exec_registerWrite_plain {s : State} (h : s.alert) {off v : Nat} (hoff : off ∈ plainRegs) (hv : v < 2 ^ 32) :
    exec (.registerWrite false off false v) s = .next { s with eng := s.work.setReg off (Nat.land v (plainMask off)) } := by
  rw [exec_registerWrite_mmio h.1.1, h.mmioWrite, Eng.writeAccess_plain _ _ _ hoff hv]
  exact congrArg Host.Outcome.next (s.leaves_eq _ h.1.2 rfl)

/-- Reading a plain register by the MMIO port answers what it holds, and changes nothing else. -/
theorem exec_mmioRead_plain {s : State} (h : s.alert) (hw : s.eng.wlog = []) {off : Nat} (hoff : off ∈ plainRegs) :
    exec (.mmioRead false off false) s =
      .next { s with eng := { s.eng with rsp := s.eng.rsp ++ [⟨false, off, s.eng.reg off % 2 ^ 32⟩] } } := by
  have hwork : s.work = s.eng := by rw [State.work, ← hw]
  rw [exec_mmioRead_mmio h.1.1, h.mmioRead, hwork, Eng.answer, Eng.readAccess_plain _ _ hoff]
  exact congrArg Host.Outcome.next (s.leaves_eq _ h.1.2 hw)

theorem exec_registerWrite_misaligned {s : State} (h : s.on) {off : Nat} {wide : Bool} (v : Nat)
    (ha : off % (if wide then 8 else 4) ≠ 0) : exec (.registerWrite false off wide v) s = .next { s with eng := s.work } := by
  have hok := accessOk_of_misaligned ha
  rw [exec_registerWrite_mmio h.1, s.work.mmioWrite_of_served _ v h.1 (Eng.accessWaits_of_not_ok _ hok true),
    Eng.writeAccess_of_not_ok _ _ _ v hok]
  exact congrArg Host.Outcome.next (s.leaves_eq _ h.2 rfl)

/-- A misaligned write of the management port still sets the address of its reads (R437; log 12). -/
theorem exec_registerWrite_misaligned_mgmt {s : State} (h : s.on) {off : Nat} {wide : Bool} (v : Nat)
    (ha : off % (if wide then 8 else 4) ≠ 0) :
    exec (.registerWrite true off wide v) s = .next { s with eng := { s.work with mgmtAddr := off, mgmtWide := wide } } := by
  rw [exec_registerWrite_mgmt h.1, s.work.mgmtWrite_of_powered _ _ _ v h.1,
    Eng.writeAccess_of_not_ok _ _ _ v (accessOk_of_misaligned ha)]
  exact congrArg Host.Outcome.next (s.leaves_eq _ h.2 rfl)

/-- A write of TWK_EVT_BASE or TWK_EVT_CFG is carried out at once on an alert engine. -/
theorem exec_evtBase_alert {s : State} (h : s.alert) (off : Nat) (wide : Bool) (v : Nat) :
    exec (.evtBase off wide v) s = .next (s.leaves (s.work.writeAccess s.hbm false off wide v)) := by
  rw [exec_evtBase, s.onPower_eq _ h.1.1, h.mmioWrite off wide v]

/-! ### What the commands of the ports do -/

/-- A value masked to the writable bits of a 32-bit register stays one of 32 bits. -/
theorem land_mod_of_lt {v : Nat} (h : v < 2 ^ 32) (mask : Nat) : Nat.land v mask % 2 ^ 32 = Nat.land v mask :=
  Nat.mod_eq_of_lt (Nat.lt_of_le_of_lt Nat.and_le_left h)

theorem plainWrite_readsBack {s : State} (h : s.alert) {off v : Nat} (hoff : off ∈ plainRegs) (hv : v < 2 ^ 32) :
    ∃ t, t = { s with eng := s.work.setReg off (Nat.land v (plainMask off)) } ∧ exec (.registerWrite false off false v) s = .next t ∧
      exec (.mmioRead false off false) t =
        .next { t with eng := { t.eng with rsp := s.eng.rsp ++ [⟨false, off, Nat.land v (plainMask off)⟩] } } := by
  refine ⟨_, rfl, exec_registerWrite_plain h hoff hv, ?_⟩
  have halert : State.alert { s with eng := s.work.setReg off (Nat.land v (plainMask off)) } := h
  rw [exec_mmioRead_plain halert rfl hoff, Eng.setReg_reg_same, land_mod_of_lt hv]
  rfl

theorem mmioWrite_waits {s : State} (h : s.on) {off : Nat} {wide : Bool} (v : Nat) (hw : s.work.accessWaits off wide true = true) :
    exec (.registerWrite false off wide v) s = .next (s.leaves ({ s.work with
      pwr := { s.eng.pwr with accesses := s.eng.pwr.accesses ++ [⟨false, off, wide, some v⟩] } } : Eng).wake) := by
  rw [exec_registerWrite_mmio h.1, s.work.mmioWrite_of_waits _ v h.1 hw]
  rfl

theorem mmioRead_waits {s : State} (h : s.on) {off : Nat} {wide : Bool} (hw : s.work.accessWaits off wide false = true) :
    exec (.mmioRead false off wide) s = .next (s.leaves ({ s.work with
      pwr := { s.eng.pwr with accesses := s.eng.pwr.accesses ++ [⟨false, off, wide, none⟩] } } : Eng).wake) := by
  rw [exec_mmioRead_mmio h.1, s.work.mmioRead_of_waits h.1 hw]
  rfl

theorem mmioRead_served {s : State} (h : s.on) {off : Nat} {wide : Bool} (hw : s.work.accessWaits off wide false = false) :
    ∃ (e : Eng) (x : Nat), (x, e) = s.work.readAccess false off wide ∧
      exec (.mmioRead false off wide) s = .next (s.leaves { e with rsp := s.eng.rsp ++ [⟨false, off, x⟩] }) ∧
      ((∀ r ∈ [Reg.shuTtStatus, Reg.splQstat], off ≠ r ∧ off + 4 ≠ r) → e = s.work) := by
  refine ⟨_, _, rfl, ?_, Eng.readAccess_snd_of_ne _ _ _⟩
  rw [exec_mmioRead_mmio h.1, s.work.mmioRead_of_served h.1 hw, Eng.answer_eq, Eng.readAccess_rsp]
  rfl

theorem managementAddress_sets {s : State} (h : s.on) (a : Nat) :
    exec (.managementAddress a) s = .next { s with eng := { s.work with mgmtAddr := field a 0 23, mgmtWide := bit a 23 } } := by
  rw [exec_managementAddress, s.onPower_eq _ h.1]
  exact congrArg Host.Outcome.next (s.leaves_eq _ h.2 rfl)

theorem mgmtRead_answers {s : State} (h : s.on) : ∃ (e : Eng) (x : Nat), (x, e) = s.work.readAccess true s.eng.mgmtAddr s.eng.mgmtWide ∧
    ∀ off wide, exec (.mmioRead true off wide) s = .next (s.leaves { e with rsp := e.rsp ++ [⟨true, s.eng.mgmtAddr, x⟩] }) := by
  refine ⟨_, _, rfl, fun off wide => ?_⟩
  rw [exec_mmioRead_mgmt h.1, s.work.mgmtRead_of_powered h.1, Eng.answer_eq]
  rfl

theorem evtBase_filled {s : State} (h : s.alert) {off v : Nat} {wide : Bool} (hv : halfOk off wide v = true) (he : s.eng.evtEmpty = false) :
    exec (.evtBase (Reg.evtBase + off) wide v) s = .next { s with eng := s.work } := by
  rw [exec_evtBase_alert h, Eng.writeAccess_evtBase _ _ _ hv, s.work.writeEvtBase_of_filled _ _ _ he]
  exact congrArg Host.Outcome.next (s.leaves_eq _ h.1.2 rfl)

theorem evtBase_empty {s : State} (h : s.alert) {off v : Nat} {wide : Bool} (hv : halfOk off wide v = true) (he : s.eng.evtEmpty = true) :
    exec (.evtBase (Reg.evtBase + off) wide v) s = .next { s with
      eng := (s.work.setReg Reg.evtBase (mergeHalf (s.eng.reg Reg.evtBase) off wide v)).evtRestart } := by
  rw [exec_evtBase_alert h, Eng.writeAccess_evtBase _ _ _ hv, s.work.writeEvtBase_of_empty _ _ _ he]
  exact congrArg Host.Outcome.next (s.leaves_eq _ h.1.2 rfl)

theorem evtCfg_sameLog {s : State} (h : s.alert) {v : Nat} (hv : v < 2 ^ 32)
    (hl : field (Nat.land v evtCfgMask) 0 5 = field (s.eng.reg Reg.evtCfg) 0 5) :
    exec (.evtBase Reg.evtCfg false v) s = .next { s with eng := s.work.setReg Reg.evtCfg (Nat.land v evtCfgMask) } := by
  rw [exec_evtBase_alert h, Eng.writeAccess_evtCfg _ _ _ hv, s.work.writeEvtCfg_of_same hl]
  exact congrArg Host.Outcome.next (s.leaves_eq _ h.1.2 rfl)

theorem evtCfg_newLog_filled {s : State} (h : s.alert) {v : Nat} (hv : v < 2 ^ 32)
    (hl : field (Nat.land v evtCfgMask) 0 5 ≠ field (s.eng.reg Reg.evtCfg) 0 5) (he : s.eng.evtEmpty = false) :
    exec (.evtBase Reg.evtCfg false v) s = .next { s with eng := s.work } := by
  rw [exec_evtBase_alert h, Eng.writeAccess_evtCfg _ _ _ hv, s.work.writeEvtCfg_of_filled hl he]
  exact congrArg Host.Outcome.next (s.leaves_eq _ h.1.2 rfl)

theorem evtCfg_newLog_empty {s : State} (h : s.alert) {v : Nat} (hv : v < 2 ^ 32)
    (hl : field (Nat.land v evtCfgMask) 0 5 ≠ field (s.eng.reg Reg.evtCfg) 0 5) (he : s.eng.evtEmpty = true) :
    exec (.evtBase Reg.evtCfg false v) s = .next { s with eng := (s.work.setReg Reg.evtCfg (Nat.land v evtCfgMask)).evtRestart } := by
  rw [exec_evtBase_alert h, Eng.writeAccess_evtCfg _ _ _ hv, s.work.writeEvtCfg_of_empty hl he]
  exact congrArg Host.Outcome.next (s.leaves_eq _ h.1.2 rfl)

end Sys2Proof.Machine

open Sys2Proof Sys2Proof.Machine

/-- Settles O57: each clause is the access gate (open, shut, or passed by an unaccepted access) followed by the register
that the address reaches. -/
theorem registerAccessesReachTheirRegister : Obligations.RegisterAccessesReachTheirRegister := by
  unfold Obligations.RegisterAccessesReachTheirRegister
  refine ⟨fun s off v h hv hoff => ?_, fun s off v wide h ha => ?_, fun s off v wide h => ?_, fun s a h => ?_,
    fun s off v wide h hv => ?_, fun s v c h hv hc => ?_⟩
  · have hplain : off ∈ plainRegs := (show _ ⊆ plainRegs by decide) hoff
    exact plainWrite_readsBack h hplain hv
  · exact ⟨exec_registerWrite_misaligned h v ha, exec_registerWrite_misaligned_mgmt h v ha⟩
  · exact ⟨mmioWrite_waits h v, mmioRead_waits h, mmioRead_served h⟩
  · exact ⟨managementAddress_sets h a, mgmtRead_answers h⟩
  · exact ⟨evtBase_filled h hv, fun he => ⟨_, rfl, evtBase_empty h hv he⟩⟩
  · subst hc
    exact ⟨evtCfg_sameLog h hv, fun hl => ⟨evtCfg_newLog_filled h hv hl, fun he => ⟨_, rfl, evtCfg_newLog_empty h hv hl he⟩⟩⟩

end

section
/-! SUPPORT. Work of Tape: the writes to HBM and the queue that it leaves alone (R409, R412). -/

namespace Sys2Proof.Machine

/-- A command that has written nothing sees HBM as it stood. -/
theorem Eng.view_of_wlog_nil (e : Eng) (m : Mem) (h : e.wlog = []) : e.view m = m := by
  rw [Eng.view, h, List.foldr_nil]

/-- Tape's events reach the event ring as queued records, never as writes of the command itself (R412, R417). -/
theorem Eng.raiseEach_wlog (codes : List Nat) (arg : Nat) (polder : Option Nat) (tag : Nat) (e : Eng) :
    (codes.foldl (fun e c => e.raise c arg polder tag) e).wlog = e.wlog := by
  induction codes generalizing e with
  | nil => rfl
  | cons c codes ih => rw [List.foldl_cons, ih, Eng.raise_wlog]

@[simp] theorem mirrorWrite_wlog (t : Tape) (e : Eng) : (mirrorWrite t e).2.wlog = e.wlog := by
  unfold mirrorWrite
  split
  · exact Eng.raiseEach_wlog _ _ _ _ _
  · rfl

/-- Work of Tape always completes, whether or not it writes the mirror, with HBM and the queue as they were. -/
theorem State.tapeApply_next (s : State) (mirror : Bool) (f : Tape → Eng → Tape) :
    ∃ t, s.tapeApply mirror f = .next t ∧ t.hbm = s.hbm ∧ t.pending = s.pending := by
  refine ⟨_, rfl, Eng.view_of_wlog_nil _ _ ?_, rfl⟩
  cases mirror with
  | false => rfl
  | true => exact mirrorWrite_wlog _ _

/-- A command that is not of Tape completes, with Tape and the queue as they were. -/
theorem exec_next_of_engine (c : Instr) (s : State) (hc : c.ofTape = false) :
    ∃ t, exec c s = .next t ∧ t.pending = s.pending ∧ t.tape = s.tape := by
  rcases exec_shape s c with ⟨-, f, hshape⟩ | ⟨-, -, f, hshape⟩ | ⟨htape, -⟩
  · obtain ⟨t, ht, hpending, htape, -⟩ := State.onPower_next s f
    exact ⟨t, hshape.trans ht, hpending, htape⟩
  · obtain ⟨t, ht, hpending, htape, -⟩ := State.apply_next s f
    exact ⟨t, hshape.trans ht, hpending, htape⟩
  · cases hc.symm.trans htape

/-- A command of Tape completes, with HBM and the queue as they were. -/
theorem exec_next_of_tape (c : Instr) (s : State) (hc : c.ofTape = true) :
    ∃ t, exec c s = .next t ∧ t.hbm = s.hbm ∧ t.pending = s.pending := by
  rcases exec_shape s c with ⟨hengine, -⟩ | ⟨hengine, -⟩ | ⟨-, mirror, f, hshape⟩
  · cases hc.symm.trans hengine
  · cases hc.symm.trans hengine
  · rw [hshape]
    exact s.tapeApply_next mirror f

end Sys2Proof.Machine

open Sys2Proof Sys2Proof.Machine

/-- Settles O5: a command is work of the engine, which carries Tape along, or work of Tape, which carries HBM and the
queue along. -/
theorem tapeStandsApart : Obligations.TapeStandsApart := by
  unfold Obligations.TapeStandsApart
  refine fun c s t hexec => ⟨fun hc => ?_, fun hc => ?_⟩
  · obtain ⟨u, hu, -, htape⟩ := exec_next_of_engine c s hc
    cases hu.symm.trans hexec
    exact htape
  · obtain ⟨u, hu, hframe⟩ := exec_next_of_tape c s hc
    cases hu.symm.trans hexec
    exact hframe

end

section
/-! SUPPORT. LOAD, ABORT and the end of a local read, by the state of the Pattern loader (R33, R45 to R47). -/

namespace Sys2Proof.Machine

/-! ### Commands of a powered engine -/

/-- A powered engine carries out its work, and leaves what the work made of it. -/
theorem State.on.onPower {s : State} (h : s.on) (f : Mem → Eng → Eng) : s.onPower f = .next (s.leaves (f s.hbm s.work)) :=
  s.onPower_eq f h.1

/-- A powered engine leaves what its work made of it. -/
theorem State.on.onPower_leaves {s : State} (h : s.on) {f : Mem → Eng → Eng} {e : Eng} (hf : f s.hbm s.work = e) :
    s.onPower f = .next (s.leaves e) := by
  rw [h.onPower f, hf]

/-- Work that touches neither the Spool nor HBM leaves the engine just as it made it. -/
theorem State.on.onPower_eng {s : State} (h : s.on) {f : Mem → Eng → Eng} {e : Eng} (hf : f s.hbm s.work = e)
    (hspool : e.spool = s.eng.spool) (hwlog : e.wlog = []) : s.onPower f = .next { s with eng := e } := by
  rw [h.onPower_leaves hf, s.leaves_eq e (hspool ▸ h.2) hwlog]

/-! ### LOAD and ABORT (R45, R47) -/

/-- A length that an image can have (R33; log 25). -/
def imageLength (n : Nat) : Prop := n % 64 = 0 ∧ 64 ≤ n ∧ n ≤ 16777216

/-- The loader's test of a length refuses just those that no image has. -/
theorem lengthRefused_iff (n : Nat) : (decide (n % 64 ≠ 0) || decide (n < 64) || decide (n > 16777216)) = true ↔ ¬ imageLength n := by
  simp only [imageLength, Bool.or_eq_true, decide_eq_true_eq]
  omega

/-- The engine as LOAD acts on it, once BCAST is stored. -/
def State.bcastStored (s : State) (b : Bool) : Eng := s.work.setReg Reg.patCtrl (bitAt 1 b)

/-- BCAST lies apart from the registers that name the image. -/
theorem State.bcastStored_reg (s : State) (b : Bool) {off : Nat} (h : off ≠ Reg.patCtrl) :
    (s.bcastStored b).reg off = s.eng.reg off := Eng.setReg_reg_other _ _ _ _ h

theorem State.bcastStored_bcast (s : State) (b : Bool) : bit ((s.bcastStored b).reg Reg.patCtrl) 1 = b := by
  rw [State.bcastStored, Eng.setReg_reg_same]
  cases b <;> rfl

/-- On an alert engine LOAD stores BCAST and then acts by the loader's state. -/
theorem exec_load_alert {s : State} (h : s.alert) (b : Bool) :
    exec (.load b) s = .next (s.leaves ((s.bcastStored b).writeLoad s.hbm)) := by
  rw [exec_load, h.1.onPower, h.mmioWrite]
  cases b <;> rfl

theorem exec_abort_alert {s : State} (h : s.alert) :
    exec .abort s = .next (s.leaves { s.work.setReg Reg.patCtrl 0 with loader := { s.eng.loader with sending := false } }) := by
  rw [exec_abort, h.1.onPower, h.mmioWrite]
  rfl

theorem Eng.writeLoad_latches (e : Eng) (m : Mem) (h : e.loader.st = .verifying ∨ e.loader.st = .applying) :
    e.writeLoad m = { e with loader := { e.loader with loadPend := true } } := by
  rcases h with h | h <;> simp [Eng.writeLoad, h]

theorem Eng.writeLoad_loads (e : Eng) (m : Mem) (hv : e.loader.st ≠ .verifying) (ha : e.loader.st ≠ .applying) :
    e.writeLoad m = e.loadNow m := by
  simp [Eng.writeLoad, hv, ha]

theorem Eng.loadNow_refuses (e : Eng) (m : Mem) (hreload : e.loader.reloadNeeded = false) (hres : e.anyResident = true) :
    e.loadNow m = { e with loader := { e.loader with loadRefused := true } } := by
  simp [Eng.loadNow, hreload, hres]

/-- With no polder resident a possible length starts the local read of the image that PAT_SRC and PAT_LEN name. -/
theorem Eng.loadNow_reads (e : Eng) (m : Mem) (hreload : e.loader.reloadNeeded = false) (hres : e.anyResident = false)
    (hlen : imageLength (e.reg Reg.patLen)) :
    ∃ l, e.loadNow m = ({ e with loader := l } : Eng).updateReady ∧ l.st = .receiving ∧ l.localRead = true ∧
      l.src = e.reg Reg.patSrc ∧ l.len = e.reg Reg.patLen ∧ l.bcast = bit (e.reg Reg.patCtrl) 1 ∧ l.frames = [] ∧
      l.staged = none ∧ l.loadPend = false ∧ l.reload = false := by
  have hok := Bool.eq_false_iff.2 (fun hbad => (lengthRefused_iff _).1 hbad hlen)
  simp only [Eng.loadNow, hreload, hres, hok, if_false, Bool.false_eq_true]
  exact ⟨_, rfl, rfl, rfl, rfl, rfl, rfl, rfl, rfl, rfl, rfl⟩

/-- With no polder resident a length that no image has leaves the loader REJECTED with BAD_LAYOUT. -/
theorem Eng.loadNow_rejects (e : Eng) (m : Mem) (hreload : e.loader.reloadNeeded = false) (hres : e.anyResident = false)
    (hlen : ¬ imageLength (e.reg Reg.patLen)) :
    ∃ l, e.loadNow m = (({ e with loader := l } : Eng).raise 0x0702 l.arg none 0).updateReady ∧ l.st = .rejected ∧ l.err = 0x03 ∧
      l.staged = none := by
  have hbad := (lengthRefused_iff _).2 hlen
  simp only [Eng.loadNow, hreload, hres, hbad, if_true, if_false, Bool.false_eq_true]
  exact ⟨_, rfl, rfl, rfl, rfl⟩

/-! ### The end of a local read (R33, Table 16-1) -/

theorem Eng.localRead_done (e : Eng) (m : Mem) (hst : e.loader.st = .receiving) (hl : e.loader.localRead = true)
    (hw : e.boot.wavesDone.length = 6) (hlinks : e.linksDone = true) :
    e.localRead m = { e with loader := { e.loader with st := .verifying, image := e.rd m e.loader.src e.loader.len } } := by
  simp [Eng.localRead, hst, hl, hw, hlinks]

theorem Eng.localRead_waits (e : Eng) (m : Mem) (h : e.loader.st ≠ .receiving ∨ e.loader.localRead = false ∨
    e.boot.wavesDone.length ≠ 6 ∨ e.linksDone = false) : e.localRead m = e := by
  rcases h with h | h | h | h <;> simp [Eng.localRead, h]

end Sys2Proof.Machine

open Sys2Proof Sys2Proof.Machine

/-- Settles O11: LOAD is the write of BCAST followed by the loader's own step for its state; the end of a local read needs
all four of its conditions. -/
theorem loadsAreTakenAndWaitForBringUp : Obligations.LoadsAreTakenAndWaitForBringUp := by
  unfold Obligations.LoadsAreTakenAndWaitForBringUp
  refine ⟨fun s b h => ?_, fun s h => ⟨fun hst hl hw hlinks => ?_, fun hcase => ?_⟩⟩
  · have hlen := s.bcastStored_reg b (off := Reg.patLen) (by decide)
    have hsrc := s.bcastStored_reg b (off := Reg.patSrc) (by decide)
    rw [exec_load_alert h b]
    refine ⟨fun hst => by rw [(s.bcastStored b).writeLoad_latches _ hst]; rfl, fun hv ha hreload => ?_, exec_abort_alert h⟩
    rw [(s.bcastStored b).writeLoad_loads _ hv ha]
    refine ⟨fun hres => by rw [(s.bcastStored b).loadNow_refuses _ hreload hres]; rfl, fun hres hmod hmin hmax => ?_, fun hres hbad => ?_⟩
    · obtain ⟨l, hload, hl⟩ := (s.bcastStored b).loadNow_reads s.hbm hreload hres (hlen ▸ ⟨hmod, hmin, hmax⟩)
      rw [hlen, hsrc, s.bcastStored_bcast] at hl
      rw [hload]
      exact ⟨l, rfl, hl⟩
    · have hlength : ¬ imageLength ((s.bcastStored b).reg Reg.patLen) := by
        rw [hlen, imageLength]
        omega
      obtain ⟨l, hload, hl⟩ := (s.bcastStored b).loadNow_rejects s.hbm hreload hres hlength
      rw [hload]
      exact ⟨l, rfl, hl⟩
  · exact h.onPower_eng (Eng.localRead_done s.work s.hbm hst hl hw hlinks) rfl rfl
  · exact h.onPower_eng (Eng.localRead_waits s.work s.hbm hcase) rfl rfl

end

section
/-! SUPPORT. The end of a verification, and what a revoked key slot does to one (R32, R33, R47, R57). -/

namespace Sys2Proof.Machine

/-! ### Reports of a load's end (R52) -/

/-- Whether a root's count takes no report of a chip: closed, the chip counted already, or outside TOPOLOGY. -/
def Loader.deaf (l : Loader) (chip : Nat) : Bool :=
  l.hallClosed || l.hallOk.contains chip || l.hallBad.contains chip || !(l.rootTopo.hasTray (chipRack chip) (chipTray chip))

/-- The count with one more member. -/
def Loader.counted (l : Loader) (chip : Nat) (applied : Bool) : Loader :=
  if applied then { l with hallOk := l.hallOk ++ [chip] } else { l with hallBad := l.hallBad ++ [chip] }

@[simp] theorem Loader.counted_rootTopo (l : Loader) (chip : Nat) (applied : Bool) : (l.counted chip applied).rootTopo = l.rootTopo := by
  cases applied <;> rfl

/-- The count closed: every member not counted as applied counts as not applied. -/
def Loader.closed (l : Loader) : Loader :=
  { l with hallClosed := true, hallBadCount := l.rootTopo.jobChips - l.hallOk.length }

/-- The count after a report: closed once every member has reported. -/
def Loader.tallied (l : Loader) : Loader :=
  if l.rootTopo.jobChips ≤ l.hallOk.length + l.hallBad.length then l.closed else l

@[simp] theorem State.work_loader (s : State) : s.work.loader = s.eng.loader := rfl

theorem Eng.closeHall_of_open (e : Eng) (h : e.loader.hallClosed = false) : e.closeHall = { e with loader := e.loader.closed } := by
  simp [Eng.closeHall, h, Loader.closed]

theorem Eng.countReport_deaf (e : Eng) (chip : Nat) (applied : Bool) (h : e.loader.deaf chip = true) : e.countReport chip applied = e :=
  if_pos h

/-- A report that is taken closes the count once every member has reported. -/
theorem Eng.countReport_taken (e : Eng) (chip : Nat) (applied : Bool) (h : e.loader.deaf chip = false) :
    e.countReport chip applied = { e with loader := (e.loader.counted chip applied).tallied } := by
  have hopen : (e.loader.counted chip applied).hallClosed = false := by
    simp only [Loader.deaf, Bool.or_eq_false_iff] at h
    obtain ⟨⟨⟨hclosed, -⟩, -⟩, -⟩ := h
    cases applied <;> exact hclosed
  have htake : e.countReport chip applied =
      if e.loader.rootTopo.jobChips ≤ (e.loader.counted chip applied).hallOk.length + (e.loader.counted chip applied).hallBad.length then
        Eng.closeHall { e with loader := e.loader.counted chip applied }
      else { e with loader := e.loader.counted chip applied } :=
    if_neg (fun hdeaf => Bool.false_ne_true (h.symm.trans hdeaf))
  rw [htake, Eng.closeHall_of_open _ hopen, Loader.tallied, Loader.counted_rootTopo]
  exact (apply_ite (fun l => ({ e with loader := l } : Eng)) _ _ _).symm

@[simp] theorem Eng.countReport_loadPend (e : Eng) (chip : Nat) (applied : Bool) :
    (e.countReport chip applied).loader.loadPend = e.loader.loadPend := by
  cases h : e.loader.deaf chip with
  | true => rw [e.countReport_deaf chip applied h]
  | false =>
    rw [e.countReport_taken chip applied h]
    cases applied <;> simp [Loader.tallied, Loader.counted, Loader.closed, apply_ite Loader.loadPend]

@[simp] theorem Eng.takeReport_loadPend (e : Eng) (chip st : Nat) : (e.takeReport chip st).loader.loadPend = e.loader.loadPend := by
  unfold Eng.takeReport
  repeat' split
  all_goals simp

@[simp] theorem Eng.reportState_loadPend (e : Eng) : e.reportState.loader.loadPend = e.loader.loadPend := by
  unfold Eng.reportState
  split <;> simp

/-! ### The end of a verification (R33) -/

theorem Eng.runPendLoad_none (e : Eng) (m : Mem) (h : e.loader.loadPend = false) : e.runPendLoad m = e := by
  simp [Eng.runPendLoad, h]

/-- With no LOAD latched, a failed load reports its state and that is all. -/
theorem Eng.rejectLoad_eq (e : Eng) (m : Mem) (st : LoaderState) (err sec event : Nat) (h : e.loader.loadPend = false) :
    e.rejectLoad m st err sec event =
      ((({ e with loader := { e.loader with st := st, err := err, errSection := sec, staged := none } } : Eng).raise event
        (err + sec * 2 ^ 8 + e.loader.baysUncfg * 2 ^ 16) none 0).reportState).updateReady := by
  rw [Eng.rejectLoad, Eng.runPendLoad_none]
  · rfl
  · simp [h]

/-- What an engine verifies: the local image, or as much of the broadcast as it holds. -/
def Eng.verdict (e : Eng) : PatCheck :=
  if e.loader.localRead = true then e.verifyImage .full none e.loader.image []
  else e.verifyImage .full none e.loader.gathered e.loader.missing

/-- The engine once its image has passed: APPLYING, and sending where it is the root of a broadcast. -/
def Eng.applying (e : Eng) (p : Pattern) (bays : List Nat) (root : Bool) : Eng :=
  { e with loader := { e.loader with
    st := .applying, staged := some p, stagedBays := bays, sending := root, sendNext := 0, sendDebt := 0
    hallClosed := if root then false else e.loader.hallClosed, hallOk := if root then [] else e.loader.hallOk
    hallBad := [], hallBadCount := if root then 0 else e.loader.hallBadCount } }

theorem Eng.verifyStaged_unreadable (e : Eng) (m : Mem) (h : e.badFrames ≠ []) : e.verifyStaged m = e.dropFrames := by
  simp [Eng.verifyStaged, h]

/-- The verdict is that on the image and the missing frames which the loader's mode of reception gives. -/
theorem Eng.verdict_eq (e : Eng) : e.verifyImage .full none (if e.loader.localRead = true then e.loader.image else e.loader.gathered)
    (if e.loader.localRead = true then [] else e.loader.missing) = e.verdict := by
  unfold Eng.verdict
  cases e.loader.localRead <;> rfl

theorem Eng.verifyStaged_err (e : Eng) (m : Mem) (h : e.badFrames = []) {code sec : Nat} (hv : e.verdict = .err code sec) :
    e.verifyStaged m = e.rejectLoad m .rejected code sec 0x0702 := by
  simp [Eng.verifyStaged, h, e.verdict_eq, hv]

theorem Eng.verifyStaged_ok (e : Eng) (m : Mem) (h : e.badFrames = []) {p : Pattern} {bays : List Nat} (hv : e.verdict = .ok p bays) :
    e.verifyStaged m = if e.loader.localRead && e.loader.bcast then (e.applying p bays true).rootSend else e.applying p bays false := by
  cases hroot : (e.loader.localRead && e.loader.bcast) <;> simp [Eng.verifyStaged, h, e.verdict_eq, hv, hroot, Eng.applying]

/-! ### Revoked key slots (R32) -/

/-- No image whose KEY_SLOT names a revoked slot, or none at all, passes step 4 of Table 2-4. -/
theorem Eng.verifyImage_revoked (e : Eng) (path : PatPath) (base : Option Pattern) (img : List Byte) (missing : List Nat)
    (h : ∀ k, e.boot.keys[rdLE img 26 1]? = some k → k.revoked = true) :
    ∃ code sec, e.verifyImage path base img missing = .err code sec := by
  unfold Eng.verifyImage
  dsimp only
  split
  · exact ⟨_, _, rfl⟩
  split
  · exact ⟨_, _, rfl⟩
  split
  · exact ⟨_, _, rfl⟩
  split
  · exact ⟨_, _, rfl⟩
  next k hk =>
    rw [if_pos (by simp [h k hk])]
    exact ⟨_, _, rfl⟩

/-! ### VERIFY_DONE -/

theorem exec_verifyDone_idle {s : State} (h : s.on) (hst : s.eng.loader.st ≠ .verifying) :
    exec .verifyDone s = .next { s with eng := s.work } :=
  (exec_verifyDone s).trans (h.onPower_eng (if_neg (by simpa using hst)) rfl rfl)

theorem exec_verifyDone_verifies {s : State} (h : s.on) (hst : s.eng.loader.st = .verifying) :
    exec .verifyDone s = .next (s.leaves (s.work.verifyStaged s.hbm)) := by
  rw [exec_verifyDone, h.onPower]
  exact congrArg (fun e => Host.Outcome.next (s.leaves e)) (if_pos (by simpa using hst))

theorem exec_verifyDone_rejects {s : State} (h : s.on) (hst : s.eng.loader.st = .verifying) (hbad : s.work.badFrames = [])
    {code sec : Nat} (hv : s.work.verdict = .err code sec) (hpend : s.eng.loader.loadPend = false) :
    exec .verifyDone s = .next (s.leaves (((({ s.work with loader :=
        { s.eng.loader with st := .rejected, err := code, errSection := sec, staged := none } } : Eng).raise 0x0702
      (code + sec * 2 ^ 8 + s.eng.loader.baysUncfg * 2 ^ 16) none 0).reportState).updateReady)) := by
  rw [exec_verifyDone_verifies h hst, s.work.verifyStaged_err s.hbm hbad hv, s.work.rejectLoad_eq _ _ _ _ _ hpend]
  rfl

theorem exec_verifyDone_passes {s : State} (h : s.on) (hst : s.eng.loader.st = .verifying) (hbad : s.work.badFrames = [])
    {p : Pattern} {bays : List Nat} (hv : s.work.verdict = .ok p bays) :
    exec .verifyDone s = .next (if s.eng.loader.localRead && s.eng.loader.bcast then s.leaves (s.work.applying p bays true).rootSend
      else { s with eng := s.work.applying p bays false }) := by
  rw [exec_verifyDone_verifies h hst, s.work.verifyStaged_ok s.hbm hbad hv]
  cases hroot : (s.eng.loader.localRead && s.eng.loader.bcast)
  · simp only [State.work_loader, hroot, if_false, Bool.false_eq_true]
    rw [s.leaves_eq _ (by exact h.2) rfl]
  · simp only [State.work_loader, hroot, if_true]

end Sys2Proof.Machine

open Sys2Proof Sys2Proof.Machine

/-- Settles O12: a verification ends by its verdict, and no verdict on an image under a revoked key slot is good. -/
theorem verificationAndRevocation : Obligations.VerificationAndRevocation := by
  unfold Obligations.VerificationAndRevocation
  refine ⟨fun s h => ⟨exec_verifyDone_idle h, fun hst hbad => ?_, fun hst hbad r hr => ?_⟩, fun s k h => ?_, Eng.verifyImage_revoked⟩
  · rw [exec_verifyDone_verifies h hst, s.work.verifyStaged_unreadable s.hbm hbad]
  · have hverdict : s.work.verdict = r := hr.symm
    cases r with
    | err code sec => exact exec_verifyDone_rejects h hst hbad hverdict
    | ok p bays => exact exec_verifyDone_passes h hst hbad hverdict
  · exact (exec_keySlotRevoked k s).trans (h.onPower_eng rfl rfl rfl)

end

section
/-! SUPPORT. Repair requests served from the own copy, and reports counted or passed on (R50, R52). -/

namespace Sys2Proof.Machine

/-! ### Frames sent from the own copy (R48, R50) -/

/-- Frame `n` of what a loader holds, sealed, as it leaves for a chip. -/
def Loader.frameTx (l : Loader) (dst flags n : Nat) : Option Tx :=
  (l.frame? n).map (fun b => (⟨none, 7, .pattern dst (sealPat
    { patternId := l.patternId, seq := n, total := l.count, plen := b.length, fflags := flags } b) b⟩ : Tx))

theorem Eng.sendFrameNo_eq (e : Eng) (dst n flags : Nat) :
    e.sendFrameNo dst n flags = { e with tx := e.tx ++ (e.loader.frameTx dst flags n).toList } := by
  unfold Eng.sendFrameNo Loader.frameTx
  cases e.loader.frame? n with
  | none => simp
  | some b => rfl

/-- Sending frames one by one appends those that are held, in the order asked. -/
theorem Eng.sendFrames_eq (e : Eng) (dst flags : Nat) (l : List Nat) :
    l.foldl (fun (e : Eng) n => e.sendFrameNo dst n flags) e = { e with tx := e.tx ++ l.filterMap (e.loader.frameTx dst flags) } := by
  induction l generalizing e with
  | nil => simp
  | cons n l ih =>
    rw [List.foldl_cons, ih, Eng.sendFrameNo_eq, List.filterMap_cons]
    cases e.loader.frameTx dst flags n <;> simp

/-! ### Serving a request (R50) -/

/-- Where every asked frame is held, a tray leader sends them to the asker and asks nobody. -/
theorem Eng.serveTray_held (e : Eng) {dst : Nat} (hdst : dst ≠ e.chip) {l : List Nat} (hl : ∀ n ∈ l, (e.loader.frame? n).isSome = true) :
    e.serveTray dst l = { e with tx := e.tx ++ l.filterMap (e.loader.frameTx dst 2) } := by
  have hown : l.filter (fun n => (e.loader.frame? n).isSome && dst != e.chip) = l :=
    List.filter_eq_self.2 (fun n hn => by simp [hl n hn, hdst])
  have hrest : l.filter (fun n => !l.contains n) = [] := List.filter_eq_nil_iff.2 (fun n hn => by simp [hn])
  simp only [Eng.serveTray, hown, hrest, Eng.sendFrames_eq, List.filterMap_nil, List.map_nil, List.eraseDups_nil, List.foldl_nil,
    List.isEmpty_nil, Bool.or_true, if_true]

/-- Where every asked frame is held, a request from the tree is answered with them and goes no further. -/
theorem Eng.serveRack_held (e : Eng) (src : Nat) {l : List Nat} (hl : ∀ n ∈ l, (e.loader.frame? n).isSome = true) :
    e.serveRack src l = { e with tx := e.tx ++ l.filterMap (e.loader.frameTx src 2) } := by
  have hown : l.filter (fun n => (e.loader.frame? n).isSome) = l := List.filter_eq_self.2 hl
  have hrest : l.filter (fun n => !l.contains n) = [] := List.filter_eq_nil_iff.2 (fun n hn => by simp [hn])
  unfold Eng.serveRack
  dsimp only
  rw [hown, hrest, Eng.sendFrames_eq]
  split
  · rfl
  · simp

theorem Eng.takeBitmap_idle (e : Eng) (src : Nat) (l : List Nat) (h : e.leadsTray = false) : e.takeBitmap src l = e := by
  simp [Eng.takeBitmap, h]

theorem Eng.takeBitmap_held (e : Eng) {src : Nat} (hsrc : src ≠ e.chip) {l : List Nat} (hlead : e.leadsTray = true)
    (hl : ∀ n ∈ l, (e.loader.frame? n).isSome = true) :
    e.takeBitmap src l = { e with
      tx := e.tx ++ l.filterMap (e.loader.frameTx src 2), loader := { e.loader with bitmaps := KV.put e.loader.bitmaps src l } } := by
  rw [Eng.takeBitmap, if_pos hlead]
  exact Eng.serveTray_held { e with loader := { e.loader with bitmaps := KV.put e.loader.bitmaps src l } } hsrc hl

/-! ### Reports at the root and elsewhere (R52) -/

theorem Eng.takeReport_root (e : Eng) (chip st : Nat) (h : e.loader.hallClosed = false) :
    e.takeReport chip st = e.countReport chip (st == 5) := by
  simp [Eng.takeReport, h]

theorem Eng.takeReport_up (e : Eng) (chip st : Nat) (h : e.loader.hallClosed = true) :
    e.takeReport chip st = { e with tx := e.tx ++ (match e.above with
      | some u => [⟨none, 7, .patReport u chip st⟩]
      | none => []) } := by
  simp only [Eng.takeReport, h]
  cases e.above with
  | none => simp
  | some u => rfl

/-- 100 ms after its END a root's open count closes. -/
theorem Eng.hallLate_closes (e : Eng) (hopen : e.loader.hallClosed = false) (hsent : e.loader.sending = false) :
    e.hallLate = { e with
      time := { e.time with ns := max e.time.ns (e.loader.endNs + 100000000) }, loader := e.loader.closed } := by
  simp only [Eng.hallLate, hopen, hsent]
  exact Eng.closeHall_of_open (e.reach (e.loader.endNs + 100000000)) hopen

theorem Eng.hallLate_idle (e : Eng) (h : e.loader.hallClosed = true ∨ e.loader.sending = true) : e.hallLate = e := by
  rcases h with h | h <;> simp [Eng.hallLate, h]

end Sys2Proof.Machine

open Sys2Proof Sys2Proof.Machine

/-- Settles O16: where everything asked is held, serving is the sending of frames in order; a report is counted at the
root, and sent on by any other chip. -/
theorem leadersServeAndCountReports : Obligations.LeadersServeAndCountReports := by
  unfold Obligations.LeadersServeAndCountReports
  refine ⟨⟨fun s src l h => ⟨fun hlead => ?_, fun hlead hsrc hl => ⟨_, ?_, rfl⟩⟩, fun s src l h hl => ?_⟩,
    fun s chip st h hopen => ⟨fun hknown => ?_, fun hok hbad htopo => ⟨_, rfl, ?_⟩⟩, fun s chip st h hclosed => ?_,
    fun s h => ⟨fun hopen hsent => ?_, fun hcase => ?_⟩⟩
  · exact (exec_repairBitmap src l s).trans (h.onPower_eng (s.work.takeBitmap_idle src l hlead) rfl rfl)
  · exact (exec_repairBitmap src l s).trans (h.onPower_eng (s.work.takeBitmap_held hsrc hlead hl) rfl rfl)
  · exact (exec_repairRequest src l s).trans (h.onPower_eng (s.work.serveRack_held src hl) rfl rfl)
  · have hdeaf : s.work.loader.deaf chip = true := by
      rcases hknown with hk | hk | hk <;>
        simp only [State.work_loader, Loader.deaf, hk, Bool.or_true, Bool.true_or, Bool.not_false]
    exact (exec_stateReport chip st s).trans
      (h.onPower_eng ((s.work.takeReport_root chip st hopen).trans (s.work.countReport_deaf chip _ hdeaf)) rfl rfl)
  · have hdeaf : s.work.loader.deaf chip = false := by
      simp only [State.work_loader, Loader.deaf, hopen, hok, hbad, htopo, Bool.or_false, Bool.not_true]
    have hcount := (s.work.takeReport_root chip st hopen).trans (s.work.countReport_taken chip (st == 5) hdeaf)
    have hst : (if st = 5 then { s.eng.loader with hallOk := s.eng.loader.hallOk ++ [chip] }
        else { s.eng.loader with hallBad := s.eng.loader.hallBad ++ [chip] }) = s.eng.loader.counted chip (st == 5) := by
      by_cases hst : st = 5 <;> simp [hst, Loader.counted]
    have htopo : (s.eng.loader.counted chip (st == 5)).rootTopo = s.eng.loader.rootTopo := Loader.counted_rootTopo _ _ _
    rw [hst, ← htopo]
    exact (exec_stateReport chip st s).trans (h.onPower_eng hcount rfl rfl)
  · exact (exec_stateReport chip st s).trans (h.onPower_eng (s.work.takeReport_up chip st hclosed) rfl rfl)
  · exact (exec_hallStatusTimeout s).trans (h.onPower_eng (s.work.hallLate_closes hopen hsent) rfl rfl)
  · exact (exec_hallStatusTimeout s).trans (h.onPower_eng (s.work.hallLate_idle hcase) rfl rfl)

end

section
/-! SUPPORT. A frame whose words cannot be read can cost the loader frames that it holds (R234, R244, R249). -/

namespace Sys2Proof.Machine

/-- The header of frame 1 of 2 of image 7, sealed. -/
def lateFrame : PatHdr := sealPat { patternId := 7, seq := 1, total := 2, plen := 0, fflags := 0 } []

/-- A loader in reception that holds frame 0 of that image. -/
def halfReceived : Loader := { st := .receiving, firstId := some 7, total := 2, frames := [(0, [])] }

/-- A Spool whose bank 0 has retired 255 of its cells and gives next, to the class 6 queue, a cell marked faulty. -/
def wornSpool : Spool :=
  { cfg := [(0, { qclass := 6, quarter := 15, minCells := 1, maxCells := 1, ctCells := 0, qflags := 0 })]
    banks := { fresh := 1023, retired := 255 } :: List.replicate 47 {}
    retired := (List.range 255).map (fun r => (768 + r) * 48)
    faulty := [1023 * 48] }

/-- An engine in phase 2 with that loader and that Spool. -/
def wornState : State :=
  { eng := { boot := { powered := true, phase := 2, wavesDone := [0, 1] }, loader := halfReceived, spool := wornSpool } }

theorem sealPat_crc (h : PatHdr) (payload : List Byte) :
    (sealPat h payload).crc = (crc32c ((sealPat h payload).bytes28 ++ payload)).toNat := rfl

theorem wornState_on : wornState.on := ⟨rfl, rfl⟩

/-- The bays of the arriving frame's banks have passed their self-test. -/
theorem wornState_stages : wornState.work.stages lateFrame.seq = true := by decide +kernel

/-- The bad word's header has taken bank 0 out of use, and frame 0 with it. -/
theorem wornState_loses :
    (wornState.work.passFrame.spoolBad ((wornState.work.passFrame.loaderCells lateFrame.seq).headD 0)).loader.frames = [] := by
  rw [Eng.spoolBad, Eng.raise_loader, Eng.bump_loader]
  decide +kernel

end Sys2Proof.Machine

open Sys2Proof Sys2Proof.Machine

/-- Refutes O14, in its last clause: the header word of a frame that cannot be read has passed the loader's queue already.
Where the cell it passed through is faulty and the 256th that its bank retires, the bank is declared absent (R244), and
the frames held in it are missing again (R249): the loader does not stay as it was. -/
theorem not_framesAreHeldCountedOrDiscarded : ¬ Obligations.FramesAreHeldCountedOrDiscarded := by
  unfold Obligations.FramesAreHeldCountedOrDiscarded
  intro h
  obtain ⟨-, -, htakes⟩ := h wornState 0 lateFrame [] (.badData 0) wornState_on
  obtain ⟨-, hgood⟩ := htakes (Nat.le_refl 2) (Or.inr (Or.inl rfl))
  obtain ⟨-, hfresh⟩ := hgood (sealPat_crc _ _)
  obtain ⟨-, hbad⟩ := hfresh (Or.inl ⟨rfl, rfl⟩) rfl rfl (by decide) rfl (by decide) (by decide) rfl (by decide) wornState_stages
  obtain ⟨-, hloader⟩ := hbad ⟨0, Or.inl rfl⟩
  exact absurd (wornState_loses.symm.trans (congrArg Loader.frames hloader)) (by decide)

end

section
/-! SUPPORT. The ends of the polder slots' transitions: what each makes of the slot before what was latched behind it
follows (R301 to R305). -/

namespace Sys2Proof.Machine

/-! ### Polder slots -/

/-- A polder slot after a slot has been changed. -/
theorem Eng.setPslot_pslot (e : Eng) (slot k : Nat) (f : PldSlot → PldSlot) :
    (e.setPslot slot f).pslot k = if k = slot ∧ slot < e.pld.slots.length then f (e.pslot slot) else e.pslot k := by
  simp only [Eng.setPslot, Eng.pslot, updAt, List.getD_eq_getElem?_getD, List.getElem?_modify]
  by_cases hk : slot = k
  · subst hk
    by_cases hl : slot < e.pld.slots.length <;> simp [hl]
  · have hk' : k ≠ slot := fun h => hk h.symm
    simp [hk, hk']

theorem Eng.setPslot_pslot_same (e : Eng) {slot : Nat} (h : slot < e.pld.slots.length) (f : PldSlot → PldSlot) :
    (e.setPslot slot f).pslot slot = f (e.pslot slot) := by
  rw [Eng.setPslot_pslot, if_pos ⟨rfl, h⟩]

theorem Eng.setPslot_pslot_other (e : Eng) {slot k : Nat} (h : k ≠ slot) (f : PldSlot → PldSlot) :
    (e.setPslot slot f).pslot k = e.pslot k := by
  rw [Eng.setPslot_pslot, if_neg (fun hk => h hk.1)]

@[simp] theorem Eng.raise_pslot (e : Eng) (code arg : Nat) (polder : Option Nat) (tag k : Nat) :
    (e.raise code arg polder tag).pslot k = e.pslot k := by
  simp [Eng.pslot]

/-- What the Spool's own work, the tables' and the events leave alone: the slots, the commands, hall time and HBM. -/
structure Eng.SameWork (e e' : Eng) : Prop where
  pld : e'.pld = e.pld
  cmds : e'.cmds = e.cmds
  time : e'.time = e.time
  wlog : e'.wlog = e.wlog

theorem Eng.SameWork.trans {e e' e'' : Eng} (h : e.SameWork e') (h' : e'.SameWork e'') : e.SameWork e'' :=
  ⟨h'.pld.trans h.pld, h'.cmds.trans h.cmds, h'.time.trans h.time, h'.wlog.trans h.wlog⟩

theorem Eng.SameWork.pslot {e e' : Eng} (h : e.SameWork e') (k : Nat) : e'.pslot k = e.pslot k := by
  rw [Eng.pslot, h.pld, Eng.pslot]

theorem Eng.SameWork.foldl {α : Type} {f : Eng → α → Eng} (hf : ∀ (e : Eng) x, e.SameWork (f e x)) (l : List α) (e : Eng) :
    e.SameWork (l.foldl f e) := by
  induction l generalizing e with
  | nil => exact ⟨rfl, rfl, rfl, rfl⟩
  | cons x l ih => exact (hf e x).trans (ih (f e x))

theorem Eng.freeCell_sameWork (e : Eng) (q cell : Nat) : e.SameWork (e.freeCell q cell) := by
  unfold Eng.freeCell
  split
  · constructor <;> simp
  · split
    · constructor <;> simp [Eng.retireCell]
    · exact ⟨rfl, rfl, rfl, rfl⟩

theorem Eng.freeCells_sameWork (e : Eng) (q : Nat) (l : List Nat) : e.SameWork (e.freeCells q l) :=
  Eng.SameWork.foldl (fun e c => e.freeCell_sameWork q c) l e

theorem Eng.setQueue_sameWork (e : Eng) (q : Nat) (f : SQueue → SQueue) : e.SameWork (e.setQueue q f) := ⟨rfl, rfl, rfl, rfl⟩

theorem Eng.takeCell_sameWork (e : Eng) (q : Nat) (c : QueueCfg) : e.SameWork ((e.takeCell q c).getD e) := by
  unfold Eng.takeCell
  repeat' split
  all_goals exact ⟨rfl, rfl, rfl, rfl⟩

theorem Eng.regainCells_sameWork (e : Eng) (q : Nat) (c : QueueCfg) (n : Nat) : e.SameWork (e.regainCells q c n) :=
  Eng.SameWork.foldl (fun e _ => e.takeCell_sameWork q c) _ e

/-- The entries of a template's range stand apart from all but the slots' configurations and the Spool's. -/
theorem Eng.fullEntries_eq (e : Eng) (id : Nat) (queues : Bool) : e.fullEntries id queues = { e with
    slotCfg := (e.fullEntries id queues).slotCfg, panelMaps := (e.fullEntries id queues).panelMaps
    spool := (e.fullEntries id queues).spool } := by
  unfold Eng.fullEntries
  repeat' split
  all_goals rfl

theorem Eng.fullEntries_sameWork (e : Eng) (id : Nat) (queues : Bool) : e.SameWork (e.fullEntries id queues) := by
  rw [Eng.fullEntries_eq]
  exact ⟨rfl, rfl, rfl, rfl⟩

theorem Eng.fullEntries_rings (e : Eng) (id : Nat) (queues : Bool) : (e.fullEntries id queues).rings = e.rings := by
  rw [Eng.fullEntries_eq]

/-! ### PARK and UNPARK end (R303) -/

/-- PARK_DONE saves the working state, counts the park and leaves the slot PARKED. -/
theorem Eng.parkEnd_ends (e : Eng) (m : Mem) {slot : Nat} (hst : (e.pslot slot).st = .parking) (hslot : slot < e.pld.slots.length) :
    ∃ (e' : Eng) (b : List Byte), e.parkEnd m slot = e'.endTransition m slot ∧
      (e'.pslot slot).st = .parked ∧ (e'.pslot slot).result = 0 ∧
      (e'.pslot slot).acc.parks = ((e.pslot slot).acc.parks + 1) % 2 ^ 32 ∧ (∀ k, k ≠ slot → e'.pslot k = e.pslot k) ∧
      e'.cmds = e.cmds ∧ e'.rings = e.rings ∧ b.length = 10518528 ∧ e'.wlog = ((e.pslot slot).save + 65536, b) :: e.wlog := by
  have hslot' : slot < (e.saveWorking (e.pslot slot).save).pld.slots.length := hslot
  refine ⟨_, (List.range 10518528).map (fun i => Config.freeByte (e.freeCtr + i)), if_neg (by simp [hst]), ?_⟩
  simp only [Eng.raise_pslot, Eng.setPslot_pslot_same _ hslot', Eng.raise_cmds, Eng.raise_rings, Eng.raise_wlog]
  refine ⟨trivial, trivial, rfl, fun k hk => ?_, rfl, rfl, ?_, rfl⟩
  · rw [Eng.setPslot_pslot_other _ hk]
    rfl
  · rw [List.length_map, List.length_range]

/-- A slot set RUNNING, with its event. -/
def Eng.startRunning (slot polder code : Nat) (e : Eng) : Eng :=
  (e.setPslot slot (fun p => { p with st := .running, result := 0 })).raise code (arg5 0 polder slot) (some polder) 0

theorem Eng.startRunning_slot (e : Eng) {slot : Nat} (polder code : Nat) (h : slot < e.pld.slots.length) :
    ((e.startRunning slot polder code).pslot slot).st = .running ∧ ((e.startRunning slot polder code).pslot slot).result = 0 := by
  rw [Eng.startRunning, Eng.raise_pslot, Eng.setPslot_pslot_same _ h]
  exact ⟨rfl, rfl⟩

theorem Eng.startRunning_other (e : Eng) {slot k : Nat} (polder code : Nat) (h : k ≠ slot) :
    (e.startRunning slot polder code).pslot k = e.pslot k := by
  rw [Eng.startRunning, Eng.raise_pslot, Eng.setPslot_pslot_other _ h]

theorem Eng.startRunning_frame (e : Eng) (slot polder code : Nat) : e.startRunning slot polder code = { e with
    regs := (e.startRunning slot polder code).regs, wq := (e.startRunning slot polder code).wq
    evt := (e.startRunning slot polder code).evt, pwr := (e.startRunning slot polder code).pwr
    pld := (e.startRunning slot polder code).pld } := by
  conv => lhs; rw [Eng.startRunning, Eng.raise_eq]
  simp only [Eng.startRunning, Eng.raise_pld]
  rfl

/-- UNPARK_DONE leaves the slot RUNNING. -/
theorem Eng.unparkEnd_ends (e : Eng) (m : Mem) {slot : Nat} (hst : (e.pslot slot).st = .unparking) (hslot : slot < e.pld.slots.length) :
    ∃ e' : Eng, e.unparkEnd m slot = e'.endTransition m slot ∧ (e'.pslot slot).st = .running ∧ (e'.pslot slot).result = 0 ∧
      (∀ k, k ≠ slot → e'.pslot k = e.pslot k) ∧ e'.cmds = e.cmds ∧ e'.rings = e.rings ∧ e'.wlog = e.wlog := by
  obtain ⟨hrun, hresult⟩ := e.startRunning_slot (e.pslot slot).polder 0x0553 hslot
  refine ⟨e.startRunning slot (e.pslot slot).polder 0x0553, if_neg (by simp [hst]), hrun, hresult,
    fun k hk => e.startRunning_other _ _ hk, ?_⟩
  rw [Eng.startRunning_frame]
  exact ⟨rfl, rfl, rfl⟩

/-! ### CREATE ends (R301, R54) -/

/-- The Pattern's entries, with the staged piece's where there is one, in the range of a slot's template. -/
def Eng.placed (slot : Nat) (e : Eng) : Eng := match e.pat, e.template (e.pslot slot).polder with
  | some base, some t =>
    let x := (KV.find e.pld.pieces slot).elim base base.withPiece
    (e.rangeSlots t x).rangeQueues t x.queues
  | _, _ => e

theorem Eng.placed_sameWork (e : Eng) (slot : Nat) : e.SameWork (e.placed slot) := by
  unfold Eng.placed
  split <;> exact ⟨rfl, rfl, rfl, rfl⟩

/-- The event of a piece applied, where a slot has one. -/
def Eng.tellPiece (slot polder : Nat) (e : Eng) : Eng :=
  if (KV.find e.pld.pieces slot).isSome then e.raise 0x0706 e.loader.arg (some polder) 0 else e

theorem Eng.tellPiece_eq (e : Eng) (slot polder : Nat) : e.tellPiece slot polder = { e with
    regs := (e.tellPiece slot polder).regs, wq := (e.tellPiece slot polder).wq, evt := (e.tellPiece slot polder).evt
    pwr := (e.tellPiece slot polder).pwr } := by
  unfold Eng.tellPiece
  split
  · exact Eng.raise_eq _ _ _ _ _
  · rfl

theorem Eng.tellPiece_sameWork (e : Eng) (slot polder : Nat) : e.SameWork (e.tellPiece slot polder) := by
  rw [Eng.tellPiece_eq]
  exact ⟨rfl, rfl, rfl, rfl⟩

theorem Eng.createEnd_eq (e : Eng) (m : Mem) {slot : Nat} (hst : (e.pslot slot).st = .creating) :
    e.createEnd m slot =
      (((e.placed slot).startRunning slot (e.pslot slot).polder 0x0550).tellPiece slot (e.pslot slot).polder).endTransition m slot := by
  refine (if_neg (by simp [hst])).trans ?_
  unfold Eng.placed
  cases e.pat <;> cases e.template (e.pslot slot).polder <;> cases KV.find e.pld.pieces slot <;> rfl

/-- CREATE_DONE leaves the slot RUNNING, and without a piece the Pattern's entries in its range. -/
theorem Eng.createEnd_ends (e : Eng) (m : Mem) {slot : Nat} (hst : (e.pslot slot).st = .creating) (hslot : slot < e.pld.slots.length) :
    ∃ e' : Eng, e.createEnd m slot = e'.endTransition m slot ∧ (e'.pslot slot).st = .running ∧ (e'.pslot slot).result = 0 ∧
      (∀ k, k ≠ slot → e'.pslot k = e.pslot k) ∧ e'.cmds = e.cmds ∧ e'.wlog = e.wlog ∧
      (∀ base t, e.pat = some base → e.template (e.pslot slot).polder = some t → KV.find e.pld.pieces slot = none →
        e'.slotCfg = overRange t.slotBase t.slotCount base.slots e.slotCfg ∧
        e'.panelMaps = overRange t.slotBase t.slotCount base.panels e.panelMaps ∧
        e'.spool.cfg = overRange t.queueBase t.queueCount base.queues e.spool.cfg) := by
  have hplaced := e.placed_sameWork slot
  have hrun := (e.placed slot).startRunning_slot (e.pslot slot).polder 0x0550 (hplaced.pld ▸ hslot)
  have htell := ((e.placed slot).startRunning slot (e.pslot slot).polder 0x0550).tellPiece_sameWork slot (e.pslot slot).polder
  refine ⟨_, e.createEnd_eq m hst, ?_, ?_, fun k hk => ?_, ?_, ?_, fun base t hpat ht hpiece => ?_⟩
  · exact (congrArg PldSlot.st (htell.pslot slot)).trans hrun.1
  · exact (congrArg PldSlot.result (htell.pslot slot)).trans hrun.2
  · exact (htell.pslot k).trans ((Eng.startRunning_other _ _ _ hk).trans (hplaced.pslot k))
  · rw [htell.cmds, Eng.startRunning_frame]
    exact hplaced.cmds
  · rw [htell.wlog, Eng.startRunning_frame]
    exact hplaced.wlog
  · rw [Eng.tellPiece_eq, Eng.startRunning_frame]
    simp only [Eng.placed, hpat, ht, hpiece]
    exact ⟨rfl, rfl, rfl⟩

/-! ### A polder leaves its slot (R302, R304) -/

/-- The slot is emptied, the full Pattern's entries stand again in the template's range, and the event is told. -/
def Eng.vacate (slot id : Nat) (queues : Bool) (code : Nat) (e : Eng) : Eng :=
  ((e.fullEntries id queues).setPslot slot (fun p => p.emptied)).raise code (arg5 0 id slot) (some id) 0

section
variable (e : Eng) (slot id : Nat) (queues : Bool) (code : Nat)

theorem Eng.vacate_st (h : slot < e.pld.slots.length) : ((e.vacate slot id queues code).pslot slot).st = .empty := by
  rw [Eng.vacate, Eng.raise_pslot, Eng.setPslot_pslot_same _ ((e.fullEntries_sameWork id queues).pld ▸ h), PldSlot.emptied]

theorem Eng.vacate_other {k : Nat} (h : k ≠ slot) : (e.vacate slot id queues code).pslot k = e.pslot k := by
  rw [Eng.vacate, Eng.raise_pslot, Eng.setPslot_pslot_other _ h, (e.fullEntries_sameWork id queues).pslot]

@[simp] theorem Eng.vacate_cmds : (e.vacate slot id queues code).cmds = e.cmds := by
  simp [Eng.vacate, (e.fullEntries_sameWork id queues).cmds]

@[simp] theorem Eng.vacate_rings : (e.vacate slot id queues code).rings = e.rings := by
  simp [Eng.vacate, e.fullEntries_rings id queues]

@[simp] theorem Eng.vacate_wlog : (e.vacate slot id queues code).wlog = e.wlog := by
  simp [Eng.vacate, (e.fullEntries_sameWork id queues).wlog]

@[simp] theorem Eng.vacate_evicted : (e.vacate slot id queues code).pld.evicted = e.pld.evicted := by
  simp [Eng.vacate, Eng.setPslot, (e.fullEntries_sameWork id queues).pld]

@[simp] theorem Eng.vacate_quarantine : (e.vacate slot id queues code).pld.quarantine = e.pld.quarantine := by
  simp [Eng.vacate, Eng.setPslot, (e.fullEntries_sameWork id queues).pld]

end

/-! ### DESTROY ends (R302) -/

/-- DESTROY_DONE writes the final record, takes the polder's rings and commands away and leaves the slot EMPTY. -/
theorem Eng.destroyEnd_ends (e : Eng) (m : Mem) {slot : Nat} (hst : (e.pslot slot).st = .destroying) (hslot : slot < e.pld.slots.length) :
    ∃ e' : Eng, e.destroyEnd m slot = e'.endTransition m slot ∧ (e'.pslot slot).st = .empty ∧
      (∀ k, k ≠ slot → e'.pslot k = e.pslot k) ∧ (∀ c ∈ e'.cmds, c.polder ≠ (e.pslot slot).polder) ∧
      (∀ kg ∈ e'.rings, kg.2.owner ≠ (e.pslot slot).polder) ∧
      e'.wlog = ((e.pslot slot).save, finalRecord (e.pslot slot).acc (e.pslot slot).polder (e.pslot slot).client e.time.ns
        (e.cmds.filter (fun c => c.polder == (e.pslot slot).polder && !c.recorded)).length) :: e.wlog := by
  have hdetach : ∀ (e1 : Eng) (r : Nat), e1.SameWork (({ e1 with rings := KV.del e1.rings r } : Eng).raise 0x0515
      (arg5 r (e.pslot slot).polder slot) (some (e.pslot slot).polder) 0) :=
    fun e1 r => by constructor <;> simp
  have hfold := Eng.SameWork.foldl hdetach
    ((e.rings.filter (fun kg => kg.2.owner == (e.pslot slot).polder && kg.2.st != .detached)).map (·.1)) e
  refine ⟨Eng.vacate slot (e.pslot slot).polder true 0x0551 _, if_neg (by simp [hst]), Eng.vacate_st _ _ _ _ _ ?_, fun k hk => ?_,
    fun c hc => ?_, fun kg hkg => ?_, ?_⟩
  · exact hfold.pld ▸ hslot
  · exact (Eng.vacate_other _ _ _ _ _ hk).trans (hfold.pslot k)
  · rw [Eng.vacate_cmds] at hc
    simpa using (List.mem_filter.1 hc).2
  · rw [Eng.vacate_rings] at hkg
    simpa using (List.mem_filter.1 hkg).2
  · rw [Eng.vacate_wlog]
    simp only [Eng.store, Eng.now, hfold.wlog, hfold.time]

/-! ### EVICT ends (R304, R305) -/

/-- EVICT_DONE keeps what the polder had under its ID, leaves the slot EMPTY and puts the template into quarantine. -/
theorem Eng.evictEnd_ends (e : Eng) (m : Mem) {slot : Nat} {t : Template} (hst : (e.pslot slot).st = .evicting)
    (ht : e.template (e.pslot slot).polder = some t) (hslot : slot < e.pld.slots.length) :
    ∃ (e' : Eng) (v : Evicted), e.evictEnd m slot = e'.endTransition m slot ∧ (e'.pslot slot).st = .empty ∧
      (∀ k, k ≠ slot → e'.pslot k = e.pslot k) ∧ e'.pld.evicted = e.pld.evicted ++ [v] ∧ v.polder = (e.pslot slot).polder ∧
      v.save = (e.pslot slot).save ∧
      v.acc = { (e.pslot slot).acc with evictions := ((e.pslot slot).acc.evictions + 1) % 2 ^ 32 } ∧
      v.cmds = e.cmds.filter (fun c => c.polder == (e.pslot slot).polder) ∧ (∀ c ∈ e'.cmds, c.polder ≠ (e.pslot slot).polder) ∧
      e'.pld.quarantine = e.pld.quarantine ++ [((e.pslot slot).polder % 16, e.time.ns + 60000)] := by
  have hfree := Eng.SameWork.foldl (fun (e : Eng) (kq : Nat × SQueue) => e.freeCells_sameWork kq.1 kq.2.cells)
    (inRange t.queueBase t.queueCount e.spool.queues) (e.saveResidency (e.pslot slot).save t)
  unfold Eng.evictEnd
  simp only [hst, ht, beq_self_eq_true, if_true]
  refine ⟨Eng.vacate slot (e.pslot slot).polder false 0x0554 _, _, rfl, Eng.vacate_st _ _ _ _ _ ?_, fun k hk => ?_,
    (Eng.vacate_evicted _ _ _ _ _).trans (congrArg (fun p : PldCtl => p.evicted ++ [_]) hfree.pld), rfl, rfl, rfl, rfl,
    fun c hc => ?_, ?_⟩
  · exact hfree.pld ▸ hslot
  · exact (Eng.vacate_other _ _ _ _ _ hk).trans (hfree.pslot k)
  · rw [Eng.vacate_cmds] at hc
    simpa using (List.mem_filter.1 hc).2
  · rw [Eng.vacate_quarantine]
    simp only [Eng.now, hfree.pld, hfree.time]
    rfl

/-! ### A quarantine ends (R305) -/

theorem Eng.quarantineOver_none (e : Eng) (m : Mem) (k : Nat) (h : e.pld.quarantine.all (fun q => q.1 != k) = true) :
    e.quarantineOver m k = e := by
  have hnone : e.pld.quarantine.find? (fun q => q.1 == k) = none := by
    simpa [List.find?_eq_none] using h
  simp [Eng.quarantineOver, hnone]

/-- QUARANTINE_END moves hall time to the end of the quarantine and takes the template out of it. -/
theorem Eng.quarantineOver_ends (e : Eng) (m : Mem) (k : Nat) {q : Nat × Nat} (h : e.pld.quarantine.find? (fun q => q.1 == k) = some q) :
    ∃ e' : Eng, e.quarantineOver m k = e'.retryLatched m ∧ e'.time.ns = max e.time.ns q.2 ∧
      e'.pld.quarantine = e.pld.quarantine.filter (fun q => q.1 != k) ∧ e'.pld.slots = e.pld.slots := by
  simp only [Eng.quarantineOver, h]
  refine ⟨_, rfl, ?_⟩
  rw [(Eng.fullEntries_sameWork _ k true).pld, (Eng.fullEntries_sameWork _ k true).time]
  exact ⟨rfl, rfl, rfl⟩

/-! ### RESTORE ends (R305) -/

theorem mem_insertBy {α : Type} (le : α → α → Bool) (x y : α) (l : List α) : y ∈ insertBy le x l ↔ y = x ∨ y ∈ l := by
  induction l with
  | nil => simp [insertBy]
  | cons z t ih =>
    unfold insertBy
    split
    · simp only [List.mem_cons, ih]
      exact or_left_comm
    · simp

theorem mem_sortBy {α : Type} (le : α → α → Bool) (y : α) (l : List α) : y ∈ sortBy le l ↔ y ∈ l := by
  have hfold : ∀ acc : List α, y ∈ l.foldl (fun acc x => insertBy le x acc) acc ↔ y ∈ acc ∨ y ∈ l := by
    induction l with
    | nil => simp
    | cons x t ih =>
      intro acc
      rw [List.foldl_cons, ih, mem_insertBy, List.mem_cons, or_assoc]
      exact or_left_comm
  simpa [sortBy] using hfold []

/-- A polder slot whose account of HBM traffic stands at `n`. -/
def PldSlot.withHbm (p : PldSlot) (n : Nat) : PldSlot := { p with acc := { p.acc with hbm := n } }

/-- What counting HBM traffic leaves alone: the commands, the evicted polders, and of the slots all but that count. -/
structure Eng.HbmOnly (e e' : Eng) : Prop where
  cmds : e'.cmds = e.cmds
  evicted : e'.pld.evicted = e.pld.evicted
  pslot : ∀ k, ∃ n, e'.pslot k = (e.pslot k).withHbm n

theorem Eng.HbmOnly.of_pld {e e' : Eng} (hcmds : e'.cmds = e.cmds) (hpld : e'.pld = e.pld) : e.HbmOnly e' :=
  ⟨hcmds, by rw [hpld], fun k => ⟨(e.pslot k).acc.hbm, by rw [Eng.pslot, hpld]; rfl⟩⟩

theorem Eng.HbmOnly.trans {e e' e'' : Eng} (h : e.HbmOnly e') (h' : e'.HbmOnly e'') : e.HbmOnly e'' := by
  refine ⟨h'.cmds.trans h.cmds, h'.evicted.trans h.evicted, fun k => ?_⟩
  obtain ⟨n, hn⟩ := h.pslot k
  obtain ⟨n', hn'⟩ := h'.pslot k
  exact ⟨n', by rw [hn', hn]; rfl⟩

theorem Eng.HbmOnly.foldl {α : Type} {f : Eng → α → Eng} (hf : ∀ (e : Eng) x, e.HbmOnly (f e x)) (l : List α) (e : Eng) :
    e.HbmOnly (l.foldl f e) := by
  induction l generalizing e with
  | nil => exact .of_pld rfl rfl
  | cons x l ih => exact (hf e x).trans (ih (f e x))

theorem Eng.accHbm_hbmOnly (e : Eng) (polder n : Nat) : e.HbmOnly (e.accHbm polder n) := by
  unfold Eng.accHbm Eng.account
  split
  · refine ⟨rfl, rfl, fun k => ?_⟩
    rw [Eng.setPslot_pslot]
    split
    · next hk => exact ⟨_, by rw [hk.1]; rfl⟩
    · exact ⟨(e.pslot k).acc.hbm, rfl⟩
  · exact .of_pld rfl rfl

theorem Eng.accSlot_hbmOnly (e : Eng) (slot n : Nat) : e.HbmOnly (e.accSlot slot n) := by
  unfold Eng.accSlot
  split
  · exact e.accHbm_hbmOnly _ _
  · exact .of_pld rfl rfl

/-- Filling the weight cache counts the bytes read, and changes no more of the polder slots (R99, R318). -/
theorem Eng.fillCache_hbmOnly (e : Eng) (m : Mem) (slot : Nat) : e.HbmOnly (e.fillCache m slot) := by
  unfold Eng.fillCache
  split
  · exact .of_pld rfl rfl
  · dsimp only
    refine Eng.HbmOnly.trans ?_ (Eng.accSlot_hbmOnly _ _ _)
    exact .of_pld rfl rfl

/-- The weights of the slots that were cached are loaded again. -/
def Eng.reloadCached (m : Mem) (slots : KV LSlot) (e : Eng) : Eng :=
  (slots.filter (fun kl => kl.2.cached)).foldl (fun (e : Eng) kl => e.fillCache m kl.1) e

theorem Eng.reloadCached_hbmOnly (e : Eng) (m : Mem) (slots : KV LSlot) : e.HbmOnly (e.reloadCached m slots) :=
  Eng.HbmOnly.foldl (f := fun (e : Eng) (kl : Nat × LSlot) => e.fillCache m kl.1) (fun e kl => e.fillCache_hbmOnly m kl.1) _ e

theorem Eng.reloadCached_none (e : Eng) (m : Mem) {slots : KV LSlot} (h : ∀ x ∈ slots, x.2.cached = false) :
    e.reloadCached m slots = e := by
  have hnone : slots.filter (fun kl => kl.2.cached) = [] := List.filter_eq_nil_iff.2 (fun x hx => by simp [h x hx])
  rw [Eng.reloadCached, hnone, List.foldl_nil]

/-- The slot of a polder that comes back, PARKED with what was kept. -/
def PldSlot.restored (p : PldSlot) (v : Evicted) : PldSlot :=
  { p with
    st := .parked, result := 0, save := v.save, client := v.client, saveNeed := v.saveNeed, consentErr := v.consentErr, fault := v.fault
    faultTag := v.faultTag, acc := v.acc, seed := v.seed, incarnation := v.incarnation, ringSel := v.ringSel, wins := v.wins
    results := v.results }

/-- RESTORE_DONE first brings back the polder's commands and residency, then its slot, then its cached weights. -/
theorem Eng.restoreEnd_eq (e : Eng) (m : Mem) {slot : Nat} {t : Template} {v : Evicted} (hst : (e.pslot slot).st = .restoring)
    (ht : e.template (e.pslot slot).polder = some t) (hv : e.evicted? (e.pslot slot).polder = some v) :
    ∃ b : Eng, e.restoreEnd m slot = (((b.setPslot slot (fun p => p.restored v)).reloadCached m v.slots).raise 0x0555
        (arg5 0 (e.pslot slot).polder slot) (some (e.pslot slot).polder) 0).endTransition m slot ∧
      b.pld.slots = e.pld.slots ∧ b.pld.evicted = e.pld.evicted.filter (fun v => v.polder != (e.pslot slot).polder) ∧
      b.cmds = sortBy (fun (a b : Cmd) => a.id ≤ b.id) (e.cmds ++ v.cmds.map (fun (c : Cmd) => { c with rslot := slot })) := by
  have hqueues := Eng.SameWork.foldl (f := fun (e : Eng) (kq : Nat × (SQueue × QueueCfg)) =>
    (e.setQueue kq.1 (fun _ => { kq.2.1 with cells := [] })).regainCells kq.1 kq.2.2 kq.2.1.cells.length)
    (fun e kq => (e.setQueue_sameWork _ _).trans (Eng.regainCells_sameWork _ _ _ _)) v.queues
  unfold Eng.restoreEnd
  simp only [hst, ht, hv, beq_self_eq_true, if_true]
  exact ⟨_, rfl, (congrArg PldCtl.slots (hqueues _).pld).trans rfl, (congrArg PldCtl.evicted (hqueues _).pld).trans rfl,
    (hqueues _).cmds⟩

/-- RESTORE_DONE brings back what was kept; only the reload of cached weights adds to it, as HBM traffic. -/
theorem Eng.restoreEnd_ends (e : Eng) (m : Mem) {slot : Nat} {t : Template} {v : Evicted} (hst : (e.pslot slot).st = .restoring)
    (ht : e.template (e.pslot slot).polder = some t) (hv : e.evicted? (e.pslot slot).polder = some v)
    (hslot : slot < e.pld.slots.length) :
    ∃ e' : Eng, e.restoreEnd m slot = e'.endTransition m slot ∧ (e'.pslot slot).st = .parked ∧
      (e'.pslot slot).save = v.save ∧ (e'.pslot slot).acc = { v.acc with hbm := (e'.pslot slot).acc.hbm } ∧
      ((∀ x ∈ v.slots, x.2.cached = false) → (e'.pslot slot).acc = v.acc ∧ ∀ k, k ≠ slot → e'.pslot k = e.pslot k) ∧
      (e'.pslot slot).seed = v.seed ∧ (e'.pslot slot).wins = v.wins ∧
      (∀ k, k ≠ slot → e'.pslot k = { e.pslot k with acc := (e'.pslot k).acc }) ∧
      e'.pld.evicted = e.pld.evicted.filter (fun v => v.polder != (e.pslot slot).polder) ∧
      (∀ c ∈ v.cmds, { c with rslot := slot } ∈ e'.cmds) ∧ (∀ c ∈ e.cmds, c ∈ e'.cmds) := by
  obtain ⟨b, hend, hslots, hevicted, hcmds⟩ := e.restoreEnd_eq m hst ht hv
  have hpslot : ∀ k, b.pslot k = e.pslot k := fun k => by rw [Eng.pslot, hslots, Eng.pslot]
  have hsame : (b.setPslot slot (fun p => p.restored v)).pslot slot = (e.pslot slot).restored v := by
    rw [Eng.setPslot_pslot_same _ (hslots ▸ hslot), hpslot]
  have hother : ∀ k, k ≠ slot → (b.setPslot slot (fun p => p.restored v)).pslot k = e.pslot k := fun k hk => by
    rw [Eng.setPslot_pslot_other _ hk, hpslot]
  have hreload := (b.setPslot slot (fun p => p.restored v)).reloadCached_hbmOnly m v.slots
  obtain ⟨n, hn⟩ := hreload.pslot slot
  rw [hsame] at hn
  refine ⟨_, hend, ?_⟩
  simp only [Eng.raise_pslot, Eng.raise_pld, Eng.raise_cmds, hn, hreload.evicted, hreload.cmds]
  refine ⟨rfl, rfl, rfl, fun hcold => ?_, rfl, rfl, fun k hk => ?_, hevicted, fun c hc => ?_, fun c hc => ?_⟩
  · rw [Eng.reloadCached_none _ m hcold] at hn ⊢
    exact ⟨congrArg PldSlot.acc (hn.symm.trans hsame), hother⟩
  · obtain ⟨n', hn'⟩ := hreload.pslot k
    rw [hn', hother k hk]
    rfl
  · show _ ∈ b.cmds
    rw [hcmds, mem_sortBy]
    exact List.mem_append_right _ (List.mem_map_of_mem hc)
  · show _ ∈ b.cmds
    rw [hcmds, mem_sortBy]
    exact List.mem_append_left _ hc

/-! ### Out of its transition -/

/-- The end of a transition that is not under way changes nothing. -/
theorem exec_transitionEnd_idle {s : State} (h : s.on) {slot : Nat} {i : Instr} {st : PldState} (hst : (s.eng.pslot slot).st ≠ st)
    (hi : (i = .createDone slot ∧ st = .creating) ∨ (i = .destroyDone slot ∧ st = .destroying) ∨ (i = .parkDone slot ∧ st = .parking) ∨
      (i = .unparkDone slot ∧ st = .unparking) ∨ (i = .evictDone slot ∧ st = .evicting) ∨ (i = .restoreDone slot ∧ st = .restoring)) :
    exec i s = .next { s with eng := s.work } := by
  have hne : ((s.eng.pslot slot).st != st) = true := by simpa using hst
  have heq : ((s.eng.pslot slot).st == st) = false := by simpa using hst
  rcases hi with ⟨rfl, rfl⟩ | ⟨rfl, rfl⟩ | ⟨rfl, rfl⟩ | ⟨rfl, rfl⟩ | ⟨rfl, rfl⟩ | ⟨rfl, rfl⟩
  · exact (exec_createDone slot s).trans (h.onPower_eng (if_pos hne) rfl rfl)
  · exact (exec_destroyDone slot s).trans (h.onPower_eng (if_pos hne) rfl rfl)
  · exact (exec_parkDone slot s).trans (h.onPower_eng (if_pos hne) rfl rfl)
  · exact (exec_unparkDone slot s).trans (h.onPower_eng (if_pos hne) rfl rfl)
  · refine (exec_evictDone slot s).trans (h.onPower_eng ?_ rfl rfl)
    have hwork : ((s.work.pslot slot).st == .evicting) = false := heq
    simp [Eng.evictEnd, hwork]
  · refine (exec_restoreDone slot s).trans (h.onPower_eng ?_ rfl rfl)
    have hwork : ((s.work.pslot slot).st == .restoring) = false := heq
    simp [Eng.restoreEnd, hwork]

end Sys2Proof.Machine

open Sys2Proof Sys2Proof.Machine

/-- Settles O47: each command of a transition's end is that end's own work followed by what was latched behind it. -/
theorem slotTransitionsEndInTheirState : Obligations.SlotTransitionsEndInTheirState := by
  unfold Obligations.SlotTransitionsEndInTheirState
  refine ⟨fun s slot i st h hst hi => exec_transitionEnd_idle h hst hi, fun s slot p others h hlt hlen hp hothers => ?_,
    fun s k h => ⟨fun hnone => ?_, fun q hq => ?_⟩⟩
  · subst hp hothers
    have hslot : slot < s.work.pld.slots.length := hlen.symm ▸ hlt
    refine ⟨fun hst => ?_, fun hst => ?_, fun hst => ?_, fun hst => ?_, fun t hst ht => ?_, fun t v hst ht hv => ?_⟩
    · obtain ⟨e, hend, hrest⟩ := s.work.createEnd_ends s.hbm hst hslot
      exact ⟨e, (exec_createDone slot s).trans (h.onPower_leaves hend), hrest⟩
    · obtain ⟨e, hend, hrest⟩ := s.work.destroyEnd_ends s.hbm hst hslot
      exact ⟨e, (exec_destroyDone slot s).trans (h.onPower_leaves hend), hrest⟩
    · obtain ⟨e, b, hend, hrest⟩ := s.work.parkEnd_ends s.hbm hst hslot
      exact ⟨e, b, (exec_parkDone slot s).trans (h.onPower_leaves hend), hrest⟩
    · obtain ⟨e, hend, hrest⟩ := s.work.unparkEnd_ends s.hbm hst hslot
      exact ⟨e, (exec_unparkDone slot s).trans (h.onPower_leaves hend), hrest⟩
    · obtain ⟨e, v, hend, hrest⟩ := s.work.evictEnd_ends s.hbm hst ht hslot
      exact ⟨e, v, (exec_evictDone slot s).trans (h.onPower_leaves hend), hrest⟩
    · obtain ⟨e, hend, hrest⟩ := s.work.restoreEnd_ends s.hbm hst ht hv hslot
      exact ⟨e, (exec_restoreDone slot s).trans (h.onPower_leaves hend), hrest⟩
  · exact (exec_quarantineEnd k s).trans (h.onPower_eng (s.work.quarantineOver_none s.hbm k hnone) rfl rfl)
  · obtain ⟨e, hend, hrest⟩ := s.work.quarantineOver_ends s.hbm k hq
    exact ⟨e, (exec_quarantineEnd k s).trans (h.onPower_leaves hend), hrest⟩

end

section
/-! SUPPORT. The sums of a column (R92, R93): each format's sum is one fold over a list of elements or blocks, and a segment
folds over a stretch of that list. -/

namespace Sys2Proof

/-! ### Stretches of a list -/

/-- Folding over the first `k` stretches of `n` elements, one after the other, is folding over the elements. -/
theorem foldl_stretches {α β : Type} (g : β → α → β) (n : Nat) (l : List α) (b : β) (k : Nat) :
    (List.range k).foldl (fun b i => ((l.drop (i * n)).take n).foldl g b) b = (l.take (k * n)).foldl g b := by
  induction k with
  | zero => simp
  | succ k ih => rw [List.range_succ, List.foldl_append, ih, Nat.succ_mul, List.take_add, List.foldl_append]; rfl

theorem zip_stretch {α β : Type} (l : List α) (l' : List β) (lo n : Nat) :
    ((l.drop lo).take n).zip ((l'.drop lo).take n) = ((l.zip l').drop lo).take n := by
  simp only [List.zip_eq_zipWith, List.drop_zipWith, List.take_zipWith]

/-- The indices of a stretch's elements, counted from the start of the list. -/
theorem zipIdx_stretch {α : Type} (l : List α) (lo n : Nat) :
    (((l.drop lo).take n).zipIdx).map (fun q => (q.1, lo + q.2)) = (l.zipIdx.drop lo).take n := by
  apply List.ext_getElem?
  intro i
  simp only [List.getElem?_map, List.getElem?_zipIdx, List.getElem?_take, List.getElem?_drop]
  by_cases hi : i < n
  · simp only [if_pos hi, Option.map_map, Function.comp_def, Nat.zero_add]
  · simp only [if_neg hi, Option.map_none]

/-! ### Groups of elements -/

theorem groups_fuel {α : Type} {n : Nat} (hn : 0 < n) :
    ∀ (fuel : Nat) (l : List α), l.length ≤ fuel → groups n fuel l = groups n l.length l
  | 0, l, h => by rw [List.length_eq_zero_iff.1 (Nat.le_zero.1 h)]; rfl
  | fuel + 1, [], _ => rfl
  | fuel + 1, x :: xs, h => by
    have hdrop : ((x :: xs).drop n).length ≤ xs.length := by rw [List.length_drop, List.length_cons]; omega
    have hfuel : xs.length ≤ fuel := Nat.le_of_succ_le_succ h
    simp only [groups, List.length_cons, List.isEmpty_cons, Bool.false_eq_true, if_false]
    rw [groups_fuel hn fuel _ (Nat.le_trans hdrop hfuel), groups_fuel hn xs.length _ hdrop]

/-- The groups of a list that is not empty: its first `n` elements, and the groups of the rest. -/
theorem groups_length {α : Type} {n : Nat} (hn : 0 < n) {l : List α} (hl : l ≠ []) :
    groups n l.length l = l.take n :: groups n (l.drop n).length (l.drop n) := by
  obtain ⟨x, xs, rfl⟩ := List.exists_cons_of_ne_nil hl
  have hdrop : ((x :: xs).drop n).length ≤ xs.length := by rw [List.length_drop, List.length_cons]; omega
  simp only [groups, List.length_cons, List.isEmpty_cons, Bool.false_eq_true, if_false]
  rw [groups_fuel hn xs.length _ hdrop]

theorem groups_drop {α : Type} {n : Nat} (hn : 0 < n) (i : Nat) (l : List α) :
    groups n (l.drop (i * n)).length (l.drop (i * n)) = (groups n l.length l).drop i := by
  induction i generalizing l with
  | zero => simp
  | succ i ih =>
    by_cases hl : l = []
    · subst hl; simp [groups]
    · rw [groups_length hn hl, List.drop_succ_cons, ← ih, List.drop_drop, Nat.succ_mul, Nat.add_comm]

theorem groups_take {α : Type} {n : Nat} (hn : 0 < n) (i : Nat) (l : List α) :
    groups n (l.take (i * n)).length (l.take (i * n)) = (groups n l.length l).take i := by
  induction i generalizing l with
  | zero => simp [groups]
  | succ i ih =>
    by_cases hl : l = []
    · subst hl; simp [groups]
    · have htake : l.take ((i + 1) * n) ≠ [] := by
        have hpos : 0 < (i + 1) * n := Nat.mul_pos (Nat.succ_pos i) hn
        have hlen : 0 < l.length := List.length_pos_iff.2 hl
        exact List.ne_nil_of_length_pos (by rw [List.length_take]; omega)
      rw [groups_length hn hl, groups_length hn htake, List.take_succ_cons, ← ih, List.drop_take, List.take_take,
        Nat.succ_mul, Nat.add_sub_cancel, Nat.min_eq_left (Nat.le_add_left _ _)]

theorem groups_length_le {α : Type} {n : Nat} (hn : 0 < n) {i : Nat} {l : List α} (hl : l.length = i * n) :
    (groups n l.length l).length ≤ i := by
  have htake := groups_take hn i l
  rw [List.take_of_length_le (Nat.le_of_eq hl)] at htake
  rw [htake]
  exact List.length_take_le _ _

/-- A stretch of whole groups has those groups. -/
theorem groups_stretch {α : Type} {n : Nat} (hn : 0 < n) (i j : Nat) (l : List α) :
    groups n ((l.drop (i * n)).take (j * n)).length ((l.drop (i * n)).take (j * n)) = ((groups n l.length l).drop i).take j := by
  rw [groups_take hn, groups_drop hn]

end Sys2Proof

namespace Sys2Proof.Machine

/-! ### One term of each format's sum (R92) -/

/-- A product joins a sum. -/
def mulAdd (s : F32) (q : F32 × F32) : F32 := fadd s (fmul q.1 q.2)

/-- Two products, added first, join a sum. -/
def addPair (s : F32) : List (F32 × F32) → F32
  | [a, b] => fadd s (fadd (fmul a.1 a.2) (fmul b.1 b.2))
  | [a] => fadd s (fmul a.1 a.2)
  | _ => s

/-- A block's sum, scaled, joins a sum. -/
def addBlock (s : F32) (b : List (F32 × F32) × Nat × Nat) : F32 :=
  fadd s (if b.2.1 = 255 || b.2.2 = 255 then qNaN else rn ((fval (pairSum fZero b.1)).scale ((b.2.1 : Int) + b.2.2 - 254)))

/-- A tile's sum joins a sum. -/
def addTile (s : F32) (g : List (F32 × F32)) : F32 := fadd s (g.foldl mulAdd fZero)

/-- Element `q.2` of an ASKUC slot's sum: its tile starts at every 64th element and joins the sum after 64 of them. -/
def askucStep (a : F32 × F32) (q : (F32 × F32) × Nat) : F32 × F32 :=
  let t := mulAdd (if q.2 % 64 = 0 then fZero else a.2) q.1
  if q.2 % 64 = 63 then (fadd a.1 t, t) else (a.1, t)

theorem pairSum_eq (s : F32) (p : List (F32 × F32)) : pairSum s p = (groups 2 p.length p).foldl addPair s := rfl

/-- The blocks of an MX sum with their scales. -/
def Operand.blocks (w x : Operand) : List (List (F32 × F32) × Nat × Nat) :=
  (groups 32 (w.vals.zip x.vals).length (w.vals.zip x.vals)).zip (w.scales.zip x.scales)

theorem Operand.blocks_length_le {w x : Operand} {i : Nat} (h : (w.vals.zip x.vals).length = i * 32) : (w.blocks x).length ≤ i := by
  rw [Operand.blocks, List.length_zip]
  exact Nat.le_trans (Nat.min_le_left _ _) (groups_length_le (by decide) h)

/-! ### The logit as such a sum -/

theorem logit_askuc (wfmt : Nat) (w x : Operand) :
    logit true wfmt w x = (groups 64 (w.vals.zip x.vals).length (w.vals.zip x.vals)).foldl addTile fZero := rfl

theorem logit_bf16 (w x : Operand) : logit false 0 w x = (w.vals.zip x.vals).foldl mulAdd fZero := rfl

theorem logit_mx {wfmt : Nat} (h : isMxW wfmt = true) (w x : Operand) :
    logit false wfmt w x = (w.blocks x).foldl addBlock fZero := by
  have h0 : wfmt ≠ 0 := fun h0 => by subst h0; cases h
  simp only [logit, h0, h, if_false, if_true, Bool.false_eq_true]
  rfl

theorem logit_fp8 {wfmt : Nat} (h0 : wfmt ≠ 0) (h : isMxW wfmt = false) (w x : Operand) :
    logit false wfmt w x = (groups 2 (w.vals.zip x.vals).length (w.vals.zip x.vals)).foldl addPair fZero := by
  simp only [logit, h0, h, if_false, Bool.false_eq_true, pairSum_eq]

/-! ### A segment as a stretch of that sum (R93) -/

variable (w x : Operand) (a : F32 × F32) (lo n : Nat)

theorem slice_zip : (w.slice lo n).vals.zip (x.slice lo n).vals = ((w.vals.zip x.vals).drop lo).take n :=
  zip_stretch _ _ _ _

theorem accRun_askuc (wfmt : Nat) : accRun true wfmt lo a (w.slice lo n) (x.slice lo n) =
    (((w.vals.zip x.vals).zipIdx.drop lo).take n).foldl askucStep a := by
  rw [← zipIdx_stretch, ← slice_zip, List.foldl_map]
  rfl

theorem accRun_bf16 : accRun false 0 lo a (w.slice lo n) (x.slice lo n) =
    ((((w.vals.zip x.vals).drop lo).take n).foldl mulAdd a.1, a.2) := by
  rw [← slice_zip]
  rfl

theorem accRun_mx {wfmt : Nat} (h : isMxW wfmt = true) (i j : Nat) :
    accRun false wfmt (i * (j * 32)) a (w.slice (i * (j * 32)) (j * 32)) (x.slice (i * (j * 32)) (j * 32)) =
      ((((w.blocks x).drop (i * j)).take j).foldl addBlock a.1, a.2) := by
  have h0 : wfmt ≠ 0 := fun h0 => by subst h0; cases h
  have hlo : i * (j * 32) = i * j * 32 := (Nat.mul_assoc i j 32).symm
  have hblocks : (w.slice (i * (j * 32)) (j * 32)).blocks (x.slice (i * (j * 32)) (j * 32)) = ((w.blocks x).drop (i * j)).take j := by
    rw [Operand.blocks, slice_zip, hlo, groups_stretch (by decide), Operand.blocks, ← zip_stretch, ← zip_stretch]
    simp only [Operand.slice, Nat.mul_div_cancel _ (show 0 < 32 by decide)]
  rw [← hblocks]
  simp only [accRun, h0, h, if_false, if_true, Bool.false_eq_true]
  rfl

theorem accRun_fp8 {wfmt : Nat} (h0 : wfmt ≠ 0) (h : isMxW wfmt = false) (i j : Nat) :
    accRun false wfmt (i * (j * 2)) a (w.slice (i * (j * 2)) (j * 2)) (x.slice (i * (j * 2)) (j * 2)) =
      ((((groups 2 (w.vals.zip x.vals).length (w.vals.zip x.vals)).drop (i * j)).take j).foldl addPair a.1, a.2) := by
  rw [← groups_stretch (by decide), Nat.mul_assoc, ← slice_zip]
  simp only [accRun, h0, h, if_false, Bool.false_eq_true, pairSum_eq]

/-! ### The segments together -/

/-- Where each segment folds over its stretch of one list, beside a tile partial that it leaves alone, all of them fold over
the list. -/
theorem foldl_stretches_fst {α : Type} (run : Nat → F32 × F32 → F32 × F32) (g : F32 → α → F32) (l : List α) {j k : Nat}
    (hl : l.length ≤ k * j) (hrun : ∀ i a, run i a = (((l.drop (i * j)).take j).foldl g a.1, a.2)) (a : F32 × F32) :
    ((List.range k).foldl (fun a i => run i a) a).1 = l.foldl g a.1 := by
  have hfst := List.foldl_hom Prod.fst (g₁ := fun a i => run i a) (g₂ := fun s i => ((l.drop (i * j)).take j).foldl g s)
    (l := List.range k) (init := a) (fun a i => by rw [hrun])
  rw [← hfst, foldl_stretches, List.take_of_length_le hl]

/-- Within a tile of an ASKUC slot the products join the tile's partial, which joins the sum after the last. -/
theorem foldl_askucStep_within (s t : F32) (g : List (F32 × F32)) {j : Nat} (hj : 0 < j % 64) (hg : j % 64 + g.length = 64) :
    (g.zipIdx j).foldl askucStep (s, t) = (fadd s (g.foldl mulAdd t), g.foldl mulAdd t) := by
  induction g generalizing j t with
  | nil => rw [List.length_nil] at hg; omega
  | cons q g ih =>
    have hnext : askucStep (s, t) (q, j) = if j % 64 = 63 then (fadd s (mulAdd t q), mulAdd t q) else (s, mulAdd t q) := by
      simp [askucStep, Nat.pos_iff_ne_zero.1 hj]
    rw [List.length_cons] at hg
    rw [List.zipIdx_cons, List.foldl_cons, hnext, List.foldl_cons]
    split
    · have hnil : g = [] := List.length_eq_zero_iff.1 (by omega)
      subst hnil; rfl
    · exact ih _ (by omega) (by omega)

/-- A whole tile of an ASKUC slot, whatever partial was left before it. -/
theorem foldl_askucStep_tile (s t : F32) (g : List (F32 × F32)) {j : Nat} (hj : j % 64 = 0) (hg : g.length = 64) :
    (g.zipIdx j).foldl askucStep (s, t) = (addTile s g, g.foldl mulAdd fZero) := by
  cases g with
  | nil => cases hg
  | cons q g =>
    have hfirst : askucStep (s, t) (q, j) = (s, mulAdd fZero q) := by simp [askucStep, hj]
    rw [List.length_cons] at hg
    rw [List.zipIdx_cons, List.foldl_cons, hfirst, foldl_askucStep_within _ _ _ (by omega) (by omega)]
    rfl

/-- An ASKUC sum over whole tiles is the sum of the tiles. -/
theorem foldl_askucStep_tiles (m : Nat) (l : List (F32 × F32)) (hl : l.length = m * 64) (a : F32 × F32) {j : Nat} (hj : j % 64 = 0) :
    ((l.zipIdx j).foldl askucStep a).1 = (groups 64 l.length l).foldl addTile a.1 := by
  induction m generalizing l a j with
  | zero => rw [List.length_eq_zero_iff.1 (by omega : l.length = 0)]; rfl
  | succ m ih =>
    have hne : l ≠ [] := List.ne_nil_of_length_pos (by omega)
    have htile : (l.take 64).length = 64 := by rw [List.length_take]; omega
    have hsplit : l.zipIdx j = (l.take 64).zipIdx j ++ (l.drop 64).zipIdx (j + 64) := by
      have happend := List.zipIdx_append (xs := l.take 64) (ys := l.drop 64) (k := j)
      rwa [List.take_append_drop, htile] at happend
    rw [groups_length (by decide) hne, hsplit, List.foldl_append, foldl_askucStep_tile a.1 a.2 _ hj htile]
    exact ih (l.drop 64) (by rw [List.length_drop]; omega) _ (by omega)

theorem two_dvd_segLen (wfmt : Nat) (band : Bool) : 2 ∣ segLen wfmt band :=
  Nat.dvd_trans (by cases band <;> decide) (Nat.dvd_mul_right _ _)

/-- A segment of an MX format holds whole blocks (R90, R95). -/
theorem block_dvd_segLen {wfmt : Nat} (h : isMxW wfmt = true) (band : Bool) : 32 ∣ segLen wfmt band := by
  have h0 : wfmt ≠ 0 := fun h0 => by subst h0; cases h
  cases band <;> simp [segLen, h0]

end Sys2Proof.Machine

open Sys2Proof Sys2Proof.Machine

/-- Settles O30: in each format the logit is one fold over the elements, pairs, or blocks, of which a segment takes the
next stretch; an ASKUC tile may span segments, since its partial stays beside the sum. -/
theorem segmentsAddUpToTheLogit : Obligations.SegmentsAddUpToTheLogit := by
  unfold Obligations.SegmentsAddUpToTheLogit
  intro askuc band wfmt k w x _ hdvd hw hx _
  have hlen : (w.vals.zip x.vals).length = k * segLen wfmt band := by rw [List.length_zip, hw, hx, Nat.min_self]
  cases askuc
  case true =>
    obtain ⟨m, hm⟩ := hdvd
    simp only [accRun_askuc]
    rw [foldl_stretches, List.take_of_length_le (Nat.le_of_eq (List.length_zipIdx.trans hlen)),
      foldl_askucStep_tiles m _ (by omega) _ rfl, logit_askuc]
  case false =>
    by_cases h0 : wfmt = 0
    · subst h0
      rw [logit_bf16]
      exact foldl_stretches_fst _ _ _ (Nat.le_of_eq hlen) (fun i a => accRun_bf16 w x a _ _) _
    by_cases hmx : isMxW wfmt = true
    · obtain ⟨j, hj⟩ := block_dvd_segLen hmx band
      rw [hj, Nat.mul_comm 32] at hlen ⊢
      rw [logit_mx hmx]
      exact foldl_stretches_fst _ _ _ (Operand.blocks_length_le (hlen.trans (Nat.mul_assoc _ _ _).symm))
        (fun i a => accRun_mx w x a hmx i j) _
    · rw [Bool.not_eq_true] at hmx
      obtain ⟨j, hj⟩ := two_dvd_segLen wfmt band
      rw [hj, Nat.mul_comm 2] at hlen ⊢
      rw [logit_fp8 h0 hmx]
      exact foldl_stretches_fst _ _ _ (groups_length_le (by decide) (hlen.trans (Nat.mul_assoc _ _ _).symm))
        (fun i a => accRun_fp8 w x a h0 hmx i j) _

end

section
/-! SUPPORT. The passes of the cutting tables (R93, R113, R114): what a pass leaves alone, what the check column decides, and
what a failed column brings. -/

namespace Sys2Proof.Machine

/-! ### Registers that events leave alone -/

theorem Eng.bump_reg_other (e : Eng) {off o : Nat} (lo n k : Nat) (h : o ≠ off) : (e.bump off lo n k).reg o = e.reg o :=
  Eng.setReg_reg_other _ _ _ _ h

@[simp] theorem Eng.wake_reg (e : Eng) (o : Nat) : e.wake.reg o = e.reg o := by simp [Eng.reg]

theorem Eng.evtPush_reg_other (e : Eng) (r : List Byte) {o : Nat} (h : o ≠ Reg.evtLost) : (e.evtPush r).2.reg o = e.reg o := by
  unfold Eng.evtPush
  split
  · rfl
  · dsimp only
    split
    · exact Eng.bump_reg_other e _ _ _ h
    · rfl

theorem Eng.raiseRec_reg_other (e : Eng) (code arg : Nat) (polder : Option Nat) (tag : Nat) {o : Nat} (hlost : o ≠ Reg.evtLost)
    (hlast : o ≠ Reg.evtLast) (hcnt : o ≠ Reg.evtCnt (code / 256)) : (e.raiseRec code arg polder tag).2.reg o = e.reg o := by
  have hcounted (v : Nat) : ((e.bump32 (Reg.evtCnt (code / 256)) 1).setReg Reg.evtLast v).reg o = e.reg o :=
    (Eng.setReg_reg_other _ _ _ _ hlast).trans (Eng.bump_reg_other e _ _ _ hcnt)
  have hdropped (x : Eng) (hx : x.reg o = e.reg o) (lo : Nat) : (x.bump Reg.evtLost lo 16 1).reg o = e.reg o :=
    (Eng.bump_reg_other x _ _ _ hlost).trans hx
  unfold Eng.raiseRec
  dsimp only
  split
  · exact hdropped _ (hcounted _) _
  split
  · exact hcounted _
  split
  · exact hcounted _
  split
  · split
    · exact hdropped _ (hcounted _) _
    · dsimp only
      split
      · exact (Eng.wake_reg _ _).trans (hcounted _)
      · exact hcounted _
  · exact (Eng.evtPush_reg_other _ _ hlost).trans (hcounted _)

/-- Raising an event changes its class's counter, that of EVENT_RING_LOSS, and the last and lost events. -/
theorem Eng.raise_reg_other (e : Eng) (code arg : Nat) (polder : Option Nat) (tag : Nat) {o : Nat}
    (h : o ∉ [Reg.evtLost, Reg.evtLast, Reg.evtCnt (code / 256), Reg.evtCnt 5]) : (e.raise code arg polder tag).reg o = e.reg o := by
  simp only [List.mem_cons, List.not_mem_nil, or_false, not_or] at h
  obtain ⟨hlost, hlast, hcnt, hloss⟩ := h
  have hrec := e.raiseRec_reg_other code arg polder tag hlost hlast hcnt
  unfold Eng.raise
  dsimp only
  split
  · exact (Eng.raiseRec_reg_other _ 0x05C0 0 none 0 hlost hlast hloss).trans hrec
  · exact hrec

/-! ### A table and its replacement -/

theorem Eng.setTable_table (e : Eng) (t k : Nat) (f : CutTable → CutTable) :
    (e.setTable t f).table k = if k = t ∧ t < e.tables.length then f (e.table t) else e.table k := by
  simp only [Eng.setTable, Eng.table, updAt, List.getD_eq_getElem?_getD, List.getElem?_modify]
  by_cases hk : t = k
  · subst hk
    by_cases ht : t < e.tables.length <;> simp [ht]
  · simp [hk, Ne.symm hk]

theorem Eng.setTable_table_same (e : Eng) {t : Nat} (h : t < e.tables.length) (f : CutTable → CutTable) :
    (e.setTable t f).table t = f (e.table t) := by
  rw [Eng.setTable_table, if_pos ⟨rfl, h⟩]

theorem Eng.setTable_table_other (e : Eng) {t k : Nat} (h : k ≠ t) (f : CutTable → CutTable) : (e.setTable t f).table k = e.table k := by
  rw [Eng.setTable_table, if_neg (fun hk => h hk.1)]

@[simp] theorem Eng.setTable_tables_length (e : Eng) (t : Nat) (f : CutTable → CutTable) :
    (e.setTable t f).tables.length = e.tables.length := by
  simp [Eng.setTable, updAt]

/-- Whether a table is present is told by the fault maps alone. -/
theorem Eng.ctPresent_congr {e e' : Eng} (h : e'.flt = e.flt) (t : Nat) : e'.ctPresent t = e.ctPresent t := by
  simp only [Eng.ctPresent, Eng.bayDown, h]

/-! ### What the work of a pass leaves alone -/

/-- What a pass's work on table `t` may change: the table's cells, the outputs, and the sums kept of pre-empted jobs. -/
structure Eng.CellsOnly (t : Nat) (e e' : Eng) : Prop where
  frame : e' = { e with tables := e'.tables, outs := e'.outs, savedSums := e'.savedSums }
  length : e'.tables.length = e.tables.length
  other : ∀ k, k ≠ t → e'.table k = e.table k
  passes : (e'.table t).passes = (e.table t).passes
  missed : (e'.table t).missed = (e.table t).missed

theorem Eng.CellsOnly.of_tables {t : Nat} {e e' : Eng} (h : e' = { e with outs := e'.outs, savedSums := e'.savedSums }) :
    e.CellsOnly t e' := by
  have htables : e'.tables = e.tables := by rw [h]
  have htable : ∀ k, e'.table k = e.table k := fun k => by rw [Eng.table, htables, Eng.table]
  exact ⟨by rw [htables]; exact h, congrArg _ htables, fun k _ => htable k, congrArg _ (htable t), congrArg _ (htable t)⟩

theorem Eng.CellsOnly.trans {t : Nat} {e e' e'' : Eng} (h : e.CellsOnly t e') (h' : e'.CellsOnly t e'') : e.CellsOnly t e'' where
  frame := by
    have hframe := h'.frame
    rw [h.frame] at hframe
    exact hframe
  length := h'.length.trans h.length
  other k hk := (h'.other k hk).trans (h.other k hk)
  passes := h'.passes.trans h.passes
  missed := h'.missed.trans h.missed

theorem Eng.CellsOnly.foldl {α : Type} {t : Nat} {f : Eng → α → Eng} (hf : ∀ (e : Eng) x, e.CellsOnly t (f e x)) (l : List α) (e : Eng) :
    e.CellsOnly t (l.foldl f e) := by
  induction l generalizing e with
  | nil => exact .of_tables rfl
  | cons x l ih => exact (hf e x).trans (ih (f e x))

theorem Eng.CellsOnly.flt {t : Nat} {e e' : Eng} (h : e.CellsOnly t e') : e'.flt = e.flt := by rw [h.frame]
theorem Eng.CellsOnly.spool {t : Nat} {e e' : Eng} (h : e.CellsOnly t e') : e'.spool = e.spool := by rw [h.frame]
theorem Eng.CellsOnly.wlog {t : Nat} {e e' : Eng} (h : e.CellsOnly t e') : e'.wlog = e.wlog := by rw [h.frame]

/-- Replacing a table's cells keeps its count of passes and the mismatch it remembers. -/
theorem Eng.setCells_cellsOnly (e : Eng) (t : Nat) (band : Option Nat) (k : Cells) :
    e.CellsOnly t (e.setTable t (fun c => c.setCells band k)) where
  frame := rfl
  length := e.setTable_tables_length t _
  other _ hk := e.setTable_table_other hk _
  passes := by rw [Eng.setTable_table]; split <;> cases band <;> rfl
  missed := by rw [Eng.setTable_table]; split <;> cases band <;> rfl

theorem Eng.settleCells_cellsOnly (e : Eng) (t : Nat) (jobs : List PassJob) (k : Cells) : e.CellsOnly t (e.settleCells jobs k).2 := by
  apply Eng.CellsOnly.of_tables
  unfold Eng.settleCells
  dsimp only
  repeat' split
  all_goals rfl

theorem Eng.turnTable_cellsOnly (e : Eng) (t : Nat) (band : Option Nat) : e.CellsOnly t (e.turnTable t band) :=
  Eng.CellsOnly.foldl (fun e b => (e.settleCells_cellsOnly t _ _).trans (Eng.setCells_cellsOnly _ t b _)) _ e

/-- A pass over stationary weights: with the job's last segment its sums leave the taps, else they stay; the shadow swaps in
where it holds what comes next. -/
theorem Eng.advanceCells_some (e : Eng) (m : Mem) (band : Bool) (jobs : List PassJob) (k : Cells) {w : CellWeights} {last : Bool}
    (hw : k.stat = some w)
    (hlast : (e.cmd? w.job.cmd).all (fun c => (e.scoreCtx m c (e.cfgOf c.d.slot)).lastSeg band w.job w.seg) = last) :
    ∃ shadow sums, e.advanceCells m band jobs k = ({ stat := k.shadow.filter (fun x => last == (x.job != w.job)), shadow, sums },
        { e with
          outs := if last then e.outs ++ [(w.job, (e.runSegment m band w k.sums).map (fun p => (p.1, p.2.map (·.1))))] else e.outs
          savedSums := e.savedSums.filter (fun p => p.job != w.job) }) ∧
      (last = false → sums = e.runSegment m band w k.sums) := by
  unfold Eng.advanceCells
  simp only [hw, hlast]
  cases last
  · exact ⟨_, _, rfl, fun _ => rfl⟩
  · exact ⟨_, _, rfl, nofun⟩

theorem Eng.advanceCells_none (e : Eng) (m : Mem) (band : Bool) (jobs : List PassJob) {k : Cells} (h : k.stat = none) :
    e.advanceCells m band jobs k = (k, e) := by
  simp only [Eng.advanceCells, h]

theorem Eng.advanceCells_cellsOnly (e : Eng) (m : Mem) (t : Nat) (band : Bool) (jobs : List PassJob) (k : Cells) :
    e.CellsOnly t (e.advanceCells m band jobs k).2 := by
  apply Eng.CellsOnly.of_tables
  cases hw : k.stat with
  | none => rw [e.advanceCells_none m band jobs hw]
  | some w =>
    obtain ⟨_, _, heq, -⟩ := e.advanceCells_some m band jobs k hw rfl
    rw [heq]

/-- The work of a pass keeps to the cells of its table. -/
theorem Eng.passWork_cellsOnly (e : Eng) (m : Mem) (t : Nat) (band : Option Nat) (again refetch : Bool) :
    e.CellsOnly t (e.passWork m t band again refetch) := by
  have hprune : e.CellsOnly t (e.pruneOuts.turnTable t band) := (Eng.CellsOnly.of_tables rfl).trans (Eng.turnTable_cellsOnly _ t band)
  have hsettle := fun jobs k => hprune.trans (Eng.settleCells_cellsOnly _ t jobs k)
  unfold Eng.passWork
  cases again
  · exact ((hsettle _ _).trans (Eng.advanceCells_cellsOnly _ m t _ _ _)).trans (Eng.setCells_cellsOnly _ t _ _)
  · exact (hsettle _ _).trans (Eng.setCells_cellsOnly _ t _ _)

/-! ### The check column (R113) -/

/-- The engine once a pass's weights have been read: a corrected symbol is counted and told (R114). -/
def Eng.weightsRead (wc : LineStat) (line : Nat) (e : Eng) : Eng :=
  if wc = .corrected then (e.bump Reg.wcErr 0 16 1).raise 0x0220 line none 0 else e

/-- The engine once a pass has been compared. -/
def Eng.checked (e : Eng) : Eng := e.bump64 Reg.ctChecks 1

/-- The engine once a comparison has disagreed. -/
def Eng.disagreed (t : Nat) (e : Eng) : Eng :=
  (e.checked.bump Reg.ctMismatch (16 * t) 16 1).raise 0x0620 (arg6 (some (ctBay t)) (some (ctBay t / 6)) none none) none 0

@[simp] theorem Eng.weightsRead_flt (e : Eng) (wc : LineStat) (line : Nat) : (e.weightsRead wc line).flt = e.flt := by
  cases wc <;> simp [Eng.weightsRead]

@[simp] theorem Eng.weightsRead_table (e : Eng) (wc : LineStat) (line k : Nat) : (e.weightsRead wc line).table k = e.table k := by
  cases wc <;> simp [Eng.weightsRead, Eng.table]

theorem Eng.weightsRead_reg (e : Eng) (wc : LineStat) (line : Nat) {o : Nat} (h : o ∈ [Reg.ctCtrl, Reg.ctColmap0, Reg.ctColmap1]) :
    (e.weightsRead wc line).reg o = e.reg o := by
  have hplace : ∀ o ∈ [Reg.ctCtrl, Reg.ctColmap0, Reg.ctColmap1],
      o ≠ Reg.wcErr ∧ o ∉ [Reg.evtLost, Reg.evtLast, Reg.evtCnt (0x0220 / 256), Reg.evtCnt 5] := by decide
  obtain ⟨hwc, hevt⟩ := hplace o h
  unfold Eng.weightsRead
  split
  · rw [Eng.raise_reg_other _ _ _ _ _ hevt, Eng.bump_reg_other _ _ _ _ hwc]
  · rfl

theorem Eng.weightsRead_checker (e : Eng) (wc : LineStat) (line t : Nat) : (e.weightsRead wc line).checker t = e.checker t := by
  have hmap : (e.weightsRead wc line).reg (colmap t) = e.reg (colmap t) :=
    e.weightsRead_reg wc line (by unfold colmap; split <;> simp)
  simp only [Eng.checker, Eng.spare, hmap]

@[simp] theorem Eng.disagreed_flt (e : Eng) (t : Nat) : (e.disagreed t).flt = e.flt := by simp [Eng.disagreed, Eng.checked]

@[simp] theorem Eng.disagreed_table (e : Eng) (t k : Nat) : (e.disagreed t).table k = e.table k := by
  simp [Eng.disagreed, Eng.checked, Eng.table]

/-- Checking is on, with a check column. -/
def Eng.checks (e : Eng) (t i : Nat) : Prop := bit (e.reg Reg.ctCtrl) 1 = true ∧ e.checker t = some i

theorem Eng.weightsRead_checks {e : Eng} {t i : Nat} (wc : LineStat) (line : Nat) (h : e.checks t i) : (e.weightsRead wc line).checks t i :=
  ⟨(congrArg (bit · 1) (e.weightsRead_reg wc line (o := Reg.ctCtrl) (by simp))).trans h.1, (e.weightsRead_checker wc line t).trans h.2⟩

section
variable {e : Eng} {t i : Nat} (mis own : Bool)

theorem Eng.checkPass_unchecked (h : bit (e.reg Reg.ctCtrl) 1 = false ∨ e.checker t = none) :
    e.checkPass t mis own = (false, e.setTable t (fun k => { k with missed := none })) := by
  rcases h with h | h <;> simp [Eng.checkPass, h]

theorem Eng.checkPass_agrees (h : e.checks t i) :
    e.checkPass t false own = (false, e.checked.setTable t (fun k => { k with missed := none })) := by
  simp [Eng.checkPass, h.1, h.2, Eng.checked]

theorem Eng.checkPass_first (h : e.checks t i) (hm : (e.table t).missed ≠ some ((e.table t).passes % 64)) :
    e.checkPass t true own = (true, (e.disagreed t).setTable t (fun k => { k with missed := some ((e.table t).passes % 64) })) := by
  simp only [Eng.checkPass, h.1, h.2, if_true, Bool.not_true, Bool.false_eq_true, if_false]
  exact if_neg ((e.disagreed_table t t).symm ▸ hm)

theorem Eng.checkPass_recurs (h : e.checks t i) (hm : (e.table t).missed = some ((e.table t).passes % 64)) :
    e.checkPass t true own = (false, ((e.disagreed t).setTable t (fun k => { k with missed := none })).columnFails t
      (if own then 64 else (e.table t).passes % 64) i) := by
  simp only [Eng.checkPass, h.1, h.2, if_true, Bool.not_true, Bool.false_eq_true, if_false]
  exact if_pos ((e.disagreed_table t t).symm ▸ hm)

end

/-! ### A pass ends (R93, R114) -/

section
variable {e x : Eng} (m : Mem) {t : Nat} (band : Option Nat) {mis own : Bool} {wc : LineStat} (line : Nat)

theorem Eng.passDone_absent (h : e.ctPresent t = false) : e.passDone m t band mis own wc line = e := by
  simp [Eng.passDone, h]

theorem Eng.passDone_unreadable (h : e.ctPresent t = true) : e.passDone m t band mis own .uncorrectable line =
    ((e.bump Reg.wcErr 16 16 1).raise 0x0221 line none 0).passWork m t band true true := by
  simp [Eng.passDone, h]

/-- The work of a pass that has been compared: it counts unless it is to be run again. -/
def Eng.comparedWork (m : Mem) (t : Nat) (band : Option Nat) (p : Bool × Eng) : Eng :=
  if p.1 then p.2.passWork m t band p.1 false
  else (p.2.passWork m t band p.1 false).setTable t (fun c => { c with passes := c.passes + 1 })

theorem Eng.passDone_readable (h : e.ctPresent t = true) (hwc : wc ≠ .uncorrectable) :
    e.passDone m t band mis own wc line =
      (let y := Eng.comparedWork m t band ((e.weightsRead wc line).checkPass t mis own)
       if y.ctPresent t then y else y.clearTable t) := by
  unfold Eng.passDone
  simp only [h, Bool.not_true, Bool.false_eq_true, if_false]
  cases wc with
  | uncorrectable => exact absurd rfl hwc
  | ok | corrected => rfl

/-- A pass to be run again, of a table that is still present. -/
theorem Eng.passDone_again (h : e.ctPresent t = true) (hwc : wc ≠ .uncorrectable) (hflt : x.flt = e.flt)
    (hx : (e.weightsRead wc line).checkPass t mis own = (true, x)) :
    e.passDone m t band mis own wc line = x.passWork m t band true false := by
  rw [Eng.passDone_readable m band line h hwc, hx]
  exact if_pos ((Eng.ctPresent_congr ((x.passWork_cellsOnly m t band true false).flt.trans hflt) t).trans h)

/-- A pass that counts, of a table that is still present. -/
theorem Eng.passDone_counts (h : e.ctPresent t = true) (hwc : wc ≠ .uncorrectable) (hflt : x.flt = e.flt)
    (hx : (e.weightsRead wc line).checkPass t mis own = (false, x)) : e.passDone m t band mis own wc line =
      (x.passWork m t band false false).setTable t (fun c => { c with passes := c.passes + 1 }) := by
  rw [Eng.passDone_readable m band line h hwc, hx]
  exact if_pos ((Eng.ctPresent_congr ((x.passWork_cellsOnly m t band false false).flt.trans hflt) t).trans h)

end

/-! ### A failed column (R113, R348) -/

@[simp] theorem Eng.unitAbsent_flt (e : Eng) (bay event : Nat) : (e.unitAbsent bay event).flt = e.flt := by
  rw [Eng.unitAbsent, Eng.updateReplace_flt]
  split
  · exact Eng.fltEvent_flt _ _ _ _ _ _
  · rw [Eng.raise_flt, Eng.fltEvent_flt]

/-- An engine with another fault queue. -/
def Eng.withQueue (q : List FaultRec) (e : Eng) : Eng := { e with flt := { e.flt with queue := q } }

/-- Where marking units absent leaves nothing in the queue, the next recovery is just that. -/
theorem Eng.nextRecovery_marks (e : Eng) (hr : e.flt.recovery = none) (hp : e.pwr.trans = false) {kept : List FaultRec}
    (hkept : e.flt.queue.filter (fun r => !e.covered r) = kept) (hdone : ((e.withQueue kept).markUnits kept.length).nextFault = none) :
    e.nextRecovery = (e.withQueue kept).markUnits kept.length := by
  subst hkept
  rw [Eng.nextRecovery, if_neg (by simp [hr, hp])]
  dsimp only
  split
  · rfl
  next hr => cases hr.symm.trans hdone

/-- A table's turn, alone in the fault queue: it is marked absent, and nothing is left to recover. -/
theorem Eng.nextRecovery_table (e : Eng) {t : Nat} (hr : e.flt.recovery = none) (hp : e.pwr.trans = false)
    (hq : e.flt.queue = [.table t]) (ht : t ∉ e.flt.ctAbsent) : e.nextRecovery = (e.withQueue []).markTable t := by
  have hkeep : e.flt.queue.filter (fun r => !e.covered r) = [.table t] := by simp [hq, Eng.covered, ht]
  have hturn : (e.withQueue [.table t]).nextFault = some (.table t) := by simp [Eng.nextFault, Eng.withQueue, FaultRec.order]
  have hmark : (e.withQueue [.table t]).markUnits [FaultRec.table t].length = (e.withQueue []).markTable t := by
    rw [List.length_singleton, Eng.markUnits, hturn]
    simp [Eng.markUnits, Eng.withQueue]
  have hdone : ((e.withQueue []).markTable t).nextFault = none := by
    have hempty : ((e.withQueue []).markTable t).flt.queue = [] := by rw [Eng.markTable, Eng.unitAbsent_flt]; rfl
    rw [Eng.nextFault, hempty]
    rfl
  exact (e.nextRecovery_marks hr hp hkeep ((congrArg Eng.nextFault hmark).trans hdone)).trans hmark

theorem Eng.addFault_table (e : Eng) {t : Nat} (hr : e.flt.recovery = none) (hq : e.flt.queue = []) (hp : e.pwr.trans = false)
    (ht : t ∉ e.flt.ctAbsent) : e.addFault (.table t) = e.markTable t := by
  have hsame : (e.withQueue [.table t]).withQueue [] = e := by simp only [Eng.withQueue, ← hq]
  have hstart : e.addFault (.table t) = (e.withQueue [.table t]).nextRecovery := by
    simp [Eng.addFault, hr, hq, Eng.withQueue]
  rw [hstart, (e.withQueue [.table t]).nextRecovery_table hr hp rfl ht, hsame]

theorem Eng.columnFails_absent (e : Eng) {t col : Nat} (i : Nat) (hcol : col < 64) (hs : 3 ≤ e.sparesUsed t) (ht : t ∈ e.flt.ctAbsent) :
    e.columnFails t col i = e := by
  simp [Eng.columnFails, hcol, hs, ht]

theorem Eng.columnFails_fourth (e : Eng) {t col : Nat} (i : Nat) (hcol : col < 64) (hs : 3 ≤ e.sparesUsed t) (ht : t ∉ e.flt.ctAbsent) :
    e.columnFails t col i = e.addFault (.table t) := by
  simp [Eng.columnFails, hcol, hs, ht]

/-- The check spare stands in for the column, and the next idle spare checks. -/
theorem Eng.columnFails_spared (e : Eng) {t col j : Nat} (i : Nat) (hcol : col < 64) (hs : e.sparesUsed t < 3) (hj : e.idleSpare t = some j) :
    e.columnFails t col i =
      ((((e.setSpare t i (128 + col)).setSpare t j 64).post (.column t (((e.setSpare t i (128 + col)).setSpare t j 64).reg (colmap t)))).raise
        0x0621 (arg6 (some (ctBay t)) (some (ctBay t / 6)) none none) none 0).updateReplace := by
  simp [Eng.columnFails, hcol, Nat.not_le.2 hs, hj]

/-! ### A segment of every row (R90, R92) -/

/-- The columns' sums of each row that the job scores are those before with its products of this segment added. -/
theorem Eng.mem_runSegment (e : Eng) (m : Mem) (band : Bool) {w : CellWeights} (sums : KV (List (F32 × F32))) {c : Cmd} {t : Nat}
    (hc : e.cmd? w.job.cmd = some c) (ht : t ∈ (if w.job.stage = 2 then [w.job.token] else e.openRows m c w.job.tile)) :
    let x := e.scoreCtx m c (e.cfgOf c.d.slot)
    let n := segLen x.img.wfmt band
    (t, (w.cols.zip (KV.get (List.replicate 64 (fZero, fZero)) sums t)).map (fun p => accRun x.cfg.askuc x.img.wfmt (w.seg * n) p.2 p.1
      ((e.stageOperand m x c w.job.stage t).slice (w.seg * n) n))) ∈ e.runSegment m band w sums := by
  unfold Eng.runSegment
  simp only [hc]
  exact List.mem_map.2 ⟨t, ht, rfl⟩

/-! ### TABLE_PASS -/

section
variable {s : State} (h : s.on) {t : Nat} (band : Option Nat) {mis own : Bool} {wc : LineStat} (line : Nat)
  (hp : s.eng.ctPresent t = true) (hwc : wc ≠ .uncorrectable)
include h hp hwc

theorem exec_tablePass_counts {x : Eng} (hflt : x.flt = s.eng.flt) (hx : (s.work.weightsRead wc line).checkPass t mis own = (false, x)) :
    exec (.tablePass t band mis own wc line) s = .next (s.leaves ((x.passWork s.hbm t band false false).setTable t
      (fun k => { k with passes := k.passes + 1 }))) :=
  (exec_tablePass t band mis own wc line s).trans (h.onPower_leaves (s.work.passDone_counts s.hbm band line hp hwc hflt hx))

theorem exec_tablePass_unchecked (hoff : bit (s.eng.reg Reg.ctCtrl) 1 = false ∨ s.eng.checker t = none) :
    exec (.tablePass t band mis own wc line) s =
      .next (s.leaves ((((s.work.weightsRead wc line).setTable t (fun k => { k with missed := none })).passWork s.hbm t band false
        false).setTable t (fun k => { k with passes := k.passes + 1 }))) := by
  have hoff : bit ((s.work.weightsRead wc line).reg Reg.ctCtrl) 1 = false ∨ (s.work.weightsRead wc line).checker t = none := by
    rw [Eng.weightsRead_reg _ _ _ (by simp), Eng.weightsRead_checker]
    exact hoff
  exact exec_tablePass_counts h band line hp hwc (Eng.weightsRead_flt _ _ _) (Eng.checkPass_unchecked mis own hoff)

theorem exec_tablePass_checked {i : Nat} (hc : s.eng.checks t i) :
    exec (.tablePass t band false own wc line) s =
      .next (s.leaves ((((s.work.weightsRead wc line).checked.setTable t (fun k => { k with missed := none })).passWork s.hbm t band false
        false).setTable t (fun k => { k with passes := k.passes + 1 }))) :=
  exec_tablePass_counts h band line hp hwc (Eng.weightsRead_flt s.work wc line)
    (Eng.checkPass_agrees own (Eng.weightsRead_checks (e := s.work) wc line hc))

theorem exec_tablePass_first {i : Nat} (hc : s.eng.checks t i) (hm : (s.eng.table t).missed ≠ some ((s.eng.table t).passes % 64)) :
    exec (.tablePass t band true own wc line) s =
      .next (s.leaves ((((s.work.weightsRead wc line).disagreed t).setTable t
        (fun k => { k with missed := some ((s.eng.table t).passes % 64) })).passWork s.hbm t band true false)) := by
  have htable := s.work.weightsRead_table wc line t
  have hcheck := Eng.checkPass_first own (Eng.weightsRead_checks (e := s.work) wc line hc) (by rw [htable]; exact hm)
  rw [htable] at hcheck
  exact (exec_tablePass t band true own wc line s).trans (h.onPower_leaves (s.work.passDone_again s.hbm band line hp hwc
    ((Eng.disagreed_flt _ t).trans (Eng.weightsRead_flt _ _ _)) hcheck))

theorem exec_tablePass_recurs {i : Nat} {y : Eng} (hc : s.eng.checks t i)
    (hm : (s.eng.table t).missed = some ((s.eng.table t).passes % 64))
    (hy : y = (((((s.work.weightsRead wc line).disagreed t).setTable t (fun k => { k with missed := none })).columnFails t
      (if own then 64 else (s.eng.table t).passes % 64) i).passWork s.hbm t band false false).setTable t
      (fun k => { k with passes := k.passes + 1 })) :
    exec (.tablePass t band true own wc line) s = .next (s.leaves (if y.ctPresent t then y else y.clearTable t)) := by
  have htable := s.work.weightsRead_table wc line t
  have hcheck := Eng.checkPass_recurs own (Eng.weightsRead_checks (e := s.work) wc line hc) (by rw [htable]; exact hm)
  rw [htable] at hcheck
  subst hy
  refine (exec_tablePass t band true own wc line s).trans (h.onPower_leaves ((s.work.passDone_readable s.hbm band line hp hwc).trans ?_))
  rw [hcheck]
  rfl

end

/-- A pass that agrees counts, and leaves the other tables and HBM alone. -/
theorem exec_tablePass_agrees {s : State} (h : s.on) {t : Nat} (band : Option Nat) (own : Bool) (line : Nat)
    (hp : s.eng.ctPresent t = true) (ht : t < s.eng.tables.length) :
    ∃ u, exec (.tablePass t band false own .ok line) s = .next u ∧ (u.eng.table t).passes = (s.eng.table t).passes + 1 ∧
      (u.eng.table t).missed = none ∧ u.hbm = s.hbm ∧ u.eng.tables.length = s.eng.tables.length ∧
      ∀ k, k ≠ t → u.eng.table k = s.eng.table k := by
  obtain ⟨x, hx, hcheck⟩ : ∃ x : Eng, ((x.tables = s.eng.tables ∧ x.flt = s.eng.flt) ∧ x.spool = s.eng.spool ∧ x.wlog = []) ∧
      (s.work.weightsRead .ok line).checkPass t false own = (false, x.setTable t (fun k => { k with missed := none })) := by
    by_cases hc : bit (s.work.reg Reg.ctCtrl) 1 = false ∨ s.work.checker t = none
    · exact ⟨s.work, ⟨⟨rfl, rfl⟩, rfl, rfl⟩, Eng.checkPass_unchecked _ _ hc⟩
    · rw [not_or, Bool.not_eq_false] at hc
      obtain ⟨hon, hcol⟩ := hc
      obtain ⟨i, hi⟩ := Option.ne_none_iff_exists'.1 hcol
      exact ⟨s.work.checked, ⟨⟨rfl, rfl⟩, rfl, rfl⟩, Eng.checkPass_agrees _ ⟨hon, hi⟩⟩
  obtain ⟨⟨htables, hflt⟩, hspool, hwlog⟩ := hx
  have hdone := Eng.passDone_counts (e := s.work) (wc := .ok) s.hbm band line hp (by decide)
    (show (x.setTable t (fun k => { k with missed := none })).flt = _ from hflt) hcheck
  have hkept := (x.setTable t (fun k => { k with missed := none })).passWork_cellsOnly s.hbm t band false false
  generalize Eng.passWork _ _ _ _ _ _ = y at hdone hkept
  have htable : ∀ k, x.table k = s.eng.table k := fun k => by rw [Eng.table, htables, Eng.table]
  have hlen : y.tables.length = s.eng.tables.length := by rw [hkept.length, Eng.setTable_tables_length, htables]
  have hset : ∀ f, (y.setTable t f).table t = f (y.table t) := fun f => y.setTable_table_same (hlen.symm ▸ ht) f
  refine ⟨_, (exec_tablePass t band false own .ok line s).trans (h.onPower_eng hdone (hkept.spool.trans hspool) (hkept.wlog.trans hwlog)),
    ?_, ?_, rfl, ?_, fun k hk => ?_⟩
  · rw [hset, hkept.passes, Eng.setTable_table, htable]
    split <;> rfl
  · rw [hset, hkept.missed, Eng.setTable_table_same _ (htables.symm ▸ ht)]
  · rw [Eng.setTable_tables_length, hlen]
  · rw [Eng.setTable_table_other _ hk, hkept.other k hk, Eng.setTable_table_other _ hk, htable]

end Sys2Proof.Machine

open Sys2Proof Sys2Proof.Machine

/-- Settles O28: a pass is its comparison, then its work within its table's cells; a failed column takes a spare or the table. -/
theorem passesRunSegmentsAndFindFailingColumns : Obligations.PassesRunSegmentsAndFindFailingColumns := by
  unfold Obligations.PassesRunSegmentsAndFindFailingColumns
  refine ⟨⟨fun s t line band h => ⟨fun mis own wc hp => ?_, fun hp => ⟨fun mis own => ?_, fun mis own wc e hwc he => ?_⟩, fun hp ht own => ?_⟩,
    fun e t col i hcol => ⟨fun hs ht => ?_, fun hs ht => ⟨?_, fun hr hq hp => ?_⟩, fun hs j hj => ?_⟩⟩,
    fun m e band jobs k => ⟨fun hk => ?_, fun w c last sums hw hc hlast hsums => ?_⟩, fun m e band w sums c x t hc hx ht => ?_⟩
  · exact (exec_tablePass t band mis own wc line s).trans (h.onPower_eng (s.work.passDone_absent s.hbm band line hp) rfl rfl)
  · exact (exec_tablePass t band mis own _ line s).trans (h.onPower_leaves (s.work.passDone_unreadable s.hbm band line hp))
  · have he : e = s.work.weightsRead wc line := he
    subst he
    refine ⟨fun hoff => exec_tablePass_unchecked h band line hp hwc hoff, fun i hon hi => ⟨fun hmis => ?_, fun x col hmis hcol hx => ?_⟩⟩
    · subst hmis
      exact exec_tablePass_checked h band line hp hwc ⟨hon, hi⟩
    · subst hmis hcol hx
      exact ⟨fun hm => exec_tablePass_first h band line hp hwc ⟨hon, hi⟩ hm,
        fun y hm hy => exec_tablePass_recurs h band line hp hwc ⟨hon, hi⟩ hm hy⟩
  · exact exec_tablePass_agrees h band own line hp ht
  · exact e.columnFails_absent i hcol hs ht
  · exact e.columnFails_fourth i hcol hs ht
  · exact (e.columnFails_fourth i hcol hs ht).trans (e.addFault_table hr hq hp ht)
  · exact e.columnFails_spared i hcol hs hj
  · exact e.advanceCells_none m band jobs hk
  · subst hsums
    have hall : (e.cmd? w.job.cmd).all (fun c => (e.scoreCtx m c (e.cfgOf c.d.slot)).lastSeg band w.job w.seg) = last := by
      rw [hc, Option.all_some, hlast]
    obtain ⟨shadow, sums', heq, hstay⟩ := e.advanceCells_some m band jobs k hw hall
    refine ⟨_, _, heq, rfl, fun h => ⟨hstay h, ?_⟩, fun h => ?_, rfl⟩ <;> simp [h]
  · subst hx
    exact e.mem_runSegment m band sums hc ht

end

section
/-! SUPPORT. Weight images and bias vectors of a layer slot (R99, R102, R152): a command acts at once or waits for the slot's
readers, and what the ends of a load and of a zeroing leave. -/

namespace Sys2Proof.Machine

/-! ### Maps and HBM -/

theorem KV.find_put {α : Type} (l : KV α) (q k : Nat) (x : α) : KV.find (KV.put l q x) k = if k = q then some x else KV.find l k := by
  induction l with
  | nil => simp [KV.put, KV.find, eq_comm]
  | cons c t ih =>
    obtain ⟨a, v⟩ := c
    by_cases hk : k = q
    · subst hk
      rw [if_pos rfl] at ih ⊢
      by_cases hlt : k < a
      · simp [KV.put, KV.find, hlt]
      · by_cases heq : k = a <;> simp [KV.put, KV.find, hlt, heq, Ne.symm (a := k), ih]
    · rw [if_neg hk] at ih ⊢
      by_cases hlt : q < a
      · simp [KV.put, KV.find, hlt, Ne.symm hk]
      · by_cases heq : q = a
        · subst heq; simp [KV.put, KV.find, Ne.symm hk]
        · simp only [KV.put, KV.find, if_neg hlt, if_neg heq, ih]

/-- Changing each value by a function of its key. -/
theorem KV.find_map {α : Type} (f : Nat → α → α) (l : KV α) (k : Nat) :
    KV.find (l.map (fun c => (c.1, f c.1 c.2))) k = (KV.find l k).map (f k) := by
  induction l with
  | nil => rfl
  | cons c t ih =>
    by_cases hk : c.1 = k
    · subst hk; simp [KV.find]
    · simp only [List.map_cons, KV.find, if_neg hk]
      exact ih

/-- Zeros written below the top of HBM. -/
theorem Mem.byte_write_zeros (m : Mem) {a n : Nat} (h : a + n ≤ memTop) (x : Nat) :
    Mem.byte (Mem.write m a (zeros n)) x = if a ≤ x ∧ x < a + n then 0 else Mem.byte m x := by
  have hlen : (zeros n).length = n := List.length_replicate
  by_cases hn : n = 0
  · subst hn
    have hnone : ∀ b, ¬ (b ≤ x ∧ x < b + ([] : List Byte).length) := fun b hb => Nat.not_lt.2 hb.1 hb.2
    have hnil : ∀ (m : Mem) b, Mem.byte (Mem.writeAt m b []) x = Mem.byte m x := fun m b => by
      rw [Mem.byte_writeAt, if_neg (hnone b)]
    rw [if_neg (fun hx => Nat.not_lt.2 hx.1 hx.2), zeros, List.replicate_zero, Mem.write, List.take_nil, List.drop_nil, hnil, hnil]
  · rw [Mem.byte_write m a (zeros n) x (by rw [hlen]; exact h) (List.ne_nil_of_length_pos (by omega)), hlen]
    split
    next hx => rw [zeros, List.getD_eq_getElem?_getD, List.getElem?_replicate_of_lt (by omega), Option.getD_some]
    · rfl

/-! ### Layer slots -/

theorem Eng.setLslot_lslot (e : Eng) (slot k : Nat) (f : LSlot → LSlot) :
    (e.setLslot slot f).lslot k = if k = slot then f (e.lslot slot) else e.lslot k := by
  simp only [Eng.setLslot, Eng.lslot, KV.upd]
  rw [KV.get, KV.find_put]
  split <;> rfl

/-- What the accounting of HBM bytes may change. -/
theorem Eng.accSlot_eq (e : Eng) (slot n : Nat) : e.accSlot slot n = { e with pld := (e.accSlot slot n).pld } := by
  unfold Eng.accSlot Eng.accHbm Eng.account
  split
  · split <;> rfl
  · rfl

/-- Bytes written to HBM are counted as well before as after. -/
theorem Eng.store_accSlot (e : Eng) (a : Nat) (bs : List Byte) (slot n : Nat) :
    (e.store a bs).accSlot slot n = (e.accSlot slot n).store a bs := by
  have hp : (e.store a bs).slotPolder slot = e.slotPolder slot := rfl
  unfold Eng.accSlot
  rw [hp]
  cases e.slotPolder slot with
  | none => rfl
  | some p =>
    have hs : (e.store a bs).slotOf p = e.slotOf p := rfl
    dsimp only [Eng.accHbm, Eng.account]
    rw [hs]
    cases e.slotOf p <;> rfl

/-- A command that writes once to HBM. -/
theorem State.leaves_store (s : State) (e : Eng) (a : Nat) (bs : List Byte) (hc : e.spool.corrupt = false) (hw : e.wlog = []) :
    s.leaves (e.store a bs) = { s with hbm := Mem.write s.hbm a bs, eng := e } := by
  rw [State.leaves_clean s _ (by exact hc)]
  simp only [Eng.view, Eng.store, hw, List.foldr_cons, List.foldr_nil]
  rw [← hw]

/-! ### Weight commands (R99, R102) -/

/-- A write of one bit of TWK_CT_WCMD. -/
theorem Eng.writeAccess_wcmd (e : Eng) (m : Mem) (mgmt : Bool) {kind : Nat} (h : kind ∈ [wcBind, wcUnbind, wcInvalidate]) :
    e.writeAccess m mgmt Reg.ctWcmd false kind = e.weightCmd m kind := by
  simp only [List.mem_cons, List.not_mem_nil, or_false] at h
  rcases h with rfl | rfl | rfl <;> rfl

theorem exec_weightCommand {s : State} (h : s.alert) {i : Instr} {kind : Nat}
    (hi : (i = .bind ∧ kind = wcBind) ∨ (i = .unbind ∧ kind = wcUnbind) ∨ (i = .invalidate ∧ kind = wcInvalidate)) :
    exec i s = .next (s.leaves (s.work.weightCmd s.hbm kind)) := by
  have hexec : exec i s = s.onPower (fun m e => e.mmioWrite m Reg.ctWcmd false kind) := by
    rcases hi with ⟨rfl, rfl⟩ | ⟨rfl, rfl⟩ | ⟨rfl, rfl⟩
    · exact exec_bind s
    · exact exec_unbind s
    · exact exec_invalidate s
  have hkind : kind ∈ [wcBind, wcUnbind, wcInvalidate] := by
    rcases hi with ⟨-, rfl⟩ | ⟨-, rfl⟩ | ⟨-, rfl⟩ <;> decide
  exact hexec.trans (h.1.onPower_leaves ((h.mmioWrite _ _ _).trans (s.work.writeAccess_wcmd s.hbm false hkind)))

section
variable (e : Eng) (m : Mem) {slot a : Nat} (kind : Nat) (hslot : slot = field (e.reg Reg.ctSlotSel) 0 8) (ha : a = (e.lslot slot).wimg)
include hslot ha

theorem Eng.weightCmd_waits (h : e.readersRun slot [opScore, opRoute, opCombineBwd] = true) :
    e.weightCmd m kind = e.setLslot slot (fun l => { l with wpend := some (kind, a) }) := by
  subst hslot ha
  exact if_pos h

theorem Eng.weightCmd_acts (h : e.readersRun slot [opScore, opRoute, opCombineBwd] = false) :
    e.weightCmd m kind = e.weightNow m kind slot a := by
  subst hslot ha
  exact if_neg (by rw [h]; decide)

end

/-- The engine once a BIND has been checked: nothing latched, and its RESULT in TWK_CT_WSTAT. -/
def Eng.bindChecked (m : Mem) (slot a : Nat) (e : Eng) : Eng :=
  (e.setLslot slot (fun l => { l with wpend := none })).setReg Reg.ctWstat
    (setField (e.reg Reg.ctWstat) 16 8 ((e.setLslot slot (fun l => { l with wpend := none })).bindCheck m slot a))

theorem Eng.weightNow_binds (e : Eng) (m : Mem) {slot a : Nat} {x : Eng}
    (h : (e.setLslot slot (fun l => { l with wpend := none })).bindCheck m slot a = stOk)
    (hx : x = (e.bindChecked m slot a).setLslot slot (fun l => { l with bound := true, boundAddr := a, loading := true, cached := false })) :
    e.weightNow m wcBind slot a =
      x.raise 0x0520 (arg5 0 ((x.slotPolder slot).getD 0) (((x.slotPolder slot).bind x.slotOf).getD 0)) (x.slotPolder slot) 0 := by
  subst hx
  rw [Eng.weightNow, if_pos rfl, if_pos h]
  rfl

theorem Eng.weightNow_refuses (e : Eng) (m : Mem) {slot a : Nat}
    (h : (e.setLslot slot (fun l => { l with wpend := none })).bindCheck m slot a ≠ stOk) :
    e.weightNow m wcBind slot a =
      (e.bindChecked m slot a).setLslot slot (fun l => { l with bound := false, loading := false, cached := false }) := by
  rw [Eng.weightNow, if_pos rfl, if_neg h]
  rfl

theorem Eng.weightLatched_waits (e : Eng) (m : Mem) {slot : Nat}
    (h : (e.lslot slot).wpend = none ∨ e.readersRun slot [opScore, opRoute, opCombineBwd] = true) : e.weightLatched m slot = e := by
  unfold Eng.weightLatched
  rcases h with h | h
  · rw [h]
  · split
    · exact if_pos h
    · rfl

theorem Eng.weightLatched_acts (e : Eng) (m : Mem) {slot kind a : Nat} (h : (e.lslot slot).wpend = some (kind, a))
    (hr : e.readersRun slot [opScore, opRoute, opCombineBwd] = false) : e.weightLatched m slot = e.weightNow m kind slot a := by
  simp [Eng.weightLatched, h, hr]

/-! ### The load of the every-token part ends (R99, R100) -/

/-- The copies of some layer slots are in the weight cache no more. -/
def Eng.dropCopies (gone : Nat → Bool) (e : Eng) : Eng :=
  { e with lslots := e.lslots.map (fun kl => (kl.1, if gone kl.1 then { kl.2 with cached := false } else kl.2)) }

theorem Eng.dropCopies_lslot (e : Eng) (gone : Nat → Bool) (k : Nat) :
    (e.dropCopies gone).lslot k = if gone k then { e.lslot k with cached := false } else e.lslot k := by
  have hfind : KV.find (e.dropCopies gone).lslots k = (KV.find e.lslots k).map (fun l => if gone k then { l with cached := false } else l) :=
    KV.find_map (fun k (l : LSlot) => if gone k then { l with cached := false } else l) e.lslots k
  rw [Eng.lslot, Eng.lslot, KV.get, KV.get, hfind]
  cases KV.find e.lslots k <;> cases gone k <;> rfl

/-- The every-token part of an image at `a`, as the weight cache holds it. -/
def SlotCfg.part (c : SlotCfg) (h : WImg) (m : Mem) (a : Nat) : List Byte :=
  (everyTokenParts c h).flatMap (fun p => Mem.read m (a + p.1) p.2)

/-- A layer slot whose every-token part has been loaded. -/
def LSlot.filled (h : WImg) (l : LSlot) : LSlot := { l with cached := true, loading := false, wgen := h.gen, wfmt := h.wfmt }

/-- Whether slot `k` has its copy in a place that `slot` takes (log 54). -/
def Eng.losesCopy (e : Eng) (c : SlotCfg) (slot k : Nat) : Bool :=
  k != slot && (match KV.find e.slotCfg k with
    | some d => c.shares d
    | none => false)

section
variable (e : Eng) (m : Mem) {slot : Nat} {c : SlotCfg} {h : WImg} (hw : e.wlog = []) (hc : KV.find e.slotCfg slot = some c)
  (hh : h = WImg.ofBytes (Mem.read m (e.lslot slot).boundAddr 64))
include hw hc hh

/-- Filling the cache puts the part there, drops the copies that shared the place, marks the slot, and counts the bytes. -/
theorem Eng.fillCache_eq : ∃ (y : Eng) (n : Nat), e.fillCache m slot = y.accSlot slot n ∧
    KV.find y.wcache (c.wcBase * 4096) = some (c.part h m (e.lslot slot).boundAddr) ∧
    y.lslots = ((e.dropCopies (e.losesCopy c slot)).setLslot slot (LSlot.filled h)).lslots ∧
    y = { e with wcache := y.wcache, lslots := y.lslots } := by
  have hrd : ∀ a n, e.rd m a n = Mem.read m a n := fun a n => by rw [Eng.rd, e.view_of_wlog_nil m hw]
  unfold Eng.fillCache
  simp only [hc, hrd, ← hh]
  exact ⟨_, _, rfl, (KV.find_put _ _ _ _).trans (if_pos rfl), rfl, rfl⟩

theorem Eng.fillCache_fills :
    KV.find (e.fillCache m slot).wcache (c.wcBase * 4096) = some (c.part h m (e.lslot slot).boundAddr) ∧
      (e.fillCache m slot).lslot slot = (e.lslot slot).filled h ∧
      (∀ k d, k ≠ slot → KV.find e.slotCfg k = some d →
        (e.fillCache m slot).lslot k = if c.shares d then { e.lslot k with cached := false } else e.lslot k) ∧
      e.fillCache m slot = { e with
        wcache := (e.fillCache m slot).wcache, lslots := (e.fillCache m slot).lslots, pld := (e.fillCache m slot).pld } := by
  obtain ⟨y, n, heq, hcache, hlslots, hframe⟩ := e.fillCache_eq m hw hc hh
  rw [Eng.accSlot_eq] at heq
  have hlslot : ∀ k, (e.fillCache m slot).lslot k = if k = slot then ((e.dropCopies (e.losesCopy c slot)).lslot slot).filled h
      else (e.dropCopies (e.losesCopy c slot)).lslot k := fun k => by
    rw [← Eng.setLslot_lslot, Eng.lslot, Eng.lslot, ← hlslots, heq]
  refine ⟨?_, ?_, fun k d hk hd => ?_, ?_⟩
  · rw [heq]
    exact hcache
  · have hkeeps : e.losesCopy c slot slot = false := by simp [Eng.losesCopy]
    rw [hlslot, if_pos rfl, Eng.dropCopies_lslot, hkeeps]
    rfl
  · have hloses : e.losesCopy c slot k = c.shares d := by simp [Eng.losesCopy, hk, hd]
    rw [hlslot, if_neg hk, Eng.dropCopies_lslot, hloses]
  · rw [heq]
    rw [hframe]

end

theorem exec_bindFillDone_idle {s : State} (h : s.on) {slot : Nat} (hl : (s.eng.lslot slot).loading = false) :
    exec (.bindFillDone slot) s = .next { s with eng := s.work } :=
  (exec_bindFillDone slot s).trans (h.onPower_eng (if_neg (by rw [show (s.work.lslot slot).loading = false from hl]; decide)) rfl rfl)

theorem exec_bindFillDone_fills {s : State} (h : s.on) {slot : Nat} {c : SlotCfg} {i : WImg} (hc : KV.find s.eng.slotCfg slot = some c)
    (hi : i = WImg.ofBytes (Mem.read s.hbm (s.eng.lslot slot).boundAddr 64)) (hl : (s.eng.lslot slot).loading = true) :
    exec (.bindFillDone slot) s = .next { s with eng := s.work.fillCache s.hbm slot } := by
  obtain ⟨-, -, -, hframe⟩ := s.work.fillCache_fills s.hbm rfl hc hi
  exact (exec_bindFillDone slot s).trans (h.onPower_eng (if_pos hl) (by rw [hframe]; rfl) (by rw [hframe]; rfl))

/-! ### Bias vectors (R152) -/

/-- A write of half, or all, of a 64-bit register below the doorbells reaches it, by whatever port. -/
theorem Eng.writeAccess_half (e : Eng) (m : Mem) (mgmt : Bool) {r off v : Nat} {wide : Bool} (h : halfOk off wide v = true)
    (hr : isWide r = true) (hr4 : isWide (r + 4) = false) (hplace : r % 8 = 0 ∧ r + 4 < 0x200000) :
    e.writeAccess m mgmt (r + off) wide v = e.writeVal m mgmt r off wide v := by
  obtain ⟨halign, hbelow⟩ := hplace
  rcases halfOk_cases h with ⟨rfl, rfl⟩ | ⟨rfl, rfl | rfl, hv⟩
  · have hok : accessOk r true = true := by
      simp only [accessOk, if_true, Bool.and_eq_true, beq_iff_eq, decide_eq_true_eq]; omega
    simp [Eng.writeAccess, hok, hr, show ¬ 0x200000 ≤ r by omega]
  · have hok : accessOk r false = true := by
      simp only [accessOk, Bool.false_eq_true, if_false, Bool.and_eq_true, beq_iff_eq, decide_eq_true_eq]; omega
    have hmod : v % 4294967296 = v := Nat.mod_eq_of_lt hv
    simp [Eng.writeAccess, Eng.write32, hok, hr, hmod, show ¬ 0x200000 ≤ r by omega]
  · have hok : accessOk (r + 4) false = true := by
      simp only [accessOk, Bool.false_eq_true, if_false, Bool.and_eq_true, beq_iff_eq, decide_eq_true_eq]; omega
    have hmod : v % 4294967296 = v := Nat.mod_eq_of_lt hv
    simp [Eng.writeAccess, Eng.write32, hok, hr, hr4, hmod, show ¬ 0x200000 ≤ r + 4 by omega]

theorem Eng.writeAccess_selBias (e : Eng) (m : Mem) (mgmt : Bool) {off v : Nat} {wide : Bool} (h : halfOk off wide v = true) :
    e.writeAccess m mgmt (Reg.selBiasaddr + off) wide v = e.writeBias off wide v :=
  e.writeAccess_half m mgmt h (by decide) (by decide) (by decide)

theorem exec_selBiasAddr_alert {s : State} (h : s.alert) {off v : Nat} {wide : Bool} (hv : halfOk off wide v = true) :
    exec (.selBiasAddr off wide v) s = .next (s.leaves (s.work.writeBias off wide v)) :=
  (exec_selBiasAddr off wide v s).trans (h.1.onPower_leaves ((h.mmioWrite _ _ _).trans (s.work.writeAccess_selBias s.hbm false hv)))

section
variable (e : Eng) {off v slot a : Nat} {wide : Bool} (hslot : slot = field (e.reg Reg.selSlotSel) 0 8)
  (ha : a = mergeHalf (e.lslot slot).biasReg off wide v)
include hslot ha

theorem Eng.writeBias_stores (h : (wide = false ∧ off = 0) ∨ a % 64 ≠ 0) :
    e.writeBias off wide v = e.setLslot slot (fun l => { l with biasReg := a }) := by
  subst hslot ha
  unfold Eng.writeBias
  exact if_pos (by simpa using h)

theorem Eng.writeBias_completes (hwhole : wide = true ∨ off = 4) (halign : a % 64 = 0) :
    e.writeBias off wide v = if e.readersRun slot [opScore, opRoute]
      then (e.setLslot slot (fun l => { l with biasReg := a })).setLslot slot (fun l => { l with biasPend := some a })
      else (e.setLslot slot (fun l => { l with biasReg := a })).biasNow slot a := by
  subst hslot ha
  unfold Eng.writeBias
  refine if_neg ?_
  rcases hwhole with rfl | rfl <;> simp [halign]

end

theorem Eng.biasLatched_waits (e : Eng) {slot : Nat}
    (h : (e.lslot slot).biasPend = none ∨ e.readersRun slot [opScore, opRoute] = true) : e.biasLatched slot = e := by
  unfold Eng.biasLatched
  rcases h with h | h
  · rw [h]
  · split
    · exact if_pos h
    · rfl

theorem Eng.biasLatched_acts (e : Eng) {slot a : Nat} (h : (e.lslot slot).biasPend = some a)
    (hr : e.readersRun slot [opScore, opRoute] = false) : e.biasLatched slot = e.biasNow slot a := by
  simp [Eng.biasLatched, h, hr]

theorem Eng.biasZeroed_idle (e : Eng) {slot : Nat} (h : (e.lslot slot).biasZeroing = false) : e.biasZeroed slot = e := by
  simp [Eng.biasZeroed, h]

/-- The zeroing of a bound vector writes its zeros once the bytes are counted. -/
theorem Eng.biasZeroed_stores (e : Eng) {slot : Nat} (hz : (e.lslot slot).biasZeroing = true) (hb : (e.lslot slot).bias ≠ 0) :
    e.biasZeroed slot = ((e.accSlot slot (256 * (e.cfgOf slot).panels)).setLslot slot (fun l => { l with biasZeroing := false })).store
      (e.lslot slot).bias (zeros (256 * (e.cfgOf slot).panels)) := by
  simp only [Eng.biasZeroed, hz, if_true, if_neg hb, Eng.store_accSlot]
  rfl

theorem exec_biasZeroingDone_zeros {s : State} (h : s.on) {slot : Nat} (hz : (s.eng.lslot slot).biasZeroing = true)
    (hb : (s.eng.lslot slot).bias ≠ 0) : exec (.biasZeroingDone slot) s = .next { s with
      hbm := Mem.write s.hbm (s.eng.lslot slot).bias (zeros (256 * (s.eng.cfgOf slot).panels))
      eng := (s.work.accSlot slot (256 * (s.eng.cfgOf slot).panels)).setLslot slot (fun l => { l with biasZeroing := false }) } := by
  refine (exec_biasZeroingDone slot s).trans ((h.onPower_leaves (s.work.biasZeroed_stores hz hb)).trans (congrArg Host.Outcome.next ?_))
  have hacc := s.work.accSlot_eq slot (256 * (s.work.cfgOf slot).panels)
  exact s.leaves_store _ _ _ (by rw [hacc]; exact h.2) (by rw [hacc]; rfl)

end Sys2Proof.Machine

open Sys2Proof Sys2Proof.Machine

/-- Settles O50: each command either latches behind the slot's readers or acts, and each end does what was started. -/
theorem weightsAndBiasBindBehindTheirReaders : Obligations.WeightsAndBiasBindBehindTheirReaders := by
  unfold Obligations.WeightsAndBiasBindBehindTheirReaders
  refine ⟨fun s i kind slot a h hslot ha hi => ?_, fun s slot h => ⟨fun hwait => ?_, fun kind a hpend hread => ?_⟩,
    fun e e1 e2 m slot a he1 he2 => ?_, fun s slot c i h hc hi => ⟨exec_bindFillDone_idle h, fun hl => ?_⟩,
    fun s slot off v a wide e h hv hslot ha he => ⟨fun hstore => ?_, fun hwhole halign => ?_⟩,
    fun s slot l h hl => ?_⟩
  · rw [exec_weightCommand h hi]
    exact ⟨fun hread => by rw [s.work.weightCmd_waits s.hbm kind hslot ha hread],
      fun hread => by rw [s.work.weightCmd_acts s.hbm kind hslot ha hread]⟩
  · exact (exec_wcmdPendExecute slot s).trans (h.onPower_eng (s.work.weightLatched_waits s.hbm hwait) rfl rfl)
  · exact (exec_wcmdPendExecute slot s).trans (h.onPower_leaves (s.work.weightLatched_acts s.hbm hpend hread))
  · subst he1 he2
    exact ⟨fun hok => ⟨_, _, rfl, e.weightNow_binds m hok rfl, rfl⟩, e.weightNow_refuses m, rfl, rfl⟩
  · obtain ⟨hcache, hslot, hother, hframe⟩ := s.work.fillCache_fills s.hbm rfl hc hi
    refine ⟨_, _, exec_bindFillDone_fills h hc hi hl, rfl, hcache, hslot, hother, ?_⟩
    rw [hframe]
    exact ⟨rfl, rfl, rfl⟩
  · rw [exec_selBiasAddr_alert h hv, s.work.writeBias_stores hslot ha hstore, he]
  · rw [exec_selBiasAddr_alert h hv, s.work.writeBias_completes hslot ha hwhole halign, ← he]
    have hreaders : s.work.readersRun slot [opScore, opRoute] = s.eng.readersRun slot [opScore, opRoute] := rfl
    exact ⟨fun hread => by rw [hreaders, hread]; rfl, fun hread => by rw [hreaders, hread]; rfl⟩
  · subst hl
    refine ⟨fun hwait => ?_, fun a hpend hread => ?_, fun hz => ?_, fun hz hb htop => ⟨_, exec_biasZeroingDone_zeros h hz hb, ?_⟩⟩
    · exact (exec_biasPendExecute slot s).trans (h.onPower_eng (s.work.biasLatched_waits hwait) rfl rfl)
    · exact (exec_biasPendExecute slot s).trans (h.onPower_leaves (s.work.biasLatched_acts hpend hread))
    · exact (exec_biasZeroingDone slot s).trans (h.onPower_eng (s.work.biasZeroed_idle hz) rfl rfl)
    · exact Mem.byte_write_zeros s.hbm htop

end

section
/-! SUPPORT. A free cell of the spine reserve that a scrub cannot read: the record of the event that tells it takes that
very cell (R231, R245). -/

namespace Sys2Proof.Machine

/-! ### A scrub of a cell in use (R245) -/

/-- The pass of a cell's bank has read the cell. -/
def Eng.scrubRead (cell : Nat) (e : Eng) : Eng :=
  { e with spool.banks := updAt e.spool.banks (cell % 48) (fun k =>
      { k with scrubbed := if k.scrubbed.contains (cell / 48) then k.scrubbed else k.scrubbed ++ [cell / 48] }) }

/-- A cell in use that cannot be read is left to its reader. -/
def Eng.leaveBad (cell : Nat) (e : Eng) : Eng :=
  { e with spool.bad := if e.spool.bad.contains cell then e.spool.bad else e.spool.bad ++ [cell] }

/-- A bank's share of retired cells is no matter of its scrub pass. -/
theorem Eng.scrubRead_sbank_retired (e : Eng) (cell b : Nat) : ((e.scrubRead cell).sbank b).retired = (e.sbank b).retired := by
  simp only [Eng.sbank, Eng.scrubRead, updAt, List.getD_eq_getElem?_getD, List.getElem?_modify]
  cases e.spool.banks[b]? with
  | none => rfl
  | some k => by_cases hb : cell % 48 = b <;> simp [hb]

/-- No bank leaves the Spool before one has retired 256 cells (R244). -/
theorem Eng.checkRetired_sound (e : Eng) (h : ∀ b, (e.sbank b).retired < 256) : e.checkRetired = e := by
  unfold Eng.checkRetired
  induction List.range 48 with
  | nil => rfl
  | cons b l ih => rw [List.foldl_cons, if_neg (Nat.not_le.2 (h b)), ih]

/-- A pass is counted, and the next begins, when every present bank has read all its cells. -/
def Eng.countPass (e : Eng) : Eng :=
  if e.banksPresent.all e.passDone_ then
    { e with spool.scrubPasses := (e.spool.scrubPasses + 1) % 2 ^ 32
             spool.banks := e.spool.banks.map (fun k => { k with scrubbed := [] }) }
  else e

/-- The cells that a scrub reads: those of a present bank that its Pattern scrubs, while the engine is in no deeper power
state, but the retired ones. -/
def Eng.scrubs (e : Eng) (cell : Nat) : Bool :=
  cell < 196608 && e.bankPresent (cell % 48) && (e.pwr.cur < 2) && e.scrubUs (cell % 48) > 0 && !e.spool.retired.contains cell

/-- Whether a cell that cannot be read is in use is asked once its error has been told. -/
theorem Eng.scrubCell_inUse (e : Eng) {cell : Nat} (again : Bool) (hread : e.scrubs cell = true)
    (hused : (e.spoolBad cell).cellUsed cell = true) :
    e.scrubCell cell .uncorrectable again = (((e.spoolBad cell).leaveBad cell).scrubRead cell).checkRetired.countPass := by
  unfold Eng.scrubCell
  refine (if_pos hread).trans ?_
  extract_lets told _ left _ read checked _
  have hleft : left = told.leaveBad cell := if_pos hused
  have hread : read = left.scrubRead cell := rfl
  have hchecked : checked = read.checkRetired := rfl
  rw [hread, hleft] at hchecked
  exact congrArg Eng.countPass hchecked

/-- A scrub that finds a cell in use retires no cell. -/
theorem Eng.scrubCell_inUse_retired (e : Eng) {cell : Nat} (again : Bool) (hread : e.scrubs cell = true)
    (hused : (e.spoolBad cell).cellUsed cell = true) (hworn : ∀ b, (e.sbank b).retired < 256) :
    (e.scrubCell cell .uncorrectable again).spool.retired = e.spool.retired ∧
      (e.scrubCell cell .uncorrectable again).spool.corrupt = e.spool.corrupt := by
  have hspool : (e.spoolBad cell).spool = e.spool := Eng.raise_spool ..
  have hsound : ∀ b, ((((e.spoolBad cell).leaveBad cell).scrubRead cell).sbank b).retired < 256 := fun b => by
    rw [Eng.scrubRead_sbank_retired]
    simpa only [Eng.sbank, Eng.leaveBad, hspool] using hworn b
  rw [e.scrubCell_inUse again hread hused, Eng.checkRetired_sound _ hsound, Eng.countPass]
  split <;> simp only [Eng.scrubRead, Eng.leaveBad, hspool, and_self]

/-! ### The next cell of the spine reserve -/

/-- A Pattern that carves bank 0 as before any apply, with 85 rows of spine reserve (R231), and scrubs it every
millisecond (R245). -/
def scrubPattern : Pattern := { banks := [(0, { pool := 3328, pinned := 768, scrubUs := 1000 })] }

/-- An engine with that Pattern applied, an event ring of 64 records, and nothing that waits in the spine reserve. -/
def idleSpine : State :=
  { eng := { boot := { powered := true, phase := 3 }, loader := { st := .applied }, pat := some scrubPattern, regs := [(Reg.evtCfg, 6)] } }

/-- The first cell of the spine reserve: row 683 of bank 0. -/
def firstSpineCell : Nat := 683 * 48

/-- A command that finds no fault of the Spool leaves the retired cells as its work left them. -/
theorem State.leaves_retired (s : State) (e : Eng) (h : e.spool.corrupt = false) :
    (s.leaves e).eng.spool.retired = e.spool.retired := by rw [s.leaves_clean e h]

theorem idleSpine_on : idleSpine.on := ⟨rfl, rfl⟩

/-- No bank of a Spool that nothing has used has retired, freed or scrubbed a cell. -/
theorem idleSpine_sbank (k : Nat) : idleSpine.eng.sbank k = {} := by
  simp only [Eng.sbank, idleSpine, List.getD_eq_getElem?_getD, List.getElem?_replicate]
  split <;> rfl

theorem firstSpineCell_free : idleSpine.work.cellUsed firstSpineCell = false := by decide

/-- SPOOL_UNCORRECTABLE has its record in the cell whose error it tells. -/
theorem firstSpineCell_taken : (idleSpine.work.spoolBad firstSpineCell).cellUsed firstSpineCell = true := by decide

/-- So the scrub finds the cell in use, and retires nothing. -/
theorem firstSpineCell_kept :
    (idleSpine.leaves (idleSpine.work.scrubCell firstSpineCell .uncorrectable false)).eng.spool.retired = [] := by
  obtain ⟨hretired, hcorrupt⟩ := idleSpine.work.scrubCell_inUse_retired false (by decide) firstSpineCell_taken
    (fun b => by rw [show idleSpine.work.sbank b = {} from idleSpine_sbank b]; decide)
  exact (idleSpine.leaves_retired _ hcorrupt).trans hretired

theorem exec_scrub_firstSpineCell : exec (.scrub firstSpineCell .uncorrectable false) idleSpine =
    .next (idleSpine.leaves (idleSpine.work.scrubCell firstSpineCell .uncorrectable false)) :=
  (exec_scrub _ _ _ idleSpine).trans (idleSpine_on.onPower_leaves rfl)

end Sys2Proof.Machine

open Sys2Proof Sys2Proof.Machine

/-- Refutes O41, in its clause on a free cell that a scrub cannot read. The error is told before the cell is dealt with,
and where the cell is the next of the spine reserve, the event's own record takes it (R231): the cell is then in use, and
stays unretired. -/
theorem not_tablesAndSpoolLookAfterThemselves : ¬ Obligations.TablesAndSpoolLookAfterThemselves := by
  unfold Obligations.TablesAndSpoolLookAfterThemselves
  intro h
  obtain ⟨-, -, -, -, hscrub, -, -⟩ := h
  have hworn : ∀ k, (idleSpine.eng.sbank k).retired < 255 := fun k => by rw [idleSpine_sbank k]; decide
  have hfreed : ∀ r ∈ (idleSpine.eng.sbank 0).freed,
      idleSpine.eng.pinned 0 ≤ r ∧ r < (idleSpine.eng.sbank 0).fresh := by
    rw [idleSpine_sbank 0]
    exact fun r hr => absurd hr List.not_mem_nil
  have hpass : ∃ k, k < 48 ∧ idleSpine.eng.bankPresent k = true ∧ (idleSpine.eng.sbank k).scrubbed.length +
      (idleSpine.eng.spool.retired.filter (fun x => x % 48 == k)).length < 4095 := ⟨0, by decide⟩
  obtain ⟨-, -, -, -, hfree⟩ := hscrub idleSpine firstSpineCell 0 false _ scrubPattern _ idleSpine_on (by decide) rfl rfl
    (by decide) rfl rfl (by decide) List.not_mem_nil hworn hfreed hpass rfl
  obtain ⟨t, ht, hretired, -⟩ := hfree firstSpineCell_free
  obtain rfl := Host.Outcome.next.inj (ht.symm.trans exec_scrub_firstSpineCell)
  exact List.cons_ne_nil _ _ (hretired.symm.trans firstSpineCell_kept)

end

section
/-! SUPPORT. Commands by their identity, and what one that has ended keeps while others end (R66, R83, R86). -/

namespace Sys2Proof.Machine

/-! ### Commands of the front end -/

theorem find?_updFirst_id (f : Cmd → Cmd) (hf : ∀ x, (f x).id = x.id) (id k : Nat) (l : List Cmd) :
    (updFirst (fun c => c.id == id) f l).find? (fun c => c.id == k) =
      if k = id then (l.find? (fun c => c.id == id)).map f else l.find? (fun c => c.id == k) := by
  induction l with
  | nil => simp [updFirst]
  | cons x l ih =>
    by_cases hx : x.id = id
    · by_cases hk : k = id
      · simp [updFirst, hx, hk, hf]
      · simp [updFirst, hx, hk, hf, Ne.symm hk]
    · by_cases hk : x.id = k
      · simp [updFirst, hk, hk ▸ hx]
      · simp [updFirst, hx, hk, ih]

/-- A command after one has been changed. -/
theorem Eng.setCmd_cmd? (e : Eng) (id k : Nat) {f : Cmd → Cmd} (hf : ∀ x, (f x).id = x.id) :
    (e.setCmd id f).cmd? k = if k = id then (e.cmd? id).map f else e.cmd? k :=
  find?_updFirst_id f hf id k e.cmds

theorem Eng.setCmd_cmd?_same (e : Eng) {id : Nat} {c : Cmd} {f : Cmd → Cmd} (hf : ∀ x, (f x).id = x.id) (h : e.cmd? id = some c) :
    (e.setCmd id f).cmd? id = some (f c) := by
  rw [e.setCmd_cmd? id id hf, if_pos rfl, h, Option.map_some]

theorem Eng.setCmd_cmd?_other (e : Eng) {id k : Nat} {f : Cmd → Cmd} (hf : ∀ x, (f x).id = x.id) (h : k ≠ id) :
    (e.setCmd id f).cmd? k = e.cmd? k := by
  rw [e.setCmd_cmd? id k hf, if_neg h]

/-- The command found at an index of a ring has the opcode asked for, and has not ended. -/
theorem Eng.cmdAt_open {e : Eng} {r idx op : Nat} {c : Cmd} (h : e.cmdAt r idx op = some c) :
    c.d.opcode = op ∧ c.done = false := by
  have hc := List.find?_some h
  simp only [Bool.and_eq_true, beq_iff_eq, Bool.not_eq_true'] at hc
  obtain ⟨⟨-, hop⟩, hopen⟩ := hc
  exact ⟨hop, hopen⟩

/-- A command that has started, of a polder that issues, does its work. -/
theorem State.runs.runCmd {s : State} {r idx op : Nat} {c : Cmd} (h : s.runs r idx op c) (body : Cmd → Eng → Eng) :
    s.work.runCmd s.hbm r idx op body = body c (s.run c) := by
  obtain ⟨-, hat, hid, hphase, hissue⟩ := h
  have hat' : s.work.cmdAt r idx op = some c := hat
  have hid' : s.work.cmd? c.id = some c := hid
  have hissue' : s.work.mayIssue c.polder = true := hissue
  simp [Eng.runCmd, State.run, hat', hid', hissue', hphase, (Eng.cmdAt_open hat).2]

/-! ### Work that leaves the commands and HBM alone -/

/-- What counting, accounting and events leave alone: the commands and the writes to HBM. -/
structure Eng.SameCmds (e e' : Eng) : Prop where
  cmds : e'.cmds = e.cmds
  wlog : e'.wlog = e.wlog

theorem Eng.SameCmds.trans {e e' e'' : Eng} (h : e.SameCmds e') (h' : e'.SameCmds e'') : e.SameCmds e'' :=
  ⟨h'.cmds.trans h.cmds, h'.wlog.trans h.wlog⟩

theorem Eng.SameCmds.cmd? {e e' : Eng} (h : e.SameCmds e') (id : Nat) : e'.cmd? id = e.cmd? id := by
  rw [Eng.cmd?, h.cmds, Eng.cmd?]

theorem Eng.account_sameCmds (e : Eng) (polder : Nat) (f : Acc → Acc) : e.SameCmds (e.account polder f) := by
  unfold Eng.account
  split <;> exact ⟨rfl, rfl⟩

theorem Eng.accHbm_sameCmds (e : Eng) (polder n : Nat) : e.SameCmds (e.accHbm polder n) := e.account_sameCmds _ _

theorem Eng.accWeights_sameCmds (e : Eng) (polder : Nat) : e.SameCmds (e.accWeights polder) := by
  obtain ⟨hcmds, hwlog⟩ := e.free.2.accHbm_sameCmds polder e.free.1.toNat
  exact ⟨hcmds, hwlog⟩

theorem Eng.accTime_sameCmds (e : Eng) (polder : Nat) : e.SameCmds (e.accTime polder) := by
  obtain ⟨hcmds, hwlog⟩ := e.free.2.free.2.account_sameCmds polder (fun a => { a with time := (a.time + e.free.1.toNat) % 2 ^ 64 })
  exact ⟨hcmds, hwlog⟩

theorem Eng.countRow_sameCmds (e : Eng) (t : TokSel) : e.SameCmds (e.countRow t) := by
  constructor
  · simp only [Eng.countRow, apply_ite Eng.cmds, Eng.bump32_cmds, ite_self]
  · simp only [Eng.countRow, apply_ite Eng.wlog, Eng.bump32_wlog, ite_self]

theorem Eng.voidPromise_sameCmds (e : Eng) : e.SameCmds e.voidPromise := by
  constructor <;> simp [Eng.voidPromise]

/-! ### What a command that has ended keeps -/

/-- A command whose completion slot is held or not, its record written or not. -/
def Cmd.withSlot (held recorded : Bool) (c : Cmd) : Cmd := { c with slotHeld := held, recorded := recorded }

/-- A command that has ended keeps all but its completion slot, which its record takes, while nothing is written to HBM. -/
structure Eng.KeepsEnded (e e' : Eng) : Prop where
  wlog : e'.wlog = e.wlog
  ended : ∀ id x, e.cmd? id = some x → x.done = true →
    ∃ held recorded, e'.cmd? id = some (x.withSlot held recorded)

theorem Eng.SameCmds.keepsEnded {e e' : Eng} (h : e.SameCmds e') : e.KeepsEnded e' :=
  ⟨h.wlog, fun id x hx _ => ⟨x.slotHeld, x.recorded, (h.cmd? id).trans hx⟩⟩

theorem Eng.KeepsEnded.refl (e : Eng) : e.KeepsEnded e := Eng.SameCmds.keepsEnded ⟨rfl, rfl⟩

theorem Eng.KeepsEnded.trans {e e' e'' : Eng} (h : e.KeepsEnded e') (h' : e'.KeepsEnded e'') : e.KeepsEnded e'' := by
  refine ⟨h'.wlog.trans h.wlog, fun id x hx hdone => ?_⟩
  obtain ⟨held, recorded, hx'⟩ := h.ended id x hx hdone
  exact h'.ended id (x.withSlot held recorded) hx' hdone

theorem Eng.KeepsEnded.foldl {α : Type} {f : Eng → α → Eng} (hf : ∀ (e : Eng) x, e.KeepsEnded (f e x)) (l : List α) (e : Eng) :
    e.KeepsEnded (l.foldl f e) :=
  List.foldlRecOn l f (.refl e) (fun e' h x _ => h.trans (hf e' x))

theorem Eng.pushRecord_keepsEnded (e : Eng) (id : Nat) : e.KeepsEnded (e.pushRecord id) := by
  unfold Eng.pushRecord
  split
  · exact .refl e
  · refine ⟨rfl, fun k x hx _ => ?_⟩
    by_cases hk : k = id
    · subst hk
      exact ⟨false, true, e.setCmd_cmd?_same (f := Cmd.withSlot false true) (fun _ => rfl) hx⟩
    · exact ⟨x.slotHeld, x.recorded, (e.setCmd_cmd?_other (f := Cmd.withSlot false true) (fun _ => rfl) hk).trans hx⟩

theorem Eng.markStall_keepsEnded (e : Eng) (r : Nat) : e.KeepsEnded (e.markStall r) := by
  unfold Eng.markStall
  extract_lets g waits t
  split
  · exact .refl e
  · exact Eng.SameCmds.keepsEnded ⟨rfl, rfl⟩

theorem Eng.serveSlots_keepsEnded (e : Eng) (r : Nat) : e.KeepsEnded (e.serveSlots r) := by
  refine Eng.KeepsEnded.foldl (fun e c => ?_) _ e
  split
  · exact e.pushRecord_keepsEnded c.id
  · exact .refl e

theorem Eng.markBlocked_keepsEnded (e : Eng) : e.KeepsEnded e.markBlocked := by
  refine ⟨rfl, fun id x hx hdone => ⟨x.slotHeld, x.recorded, ?_⟩⟩
  have hid : ∀ c : Cmd, (c.markBlocked (e.blocked c) e.now).id = c.id := fun c => by
    unfold Cmd.markBlocked
    repeat' split
    all_goals rfl
  have hkept : x.markBlocked (e.blocked x) e.now = x := by simp [Cmd.markBlocked, hdone]
  have hx' : e.cmds.find? (fun c => c.id == id) = some x := hx
  simp only [Eng.cmd?, Eng.markBlocked, List.find?_map, Function.comp_def, hid, hx', Option.map_some, hkept]
  rfl

/-! ### A command ends (R66, R83, R86) -/

/-- A command as it ends. -/
def Cmd.ended (status now : Nat) (c : Cmd) : Cmd :=
  { c with done := true, phase := .ended, res.status := status, res.time := some (c.res.time.getD now) }

/-- What ends with a command but its record: its channel, and its accounting (R318, R319). -/
def Eng.closeAccounts (c : Cmd) (e : Eng) : Eng :=
  let e := match c.channel with
    | some ch => { e with chans := KV.del e.chans ch }
    | none => e
  let e := match (if c.phase == .held then none else e.soloNs c) with
    | some n => e.account c.polder (fun a =>
        { a with actual := (a.actual + (e.now - c.startNs)) % 2 ^ 64, solo := (a.solo + n) % 2 ^ 64 })
    | none => e
  if c.phase != .held && usesLanes c.d.opcode then e.accTime c.polder else e

theorem Eng.closeAccounts_sameCmds (e : Eng) (c : Cmd) : e.SameCmds (e.closeAccounts c) := by
  unfold Eng.closeAccounts
  extract_lets freed booked
  have hfreed : e.SameCmds freed := by
    dsimp only [freed]
    split <;> exact ⟨rfl, rfl⟩
  have hbooked : freed.SameCmds booked := by
    dsimp only [booked]
    split
    · exact freed.account_sameCmds _ _
    · exact ⟨rfl, rfl⟩
  split
  · exact (hfreed.trans hbooked).trans (booked.accTime_sameCmds _)
  · exact hfreed.trans hbooked

theorem Eng.completeOne_of_done (e : Eng) {id : Nat} {c : Cmd} (status : Nat) (hc : e.cmd? id = some c) (hdone : c.done = true) :
    e.completeOne id status = e := by
  simp [Eng.completeOne, hc, hdone]

theorem Eng.completeOne_of_open (e : Eng) {id : Nat} {c : Cmd} (status : Nat) (hc : e.cmd? id = some c) (hopen : c.done = false)
    (hop : c.d.opcode ∉ [opCombine, opCombineBwd]) : e.completeOne id status =
      (let e' := (e.setCmd id (Cmd.ended status e.now)).closeAccounts c
       if c.slotHeld then e'.pushRecord id else e'.serveSlots c.ring).markStall c.ring := by
  have hop' : ¬ (c.d.opcode = opCombine ∨ c.d.opcode = opCombineBwd) := by simpa using hop
  simp only [Eng.completeOne, hc, hopen, Bool.false_eq_true, if_false, if_neg hop']
  rfl

/-- Once a command is marked as ended, the rest of its end keeps it. -/
theorem Eng.completeOne_ends (e : Eng) {id : Nat} {c : Cmd} (status : Nat) (hc : e.cmd? id = some c) (hopen : c.done = false)
    (hop : c.d.opcode ∉ [opCombine, opCombineBwd]) :
    (e.setCmd id (Cmd.ended status e.now)).KeepsEnded (e.completeOne id status) := by
  rw [e.completeOne_of_open status hc hopen hop]
  refine (((e.setCmd id (Cmd.ended status e.now)).closeAccounts_sameCmds c).keepsEnded.trans ?_).trans (Eng.markStall_keepsEnded _ _)
  dsimp only
  split
  · exact Eng.pushRecord_keepsEnded _ _
  · exact Eng.serveSlots_keepsEnded _ _

theorem Eng.setCmd_keepsEnded (e : Eng) {id : Nat} {c : Cmd} {f : Cmd → Cmd} (hf : ∀ x, (f x).id = x.id)
    (hc : e.cmd? id = some c) (hopen : c.done = false) : e.KeepsEnded (e.setCmd id f) := by
  refine ⟨rfl, fun k x hx hdone => ⟨x.slotHeld, x.recorded, ?_⟩⟩
  have hk : k ≠ id := by
    rintro rfl
    cases hc.symm.trans hx
    cases hopen.symm.trans hdone
  exact (e.setCmd_cmd?_other hf hk).trans hx

theorem Eng.completeOne_keepsEnded (e : Eng) {id : Nat} {c : Cmd} (status : Nat) (hc : e.cmd? id = some c)
    (hop : c.d.opcode ∉ [opCombine, opCombineBwd]) : e.KeepsEnded (e.completeOne id status) := by
  cases hdone : c.done with
  | true =>
    rw [e.completeOne_of_done status hc hdone]
    exact .refl e
  | false => exact (e.setCmd_keepsEnded (f := Cmd.ended status e.now) (fun _ => rfl) hc hdone).trans (e.completeOne_ends status hc hdone hop)

theorem Eng.settleFences_keepsEnded (e : Eng) : e.KeepsEnded e.settleFences := by
  refine Eng.KeepsEnded.foldl (fun e id => ?_) _ e
  split
  · next c hc =>
    split
    · next hmet =>
      have hop : c.d.opcode = opFence := by
        simp only [Eng.fenceMet, Bool.and_eq_true, beq_iff_eq] at hmet
        obtain ⟨⟨⟨hop, -⟩, -⟩, -⟩ := hmet
        exact hop
      exact e.completeOne_keepsEnded stOk hc (by rw [hop]; decide)
    · exact .refl e
  · exact .refl e

/-- A command that completes has ended with its status, and HBM is left alone. -/
theorem Eng.complete_ends (e : Eng) {id : Nat} {c : Cmd} (status : Nat) (hc : e.cmd? id = some c) (hopen : c.done = false)
    (hop : c.d.opcode ∉ [opCombine, opCombineBwd]) : (e.complete id status).wlog = e.wlog ∧
      ∃ held recorded, (e.complete id status).cmd? id = some ((c.ended status e.now).withSlot held recorded) := by
  obtain ⟨hwlog, hended⟩ := ((e.completeOne_ends status hc hopen hop).trans (Eng.settleFences_keepsEnded _)).trans
    (Eng.markBlocked_keepsEnded _)
  exact ⟨hwlog, hended id _ (e.setCmd_cmd?_same (fun _ => rfl) hc) rfl⟩

end Sys2Proof.Machine
end

section
/-! SUPPORT. SCORE's start, its tiles and their records (R115, R155). -/

namespace Sys2Proof.Machine

/-! ### SCORE starts (R100, R155) -/

theorem State.runs.exec_score {s : State} {r idx : Nat} {c : Cmd} (h : s.runs r idx opScore c) {e : Eng}
    (he : (s.run c).scoreNow s.hbm c = e) : exec (.score r idx) s = .next (s.leaves (e.settle s.hbm)) :=
  (Machine.exec_score r idx s).trans (h.1.onPower_leaves ((h.runCmd _).trans (congrArg (Eng.settle s.hbm) he)))

theorem Eng.scoreNow_fail (e : Eng) {m : Mem} {c : Cmd} {st : Nat} {e' : Eng} (h : e.imageCheck m c = .fail st e') :
    e.scoreNow m c = e'.complete c.id st := by
  simp only [Eng.scoreNow, h]

theorem Eng.scoreNow_fault (e : Eng) {m : Mem} {c : Cmd} {e' : Eng} (h : e.imageCheck m c = .fault e') :
    e.scoreNow m c = e'.tearDown c.polder 0x0630 c.d.tag (some c.id) := by
  simp only [Eng.scoreNow, h]

theorem Eng.scoreNow_ok (e : Eng) {m : Mem} {c : Cmd} {e' e1 : Eng} (h : e.imageCheck m c = .ok e')
    (he1 : e1 = e'.setLslot c.d.slot (fun l => { l with rot := (e'.scoreCtx m c (e'.cfgOf c.d.slot)).rho })) :
    e.scoreNow m c = if c.tokens = 0 then e1.complete c.id stOk else e1 := by
  simp only [Eng.scoreNow, h, he1]

/-! ### The rows of a tile (R115, R146) -/

/-- Tokens with what was selected for each. -/
def Eng.selectRows (m : Mem) (c : Cmd) (cfg : SlotCfg) (toks : List Nat) (e : Eng) : List (Nat × TokSel) :=
  toks.map (fun t => (t, (e.scoreCtx m c cfg).token (fun a n => e.rd m a n) c.d.a c.d.c c.badRows t))

theorem Eng.raiseRow_sameCmds (e : Eng) (c : Cmd) (cfg : SlotCfg) (tok : Nat) (bad : Bool) (t : TokSel) (raised : List Nat) :
    e.SameCmds (e.raiseRow c cfg tok bad t raised).2 := by
  refine List.foldlRecOn (motive := fun acc : List Nat × Eng => e.SameCmds acc.2) _ _ ⟨rfl, rfl⟩ (fun acc h code _ => ?_)
  split
  · exact h
  · exact h.trans ⟨Eng.raise_cmds .., Eng.raise_wlog ..⟩

/-- Scoring counts and tells; it changes no command and writes nothing. -/
theorem Eng.scoreRows_sameCmds (e : Eng) (m : Mem) (c : Cmd) (cfg : SlotCfg) (toks raised : List Nat) :
    e.SameCmds (e.scoreRows m c cfg toks raised).2.2 := by
  refine List.foldlRecOn (motive := fun acc : List Nat × Eng => e.SameCmds acc.2) _ _ ?_
    (fun acc h p _ => h.trans (Eng.raiseRow_sameCmds _ _ _ _ _ _ _))
  refine List.foldlRecOn (motive := fun e' => e.SameCmds e') _ _ ?_ (fun e' h p _ => ?_)
  · exact ((e.accHbm_sameCmds _ _).trans (Eng.accWeights_sameCmds _ _)).trans (Eng.accTime_sameCmds _ _)
  · split
    · exact (h.trans (e'.countRow_sameCmds _)).trans (Eng.voidPromise_sameCmds _)
    · exact h.trans (e'.countRow_sameCmds _)

/-! ### The records of a tile (R155) -/

/-- Records written one by one change no command, and each is among the writes. -/
theorem Eng.foldl_storeFor {α : Type} (polder : Nat) (a : α → Nat) (b : α → List Byte) (l : List α) (e : Eng) :
    (l.foldl (fun (e : Eng) p => e.storeFor polder (a p) (b p)) e).cmds = e.cmds ∧
      (l.foldl (fun (e : Eng) p => e.storeFor polder (a p) (b p)) e).wlog = (l.map (fun p => (a p, b p))).reverse ++ e.wlog := by
  induction l generalizing e with
  | nil => exact ⟨rfl, rfl⟩
  | cons p l ih =>
    obtain ⟨hcmds, hwlog⟩ := (e.store (a p) (b p)).accHbm_sameCmds polder (b p).length
    obtain ⟨hcmds', hwlog'⟩ := ih (e.storeFor polder (a p) (b p))
    refine ⟨hcmds'.trans hcmds, hwlog'.trans ?_⟩
    rw [Eng.storeFor, hwlog]
    simp [Eng.store]

/-- The engine once the rows of a tile are scored and their records written. -/
def Eng.tileWritten (m : Mem) (c : Cmd) (tile : Nat) (e : Eng) : Eng :=
  let cfg := e.cfgOf c.d.slot
  let toks := tileTokens cfg c.tokens tile
  (e.selectRows m c cfg toks).foldl
    (fun (e : Eng) p => e.storeFor c.polder (c.d.b + p.1 * scoreSize cfg c.d.outKind) (scoreRecord cfg c.d.outKind p.2))
    ((e.scoreRows m c cfg toks c.raised).2.2.dropOuts c.id tile)

theorem Eng.tileWritten_cmd? (e : Eng) (m : Mem) (c : Cmd) (tile id : Nat) : (e.tileWritten m c tile).cmd? id = e.cmd? id := by
  have hcmds : (e.tileWritten m c tile).cmds = e.cmds :=
    (Eng.foldl_storeFor _ _ _ _ _).1.trans (e.scoreRows_sameCmds m c _ _ _).cmds
  rw [Eng.cmd?, hcmds, Eng.cmd?]

theorem Eng.mem_tileWritten_wlog (e : Eng) (m : Mem) (c : Cmd) (tile : Nat) {p : Nat × TokSel}
    (hp : p ∈ e.selectRows m c (e.cfgOf c.d.slot) (tileTokens (e.cfgOf c.d.slot) c.tokens tile)) :
    (c.d.b + p.1 * scoreSize (e.cfgOf c.d.slot) c.d.outKind, scoreRecord (e.cfgOf c.d.slot) c.d.outKind p.2) ∈
      (e.tileWritten m c tile).wlog := by
  rw [Eng.tileWritten, (Eng.foldl_storeFor _ _ _ _ _).2]
  exact List.mem_append_left _ (List.mem_reverse.2 (List.mem_map_of_mem hp))

/-! ### One tile of a SCORE (R115, R155) -/

/-- NUMERIC rows among those selected. -/
def numericRows (sel : List (Nat × TokSel)) : Nat := (sel.filter (fun p => bit p.2.rflags 1)).length

theorem numericRows_pos_iff (sel : List (Nat × TokSel)) : 0 < numericRows sel ↔ ∃ p ∈ sel, bit p.2.rflags 1 = true := by
  rw [numericRows, List.length_pos_iff_exists_mem]
  simp only [List.mem_filter]

/-- A SCORE with one more tile done. -/
def Cmd.tileScored (tile : Nat) (raised : List Nat) (gone : Nat) (res : CmdResult) (c : Cmd) : Cmd :=
  { c with tilesDone := c.tilesDone ++ [tile], raised := raised, gone := gone, res := res }

/-- A SCORE's result with the rows of a tile counted. -/
def CmdResult.countRows (rows bad : Nat) (r : CmdResult) : CmdResult :=
  { r with placed := r.placed + (rows - bad), dropped := r.dropped + bad }

/-- The event of choices of zero weight, where there were any. -/
def Eng.tellGone (c : Cmd) (gone : Nat) (e : Eng) : Eng :=
  if gone > 0 then e.raise 0x0440 (arg4 c.d.slot 0 gone) (some c.polder) c.d.tag else e

theorem Eng.tellGone_sameCmds (e : Eng) (c : Cmd) (gone : Nat) : e.SameCmds (e.tellGone c gone) := by
  unfold Eng.tellGone
  split
  · exact ⟨Eng.raise_cmds .., Eng.raise_wlog ..⟩
  · exact ⟨rfl, rfl⟩

/-- A tile not yet done is written and noted; the last completes the command. -/
theorem Eng.scoreTile_eq (e : Eng) (m : Mem) (c : Cmd) {tile : Nat} {cfg : SlotCfg} {sel : List (Nat × TokSel)}
    (hcfg : cfg = e.cfgOf c.d.slot) (hsel : sel = e.selectRows m c cfg (tileTokens cfg c.tokens tile))
    (htoks : tileTokens cfg c.tokens tile ≠ []) (hnew : c.tilesDone.contains tile = false) : ∃ raised gone,
    e.scoreTile m c tile =
      (let e' := (e.tileWritten m c tile).setCmd c.id
        (Cmd.tileScored tile raised gone (c.res.countRows (tileTokens cfg c.tokens tile).length (numericRows sel)))
       if c.tilesDone.length + 1 < ceilDiv c.tokens cfg.tile then e'
       else (e'.tellGone c gone).complete c.id (if 0 < c.res.dropped + numericRows sel then stDegraded else stOk)) := by
  refine ⟨(e.scoreRows m c cfg (tileTokens cfg c.tokens tile) c.raised).2.1, c.gone + (sel.map (fun p => p.2.zeroWeight)).sum, ?_⟩
  subst hcfg hsel
  unfold Eng.scoreTile
  exact if_neg (by rw [hnew, Bool.or_false, List.isEmpty_eq_false_iff.2 htoks]; decide)

/-- What a tile not yet done leaves: its records among the writes, and itself noted in the command, which the last one ends. -/
theorem Eng.scoreTile_leaves (e : Eng) (m : Mem) {c : Cmd} {tile : Nat} {cfg : SlotCfg} {sel : List (Nat × TokSel)}
    (hid : e.cmd? c.id = some c) (hopen : c.done = false) (hop : c.d.opcode = opScore) (hphase : c.phase = .running)
    (hcfg : cfg = e.cfgOf c.d.slot) (hsel : sel = e.selectRows m c cfg (tileTokens cfg c.tokens tile))
    (htoks : tileTokens cfg c.tokens tile ≠ []) (hnew : c.tilesDone.contains tile = false) :
    (∀ p ∈ sel, (c.d.b + p.1 * scoreSize cfg c.d.outKind, scoreRecord cfg c.d.outKind p.2) ∈ (e.scoreTile m c tile).wlog) ∧
      ∃ x, (e.scoreTile m c tile).cmd? c.id = some x ∧ x.tilesDone = c.tilesDone ++ [tile] ∧
        (c.tilesDone.length + 1 < ceilDiv c.tokens cfg.tile → x.done = false ∧ x.phase = .running) ∧
        (ceilDiv c.tokens cfg.tile ≤ c.tilesDone.length + 1 →
          x.done = true ∧ x.res.status = if 0 < c.res.dropped + numericRows sel then stDegraded else stOk) := by
  obtain ⟨raised, gone, heq⟩ := e.scoreTile_eq m c hcfg hsel htoks hnew
  have hwritten : ∀ p ∈ sel, (c.d.b + p.1 * scoreSize cfg c.d.outKind, scoreRecord cfg c.d.outKind p.2) ∈ (e.tileWritten m c tile).wlog := by
    subst hcfg hsel
    exact fun p hp => e.mem_tileWritten_wlog m c tile hp
  rw [heq]
  dsimp only
  generalize c.res.countRows _ _ = res
  have hnoted := (e.tileWritten m c tile).setCmd_cmd?_same (f := Cmd.tileScored tile raised gone res) (fun _ => rfl)
    ((e.tileWritten_cmd? m c tile c.id).trans hid)
  split
  next hmore =>
    exact ⟨hwritten, _, hnoted, rfl, fun _ => ⟨hopen, hphase⟩, fun hlast => absurd hmore (Nat.not_lt.2 hlast)⟩
  next hlast =>
    have htold := ((e.tileWritten m c tile).setCmd c.id (Cmd.tileScored tile raised gone res)).tellGone_sameCmds c gone
    obtain ⟨hwlog, held, recorded, hended⟩ := Eng.complete_ends _ (if 0 < c.res.dropped + numericRows sel then stDegraded else stOk)
      ((htold.cmd? c.id).trans hnoted) hopen (by rw [show (Cmd.tileScored tile raised gone res c).d.opcode = opScore from hop]; decide)
    refine ⟨fun p hp => ?_, _, hended, rfl, fun hmore => absurd hmore hlast, fun _ => ⟨rfl, rfl⟩⟩
    rw [hwlog, htold.wlog]
    exact hwritten p hp

theorem exec_tileSelected_score {s : State} (h : s.on) {r idx : Nat} {c : Cmd} (tile : Nat) (hroute : s.work.runningRoute r idx = none)
    (hscore : s.work.runningScore r idx = some c) :
    exec (.tileSelected r idx tile) s = .next (s.leaves ((s.work.scoreTile s.hbm c tile).settle s.hbm)) :=
  (exec_tileSelected r idx tile s).trans (h.onPower_leaves (by simp only [hroute, hscore]))

/-- A command's own work reads the HBM that the command found. -/
theorem State.work_selectRows (s : State) (c : Cmd) {cfg : SlotCfg} (toks : List Nat) {row : Nat → TokSel}
    (hrow : row = fun t => (s.work.scoreCtx s.hbm c cfg).token (fun a n => Mem.read s.hbm a n) c.d.a c.d.c c.badRows t) :
    s.work.selectRows s.hbm c cfg toks = toks.map (fun t => (t, row t)) := by
  rw [hrow]
  rfl

theorem Eng.runningScore_open {e : Eng} {r idx : Nat} {c : Cmd} (h : e.runningScore r idx = some c) :
    c.d.opcode = opScore ∧ c.done = false ∧ c.phase = .running := by
  obtain ⟨hat, hruns⟩ := Option.filter_eq_some_iff.1 h
  obtain ⟨hop, hopen⟩ := Eng.cmdAt_open hat
  obtain ⟨hphase, -⟩ := Bool.and_eq_true_iff.1 hruns
  exact ⟨hop, hopen, beq_iff_eq.1 hphase⟩

end Sys2Proof.Machine

open Sys2Proof Sys2Proof.Machine

/-- Settles O25: each outcome of the image check leads to its end of the start; a tile's records are written before it is
noted, and the last tile's completion keeps what was written and noted. -/
theorem scoreWritesOneRecordPerToken : Obligations.ScoreWritesOneRecordPerToken := by
  unfold Obligations.ScoreWritesOneRecordPerToken
  refine ⟨fun s r idx c h => ⟨fun e st hcheck => h.exec_score (Eng.scoreNow_fail _ hcheck),
    fun e hcheck => h.exec_score (Eng.scoreNow_fault _ hcheck), fun e e1 hcheck he1 => h.exec_score (Eng.scoreNow_ok _ hcheck he1)⟩,
    fun s r idx tile c cfg row hon hroute hscore hid hcfg htoks hnew hrow => ?_⟩
  obtain ⟨hop, hopen, hphase⟩ := Eng.runningScore_open hscore
  obtain ⟨hwritten, x, hx, htile, hmore, hlast⟩ :=
    s.work.scoreTile_leaves s.hbm hid hopen hop hphase hcfg (s.work_selectRows c _ hrow).symm htoks hnew
  have hnumeric : 0 < c.res.dropped + numericRows ((tileTokens cfg c.tokens tile).map (fun t => (t, row t))) ↔
      0 < c.res.dropped ∨ ∃ t ∈ tileTokens cfg c.tokens tile, bit (row t).rflags 1 = true := by
    rw [Nat.add_pos_iff_pos_or_pos, numericRows_pos_iff]
    refine or_congr_right ⟨fun ⟨p, hp, hbit⟩ => ?_, fun ⟨t, ht, hbit⟩ => ⟨_, List.mem_map_of_mem ht, hbit⟩⟩
    obtain ⟨t, ht, rfl⟩ := List.mem_map.1 hp
    exact ⟨t, ht, hbit⟩
  refine ⟨_, exec_tileSelected_score hon tile hroute hscore, fun t ht => hwritten _ (List.mem_map_of_mem ht), x, hx, htile, hmore,
    fun h => ?_⟩
  obtain ⟨hdone, hstatus⟩ := hlast h
  exact ⟨hdone, hstatus.trans (by simp only [hnumeric])⟩

end

section
/-! SUPPORT. The start of a ROUTE: which of its ends each check leads to, and what it takes (R161, R203). -/

namespace Sys2Proof.Machine

/-! ### ROUTE starts (R161, R165, R203) -/

theorem State.runs.exec_route {s : State} {r idx : Nat} {c : Cmd} (h : s.runs r idx opRoute c) {e : Eng}
    (he : (s.run c).startRoute s.hbm c = e) : exec (.route r idx) s = .next (s.leaves (e.settle s.hbm)) :=
  (Machine.exec_route r idx s).trans (h.1.onPower_leaves ((h.runCmd _).trans (congrArg (Eng.settle s.hbm) he)))

section
variable (e : Eng) {m : Mem} {c : Cmd}

theorem Eng.startRoute_noChannels (h : e.noChannels c = true) : e.startRoute m c = (e.routeAborted c).complete c.id stQuota :=
  if_pos h

theorem Eng.startRoute_empty (h : e.noChannels c = false) (hcount : c.count = some 0) :
    e.startRoute m c = (e.routeAborted c).complete c.id stOk := by
  simp [Eng.startRoute, h, hcount]

theorem Eng.startRoute_fails (h : e.noChannels c = false) (hcount : c.count ≠ some 0) {st : Nat} {e' : Eng}
    (hcheck : e.imageCheck m c = .fail st e') : e.startRoute m c = (e'.routeAborted c).complete c.id st := by
  simp [Eng.startRoute, h, hcount, hcheck]

theorem Eng.startRoute_goes (h : e.noChannels c = false) (hcount : c.count ≠ some 0) {e' : Eng}
    (hcheck : e.imageCheck m c = .ok e') : e.startRoute m c = (e'.retireSteps c).routeGo m c := by
  simp [Eng.startRoute, h, hcount, hcheck]

/-- Where no other step of the slot and parity is kept, nothing has to go. -/
theorem Eng.retireSteps_of_none (h : ∀ w ∈ e.works, w.slot ≠ c.d.slot ∨ w.step % 2 ≠ c.d.step % 2 ∨ w.cmd = c.id) :
    e.retireSteps c = e := by
  have hnone : e.works.filter (fun w => w.slot == c.d.slot && w.step % 2 == c.d.step % 2 && w.cmd != c.id) = [] :=
    List.filter_eq_nil_iff.2 (fun w hw => by
      rcases h w hw with h | h | h <;> simp [h])
  rw [Eng.retireSteps, hnone, List.foldl_nil]

theorem Eng.routeGo_waits {p : Nat} (h : e.takeArea c.id c.polder (e.cfgOf c.d.slot) c.tokens c.detm false = .wait p) :
    e.routeGo m c = (e.putWork (e.newWork c .areaWait {})).areaWait c false p := by
  simp only [Eng.routeGo, h]

/-- With its area a ROUTE of some tokens is scoring, its host role starts and its slot's rotation is set. -/
theorem Eng.routeGo_got {a : Area} {e1 : Eng} (h : e.takeArea c.id c.polder (e.cfgOf c.d.slot) c.tokens c.detm false = .got a e1)
    (htok : c.tokens ≠ 0) : e.routeGo m c =
      (((e1.endWait (.area c.id)).putWork (e1.newWork c .scoring a)).startRole c.d.slot c.d.step c.polder c.tokens c.d.tag
        e1.detm).setLslot c.d.slot (fun l => { l with
          rot := if (e.cfgOf c.d.slot).rotated then rotationKey c.seed c.d.slot c.d.step else 0, lastRound := 1 }) := by
  simp only [Eng.routeGo, h, if_neg htok]
  rfl

end

end Sys2Proof.Machine

open Sys2Proof Sys2Proof.Machine

/-- Settles O26: each check at a ROUTE's start leads to its own end or on to the next, and the last takes the area. -/
theorem routeStartsItsRoles : Obligations.RouteStartsItsRoles := by
  unfold Obligations.RouteStartsItsRoles
  refine fun s r idx c h => ⟨fun hnone => h.exec_route (Eng.startRoute_noChannels _ hnone), fun hchan =>
    ⟨fun hcount => h.exec_route (Eng.startRoute_empty _ hchan hcount), fun hcount =>
    ⟨fun e st hcheck => h.exec_route (Eng.startRoute_fails _ hchan hcount hcheck), fun e hcheck hkept => ?_⟩⟩⟩
  have hgo : (s.run c).startRoute s.hbm c = e.routeGo s.hbm c := by
    rw [Eng.startRoute_goes _ hchan hcount hcheck, e.retireSteps_of_none hkept]
  exact ⟨fun p harea => h.exec_route (hgo.trans (e.routeGo_waits harea)),
    fun a e1 harea htok => h.exec_route (hgo.trans (e.routeGo_got harea htok))⟩

end

section
/-! SUPPORT. What a host answers to a bid, and its reservation's timers (R160, R166, R326). -/

namespace Sys2Proof

/-! ### Sparse maps -/

theorem KV.mem_of_find {α : Type} {l : KV α} {k : Nat} {y : α} (h : KV.find l k = some y) : (k, y) ∈ l := by
  induction l with
  | nil => cases h
  | cons p l ih =>
    obtain ⟨q, v⟩ := p
    rw [KV.find] at h
    split at h
    next hk =>
      cases h
      rw [hk]
      exact List.mem_cons_self
    next => exact List.mem_cons_of_mem _ (ih h)

/-- Storing brings in nothing but what is stored. -/
theorem KV.mem_put {α : Type} {l : KV α} {q : Nat} {x : α} {p : Nat × α} (h : p ∈ KV.put l q x) : p = (q, x) ∨ p ∈ l := by
  induction l with
  | nil => exact Or.inl (List.mem_singleton.1 h)
  | cons a l ih =>
    rw [KV.put] at h
    split at h
    · exact List.mem_cons.1 h
    split at h
    · exact (List.mem_cons.1 h).imp_right (List.mem_cons_of_mem _)
    · rcases List.mem_cons.1 h with h | h
      · exact Or.inr (h ▸ List.mem_cons_self)
      · exact (ih h).imp_right (List.mem_cons_of_mem _)

end Sys2Proof

namespace Sys2Proof.Machine

/-! ### Answers to bids (R166, Table 7-3) -/

/-- The place that a bid was granted before. -/
def HostExpert.grantedTo (x : HostExpert) (src : Nat) (b : BidRec) : Option Nat :=
  x.places.findIdx? (fun p => p.src == src && p.token == b.token && p.rank == b.rank && !p.void)

/-- A refusal is remembered, unless it was given before. -/
def HostRole.noteRefused (before : Bool) (src : Nat) (b : BidRec) (h : HostRole) : HostRole :=
  if before then h else { h with refusedList := (src, b.token, b.rank) :: h.refusedList }

/-- What a refusal leaves alone: whether fitting has closed, the capacity, and every expert's places. -/
structure HostRole.SamePlaces (h h' : HostRole) : Prop where
  closed : h'.closed = h.closed
  cap : h'.cap = h.cap
  places : ∀ k y, KV.find h'.experts k = some y → ∃ z, (k, z) ∈ h.experts ∧ y.places = z.places

theorem HostRole.SamePlaces.refl (h : HostRole) : h.SamePlaces h := ⟨rfl, rfl, fun _ y hy => ⟨y, KV.mem_of_find hy, rfl⟩⟩

theorem HostRole.noteRefused_samePlaces {h h' : HostRole} (hs : h.SamePlaces h') (before : Bool) (src : Nat) (b : BidRec) :
    h.SamePlaces (h'.noteRefused before src b) := by
  unfold HostRole.noteRefused
  split
  · exact hs
  · exact ⟨hs.closed, hs.cap, hs.places⟩

/-- Counting a refusal at an expert moves none of its places. -/
theorem HostRole.putExpert_samePlaces {h : HostRole} {j : Nat} {x y : HostExpert} (hx : (j, x) ∈ h.experts)
    (hy : y.places = x.places) : h.SamePlaces { h with experts := KV.put h.experts j y } := by
  refine ⟨rfl, rfl, fun k z hz => ?_⟩
  rcases KV.mem_put (KV.mem_of_find hz) with hput | hmem
  · cases hput
    exact ⟨x, hx, hy⟩
  · exact ⟨z, hmem, rfl⟩

section
variable (h : HostRole) {hosted : List Nat} {src : Nat} {b : BidRec}

theorem HostRole.answer_unknown (hnone : ∀ je ∈ h.experts, je.2.expert ≠ b.expert) : h.answer hosted src b = (resAbsent, false, h) := by
  have hfind : h.experts.find? (fun je => je.2.expert == b.expert) = none :=
    List.find?_eq_none.2 (fun je hje => by simp [hnone je hje])
  simp only [HostRole.answer, hfind]

variable {j : Nat} {x : HostExpert} (hfind : h.experts.find? (fun je => je.2.expert == b.expert) = some (j, x))
include hfind

theorem HostRole.answer_again {i : Nat} (hagain : x.grantedTo src b = some i) :
    h.answer hosted src b = (resGrant (tagOf j i), false, h) := by
  rw [HostExpert.grantedTo] at hagain
  simp only [HostRole.answer, hfind, hagain]

variable (hnew : x.grantedTo src b = none)
include hnew

/-- A new bid for an expert held is answered by the first of these that applies. -/
theorem HostRole.answer_new {before : Bool} (hbefore : before = h.refusedList.contains (src, b.token, b.rank)) :
    h.answer hosted src b =
    if !h.closed && !hosted.contains b.expert then (resAbsent, false, h)
    else if h.nomem then (resNomem, false, h.noteRefused before src b)
    else if h.closed || x.places.length ≥ h.cap then
      (resFull, !before, HostRole.noteRefused before src b
        (if before || h.closed then h else { h with experts := KV.put h.experts j { x with refused := x.refused + 1 } }))
    else (resGrant (tagOf j x.places.length), false, { h with experts := KV.put h.experts j { x with
      places := x.places ++ [{ src := src, token := b.token, rank := b.rank, alt := bit b.bflags 0 }]
      spilledIn := x.spilledIn + (bit b.bflags 0).toNat } }) := by
  subst hbefore
  rw [HostExpert.grantedTo] at hnew
  rw [HostRole.answer, hfind]
  dsimp -zeta only
  rw [hnew]
  rfl

theorem HostRole.answer_unhosted (hopen : h.closed = false) (hgone : b.expert ∉ hosted) :
    h.answer hosted src b = (resAbsent, false, h) := by
  rw [h.answer_new hfind hnew rfl, if_pos (by simp [hopen, hgone])]

theorem HostRole.answer_grants (hhosted : b.expert ∈ hosted) (hmem : h.nomem = false) (hopen : h.closed = false)
    (hroom : x.places.length < h.cap) : h.answer hosted src b =
      (resGrant (tagOf j x.places.length), false, { h with experts := KV.put h.experts j { x with
        places := x.places ++ [{ src := src, token := b.token, rank := b.rank, alt := bit b.bflags 0 }]
        spilledIn := x.spilledIn + (bit b.bflags 0).toNat } }) := by
  rw [h.answer_new hfind hnew rfl, if_neg (by simp [hhosted]), if_neg (by simp [hmem]), if_neg (by simp [hopen, hroom])]

theorem HostRole.answer_full (hhosted : h.closed = true ∨ b.expert ∈ hosted) (hmem : h.nomem = false)
    (hfull : h.closed = true ∨ h.cap ≤ x.places.length) : (h.answer hosted src b).1 = resFull := by
  rw [h.answer_new hfind hnew rfl, if_neg (by rcases hhosted with hc | hc <;> simp [hc]), if_neg (by simp [hmem]), if_pos (by simpa using hfull)]

theorem HostRole.answer_nomem (hhosted : h.closed = true ∨ b.expert ∈ hosted) (hmem : h.nomem = true) :
    (h.answer hosted src b).1 = resNomem := by
  rw [h.answer_new hfind hnew rfl, if_neg (by rcases hhosted with hc | hc <;> simp [hc]), if_pos hmem]

/-- A bid that is refused leaves every place where it was. -/
theorem HostRole.answer_refused (hrefused : h.nomem = true ∨ h.closed = true ∨ h.cap ≤ x.places.length ∨ b.expert ∉ hosted) :
    h.SamePlaces (h.answer hosted src b).2.2 := by
  rw [h.answer_new hfind hnew rfl]
  split
  · exact .refl h
  next hhosted =>
  split
  · exact HostRole.noteRefused_samePlaces (.refl h) _ _ _
  next hmem =>
  split
  · refine HostRole.noteRefused_samePlaces ?_ _ _ _
    split
    · exact .refl h
    · exact HostRole.putExpert_samePlaces (List.mem_of_find?_eq_some hfind) rfl
  next hroom =>
    simp only [Bool.and_eq_true, Bool.or_eq_true, Bool.not_eq_true', List.contains_eq_mem, decide_eq_false_iff_not, decide_eq_true_eq,
      not_and, not_or] at hhosted hroom
    obtain ⟨hopen, hplaces⟩ := hroom
    rcases hrefused with hr | hr | hr | hr
    · exact absurd hr hmem
    · exact absurd hr hopen
    · exact absurd hr hplaces
    · exact absurd hr (hhosted (Bool.eq_false_iff.2 hopen))

end

/-! ### The reservation's timers (R160, R326) -/

theorem State.on.exec_reserveRetry {s : State} (h : s.on) {slot step : Nat} {e : Eng} (he : s.work.reserveAgain slot step = e) :
    exec (.reserveRetry slot step) s = .next (s.leaves (e.settle s.hbm)) :=
  (Machine.exec_reserveRetry slot step s).trans (h.onPower_leaves (congrArg (Eng.settle s.hbm) he))

theorem State.on.exec_reserveTimeout {s : State} (h : s.on) {slot step : Nat} {e : Eng} (he : s.work.reserveLate slot step = e) :
    exec (.reserveTimeout slot step) s = .next (s.leaves (e.settle s.hbm)) :=
  (Machine.exec_reserveTimeout slot step s).trans (h.onPower_leaves (congrArg (Eng.settle s.hbm) he))

section
variable (e : Eng) {slot step : Nat}

theorem Eng.reserveAgain_of_met (h : e.unmet slot step = none) : e.reserveAgain slot step =
    if (e.role slot step).any (fun h => h.bwdWanted) && e.flt.recovery != some .compute then e.startBwd slot step else e := by
  simp only [Eng.reserveAgain, h]

theorem Eng.reserveLate_of_met (h : e.unmet slot step = none) : e.reserveLate slot step = e := by
  simp only [Eng.reserveLate, h]

variable {h : HostRole} (hunmet : e.unmet slot step = some h)
include hunmet

/-- An unmet reservation is tried again when the next 10 µs are due. -/
theorem Eng.reserveAgain_of_unmet {e' : Eng} (he : e' = e.reach (h.startNs + 10000 * max 1 (ceilDiv (e.now - h.startNs) 10000))) :
    e.reserveAgain slot step =
      if (e'.tryReserve slot step).1 then (e'.tryReserve slot step).2.reserveSettled slot step else (e'.tryReserve slot step).2 := by
  subst he
  simp only [Eng.reserveAgain, hunmet]

/-- After its limit an unmet reservation is told once, and then fails where the mode lets it. -/
theorem Eng.reserveLate_of_unmet {e' : Eng} (he : e' = if h.raised.contains 0x0453 then e.reach (h.startNs + 1000000)
      else ((e.reach (h.startNs + 1000000)).setRole slot step (fun h => { h with raised := 0x0453 :: h.raised })).raise 0x0453
        (arg4 slot 0 1) (some h.polder) h.tag) :
    e.reserveLate slot step =
      if h.detm then e'
      else ((e'.endWait (.host slot step false)).setRole slot step (fun h => { h with nomem := true, reserving := false })).reserveSettled
        slot step := by
  subst he
  simp only [Eng.reserveLate, hunmet]

end

end Sys2Proof.Machine

open Sys2Proof Sys2Proof.Machine

/-- Settles O29: a bid is answered by the first check that applies to it, and each timer by whether the reservation is met. -/
theorem hostsGrantAndReserve : Obligations.HostsGrantAndReserve := by
  unfold Obligations.HostsGrantAndReserve
  refine ⟨fun h hosted src b => ⟨h.answer_unknown, fun j x hfind => ⟨fun i hagain => h.answer_again hfind hagain, fun hnew =>
    ⟨h.answer_unhosted hfind hnew, h.answer_grants hfind hnew,
     fun hhosted => ⟨h.answer_full hfind hnew hhosted, h.answer_nomem hfind hnew hhosted⟩, fun hrefused => ?_⟩⟩⟩,
    fun s slot step hon => ⟨fun hmet => ⟨?_, ?_⟩, fun h hunmet => ⟨fun e he => ?_, fun e he => ?_⟩⟩⟩
  · obtain ⟨hclosed, hcap, hplaces⟩ := h.answer_refused hfind hnew hrefused
    exact ⟨hclosed, hcap, hplaces⟩
  · exact hon.exec_reserveRetry (s.work.reserveAgain_of_met hmet)
  · exact hon.exec_reserveTimeout (s.work.reserveLate_of_met hmet)
  · have hagain := s.work.reserveAgain_of_unmet hunmet he
    exact ⟨fun hgot => hon.exec_reserveRetry (hagain.trans (if_pos hgot)),
      fun hwaits => hon.exec_reserveRetry (hagain.trans (if_neg (by simp [hwaits])))⟩
  · have hlate := s.work.reserveLate_of_unmet hunmet he
    exact ⟨fun hdetm => hon.exec_reserveTimeout (hlate.trans (if_pos hdetm)),
      fun hnormal => hon.exec_reserveTimeout (hlate.trans (if_neg (by simp [hnormal])))⟩

end

section
/-! SUPPORT. Where an arriving packet ends: discarded, told, kept for the exit from a power state, or in its queue (R190,
R232, R379). -/

namespace Sys2Proof.Machine

/-! ### Commands that bring a packet (Table 10-2) -/

/-- Every command that brings a packet is that packet's arrival. -/
theorem exec_packet (s : State) (c : Instr) {p : RxPkt} {rd : SpoolRead} {bad : Bool} (h : c.packet = some (p, rd, bad)) :
    exec c s = s.onPower (fun m e => e.arrive m p rd bad) :=
  match c, h with
  | .bidFrame port i h recs rd, rfl => exec_bidFrame port i h recs rd s
  | .grantFrame port i h recs rd, rfl => exec_grantFrame port i h recs rd s
  | .claimFrame port i h recs rd, rfl => exec_claimFrame port i h recs rd s
  | .dispatchChunk port h b rd, rfl => exec_dispatchChunk port h b rd s
  | .voidList port h b rd, rfl => exec_voidList port h b rd s
  | .returnChunk port h b rd, rfl => exec_returnChunk port h b rd s
  | .backwardDispatchChunk port h b rd, rfl => exec_backwardDispatchChunk port h b rd s
  | .backwardReturnChunk port h b rd, rfl => exec_backwardReturnChunk port h b rd s
  | .copyChunk port h b rd, rfl => exec_copyChunk port h b rd s
  | .bcastData port h b rd, rfl => exec_bcastData port h b rd s
  | .reduceData port h b rd bad, rfl => exec_reduceData port h b rd bad s
  | .factorData port h b rd, rfl => exec_factorData port h b rd s
  | .formUp port h b, rfl => exec_formUp port h b s
  | .formDown port h b, rfl => exec_formDown port h b s
  | .countUp port h b, rfl => exec_countUp port h b s
  | .countDown port h b, rfl => exec_countDown port h b s
  | .swRefused port h b, rfl => exec_swRefused port h b s
  | .collectiveAbort port h b, rfl => exec_collectiveAbort port h b s
  | .barrierUp port h b, rfl => exec_barrierUp port h b s
  | .barrierDown port h b, rfl => exec_barrierDown port h b s
  | .tackNotice port h b, rfl => exec_tackNotice port h b s

/-- What a packet's arrival leaves, from the engine as it took the packet. -/
def State.takes (s : State) (bad : Bool) (e : Eng) : State :=
  s.leaves (((e.settleOnce s.hbm bad).settleOnce s.hbm false).markBlocked)

theorem State.on.exec_packet {s : State} (h : s.on) {c : Instr} {p : RxPkt} {rd : SpoolRead} {bad : Bool}
    (hc : c.packet = some (p, rd, bad)) {e : Eng} (he : s.work.receive p rd = e) : exec c s = .next (s.takes bad e) := by
  rw [Machine.exec_packet s c hc, h.onPower, Eng.arrive, he, State.takes]

/-! ### The first words of a packet (R190, R232) -/

/-- The engine with a chunk on a port counted, as its first words come. -/
def Eng.chunkCounted (p : RxPkt) (e : Eng) : Eng := match p with
  | .chunk (some q) _ _ => if !e.begun p then e.bump64 (Reg.slcRxChunks q) 1 else e
  | _ => e

/-- Counting a chunk changes registers alone. -/
theorem Eng.chunkCounted_eq (e : Eng) (p : RxPkt) : ∃ regs, e.chunkCounted p = { e with regs := regs } := by
  unfold Eng.chunkCounted
  split
  · split
    · exact ⟨_, rfl⟩
    · exact ⟨e.regs, rfl⟩
  · exact ⟨e.regs, rfl⟩

/-- What does not look at the registers is the same once the chunk is counted. -/
theorem Eng.chunkCounted_reads {α : Type} {f : Eng → α} (e : Eng) (p : RxPkt) (hf : ∀ regs, f { e with regs := regs } = f e) :
    f (e.chunkCounted p) = f e := by
  obtain ⟨regs, hregs⟩ := e.chunkCounted_eq p
  rw [hregs, hf]

@[simp] theorem Eng.chunkCounted_pwr (e : Eng) (p : RxPkt) : (e.chunkCounted p).pwr = e.pwr := e.chunkCounted_reads p (fun _ => rfl)

@[simp] theorem Eng.chunkCounted_begun (e : Eng) (p x : RxPkt) : (e.chunkCounted p).begun x = e.begun x :=
  e.chunkCounted_reads (f := fun e => e.begun x) p (fun _ => rfl)

@[simp] theorem Eng.chunkCounted_pktQueue (e : Eng) (p x : RxPkt) : (e.chunkCounted p).pktQueue x = e.pktQueue x :=
  e.chunkCounted_reads (f := fun e => e.pktQueue x) p (fun _ => rfl)

@[simp] theorem Eng.chunkCounted_early (e : Eng) (p x : RxPkt) : (e.chunkCounted p).early x = e.early x :=
  e.chunkCounted_reads (f := fun e => e.early x) p (fun _ => rfl)

@[simp] theorem Eng.chunkCounted_pktPolder (e : Eng) (p x : RxPkt) : (e.chunkCounted p).pktPolder x = e.pktPolder x :=
  e.chunkCounted_reads (f := fun e => e.pktPolder x) p (fun _ => rfl)

@[simp] theorem Eng.chunkCounted_rxVc (e : Eng) (p x : RxPkt) : (e.chunkCounted p).rxVc x = e.rxVc x :=
  e.chunkCounted_reads (f := fun e => e.rxVc x) p (fun _ => rfl)

/-- A header that fails its check is counted at its port and told. -/
def Eng.headerFailed (p : RxPkt) (e : Eng) : Eng :=
  (match p.port with
    | some q => e.bump (Reg.slcCrcFail q) 16 16 1
    | none => e).raise 0x0105 (arg1 p.port p.sender.1) none 0

/-- A packet that comes out of ACTIVE is kept, and wakes the engine. -/
def Eng.keepForExit (p : RxPkt) (rd : SpoolRead) (e : Eng) : Eng := ({ e with pwr.rx := e.pwr.rx ++ [(p, rd)] } : Eng).wake

section
variable (e : Eng) (p : RxPkt) (rd : SpoolRead)

theorem Eng.receive_deaf (h : e.arrives p.port = false ∨ p.dst ≠ e.chip ∨ e.flt.recovery = some .compute) : e.receive p rd = e := by
  unfold Eng.receive
  rw [if_pos (by rcases h with h | h | h <;> simp [h])]

section
variable (harr : e.arrives p.port = true) (hdst : p.dst = e.chip) (hrec : e.flt.recovery ≠ some .compute)
include harr hdst hrec

/-- A packet taken is counted, and then its header is checked before the power state decides. -/
theorem Eng.receive_taken : e.receive p rd =
      if !p.headerOk then (e.chunkCounted p).headerFailed p
      else if e.pwr.cur ≠ 0 || e.pwr.trans then (e.chunkCounted p).keepForExit p rd
      else (e.chunkCounted p).toQueue p rd := by
  unfold Eng.receive
  rw [if_neg (by simp [harr, hdst, hrec]), ← e.chunkCounted_pwr p]
  rcases p with ⟨_ | _, _, _⟩ | ⟨_ | _, _, _, _⟩ | ⟨_ | _, _, _, _⟩ | ⟨_ | _, _, _, _⟩
  all_goals rfl

theorem Eng.receive_badHeader (h : p.headerOk = false) : e.receive p rd = (e.chunkCounted p).headerFailed p := by
  rw [e.receive_taken p rd harr hdst hrec, if_pos (by simp [h])]

theorem Eng.receive_asleep (h : p.headerOk = true) (hout : e.pwr.cur ≠ 0 ∨ e.pwr.trans = true) :
    e.receive p rd = (e.chunkCounted p).keepForExit p rd := by
  rw [e.receive_taken p rd harr hdst hrec, if_neg (by simp [h]), if_pos (by simpa using hout)]

theorem Eng.receive_active (h : p.headerOk = true) (hcur : e.pwr.cur = 0) (htrans : e.pwr.trans = false) :
    e.receive p rd = (e.chunkCounted p).toQueue p rd := by
  rw [e.receive_taken p rd harr hdst hrec, if_neg (by simp [h]), if_neg (by simp [hcur, htrans])]

end

/-! ### The queue of a packet (R161, R232; log 6) -/

theorem Eng.toQueue_begun (h : e.begun p = true) : e.toQueue p rd = e.goesOn p rd := if_pos h

theorem Eng.toQueue_none (h : e.begun p = false) (hq : e.pktQueue p = none) :
    e.toQueue p rd = e.raise 0x0481 (arg4 0 8191 1) none 0 := by
  simp [Eng.toQueue, h, hq]

/-- A packet whose host role has not started is counted as early. -/
def Eng.earlyCounted (p : RxPkt) (e : Eng) : Eng := if e.early p then e.bump32 Reg.fitEarlyBids 1 else e

/-- A packet that came by a port is put to its polder's account. -/
def Eng.packetAccounted (p : RxPkt) (polder : Option Nat) (e : Eng) : Eng := match polder with
  | some x => if p.port.isSome then e.accLink x p.sender.1 (64 * p.words) else e
  | none => e

theorem Eng.account_pat (polder : Nat) (f : Acc → Acc) : (e.account polder f).pat = e.pat := by
  unfold Eng.account
  split <;> rfl

theorem Eng.accLink_pat (polder chip n : Nat) : (e.accLink polder chip n).pat = e.pat := by
  unfold Eng.accLink
  split <;> exact Eng.account_pat e _ _

theorem Eng.packetAccounted_pat (polder : Option Nat) : (e.packetAccounted p polder).pat = e.pat := by
  unfold Eng.packetAccounted
  split
  · split
    · exact e.accLink_pat _ _ _
    · rfl
  · rfl

theorem Eng.earlyCounted_pat : (e.earlyCounted p).pat = e.pat := by
  unfold Eng.earlyCounted
  split <;> rfl

/-- The virtual channel of a packet is a matter of the Pattern alone. -/
theorem Eng.rxVc_of_pat {e e' : Eng} (h : e'.pat = e.pat) (p : RxPkt) : e'.rxVc p = e.rxVc p := by
  have htemplate : ∀ polder, e'.template polder = e.template polder := fun polder => by
    rw [Eng.template, h, Eng.template]
  have hclass : ∀ polder, e'.reservedClass polder = e.reservedClass polder := fun polder => by
    rw [Eng.reservedClass, htemplate, h, Eng.reservedClass]
  cases p with
  | chunk port hdr b => simp only [Eng.rxVc, Eng.vcOf, hclass]
  | bid | grant | claim => rfl

/-- A new packet is counted, accounted and offered to its queue. -/
theorem Eng.toQueue_offers {q : Nat} (h : e.begun p = false) (hq : e.pktQueue p = some q) :
    e.toQueue p rd = ((e.earlyCounted p).packetAccounted p (e.pktPolder p)).offer q (e.rxVc p) p rd := by
  have hpolder : (e.earlyCounted p).pktPolder p = e.pktPolder p := by
    unfold Eng.earlyCounted
    split
    · cases p <;> rfl
    · rfl
  have hvc : ((e.earlyCounted p).packetAccounted p (e.pktPolder p)).rxVc p = e.rxVc p :=
    Eng.rxVc_of_pat ((Eng.packetAccounted_pat _ p _).trans (e.earlyCounted_pat p)) p
  rw [← hvc, ← hpolder]
  simp only [Eng.toQueue, h, hq]
  rfl

end

end Sys2Proof.Machine

open Sys2Proof Sys2Proof.Machine

/-- Settles O31: an arrival is what its reception makes of the engine, and reception is one check after another. -/
theorem arrivingPacketsAreQueued : Obligations.ArrivingPacketsAreQueued := by
  unfold Obligations.ArrivingPacketsAreQueued
  intro s c p rd bad hon hc e0 go he0 hgo
  obtain rfl : go = s.takes bad := hgo
  have hcounted : e0 = s.work.chunkCounted p := by
    rw [he0]
    rcases p with ⟨_ | q, h, b⟩ | _ | _ | _
    case chunk.some =>
      simp only [Eng.chunkCounted]
      cases s.work.begun (.chunk (some q) h b) <;> rfl
    all_goals rfl
  clear he0
  subst hcounted
  refine ⟨fun hdeaf => hon.exec_packet hc (s.work.receive_deaf p rd hdeaf), fun harr hdst hrec => ?_⟩
  refine ⟨fun hbad => hon.exec_packet hc (s.work.receive_badHeader p rd harr hdst hrec hbad), fun hgood hout => ?_,
    fun hgood hcur htrans => ?_⟩
  · rw [hon.exec_packet hc (s.work.receive_asleep p rd harr hdst hrec hgood hout), Eng.keepForExit, Eng.chunkCounted_pwr]
    rfl
  · have hqueued := s.work.receive_active p rd harr hdst hrec hgood hcur htrans
    refine ⟨fun hmore => hon.exec_packet hc (hqueued.trans (Eng.toQueue_begun _ p rd (by rwa [Eng.chunkCounted_begun]))),
      fun hnew hnone => hon.exec_packet hc (hqueued.trans (Eng.toQueue_none _ p rd (by rwa [Eng.chunkCounted_begun])
        (by rwa [Eng.chunkCounted_pktQueue]))), fun q hnew hsome e1 he1 => ?_⟩
    have hoffers := Eng.toQueue_offers _ p rd ((s.work.chunkCounted_begun p p).trans hnew) ((s.work.chunkCounted_pktQueue p p).trans hsome)
    rw [hon.exec_packet hc (hqueued.trans hoffers), Eng.earlyCounted, Eng.chunkCounted_early, ← he1, Eng.chunkCounted_pktPolder,
      Eng.chunkCounted_rxVc]
    rfl

end

section
/-! SUPPORT. Links: the version a port runs at, the version of a peer, and a port that goes down or comes up (R183, R196,
R360, R421). -/

namespace Sys2Proof.Machine

/-! ### A port leaves training (R196; log 6, DESIGN CHOICE) -/

/-- The Overlock versions that a port offers: its range of the Pattern, 2 to 4 where it gives none. -/
def Eng.portRange (e : Eng) (port : Nat) : Nat × Nat := match e.portCfg port with
  | some c => (c.ovlMin, c.ovlMax)
  | none => (2, 4)

/-- The engine as it learns its own ID from a peer in training (R373). -/
def Eng.learnsChip (own : Nat) (e : Eng) : Eng := { e with boot := { e.boot with chipId := some own } }

/-- A port that runs at a version, with what its peer told. -/
def Port.trainedAt (version peerMax : Nat) (swred fixedOrder : Bool) (p : Port) : Port :=
  { p with link := 2, negVer := version, peerMax := peerMax, swred := swred, fixedOrder := fixedOrder }

/-- A port whose range and its peer's do not meet. -/
def Port.noVersion (peerMax : Nat) (p : Port) : Port :=
  { p with link := 3, negVer := 0, peerMax := peerMax, swred := false, fixedOrder := false }

section
variable (e : Eng) (m : Mem) (port own peer peerMin peerMax : Nat) (swred fixedOrder : Bool)
  (hphase : e.boot.phase ≥ 2) (hpresent : e.portPresent port = true) (hlink : (e.port port).link ≠ 2)
include hphase hpresent hlink

theorem Eng.linkTrained_down : e.linkTrained m port false peerMin peerMax swred fixedOrder own peer =
    (e.setPort port (fun p => { p with link := 0 })).updateReady := by
  simp [Eng.linkTrained, Nat.not_lt.2 hphase, hpresent, hlink]

/-- A port that came up runs at a version where its range meets its peer's. -/
theorem Eng.linkTrained_up : e.linkTrained m port true peerMin peerMax swred fixedOrder own peer =
    if max (e.portRange port).1 peerMin ≤ min (e.portRange port).2 peerMax then
      ((((((e.learnsChip own).setPort port (Port.trainedAt (min (e.portRange port).2 peerMax) peerMax swred fixedOrder)).raise 0x0101
        (arg1 (some port) peer) none 0).versionsSince e.versions).resendUnsent m).updateReady).settle m
    else (((e.learnsChip own).setPort port (Port.noVersion peerMax)).raise 0x0102 (arg1 (some port) peer) none 0).updateReady := by
  have hguard : ¬ ((decide (e.boot.phase < 2) || !e.portPresent port || (e.port port).link == 2) = true) := by
    simp [Nat.not_lt.2 hphase, hpresent, hlink]
  exact (if_neg hguard).trans rfl

end

/-! ### The version of a peer (R183) -/

/-- A chip's version, put into the peer version table. -/
def Eng.withPeer (chip version : Nat) (e : Eng) : Eng := { e with peerVer := KV.put e.peerVer chip version }

theorem KV.get_put {α : Type} (d : α) (l : KV α) (k : Nat) (x : α) : KV.get d (KV.put l k x) k = x := by
  rw [KV.get, KV.find_put, if_pos rfl, Option.getD_some]

theorem Eng.learnVersion_other (e : Eng) {chip : Nat} (version : Nat) (hpower : e.boot.powered = true) (hchip : chip ≠ e.chip) :
    e.learnVersion chip version = (e.withPeer chip version).versionsSince e.versions := by
  simp only [Eng.learnVersion, hpower, hchip]
  rfl

theorem Eng.learnVersion_self (e : Eng) (version : Nat) : e.learnVersion e.chip version = e := by
  simp [Eng.learnVersion]

/-- The endpoint version with a peer of a known version is the lower of the two. -/
theorem Eng.withPeer_endVersion (e : Eng) {chip version : Nat} (hchip : chip ≠ e.chip) (hversion : version ≠ 0) :
    (e.withPeer chip version).endVersion chip = min e.ownVersion version := by
  have hchip' : chip ≠ (e.withPeer chip version).chip := hchip
  rw [Eng.endVersion, if_neg hchip', Eng.withPeer, KV.get_put]
  cases version with
  | zero => exact absurd rfl hversion
  | succ v => rfl

/-! ### A port goes down, or comes up again (R360, R421) -/

/-- The chips of the job, but this one, that a port reaches. -/
def Eng.reachedBy (e : Eng) (port : Nat) : List Nat := e.jobChips.filter (fun c => c != e.chip && (e.linkPorts c).contains port)

/-- A port is down: what came by it is aborted, what waited to leave is lost, and the event is told. -/
def Eng.portDown (port : Nat) (e : Eng) : Eng :=
  ((((e.setPort port (fun p => { p with link := 0 })).abortPort port).losePort port).raise 0x0103 (arg1 (some port) 0) none 0).versionsSince
    e.versions

/-- Every chip of a list that no port reaches is suspected. -/
def Eng.suspectCut (l : List Nat) (e : Eng) : Eng :=
  (l.filter (fun c => (e.linkPorts c).isEmpty)).foldl (fun (e : Eng) c => e.suspectChip c) e

/-- A port is up again, with its event. -/
def Eng.portUp (port : Nat) (e : Eng) : Eng :=
  ((e.setPort port (fun p => { p with link := 2 })).raise 0x0104 (arg1 (some port) 0) none 0).versionsSince e.versions

section
variable (e : Eng) (m : Mem) {port : Nat} (hpower : e.boot.powered = true) (hpresent : e.portPresent port = true)
  (htrained : (e.port port).negVer ≠ 0)
include hpower hpresent htrained

theorem Eng.linkChange_down (hlink : (e.port port).link = 2) :
    e.linkChange m port false = ((e.portDown port).suspectCut (e.reachedBy port)).settle m := by
  simp only [Eng.linkChange, hpower, hpresent, htrained, hlink]
  rfl

theorem Eng.linkChange_up (hlink : (e.port port).link = 0) :
    e.linkChange m port true = ((e.portUp port).resendUnsent m).settle m := by
  simp only [Eng.linkChange, hpower, hpresent, htrained, hlink]
  rfl

end

/-- A change to the state that a port has already changes nothing. -/
theorem Eng.linkChange_same (e : Eng) (m : Mem) {port : Nat} {up : Bool} (hlink : (e.port port).link = if up then 2 else 0) :
    e.linkChange m port up = e := by
  cases up <;> simp [Eng.linkChange, hlink]

end Sys2Proof.Machine

open Sys2Proof Sys2Proof.Machine

/-- Settles O9: each command about a link is one case of its own work, on an engine that is on. -/
theorem linksRunAtTheirVersionsAndStates : Obligations.LinksRunAtTheirVersionsAndStates := by
  unfold Obligations.LinksRunAtTheirVersionsAndStates
  refine ⟨fun s port own peer peerMin peerMax swred fixedOrder h hphase hpresent hlink => ⟨?_, fun lo hi hrange e0 he0 => ?_⟩,
    fun s chip version h => ⟨fun hchip => ⟨?_, fun hversion => ?_⟩, fun hchip => ?_⟩,
    fun s port h hpresent htrained => ⟨fun hlink => ⟨?_, _, _, rfl, rfl, ?_⟩, fun hlink => ⟨?_, ?_⟩⟩⟩
  · exact (exec_linkTrained ..).trans (h.onPower_leaves (s.work.linkTrained_down _ _ _ _ _ _ _ _ hphase hpresent hlink))
  · subst he0
    have hrange' : s.work.portRange port = (lo, hi) := hrange.symm
    have hup := s.work.linkTrained_up s.hbm port own peer peerMin peerMax swred fixedOrder hphase hpresent hlink
    rw [hrange'] at hup
    exact ⟨fun hmeet => (exec_linkTrained ..).trans (h.onPower_leaves (hup.trans (if_pos hmeet))),
      fun hapart => (exec_linkTrained ..).trans (h.onPower_leaves (hup.trans (if_neg (Nat.not_le.2 hapart))))⟩
  · exact (exec_peerVersionLearned ..).trans (h.onPower_leaves (s.work.learnVersion_other version h.1 hchip))
  · exact s.work.withPeer_endVersion hchip hversion
  · subst hchip
    exact (exec_peerVersionLearned ..).trans (h.onPower_eng (s.work.learnVersion_self version) rfl rfl)
  · exact (exec_linkStateChange ..).trans (h.onPower_eng (s.work.linkChange_same s.hbm (up := true) hlink) rfl rfl)
  · exact (exec_linkStateChange ..).trans (h.onPower_leaves (s.work.linkChange_down s.hbm h.1 hpresent htrained hlink))
  · exact (exec_linkStateChange ..).trans (h.onPower_eng (s.work.linkChange_same s.hbm (up := false) hlink) rfl rfl)
  · exact (exec_linkStateChange ..).trans (h.onPower_leaves (s.work.linkChange_up s.hbm h.1 hpresent htrained hlink))

end

section
/-! SUPPORT. The transfer table: the entry an answer names, a failed attempt, what a replay does with it, and the ends of
exclusions and of pending ACKs (R197 to R199). -/

namespace Sys2Proof.Machine

/-! ### The entry that an answer names (R197) -/

/-- The entry that an ID names stands in the table under its number. -/
theorem Eng.find_of_ttNamed {e : Eng} {chip id i : Nat} {t : TtEntry} (h : e.ttNamed chip id = some (i, t)) :
    KV.find e.tt i = some t := by
  unfold Eng.ttNamed at h
  split at h
  · next x hx =>
    split at h
    · cases h
      exact hx
    · cases h
  · cases h

theorem Eng.ackOne_none {e : Eng} {chip id : Nat} (h : e.ttNamed chip id = none) : e.ackOne chip id = e := by
  simp only [Eng.ackOne, h]

theorem Eng.ackOne_some {e : Eng} {chip id i : Nat} {t : TtEntry} (h : e.ttNamed chip id = some (i, t)) : e.ackOne chip id =
    ({ e with tt := KV.del e.tt i } : Eng).gauge gsChunkRtt (t.port.getD 16) (some t.hdr.polder) (e.time.ns - t.firstNs) := by
  simp only [Eng.ackOne, h]
  rfl

/-! ### A failed attempt (R199) -/

/-- A chunk has failed on three ports, or eight times in all. -/
def TtEntry.spent (t : TtEntry) : Prop := 3 ≤ t.fails.length ∨ 8 ≤ (t.fails.map (·.2)).sum

/-- An entry with one more attempt that failed on its port. -/
def TtEntry.failed (t : TtEntry) : TtEntry := { t with fails := KV.put t.fails (t.port.getD 16) (KV.get 0 t.fails (t.port.getD 16) + 1) }

theorem Eng.failAttempt_fst (e : Eng) (i : Nat) (t : TtEntry) : (e.failAttempt i t).1 = t.failed := by
  unfold Eng.failAttempt
  dsimp only
  split <;> rfl

theorem Eng.failAttempt_chip (e : Eng) (i : Nat) (t : TtEntry) : (e.failAttempt i t).2.chip = e.chip := by
  unfold Eng.failAttempt
  dsimp only
  split
  · rw [Eng.chip, Eng.raise_boot, Eng.chip]
  · rfl

/-- The third failure on a trained port excludes it for the destination, for 10 ms. -/
theorem Eng.failAttempt_third (e : Eng) (i : Nat) {p : Nat} {t : TtEntry} (hport : t.port = some p) (hp : p < 16)
    (hlink : (e.port p).link = 2) (hfails : KV.get 0 t.fails p = 2)
    (hexcl : e.excl.any (fun x => x.chip == t.hdr.dst && x.port == p) = false) :
    (e.failAttempt i t).2.excl = e.excl ++ [⟨t.hdr.dst, p, e.time.ns + 10000000⟩] := by
  have hlink' : (({ e with tt := KV.put e.tt i t.failed } : Eng).port p).link = 2 := hlink
  simp only [TtEntry.failed, hport, Option.getD_some, hfails] at hlink'
  simp [Eng.failAttempt, hport, hfails, hp, hlink', hexcl]
  rfl

theorem TtEntry.failed_third {p : Nat} {t : TtEntry} (hport : t.port = some p) (hfails : KV.get 0 t.fails p = 2) :
    KV.get 0 t.failed.fails p = 3 := by
  rw [TtEntry.failed, hport, Option.getD_some, hfails, KV.get_put]

/-! ### Replay, or suspicion (R199) -/

/-- The destination of a chunk that is given up is suspected, with the event. -/
def Eng.giveUp (t : TtEntry) (e : Eng) : Eng := (e.raise 0x0109 (arg1 t.port t.hdr.dst) none 0).suspectChip t.hdr.dst

section
variable {e e' : Eng} {i : Nat} {t t' : TtEntry} (m : Mem) (timeout : Bool) (hfind : KV.find e.tt i = some t)
  (hfail : (t', e') = e.failAttempt i t)
include hfind hfail

theorem Eng.replay_again (hfew : t'.fails.length < 3) (hless : (t'.fails.map (·.2)).sum < 8) :
    e.replay m i timeout = e'.resend m i t' timeout := by
  simp only [Eng.replay, hfind, ← hfail]
  exact if_neg (by simp [Nat.not_le.2 hfew, Nat.not_le.2 hless])

theorem Eng.replay_spent (hspent : t'.spent) (hfar : t'.hdr.dst ≠ e.chip) : e.replay m i timeout = e'.giveUp t' := by
  have hchip : e'.chip = e.chip := by
    rw [← e.failAttempt_chip i t, ← hfail]
  simp only [Eng.replay, hfind, ← hfail]
  exact (if_pos (by simpa [TtEntry.spent] using hspent)).trans (if_neg (hchip ▸ hfar))

end

/-! ### The end of an entry's time (R199) -/

/-- The engine at the end of an entry's time without an answer, its event raised. -/
def Eng.answerMissing (t : TtEntry) (e : Eng) : Eng :=
  (e.reach (t.sentNs + field (e.reg Reg.slcAckTo) 0 10 * 1000)).raise 0x0107 (arg1 t.port t.hdr.dst) none 0

theorem Eng.ackLate_unsent {e : Eng} {i : Nat} {t : TtEntry} (m : Mem) (hfind : KV.find e.tt i = some t) (hunsent : t.unsent = true) :
    e.ackLate m i = e := by
  simp only [Eng.ackLate, hfind, hunsent, if_true]

theorem Eng.ackLate_sent {e : Eng} {i : Nat} {t : TtEntry} (m : Mem) (hfind : KV.find e.tt i = some t) (hsent : t.unsent = false) :
    e.ackLate m i = (e.answerMissing t).replay m i true := by
  simp only [Eng.ackLate, hfind, hsent]
  rfl

theorem Eng.answerMissing_tt (e : Eng) (t : TtEntry) : (e.answerMissing t).tt = e.tt := by
  simp [Eng.answerMissing]

theorem Eng.answerMissing_chip (e : Eng) (t : TtEntry) : (e.answerMissing t).chip = e.chip := by
  simp [Eng.answerMissing, Eng.chip]

/-! ### The commands -/

section
variable {s : State} (h : s.on) {chip id : Nat}
include h

theorem exec_ack_one {e : Eng} (he : s.work.ackOne chip id = e) : exec (.ack chip [id]) s = .next (s.leaves (e.settle s.hbm)) := by
  rw [exec_ack, h.onPower, List.foldl_cons, List.foldl_nil, he]

theorem exec_nak_none (hnone : s.work.ttNamed chip id = none) : exec (.nak chip id) s = .next { s with eng := s.work } := by
  refine (exec_nak chip id s).trans (h.onPower_eng ?_ rfl rfl)
  simp only [hnone]

theorem exec_nak_some {i : Nat} {t : TtEntry} {e : Eng} (hnamed : s.work.ttNamed chip id = some (i, t))
    (he : s.work.replay s.hbm i false = e) : exec (.nak chip id) s = .next (s.leaves (e.settle s.hbm)) := by
  refine (exec_nak chip id s).trans (h.onPower_leaves ?_)
  simp only [hnamed, he]

theorem exec_ackTimeout_late {i : Nat} {e : Eng} (he : s.work.ackLate s.hbm i = e) :
    exec (.ackTimeout i) s = .next (s.leaves (e.settle s.hbm)) := by
  rw [exec_ackTimeout, h.onPower, he]

end

/-- An exclusion ends no earlier than its time, and what had no path goes (R199). -/
theorem Eng.includePath_ends {e : Eng} {chip port : Nat} {x : Exclusion} (m : Mem)
    (hx : e.excl.find? (fun x => x.chip == chip && x.port == port) = some x) : e.includePath m chip port =
      ({ e.reach x.endNs with excl := e.excl.filter (fun y => !(y.chip == chip && y.port == port)) } : Eng).resendUnsent m := by
  simp only [Eng.includePath, hx]

theorem Eng.sendAcks_pending {e : Eng} {chip : Nat} {a : PendingAcks} (ha : KV.find e.acks chip = some a) : e.sendAcks chip =
    ({ e with acks := KV.del e.acks chip } : Eng).transmit (e.towards chip) 6 64 (.ack chip a.ids) := by
  simp only [Eng.sendAcks, ha]

end Sys2Proof.Machine

open Sys2Proof Sys2Proof.Machine

/-- Settles O33: an answer acts on the entry it names; a NAK and a missing answer are one replay, which sends again or gives
up. -/
theorem transferTableFollowsAnswers : Obligations.TransferTableFollowsAnswers := by
  unfold Obligations.TransferTableFollowsAnswers
  refine ⟨fun s chip id h => ⟨fun hnone => ⟨exec_ack_one h (Eng.ackOne_none hnone), exec_nak_none h hnone⟩, fun i t hnamed =>
      ⟨exec_ack_one h (Eng.ackOne_some hnamed), fun t' e' hfail => ?_⟩⟩,
    fun s i t h hfind => ⟨fun hunsent => exec_ackTimeout_late h (Eng.ackLate_unsent s.hbm hfind hunsent), fun hsent e t' e' he hfail => ?_⟩,
    fun e i p t hport hp hlink hfails hexcl => ⟨e.failAttempt_third i hport hp hlink hfails hexcl, ?_⟩,
    fun s chip port x h hx => ?_, fun s chip a h ha => ?_⟩
  · have hfind : KV.find s.work.tt i = some t := Eng.find_of_ttNamed hnamed
    exact ⟨fun hfew hless => exec_nak_some h hnamed (Eng.replay_again s.hbm false hfind hfail hfew hless),
      fun hspent hfar => exec_nak_some h hnamed (Eng.replay_spent s.hbm false hfind hfail hspent hfar)⟩
  · obtain rfl : e = s.work.answerMissing t := he
    have hfind' : KV.find (s.work.answerMissing t).tt i = some t := (congrArg (KV.find · i) (s.work.answerMissing_tt t)).trans hfind
    have hlate := Eng.ackLate_sent (e := s.work) s.hbm hfind hsent
    refine ⟨fun hfew hless => exec_ackTimeout_late h (hlate.trans (Eng.replay_again s.hbm true hfind' hfail hfew hless)),
      fun hspent hfar => exec_ackTimeout_late h (hlate.trans (Eng.replay_spent s.hbm true hfind' hfail hspent ?_))⟩
    rw [Eng.answerMissing_chip]
    exact hfar
  · rw [Eng.failAttempt_fst]
    exact TtEntry.failed_third hport hfails
  · rw [exec_pathExclusionExpiry, h.onPower, s.work.includePath_ends s.hbm hx]
    rfl
  · refine (exec_ackCoalesceTimeout chip s).trans (h.onPower_leaves ?_)
    have ha' : KV.find s.work.acks chip = some a := ha
    simp only [ha']
    exact Eng.sendAcks_pending ha

end

section
/-! SUPPORT. The consumers of the Spool's queues: which packet is taken, what becomes of its words, its check, and the answer
(R190, R198, R236 to R239, R244 to R247). -/

namespace Sys2Proof.Machine

/-! ### Which packet is taken (R236, R238; log 19, DEDUCED) -/

theorem Eng.takeHead_sweeping (e : Eng) (m : Mem) {q : Nat} (bad : Bool) (h : (e.squeue q).sweeping = true) :
    e.takeHead m q bad = none := by
  simp [Eng.takeHead, h]

/-- The first packet that came and is still to be read is dropped, waits, is worked on, or is read as far as it has come. -/
theorem Eng.takeHead_first (e : Eng) (m : Mem) {q i vc : Nat} {p : SPkt} {x : RxPkt} (bad : Bool) (hidle : (e.squeue q).sweeping = false)
    (hfirst : (e.squeue q).pkts.findIdx? (fun p => !p.kept && !p.leaves) = some i) (hp : (e.squeue q).pkts[i]? = some p)
    (hx : p.item = .rx vc x) : e.takeHead m q bad =
      if p.aborted then some (e.consume q i)
      else if !e.pktReady x then none
      else if p.ended then some (e.takeWhole m q i p x bad)
      else if e.cutsThrough q p.written x && p.read < p.written then some ((e.landSome x p.written).readTo q i p.written)
      else none := by
  simp only [Eng.takeHead, hidle, Bool.false_eq_true, if_false, hfirst, hp, hx]

/-! ### A whole packet (R244, R246, R247) -/

/-- A packet read leaves its queue, or stays in its cells where a sum may need it again (R286). -/
def Eng.retirePkt (q i : Nat) (x : RxPkt) (e : Eng) : Eng := if e.keepsCells x then e.keepPkt q i else e.consume q i

/-- The cell that holds a word of a packet. -/
def Eng.cellOfWord (e : Eng) (q i : Nat) (p : SPkt) (w : Nat) : Nat :=
  ((e.squeue q).pktCells i).getD (w / 8 - (p.granted - p.held)) (((e.squeue q).pktCells i).headD 0)

section
variable (e : Eng) (m : Mem) {q i : Nat} {p : SPkt} {x : RxPkt} (bad : Bool)

theorem Eng.takeWhole_good (hread : e.firstBad q i p = none) (hrd : p.rd = .good) (hsound : x.sound = true) :
    e.takeWhole m q i p x bad = (e.retirePkt q i x).pktDo m x (e.cutsThrough q p.words x) bad := by
  simp only [Eng.takeWhole, hread, hrd, hsound]
  rfl

theorem Eng.takeWhole_badData {w : Nat} (hcut : e.cutsThrough q p.words x = false) (hread : e.firstBad q i p = some (w, false)) :
    e.takeWhole m q i p x bad = ((e.spoolBad (e.cellOfWord q i p w)).consume q i).nakTo x := by
  simp only [Eng.takeWhole, hread, hcut]
  rfl

theorem Eng.takeWhole_badMeta {w : Nat} (hcut : e.cutsThrough q p.words x = false) (hread : e.firstBad q i p = some (w, true)) :
    e.takeWhole m q i p x bad = (e.spoolBad (e.cellOfWord q i p w)).breakQueue q (some (e.cellOfWord q i p w)) := by
  simp only [Eng.takeWhole, hread, hcut]
  rfl

end

/-! ### Answers (R198) -/

/-- Handing a message to a port adds it to what has left. -/
theorem Eng.transmit_tx (e : Eng) (port : Option Nat) (vc bytes : Nat) (m : TxMsg) :
    (e.transmit port vc bytes m).tx = e.tx ++ [⟨port, vc, m⟩] := by
  cases port <;> rfl

theorem Eng.transmit_wlog (e : Eng) (port : Option Nat) (vc bytes : Nat) (m : TxMsg) : (e.transmit port vc bytes m).wlog = e.wlog := by
  cases port <;> rfl

theorem Eng.nakTo_tx (e : Eng) (p : RxPkt) : (e.nakTo p).tx = e.tx ++ [⟨p.port, 6, .nak p.sender.1 p.sender.2⟩] := by
  unfold Eng.nakTo
  rw [Eng.transmit_tx]
  cases p.port <;> rfl

theorem Eng.nakTo_wlog (e : Eng) (p : RxPkt) : (e.nakTo p).wlog = e.wlog := by
  unfold Eng.nakTo
  rw [Eng.transmit_wlog]
  cases p.port <;> rfl

/-- What is pending for a chip. -/
def Eng.pendingAcks (e : Eng) (chip : Nat) : PendingAcks := KV.get ⟨[], e.time.ns⟩ e.acks chip

/-- One more ID pending for a chip. -/
def Eng.withAck (chip id : Nat) (e : Eng) : Eng :=
  { e with acks := KV.put e.acks chip { e.pendingAcks chip with ids := (e.pendingAcks chip).ids ++ [id] } }

theorem Eng.ackTo_eq (e : Eng) (chip id : Nat) : e.ackTo chip id =
    if (e.pendingAcks chip).ids.length + 1 ≥ 64 then (e.withAck chip id).sendAcks chip else e.withAck chip id := rfl

/-- The 64th pending ACK takes all of them along. -/
theorem Eng.ackTo_full (e : Eng) {chip id : Nat} (h : 63 ≤ (e.pendingAcks chip).ids.length) :
    ∃ port, (e.ackTo chip id).tx = e.tx ++ [⟨port, 6, .ack chip ((e.pendingAcks chip).ids ++ [id])⟩] := by
  have hpending : KV.find (e.withAck chip id).acks chip = some { e.pendingAcks chip with ids := (e.pendingAcks chip).ids ++ [id] } := by
    rw [Eng.withAck, KV.find_put, if_pos rfl]
  rw [Eng.ackTo_eq, if_pos (by omega), Eng.sendAcks_pending hpending, Eng.transmit_tx]
  exact ⟨_, rfl⟩

theorem Eng.ackTo_few (e : Eng) {chip id : Nat} (h : (e.pendingAcks chip).ids.length < 63) : e.ackTo chip id = e.withAck chip id := by
  rw [Eng.ackTo_eq, if_neg (by omega)]

/-! ### The check of a chunk (R190, R237) -/

theorem RxPkt.sound_chunk (port : Option Nat) (h : ChunkHdr) (b : List Byte) :
    (RxPkt.chunk port h b).sound = true ↔ h.pcrc = (crc32c b).toNat ∧ h.plen = b.length := by
  simp [RxPkt.sound, pcrcOk]

/-- A chunk's failed check, counted on its port and told. -/
def Eng.crcFailed (port : Option Nat) (src : Nat) (e : Eng) : Eng :=
  (match port with
   | some q => e.bump (Reg.slcCrcFail q) 0 16 1
   | none => e).raise 0x0105 (arg1 port src) none 0

theorem Eng.crcFailed_wlog (e : Eng) (port : Option Nat) (src : Nat) : (e.crcFailed port src).wlog = e.wlog := by
  unfold Eng.crcFailed
  rw [Eng.raise_wlog]
  cases port <;> rfl

section
variable (e : Eng) (m : Mem) {port : Option Nat} {h : ChunkHdr} {b : List Byte} (cut bad : Bool)

theorem Eng.pktDo_sound (hpcrc : h.pcrc = (crc32c b).toNat) (hplen : h.plen = b.length) :
    e.pktDo m (.chunk port h b) cut bad = (e.takeChunk m port h b bad).ackTo h.src h.chunkId := by
  simp only [Eng.pktDo, (RxPkt.sound_chunk port h b).2 ⟨hpcrc, hplen⟩]
  rfl

/-- A chunk that fails its check and names no collective operation is refused. -/
theorem Eng.pktDo_unsound (hbad : h.pcrc ≠ (crc32c b).toNat ∨ h.plen ≠ b.length) (hkind : h.kind ≠ 6) :
    e.pktDo m (.chunk port h b) cut bad = (e.crcFailed port h.src).nakTo (.chunk port h b) := by
  have hunsound : (RxPkt.chunk port h b).sound = false := by
    rw [← Bool.not_eq_true, RxPkt.sound_chunk, Classical.not_and_iff_not_or_not]
    exact hbad
  simp only [Eng.pktDo, hunsound, if_neg hkind]
  rfl

end

/-! ### COPY chunks (R200; log 30, DEDUCED) -/

theorem Eng.storeFor_wlog (e : Eng) (polder a : Nat) (bs : List Byte) : (e.storeFor polder a bs).wlog = (a, bs) :: e.wlog :=
  (Eng.accHbm_sameCmds _ _ _).wlog

theorem Eng.dupChunk_wlog (e : Eng) (port : Option Nat) (chip : Nat) : (e.dupChunk port chip).wlog = e.wlog := by
  unfold Eng.dupChunk
  rw [Eng.raise_wlog]
  cases port <;> rfl

/-- A COPY chunk writes its bytes at OFFSET, whether or not it has landed before. -/
theorem Eng.landCopy_wlog (e : Eng) (port : Option Nat) (h : ChunkHdr) (b : List Byte) :
    (e.landCopy port h b).wlog = (h.offset, b) :: e.wlog := by
  unfold Eng.landCopy
  dsimp only
  rw [Eng.storeFor_wlog]
  split
  · rw [Eng.dupChunk_wlog]
  · rfl

theorem Eng.takeChunk_copy (e : Eng) (m : Mem) (port : Option Nat) {h : ChunkHdr} (b : List Byte) (bad : Bool) (hkind : h.kind = 5) :
    e.takeChunk m port h b bad = e.landCopy port h b := by
  simp only [Eng.takeChunk, hkind]

end Sys2Proof.Machine

open Sys2Proof Sys2Proof.Machine

/-- Settles O32: the head of a queue meets one case after another; then the words, the check and the answer do. -/
theorem consumersCheckThenAnswer : Obligations.ConsumersCheckThenAnswer := by
  unfold Obligations.ConsumersCheckThenAnswer
  refine ⟨fun e m q bad hsweep => e.takeHead_sweeping m bad hsweep, fun e m q i vc p x bad hidle hfirst hp hx => ?_,
    fun e m q i p x bad => ⟨e.takeWhole_good m bad, fun w cell hcut hcell => ?_⟩,
    fun e m port h b cut bad hkind => ⟨fun hbad => ?_, e.pktDo_sound m cut bad, fun hcopy => ?_⟩,
    fun e chip id => ⟨fun hfew => ?_, e.ackTo_full⟩, Eng.nakTo_tx⟩
  · rw [e.takeHead_first m bad hidle hfirst hp hx]
    refine ⟨fun haborted => if_pos haborted, fun haborted hready => ?_, fun haborted hready => ⟨fun hended => ?_, fun hended hcut hread => ?_⟩⟩
    · simp [haborted, hready]
    · simp [haborted, hready, hended]
    · simp [haborted, hready, hended, hcut, hread]
  · subst hcell
    exact ⟨e.takeWhole_badData m bad hcut, e.takeWhole_badMeta m bad hcut⟩
  · have hrefused := e.pktDo_unsound m (port := port) cut bad hbad hkind
    exact ⟨by rw [hrefused, Eng.nakTo_wlog, Eng.crcFailed_wlog], hrefused⟩
  · rw [e.takeChunk_copy m port b bad hcopy, Eng.landCopy_wlog]
  · rw [e.ackTo_few hfew]
    exact ⟨rfl, congrArg PendingAcks.ids (KV.get_put _ _ _ _)⟩

end

section
/-! SUPPORT. What leaves through the ports (R190, R193, R197, R234): it moves the transfer table, the Spool, the ports, counters
and accounts, and leaves the Shuttle's channels and the groups alone. -/

namespace Sys2Proof.Machine

/-- What counting, accounting and sending leave alone: the writes to HBM, hall time, the Shuttle's channels, the arbiter, and the
groups. -/
structure Eng.SameUnits (e e' : Eng) : Prop where
  wlog : e'.wlog = e.wlog
  time : e'.time = e.time
  chans : e'.chans = e.chans
  arbCount : e'.arbCount = e.arbCount
  arbLast : e'.arbLast = e.arbLast
  groups : e'.groups = e.groups

theorem Eng.SameUnits.refl (e : Eng) : e.SameUnits e := ⟨rfl, rfl, rfl, rfl, rfl, rfl⟩

theorem Eng.SameUnits.trans {e e' e'' : Eng} (h : e.SameUnits e') (h' : e'.SameUnits e'') : e.SameUnits e'' :=
  ⟨h'.wlog.trans h.wlog, h'.time.trans h.time, h'.chans.trans h.chans, h'.arbCount.trans h.arbCount, h'.arbLast.trans h.arbLast,
    h'.groups.trans h.groups⟩

theorem Eng.SameUnits.foldl {α : Type} {f : Eng → α → Eng} (hf : ∀ (e : Eng) x, e.SameUnits (f e x)) (l : List α) (e : Eng) :
    e.SameUnits (l.foldl f e) :=
  List.foldlRecOn l f (.refl e) (fun e' h x _ => h.trans (hf e' x))

/-! ### Counters and accounts -/

theorem Eng.raise_sameUnits (e : Eng) (code arg : Nat) (polder : Option Nat) (tag : Nat) : e.SameUnits (e.raise code arg polder tag) :=
  ⟨e.raise_wlog .., e.raise_time .., e.raise_chans .., e.raise_arbCount .., e.raise_arbLast .., e.raise_groups ..⟩

theorem Eng.account_sameUnits (e : Eng) (polder : Nat) (f : Acc → Acc) : e.SameUnits (e.account polder f) := by
  unfold Eng.account
  split <;> exact ⟨rfl, rfl, rfl, rfl, rfl, rfl⟩

theorem Eng.accLink_sameUnits (e : Eng) (polder chip n : Nat) : e.SameUnits (e.accLink polder chip n) := by
  unfold Eng.accLink
  split <;> exact e.account_sameUnits _ _

/-! ### Packets that leave (R190, R234) -/

theorem Eng.setQueue_sameUnits (e : Eng) (q : Nat) (f : SQueue → SQueue) : e.SameUnits (e.setQueue q f) := ⟨rfl, rfl, rfl, rfl, rfl, rfl⟩

theorem Eng.setPkt_sameUnits (e : Eng) (q i : Nat) (f : SPkt → SPkt) : e.SameUnits (e.setPkt q i f) := e.setQueue_sameUnits q _

theorem Eng.takeCell_sameUnits {e e' : Eng} {q : Nat} {c : QueueCfg} (h : e.takeCell q c = some e') : e.SameUnits e' := by
  unfold Eng.takeCell at h
  repeat' split at h
  all_goals cases h
  exact ⟨rfl, rfl, rfl, rfl, rfl, rfl⟩

theorem Eng.writeOn_sameUnits (q : Nat) (c : QueueCfg) (n : Nat) (e : Eng) : e.SameUnits (e.writeOn q c n) := by
  induction n generalizing e with
  | zero => exact .refl e
  | succ n ih =>
    unfold Eng.writeOn
    split
    · next e' h =>
      exact ((Eng.takeCell_sameUnits h).trans (Eng.setQueue_sameUnits _ _ _)).trans (ih _)
    · exact .refl e

theorem Eng.askOver_sameUnits (e : Eng) (q : Nat) : e.SameUnits (e.askOver q) := by
  unfold Eng.askOver
  split <;> exact ⟨rfl, rfl, rfl, rfl, rfl, rfl⟩

theorem Eng.handOver_sameUnits (e : Eng) (q id : Nat) (item : SItem) : e.SameUnits (e.handOver q id item) := by
  unfold Eng.handOver
  repeat' split
  all_goals exact ⟨rfl, rfl, rfl, rfl, rfl, rfl⟩

theorem Eng.fillOut_sameUnits (e : Eng) (q : Nat) : e.SameUnits (e.fillOut q) := by
  unfold Eng.fillOut
  split
  · next p c _ _ =>
    split
    · exact .refl e
    · have hwritten := Eng.writeOn_sameUnits q c (ceilDiv (p.words - p.written) 8) e
      dsimp only
      split
      · split
        · refine Eng.SameUnits.trans ?_ (Eng.handOver_sameUnits _ _ _ _)
          refine Eng.SameUnits.trans ?_ (Eng.setPkt_sameUnits _ _ _ _)
          exact (hwritten.trans (Eng.askOver_sameUnits _ q)).trans (Eng.setQueue_sameUnits _ _ _)
        · exact hwritten.trans (Eng.setQueue_sameUnits _ _ _)
      · exact hwritten
  · exact .refl e

theorem Eng.pushOut_sameUnits (e : Eng) (q words : Nat) (item : SItem) : e.SameUnits (e.pushOut q words item) := by
  have hput : e.SameUnits (e.putPkt q words 0 item .good) := ⟨rfl, rfl, rfl, rfl, rfl, rfl⟩
  exact hput.trans (Eng.fillOut_sameUnits _ q)

/-! ### Messages (R197) -/

theorem Eng.assemble_sameUnits (e : Eng) (polder : Nat) (h : ChunkHdr) (port : Option Nat) (vc bytes : Nat) (m : TxMsg) :
    e.SameUnits (e.assemble polder h port vc bytes m) := by
  unfold Eng.assemble
  split
  · exact e.pushOut_sameUnits _ _ _
  · exact ⟨rfl, rfl, rfl, rfl, rfl, rfl⟩

theorem Eng.emit_sameUnits (e : Eng) (o : OutMsg) (id : Nat) (payload : List Byte) (kept : Option Nat) :
    e.SameUnits (e.emit o id payload kept).1 := by
  unfold Eng.emit
  extract_lets h port pinned polder counted vc
  clear_value port
  have hpinned : e.SameUnits pinned := by
    dsimp only [pinned]
    repeat' split
    all_goals exact ⟨rfl, rfl, rfl, rfl, rfl, rfl⟩
  have hcounted : pinned.SameUnits counted := by
    dsimp only [counted]
    split
    · exact .refl pinned
    · exact pinned.accLink_sameUnits _ _ _
  clear_value counted
  have htold : counted.SameUnits (match port with
      | some p => counted.bump64 (Reg.slcTxChunks p) 1
      | none => counted) := by
    split <;> exact ⟨rfl, rfl, rfl, rfl, rfl, rfl⟩
  refine (hpinned.trans hcounted).trans ?_
  split
  · exact counted.assemble_sameUnits _ _ _ _ _ _
  · exact htold.trans (Eng.assemble_sameUnits _ _ _ _ _ _ _)

theorem Eng.ttMark_sameUnits (e : Eng) : e.SameUnits e.ttMark := by
  unfold Eng.ttMark
  dsimp only
  split <;> exact ⟨rfl, rfl, rfl, rfl, rfl, rfl⟩

theorem Eng.sendAs_sameUnits (e : Eng) (o : OutMsg) (payload : List Byte) (kept : Option Nat) : e.SameUnits (e.sendAs o payload kept) := by
  unfold Eng.sendAs
  extract_lets i named id
  have hnamed : e.SameUnits named := ⟨rfl, rfl, rfl, rfl, rfl, rfl⟩
  refine (hnamed.trans (named.emit_sameUnits o id payload kept)).trans (Eng.SameUnits.trans ?_ (Eng.ttMark_sameUnits _))
  exact ⟨rfl, rfl, rfl, rfl, rfl, rfl⟩

theorem Eng.sendOn_sameUnits (e : Eng) (o : OutMsg) (payload : List Byte) : e.SameUnits (e.sendOn o payload) := by
  unfold Eng.sendOn
  split
  · exact ⟨rfl, rfl, rfl, rfl, rfl, rfl⟩
  · split
    · exact ⟨rfl, rfl, rfl, rfl, rfl, rfl⟩
    · exact e.sendAs_sameUnits o payload none

theorem Eng.sendNew_sameUnits (e : Eng) (o : OutMsg) (payload : List Byte) : e.SameUnits (e.sendNew o payload) := by
  unfold Eng.sendNew
  dsimp only
  split
  · exact e.sendOn_sameUnits o payload
  · exact (e.raise_sameUnits _ _ _ _).trans (Eng.sendOn_sameUnits _ o payload)

end Sys2Proof.Machine
end

section
/-! SUPPORT. The burst arbiter: which channel it grants, how far a burst goes, and what a grant leaves (R177, R178, R197). -/

namespace Sys2Proof.Machine

/-! ### The channel granted (R178; log 63, DESIGN CHOICE) -/

/-- The channels with a burst ready. -/
def Eng.readyChans (e : Eng) : KV Channel := e.chans.filter (fun kc => e.channelReady kc.2)

theorem Eng.mem_readyChans {e : Eng} {kc : Nat × Channel} : kc ∈ e.readyChans ↔ kc ∈ e.chans ∧ e.channelReady kc.2 = true := List.mem_filter

/-- One step of the search for the channel that has waited longest. -/
def waitsLonger (a : Option (Nat × Nat)) (kc : Nat × Channel) : Option (Nat × Nat) := match a with
  | none => some (kc.1, kc.2.since)
  | some b => if kc.2.since < b.2 then some (kc.1, kc.2.since) else some b

theorem waitsLonger_none (kc : Nat × Channel) : waitsLonger none kc = some (kc.1, kc.2.since) := rfl

theorem waitsLonger_some (b : Nat × Nat) (kc : Nat × Channel) :
    waitsLonger (some b) kc = if kc.2.since < b.2 then some (kc.1, kc.2.since) else some b := rfl

/-- The search from a channel on ends with one that has waited as long as each that it met. -/
theorem foldl_waitsLonger_some (l : KV Channel) (b : Nat × Nat) : ∃ x, l.foldl waitsLonger (some b) = some x ∧
    (x = b ∨ ∃ c, (x.1, c) ∈ l ∧ c.since = x.2) ∧ x.2 ≤ b.2 ∧ ∀ kd ∈ l, x.2 ≤ kd.2.since := by
  induction l generalizing b with
  | nil => exact ⟨b, rfl, .inl rfl, Nat.le_refl _, by simp⟩
  | cons kc l ih =>
    by_cases hlt : kc.2.since < b.2
    · obtain ⟨x, hx, hfrom, hle, hall⟩ := ih (kc.1, kc.2.since)
      refine ⟨x, by rw [List.foldl_cons, waitsLonger_some, if_pos hlt, hx], .inr ?_, Nat.le_trans hle (Nat.le_of_lt hlt),
        List.forall_mem_cons.2 ⟨hle, hall⟩⟩
      rcases hfrom with rfl | ⟨c, hc, hsince⟩
      · exact ⟨kc.2, List.mem_cons_self, rfl⟩
      · exact ⟨c, List.mem_cons_of_mem _ hc, hsince⟩
    · obtain ⟨x, hx, hfrom, hle, hall⟩ := ih b
      refine ⟨x, by rw [List.foldl_cons, waitsLonger_some, if_neg hlt, hx],
        hfrom.imp_right (fun ⟨c, hc, hsince⟩ => ⟨c, List.mem_cons_of_mem _ hc, hsince⟩), hle,
        List.forall_mem_cons.2 ⟨Nat.le_trans hle (Nat.not_lt.1 hlt), hall⟩⟩

/-- The search finds a channel of the list that has waited as long as any. -/
theorem longestWaiter_spec {l : KV Channel} {ch : Nat} (h : (l.foldl waitsLonger none).map (·.1) = some ch) :
    ∃ c, (ch, c) ∈ l ∧ ∀ kd ∈ l, c.since ≤ kd.2.since := by
  cases l with
  | nil => cases h
  | cons kc l =>
    obtain ⟨x, hx, hfrom, hle, hall⟩ := foldl_waitsLonger_some l (kc.1, kc.2.since)
    rw [List.foldl_cons, waitsLonger_none, hx, Option.map_some, Option.some_inj] at h
    subst h
    rcases hfrom with rfl | ⟨c, hc, hsince⟩
    · exact ⟨kc.2, List.mem_cons_self, List.forall_mem_cons.2 ⟨Nat.le_refl _, hall⟩⟩
    · exact ⟨c, List.mem_cons_of_mem _ hc, List.forall_mem_cons.2 (hsince ▸ ⟨hle, hall⟩)⟩

/-- The highest priority of a list of channels. -/
def topPrio (l : KV Channel) : Nat := l.foldl (fun a kc => max a kc.2.prio) 0

theorem le_foldl_prio (l : KV Channel) (n : Nat) : n ≤ l.foldl (fun a kc => max a kc.2.prio) n ∧
    ∀ kd ∈ l, kd.2.prio ≤ l.foldl (fun a kc => max a kc.2.prio) n := by
  induction l generalizing n with
  | nil => simp
  | cons kc l ih =>
    obtain ⟨hstart, hall⟩ := ih (max n kc.2.prio)
    exact ⟨Nat.le_trans (Nat.le_max_left _ _) hstart, List.forall_mem_cons.2 ⟨Nat.le_trans (Nat.le_max_right _ _) hstart, hall⟩⟩

theorem le_topPrio {l : KV Channel} {kd : Nat × Channel} (h : kd ∈ l) : kd.2.prio ≤ topPrio l := (le_foldl_prio l 0).2 kd h

theorem Eng.arbitrate_sixteenth {e : Eng} (h : e.arbCount % 16 = 15) :
    e.arbitrate = (e.readyChans.foldl waitsLonger none).map (·.1) := if_pos h

theorem Eng.arbitrate_other {e : Eng} (h : e.arbCount % 16 ≠ 15) : e.arbitrate =
    ((((e.readyChans.filter (fun kc => kc.2.prio == topPrio e.readyChans)).map (·.1)).find? (fun i => e.arbLast < i)).or
      ((e.readyChans.filter (fun kc => kc.2.prio == topPrio e.readyChans)).map (·.1)).head?) := if_neg h

/-- The channel of a round-robin grant is ready, and none that is ready has a higher priority. -/
theorem Eng.arbitrate_top {e : Eng} {ch : Nat} (h : e.arbCount % 16 ≠ 15) (hch : e.arbitrate = some ch) :
    ∃ c, (ch, c) ∈ e.readyChans ∧ ∀ kd ∈ e.readyChans, kd.2.prio ≤ c.prio := by
  rw [Eng.arbitrate_other h] at hch
  have hmem : ch ∈ (e.readyChans.filter (fun kc => kc.2.prio == topPrio e.readyChans)).map (·.1) := by
    rcases Option.or_eq_some_iff.1 hch with hnext | ⟨-, hfirst⟩
    · exact List.mem_of_find?_eq_some hnext
    · exact List.mem_of_head? hfirst
  obtain ⟨⟨k, c⟩, hc, rfl⟩ := List.mem_map.1 hmem
  obtain ⟨hready, hprio⟩ := List.mem_filter.1 hc
  exact ⟨c, hready, fun kd hkd => Nat.le_trans (le_topPrio hkd) (Nat.le_of_eq (beq_iff_eq.1 hprio).symm)⟩

/-- The arbiter grants a channel that is ready: every sixteenth time one that has waited longest, else one of the highest
priority. -/
theorem Eng.arbitrate_spec {e : Eng} {ch : Nat} (h : e.arbitrate = some ch) : ∃ c, (ch, c) ∈ e.readyChans ∧
    (e.arbCount % 16 = 15 → ∀ kd ∈ e.readyChans, c.since ≤ kd.2.since) ∧
    (e.arbCount % 16 ≠ 15 → ∀ kd ∈ e.readyChans, kd.2.prio ≤ c.prio) := by
  by_cases hcount : e.arbCount % 16 = 15
  · obtain ⟨c, hc, hall⟩ := longestWaiter_spec ((Eng.arbitrate_sixteenth hcount).symm.trans h)
    exact ⟨c, hc, fun _ => hall, fun hne => absurd hcount hne⟩
  · obtain ⟨c, hc, hall⟩ := Eng.arbitrate_top hcount h
    exact ⟨c, hc, fun heq => absurd heq hcount, fun _ => hall⟩

/-! ### How far a burst goes (R178; log 41, DEDUCED) -/

theorem Eng.burstLen_formed {e : Eng} {h : ChunkHdr} {x : ChunkSrc} (left : Nat) (hread : e.readFrom h x (h.offset + (h.plen - left)) = none) :
    e.burstLen (.chunk h x left) = min left (4096 - (h.offset + (h.plen - left)) % 4096) := by
  simp only [Eng.burstLen, hread]

theorem Eng.burstLen_read {e : Eng} {h : ChunkHdr} {x : ChunkSrc} {left a rest wire hbm : Nat}
    (hread : e.readFrom h x (h.offset + (h.plen - left)) = some (a, rest, wire, hbm)) :
    e.burstLen (.chunk h x left) = min left (max 1 (min rest ((4096 - a % 4096) * wire / max 1 hbm))) := by
  simp only [Eng.burstLen, hread]

/-! ### A grant (R178) -/

/-- The counters of a grant: the channels that had to wait, and the bytes moved. -/
def Eng.countGrant (ch n : Nat) (e : Eng) : Eng :=
  (((e.chans.filter (fun kc => kc.1 != ch && e.channelReady kc.2)).map (·.1)).foldl (fun (e : Eng) k => e.bump32 (Reg.shuChWait k) 1) e).bump64
    (Reg.shuChBytes ch) n

theorem Eng.countGrant_sameUnits (e : Eng) (ch n : Nat) : e.SameUnits (e.countGrant ch n) := by
  have hwaits := Eng.SameUnits.foldl (f := fun (e : Eng) k => e.bump32 (Reg.shuChWait k) 1) (fun _ _ => ⟨rfl, rfl, rfl, rfl, rfl, rfl⟩)
    ((e.chans.filter (fun kc => kc.1 != ch && e.channelReady kc.2)).map (·.1)) e
  exact hwaits.trans ⟨rfl, rfl, rfl, rfl, rfl, rfl⟩

/-- A channel granted goes on with the jobs that are left to it. -/
def Eng.granted (ch : Nat) (c : Channel) (jobs : List Job) (e : Eng) : Eng :=
  { e with chans := KV.put e.chans ch { c with jobs := jobs, since := e.now }, arbCount := (e.arbCount + 1) % 16, arbLast := ch }

/-- What is left to a channel of its first job and the others. -/
def jobsAfter (n left : Nat) (job : Job) (rest : List Job) : List Job := if left ≤ n then rest else job :: rest

/-- One burst of a COPY on this chip: its bytes are written and accounted. -/
def Eng.copyBurst (m : Mem) (polder src dst n : Nat) (e : Eng) : Eng := (e.store dst (e.rd m src n)).accHbm polder (2 * n)

/-- A chunk whose last burst is done leaves. -/
def Eng.chunkLeaves (m : Mem) (o : OutMsg) (e : Eng) : Eng := e.sendNew o (e.payload m o)

section
variable {e : Eng} (m : Mem) {ch : Nat} {c : Channel} {rest : List Job} (hch : e.arbitrate = some ch) (hc : KV.find e.chans ch = some c)

theorem Eng.burst_idle (h : e.arbitrate = none) : e.burst m = e := by
  simp only [Eng.burst, h]

include hch hc

theorem Eng.burst_copy {src dst left n : Nat} (hjobs : c.jobs = .copy src dst left :: rest) (hn : n = e.burstLen (.copy src dst left)) :
    e.burst m = ((e.countGrant ch n).copyBurst m c.polder src dst n).granted ch c (jobsAfter n left (.copy (src + n) (dst + n) (left - n)) rest) := by
  subst hn
  simp only [Eng.burst, hch, hc, hjobs]
  rfl

theorem Eng.burst_chunk {h : ChunkHdr} {x : ChunkSrc} {left n : Nat} (hjobs : c.jobs = .chunk h x left :: rest)
    (hn : n = e.burstLen (.chunk h x left)) : e.burst m =
      if left ≤ n then (((e.countGrant ch n).accHbm c.polder n).granted ch c rest).chunkLeaves m ⟨c.cmd, h, x⟩
      else ((e.countGrant ch n).accHbm c.polder n).granted ch c (.chunk h x (left - n) :: rest) := by
  subst hn
  simp only [Eng.burst, hch, hc, hjobs]
  rfl

end

/-- The state of the arbiter and the channel after a grant, and what the burst wrote. -/
structure Eng.Granted (e e' : Eng) (ch : Nat) (c : Channel) (jobs : List Job) (writes : List (Nat × List Byte)) : Prop where
  wlog : e'.wlog = writes
  last : e'.arbLast = ch
  count : e'.arbCount = (e.arbCount + 1) % 16
  chan : KV.find e'.chans ch = some { c with since := e.time.ns, jobs := jobs }

theorem Eng.SameUnits.granted {e e' : Eng} (h : e.SameUnits e') (ch : Nat) (c : Channel) (jobs : List Job) :
    e.Granted (e'.granted ch c jobs) ch c jobs e.wlog := by
  refine ⟨h.wlog, rfl, congrArg (fun n => (n + 1) % 16) h.arbCount, ?_⟩
  rw [Eng.granted, KV.find_put, if_pos rfl, Eng.now, h.time]

theorem Eng.Granted.sameUnits {e e' e'' : Eng} {ch : Nat} {c : Channel} {jobs : List Job} {writes : List (Nat × List Byte)}
    (h : e.Granted e' ch c jobs writes) (h' : e'.SameUnits e'') : e.Granted e'' ch c jobs writes :=
  ⟨h'.wlog.trans h.wlog, h'.arbLast.trans h.last, h'.arbCount.trans h.count, (congrArg (KV.find · ch) h'.chans).trans h.chan⟩

/-- A burst of a COPY writes what HBM held at its source. -/
theorem Eng.copyBurst_granted {e e' : Eng} (h : e.SameUnits e') (m : Mem) (hw : e.wlog = []) (src dst n ch : Nat) (c : Channel) (jobs : List Job) :
    e.Granted ((e'.copyBurst m c.polder src dst n).granted ch c jobs) ch c jobs [(dst, Mem.read m src n)] := by
  have hw' : e'.wlog = [] := h.wlog.trans hw
  have hstored := (e'.store dst (e'.rd m src n)).account_sameUnits c.polder (fun a => { a with hbm := (a.hbm + 2 * n) % 2 ^ 64 })
  obtain ⟨hwlog, hlast, hcount, hchan⟩ := hstored.granted ch c jobs
  refine ⟨hwlog.trans ?_, hlast, hcount.trans ?_, hchan.trans ?_⟩
  · rw [Eng.store, Eng.rd, e'.view_of_wlog_nil m hw', hw']
  · rw [Eng.store_arbCount, h.arbCount]
  · rw [Eng.store_time, h.time]

theorem Eng.chunkLeaves_sameUnits (e : Eng) (m : Mem) (o : OutMsg) : e.SameUnits (e.chunkLeaves m o) := e.sendNew_sameUnits o _

/-- BURST_GRANT carries out one burst, and whatever can go on then does. -/
theorem State.on.exec_burstGrant {s : State} (h : s.on) : exec .burstGrant s = .next (s.leaves ((s.work.burst s.hbm).settle s.hbm)) :=
  (Machine.exec_burstGrant s).trans (h.onPower _)

end Sys2Proof.Machine

open Sys2Proof Sys2Proof.Machine

/-- Settles O34: a grant is one burst of the first job of a channel that the arbiter finds ready. -/
theorem burstsMoveOnePagePart : Obligations.BurstsMoveOnePagePart := by
  unfold Obligations.BurstsMoveOnePagePart
  refine ⟨fun e ch hch => ?_, fun e h x left p hp => ?_, fun s h => ⟨fun hidle => ?_, fun ch c hch hc =>
    ⟨fun src dst left rest n hjobs hn => ?_, fun hdr x left rest n hjobs hn => ?_⟩⟩⟩
  · obtain ⟨c, hc, hlongest, htop⟩ := Eng.arbitrate_spec hch
    obtain ⟨hmem, hready⟩ := Eng.mem_readyChans.1 hc
    exact ⟨c, hmem, hready, fun hcount kd hkd hkready => hlongest hcount kd (Eng.mem_readyChans.2 ⟨hkd, hkready⟩),
      fun hcount kd hkd hkready => htop hcount kd (Eng.mem_readyChans.2 ⟨hkd, hkready⟩)⟩
  · subst hp
    refine ⟨fun hread => Eng.burstLen_formed left hread, fun a rest wire hbm hread => ?_⟩
    rw [Eng.burstLen_read hread]
    refine ⟨Nat.min_le_left _ _, Nat.le_trans (Nat.min_le_right _ _) ?_, Nat.le_trans (Nat.min_le_right _ _) ?_⟩
    · exact Nat.max_le.2 ⟨Nat.le_max_left _ _, Nat.le_trans (Nat.min_le_left _ _) (Nat.le_max_right _ _)⟩
    · exact Nat.max_le.2 ⟨Nat.le_max_left _ _, Nat.le_trans (Nat.min_le_right _ _) (Nat.le_max_right _ _)⟩
  · rw [h.exec_burstGrant, Eng.burst_idle s.hbm hidle]
  · obtain ⟨hwlog, hlast, hcount, hchan⟩ := Eng.copyBurst_granted (s.work.countGrant_sameUnits ch n) s.hbm rfl src dst n ch c
      (jobsAfter n left (.copy (src + n) (dst + n) (left - n)) rest)
    exact ⟨_, by rw [h.exec_burstGrant, Eng.burst_copy s.hbm hch hc hjobs hn], hwlog, hlast, hcount, hchan⟩
  · have hmoved := (s.work.countGrant_sameUnits ch n).trans (Eng.account_sameUnits _ c.polder (fun a => { a with hbm := (a.hbm + n) % 2 ^ 64 }))
    have hburst := Eng.burst_chunk s.hbm hch hc hjobs hn
    by_cases hdone : left ≤ n
    · obtain ⟨hwlog, hlast, hcount, hchan⟩ := (hmoved.granted ch c rest).sameUnits (Eng.chunkLeaves_sameUnits _ s.hbm ⟨c.cmd, hdr, x⟩)
      refine ⟨_, by rw [h.exec_burstGrant, hburst, if_pos hdone]; rfl, hwlog, hlast, hcount, ?_⟩
      rw [if_pos hdone]
      exact hchan
    · obtain ⟨hwlog, hlast, hcount, hchan⟩ := hmoved.granted ch c (.chunk hdr x (left - n) :: rest)
      refine ⟨_, by rw [h.exec_burstGrant, hburst, if_neg hdone]; rfl, hwlog, hlast, hcount, ?_⟩
      rw [if_neg hdone]
      exact hchan

end

section
/-! SUPPORT. Messages of the control island: their check, and what FORM_UP, COUNT_UP and ABORT make of a group (R276, R283, R293). -/

namespace Sys2Proof.Machine

/-! ### Work that leaves the groups alone -/

/-- What the end of a command, and sending, leave alone: the groups. -/
structure Eng.SameGroups (e e' : Eng) : Prop where
  groups : e'.groups = e.groups

theorem Eng.SameGroups.refl (e : Eng) : e.SameGroups e := ⟨rfl⟩

theorem Eng.SameGroups.trans {e e' e'' : Eng} (h : e.SameGroups e') (h' : e'.SameGroups e'') : e.SameGroups e'' :=
  ⟨h'.groups.trans h.groups⟩

theorem Eng.SameGroups.group {e e' : Eng} (h : e.SameGroups e') (g : Nat) : e'.group g = e.group g := by
  rw [Eng.group, h.groups, Eng.group]

theorem Eng.SameGroups.foldl {α : Type} {f : Eng → α → Eng} (hf : ∀ (e : Eng) x, e.SameGroups (f e x)) (l : List α) (e : Eng) :
    e.SameGroups (l.foldl f e) :=
  List.foldlRecOn l f (.refl e) (fun e' h x _ => h.trans (hf e' x))

theorem Eng.SameUnits.sameGroups {e e' : Eng} (h : e.SameUnits e') : e.SameGroups e' := ⟨h.groups⟩

theorem Eng.setGroup_group_same (e : Eng) (g : Nat) (f : Group → Group) : (e.setGroup g f).group g = f (e.group g) :=
  KV.get_put _ _ _ _

theorem Eng.setGroup_congr (e : Eng) {g : Nat} {f f' : Group → Group} (h : f (e.group g) = f' (e.group g)) :
    e.setGroup g f = e.setGroup g f' :=
  congrArg (fun x => ({ e with groups := KV.put e.groups g x } : Eng)) h

/-! ### The end of a command (R66, R83, R87) -/

theorem Eng.setEntry_sameGroups (e : Eng) (n : Nat) (f : BEntry → BEntry) : e.SameGroups (e.setEntry n f) := ⟨rfl⟩

theorem Eng.toTail_sameGroups (e : Eng) (p n : Nat) : e.SameGroups (e.toTail p n) := by
  unfold Eng.toTail
  dsimp only
  split <;> exact ⟨rfl⟩

theorem Eng.freeBuf_sameGroups (e : Eng) (n : Nat) : e.SameGroups (e.freeBuf n) := by
  unfold Eng.freeBuf
  dsimp only
  split
  · exact e.setEntry_sameGroups _ _
  · exact (e.setEntry_sameGroups _ _).trans (Eng.toTail_sameGroups _ _ _)

theorem Eng.engDec_sameGroups (e : Eng) (b : Buf) : e.SameGroups (e.engDec b) := by
  unfold Eng.engDec
  dsimp only
  split
  · exact ⟨rfl⟩
  · split
    · exact .refl e
    · split
      · exact (e.setEntry_sameGroups _ _).trans (Eng.freeBuf_sameGroups _ _)
      · exact e.setEntry_sameGroups _ _

theorem Eng.engDecAll_sameGroups (e : Eng) (l : List Buf) : e.SameGroups (e.engDecAll l) := .foldl Eng.engDec_sameGroups l e

theorem Eng.setWork_sameGroups (e : Eng) (cmd : Nat) (f : RouteWork → RouteWork) : e.SameGroups (e.setWork cmd f) := ⟨rfl⟩

theorem Eng.releaseArea_sameGroups (e : Eng) (cmd : Nat) (bwd : Bool) : e.SameGroups (e.releaseArea cmd bwd) := by
  unfold Eng.releaseArea
  split
  · exact .refl e
  · exact (e.engDecAll_sameGroups _).trans (Eng.setWork_sameGroups _ _ _)

theorem Eng.releaseSaved_sameGroups (e : Eng) (cmd : Nat) : e.SameGroups (e.releaseSaved cmd) := by
  unfold Eng.releaseSaved
  split
  · exact .refl e
  · exact (e.engDecAll_sameGroups _).trans (Eng.setWork_sameGroups _ _ _)

theorem Eng.combineEnds_sameGroups (e : Eng) (c : Cmd) : e.SameGroups (e.combineEnds c) := by
  unfold Eng.combineEnds
  split
  · exact .refl e
  · split
    · split
      · exact .refl e
      · refine Eng.SameGroups.trans ?_ (Eng.setWork_sameGroups _ _ _)
        split
        · exact .refl e
        · exact e.releaseArea_sameGroups _ _
    · split
      · exact .refl e
      · exact ((e.releaseArea_sameGroups _ _).trans (Eng.releaseSaved_sameGroups _ _)).trans (Eng.setWork_sameGroups _ _ _)

theorem Eng.accTime_sameGroups (e : Eng) (polder : Nat) : e.SameGroups (e.accTime polder) :=
  ⟨(e.free.2.free.2.account_sameUnits polder (fun a => { a with time := (a.time + e.free.1.toNat) % 2 ^ 64 })).groups⟩

theorem Eng.closeAccounts_sameGroups (e : Eng) (c : Cmd) : e.SameGroups (e.closeAccounts c) := by
  unfold Eng.closeAccounts
  extract_lets freed booked
  have hfreed : e.SameGroups freed := by
    dsimp only [freed]
    split <;> exact ⟨rfl⟩
  have hbooked : freed.SameGroups booked := by
    dsimp only [booked]
    split
    · exact (freed.account_sameUnits _ _).sameGroups
    · exact .refl freed
  split
  · exact (hfreed.trans hbooked).trans (booked.accTime_sameGroups _)
  · exact hfreed.trans hbooked

theorem Eng.pushRecord_sameGroups (e : Eng) (id : Nat) : e.SameGroups (e.pushRecord id) := by
  unfold Eng.pushRecord
  split <;> exact ⟨rfl⟩

theorem Eng.serveSlots_sameGroups (e : Eng) (r : Nat) : e.SameGroups (e.serveSlots r) := by
  refine Eng.SameGroups.foldl (fun e c => ?_) _ e
  split
  · exact e.pushRecord_sameGroups c.id
  · exact .refl e

theorem Eng.markStall_sameGroups (e : Eng) (r : Nat) : e.SameGroups (e.markStall r) := by
  unfold Eng.markStall
  extract_lets g waits t
  split <;> exact ⟨rfl⟩

/-- What ends with a command before its record is queued: its accounts, and what a combine releases. -/
def Eng.bookEnd (id status : Nat) (c : Cmd) (e : Eng) : Eng :=
  let e' := (e.setCmd id (Cmd.ended status e.now)).closeAccounts c
  if c.d.opcode = opCombine ∨ c.d.opcode = opCombineBwd then e'.combineEnds c else e'

theorem Eng.completeOne_books (e : Eng) {id : Nat} {c : Cmd} (status : Nat) (hc : e.cmd? id = some c) (hopen : c.done = false) :
    e.completeOne id status =
      (if c.slotHeld then (e.bookEnd id status c).pushRecord id else (e.bookEnd id status c).serveSlots c.ring).markStall c.ring := by
  simp only [Eng.completeOne, hc, hopen, Bool.false_eq_true, if_false]
  rfl

theorem Eng.bookEnd_sameGroups (e : Eng) (id status : Nat) (c : Cmd) : e.SameGroups (e.bookEnd id status c) := by
  have hended : e.SameGroups (e.setCmd id (Cmd.ended status e.now)) := ⟨rfl⟩
  have hclosed := hended.trans (Eng.closeAccounts_sameGroups _ c)
  unfold Eng.bookEnd
  dsimp only
  split
  · exact hclosed.trans (Eng.combineEnds_sameGroups _ c)
  · exact hclosed

theorem Eng.completeOne_sameGroups (e : Eng) (id status : Nat) : e.SameGroups (e.completeOne id status) := by
  cases hc : e.cmd? id with
  | none =>
    simp only [Eng.completeOne, hc]
    exact .refl e
  | some c =>
    cases hdone : c.done with
    | true =>
      rw [e.completeOne_of_done status hc hdone]
      exact .refl e
    | false =>
      rw [e.completeOne_books status hc hdone]
      refine (e.bookEnd_sameGroups id status c).trans (Eng.SameGroups.trans ?_ (Eng.markStall_sameGroups _ _))
      split
      · exact Eng.pushRecord_sameGroups _ _
      · exact Eng.serveSlots_sameGroups _ _

theorem Eng.settleFences_sameGroups (e : Eng) : e.SameGroups e.settleFences := by
  refine Eng.SameGroups.foldl (fun e id => ?_) _ e
  split
  · split
    · exact e.completeOne_sameGroups _ _
    · exact .refl e
  · exact .refl e

theorem Eng.complete_sameGroups (e : Eng) (id status : Nat) : e.SameGroups (e.complete id status) := by
  have hmark : ∀ e : Eng, e.SameGroups e.markBlocked := fun _ => ⟨rfl⟩
  exact ((e.completeOne_sameGroups id status).trans (Eng.settleFences_sameGroups _)).trans (hmark _)

/-! ### A group breaks (R293) -/

theorem Eng.spoil_sameGroups (e : Eng) (o : CollOp) : e.SameGroups (e.spoil o) :=
  Eng.SameGroups.foldl (f := fun (e : Eng) (w : Nat × Nat) => e.scribble w.1 w.2) (fun _ _ => ⟨rfl⟩) o.written e

theorem Eng.dropChunks_sameGroups (e : Eng) (cmd : Nat) : e.SameGroups (e.dropChunks cmd) := ⟨rfl⟩

/-- Every operation in flight of a group ends, and nothing kept for it stays. -/
theorem Eng.endOps_group (e : Eng) (g st : Nat) : (e.endOps g st).group g = { e.group g with ops := [], early := [] } := by
  have hends : ∀ (e : Eng) (o : CollOp), e.SameGroups (((e.dropChunks o.cmd).spoil o).complete o.cmd st) := fun e o =>
    ((e.dropChunks_sameGroups o.cmd).trans (Eng.spoil_sameGroups _ o)).trans (Eng.complete_sameGroups _ _ _)
  unfold Eng.endOps
  dsimp only
  rw [Eng.setGroup_group_same, (Eng.SameGroups.foldl hends _ e).group]

/-- Every open barrier of a group ends. -/
theorem Eng.cancelBarriers_group (e : Eng) (g : Nat) : (e.cancelBarriers g).group g = { e.group g with barriers := [] } := by
  have hcancels : ∀ (e' : Eng) (b : Barrier), e'.SameGroups
      ((e'.raise 0x0A0C (argA g (e.group g).epoch b.bseq) (some (e.group g).owner) 0).complete b.cmd stCancelled) := fun e' b =>
    (e'.raise_sameUnits _ _ _ _).sameGroups.trans (Eng.complete_sameGroups _ _ _)
  unfold Eng.cancelBarriers
  dsimp only
  rw [Eng.setGroup_group_same, (Eng.SameGroups.foldl hcancels _ e).group]

theorem Eng.sendAborts_sameGroups (e : Eng) (g except : Nat) : e.SameGroups (e.sendAborts g except) := by
  unfold Eng.sendAborts
  refine Eng.SameGroups.foldl (fun e b => Eng.SameGroups.foldl (fun e k => ?_) _ e) _ e
  exact (e.sendNew_sameUnits _ _).sameGroups

/-- A group that holds no work: no operation in flight, no barrier. -/
def Group.idle (x : Group) : Prop := x.ops = [] ∧ x.barriers = []

/-- A group that breaks is BROKEN, with no operation in flight and no barrier. -/
theorem Eng.breakGroup_group (e : Eng) (g except : Nat) (event : Option Nat) :
    ((e.breakGroup g event except).group g).st = .broken ∧ ((e.breakGroup g event except).group g).idle := by
  unfold Eng.breakGroup
  extract_lets x counted stopped formed broken
  have hstopped : (stopped.group g).idle := by
    dsimp only [stopped]
    rw [(Eng.sendAborts_sameGroups _ _ _).group, Eng.cancelBarriers_group, Eng.endOps_group]
    exact ⟨rfl, rfl⟩
  clear_value stopped
  have hformed : (formed.group g).idle := by
    dsimp only [formed]
    split
    · rw [(Eng.complete_sameGroups _ _ _).group, Eng.setGroup_group_same]
      exact hstopped
    · exact hstopped
  have hbroken : (broken.group g).st = .broken ∧ (broken.group g).idle := by
    dsimp only [broken]
    rw [Eng.setGroup_group_same]
    exact ⟨rfl, hformed⟩
  split
  · rw [(broken.raise_sameUnits _ _ _ _).sameGroups.group]
    exact hbroken
  · exact hbroken

/-! ### Messages (R276, R281, R283) -/

theorem isControl_iff {h : ChunkHdr} : ChunkHdr.isControl h = true ↔ h.kind = 6 ∧ h.op ≠ 3 ∧ h.op ≠ 4 ∧ h.op ≠ 5 := by
  simp [ChunkHdr.isControl, and_assoc]

/-- A message of the control island has nothing that went on before its check (R282). -/
theorem Eng.forwardBad_control (e : Eng) {h : ChunkHdr} (b : List Byte) (o : CollOp) (hcontrol : ChunkHdr.isControl h = true) :
    e.forwardBad h b o = e := by
  obtain ⟨-, hbcast, -, hfactor⟩ := isControl_iff.1 hcontrol
  have hnone : e.forwards h b.length o = [] := by simp [Eng.forwards, Eng.factorOn, hbcast, hfactor]
  rw [Eng.forwardBad, hnone, List.foldl_nil]

/-- A message of the control island that fails its check is counted, told and refused, whatever operation it names. -/
theorem Eng.pktDo_badControl (e : Eng) (m : Mem) {port : Option Nat} {h : ChunkHdr} {b : List Byte} (cut bad : Bool)
    (hcontrol : ChunkHdr.isControl h = true) (hbad : h.pcrc ≠ (crc32c b).toNat ∨ h.plen ≠ b.length) :
    e.pktDo m (.chunk port h b) cut bad = (e.crcFailed port h.src).nakTo (.chunk port h b) := by
  obtain ⟨hkind, -, hreduce, -⟩ := isControl_iff.1 hcontrol
  have hunsound : (RxPkt.chunk port h b).sound = false := by
    rw [← Bool.not_eq_true, RxPkt.sound_chunk, Classical.not_and_iff_not_or_not]
    exact hbad
  have hdo : e.pktDo m (.chunk port h b) cut bad = match (e.crcFailed port h.src).op? h.slot h.step with
      | some o => (if cut then (e.crcFailed port h.src).forwardBad h b o else e.crcFailed port h.src).nakTo (.chunk port h b)
      | none => (e.crcFailed port h.src).nakTo (.chunk port h b) := by
    simp only [Eng.pktDo, hunsound, hkind, hreduce]
    rfl
  rw [hdo]
  split
  · rw [Eng.forwardBad_control _ b _ hcontrol, ite_self]
  · rfl

theorem Eng.takeChunk_control (e : Eng) (m : Mem) (port : Option Nat) {h : ChunkHdr} (b : List Byte) (bad : Bool)
    (hcontrol : ChunkHdr.isControl h = true) : e.takeChunk m port h b bad = (e.takeControl m port h b).replayEarly m := by
  simp only [Eng.takeChunk, (isControl_iff.1 hcontrol).1, hcontrol, if_true]

section
variable (e : Eng) (m : Mem) (port : Option Nat) {h : ChunkHdr} (b : List Byte)

theorem Eng.takeControl_formUp (hop : h.op = 6) : e.takeControl m port h b = e.getFormUp h b := by
  simp only [Eng.takeControl, hop]

theorem Eng.takeControl_countUp (hop : h.op = 1) : e.takeControl m port h b = e.getCountUp m h b := by
  simp only [Eng.takeControl, hop]

theorem Eng.takeControl_abort (hop : h.op = 8) : e.takeControl m port h b = e.getAbort h := by
  simp only [Eng.takeControl, hop]

/-- A FORM_UP or COUNT_UP of an older epoch changes nothing. -/
theorem Eng.takeControl_older (hop : h.op = 6 ∨ h.op = 1) (hold : olderEpoch (e.group h.slot).epoch h.epoch = true) :
    e.takeControl m port h b = e := by
  rcases hop with hop | hop
  · rw [e.takeControl_formUp m port b hop]
    exact if_pos hold
  · rw [e.takeControl_countUp m port b hop]
    exact if_pos hold

/-- A FORM_UP or COUNT_UP of a newer epoch is kept for the group. -/
theorem Eng.takeControl_newer (hop : h.op = 6 ∨ h.op = 1) (hold : olderEpoch (e.group h.slot).epoch h.epoch = false)
    (hnew : (e.group h.slot).epoch ≠ h.epoch) : e.takeControl m port h b = e.holdEarly h b := by
  rcases hop with hop | hop
  · rw [e.takeControl_formUp m port b hop]
    simp [Eng.getFormUp, hold, hnew]
  · rw [e.takeControl_countUp m port b hop]
    simp [Eng.getCountUp, hold, hnew]

end

theorem Eng.holdEarly_early (e : Eng) (h : ChunkHdr) (b : List Byte) :
    ((e.holdEarly h b).group h.slot).early = (e.group h.slot).early ++ [(h, b)] := by
  rw [Eng.holdEarly, Eng.setGroup_group_same]

theorem olderEpoch_self (n : Nat) : olderEpoch n n = false := by simp [olderEpoch]

/-- A FORM_UP of the group's epoch whose subtree agrees enters the handshake under way. -/
theorem Eng.takeControl_formUp_enters (e : Eng) (m : Mem) (port : Option Nat) {h : ChunkHdr} {b : List Byte} {f : Form} (hop : h.op = 6)
    (hepoch : (e.group h.slot).epoch = h.epoch) (hform : (e.group h.slot).form = some f) (hagree : rdLE b 9 1 = 0) :
    e.takeControl m port h b = (e.setGroup h.slot (fun x => { x with form := some { f with
      ups := KV.put f.ups h.src (rdLE b 0 4, rdLE b 4 4, decide (rdLE b 8 1 ≠ 0)) } })).formStep h.slot := by
  have henters : e.getFormUp h b = e.takeFormUp h b := by simp [Eng.getFormUp, hepoch, hform, olderEpoch_self]
  rw [e.takeControl_formUp m port b hop, henters, Eng.takeFormUp]
  have hfactor : (rdLE b 8 1 != 0) = decide (rdLE b 8 1 ≠ 0) := Bool.eq_iff_iff.2 (by simp)
  simp only [hagree, hfactor]
  refine congrArg (Eng.formStep h.slot) (e.setGroup_congr ?_)
  simp only [hform]
  rfl

/-- An ABORT of another epoch is only counted. -/
theorem Eng.getAbort_other (e : Eng) {h : ChunkHdr} (hepoch : h.epoch ≠ (e.group h.slot).epoch) :
    e.getAbort h = e.bump Reg.colAborts 16 16 1 := by
  simp [Eng.getAbort, hepoch.symm]

/-- An ABORT of a FORMED group's epoch breaks the group. -/
theorem Eng.getAbort_formed (e : Eng) {h : ChunkHdr} (hepoch : h.epoch = (e.group h.slot).epoch) (hst : (e.group h.slot).st = .formed) :
    e.getAbort h = (e.bump Reg.colAborts 16 16 1).breakGroup h.slot (some 0x0A09) h.src := by
  simp [Eng.getAbort, hepoch, hst]

end Sys2Proof.Machine

open Sys2Proof Sys2Proof.Machine

/-- Settles O44: a message is checked as any chunk is, and then does what its OP says to its group. -/
theorem controlMessagesAreCheckedThenTaken : Obligations.ControlMessagesAreCheckedThenTaken := by
  unfold Obligations.ControlMessagesAreCheckedThenTaken
  refine ⟨fun e m port h b cut bad hcontrol => ⟨e.pktDo_badControl m cut bad hcontrol, fun hpcrc hplen => ?_⟩,
    fun e m port h b g hg hop => ?_, fun e m port h b g f hg hop hepoch hform hagree => ?_,
    fun e m port h b hop => ⟨fun hepoch hst => ?_, fun hepoch => ?_⟩⟩
  · rw [e.pktDo_sound m cut bad hpcrc hplen, e.takeChunk_control m port b bad hcontrol]
  · subst hg
    refine ⟨e.takeControl_older m port b hop, fun hold hnew => ?_⟩
    rw [e.takeControl_newer m port b hop hold hnew, Eng.holdEarly_early]
  · subst hg
    exact e.takeControl_formUp_enters m port hop hepoch hform hagree
  · rw [e.takeControl_abort m port b hop, e.getAbort_formed hepoch hst]
    exact Eng.breakGroup_group _ _ _ _
  · rw [e.takeControl_abort m port b hop, e.getAbort_other hepoch]

end

section
/-! SUPPORT. A tick that finds a fault of the Spool: a port reads a packet to its end whose cell the Spool still holds free
(R192, R229, R248). -/

namespace Sys2Proof.Machine

/-! ### A queue that holds a free cell -/

/-- A probe that waits on port 0, to be read out of the Spool queue 0. -/
def strayItem : PortItem := { vc := 0, bytes := 64, src := some (0, 0) }

/-- That queue: the packet lies in cell 36864, which is row 768 of bank 0. -/
def strayQueue : SQueue where
  cells := [36864]
  pktIn := 1
  pkts := [{ id := 0, words := 1, written := 1, item := .tx 0 0 0 64 (.probe 0) true }]

/-- Nothing has been taken from bank 0, so its row 768 is free while the queue holds it; no command waits. -/
def strayState : State where
  eng := { boot := { powered := true }, ports := [{ link := 2, queue := [strayItem] }], spool := { queues := [(0, strayQueue)] } }

theorem strayState_inv : strayState.Inv := ⟨by decide, rfl, rfl⟩

/-- The port sends the packet's one flit and so frees the cell; a tick, unlike a command, has no fault taken at its end. -/
theorem strayState_tick_corrupt : strayState.tick.eng.spool.corrupt = true := by decide +kernel

end Sys2Proof.Machine

open Sys2Proof Sys2Proof.Machine

/-- Refutes O3: a step without a command may find a fault of the Spool, and leaves it untaken. The state meets the
invariant, and its one step is a tick in which a port frees a cell that is free already. -/
theorem not_stepKeepsInv : ¬ Obligations.StepKeepsInv := by
  unfold Obligations.StepKeepsInv
  intro hkeeps
  have hstep : step strayState = .next strayState.tick := rfl
  obtain ⟨-, -, hclean⟩ := hkeeps strayState strayState.tick strayState_inv hstep
  exact absurd (strayState_tick_corrupt.symm.trans hclean) (by decide)

end

section
/-! SUPPORT. Resets of bays and dikes (R350 to R353): what a reset, a return and a containment leave of the records of fault
control, and how the commands that start and end one reach them. -/

namespace Sys2Proof.Machine

/-! ### What flushing banks and moving clusters leave alone -/

/-- Of the records of fault control only the list of absent banks changes, and the Spool finds no fault in itself. -/
structure Eng.BanksOnly (e e' : Eng) : Prop where
  flt : e'.flt = { e.flt with banksAbsent := e'.flt.banksAbsent }
  corrupt : e'.spool.corrupt = e.spool.corrupt

theorem Eng.BanksOnly.refl (e : Eng) : e.BanksOnly e := ⟨rfl, rfl⟩

/-- Work that changes neither the records of fault control nor what the Spool knows of itself. -/
theorem Eng.BanksOnly.keep {e e' e'' : Eng} (h : e.BanksOnly e') (hflt : e''.flt = e'.flt) (hcorrupt : e''.spool.corrupt = e'.spool.corrupt) :
    e.BanksOnly e'' :=
  ⟨by rw [hflt]; exact h.flt, hcorrupt.trans h.corrupt⟩

theorem Eng.BanksOnly.trans {e e' e'' : Eng} (h : e.BanksOnly e') (h' : e'.BanksOnly e'') : e.BanksOnly e'' :=
  ⟨by rw [h'.flt, h.flt], h'.corrupt.trans h.corrupt⟩

theorem Eng.BanksOnly.foldl {α : Type} {f : Eng → α → Eng} (hf : ∀ (e : Eng) x, e.BanksOnly (f e x)) {e e' : Eng} (h : e.BanksOnly e')
    (l : List α) : e.BanksOnly (l.foldl f e') :=
  List.foldlRecOn l f h (fun e' h x _ => h.trans (hf e' x))

theorem Eng.BanksOnly.raise {e e' : Eng} (h : e.BanksOnly e') (code arg : Nat) (polder : Option Nat) (tag : Nat) :
    e.BanksOnly (e'.raise code arg polder tag) :=
  h.keep (e'.raise_flt ..) (congrArg _ (e'.raise_spool ..))

theorem Eng.BanksOnly.fltEvent {e e' : Eng} (h : e.BanksOnly e') (code : Nat) (bay dike quarter pos : Option Nat) :
    e.BanksOnly (e'.fltEvent code bay dike quarter pos) :=
  h.keep (e'.fltEvent_flt ..) (congrArg _ (e'.fltEvent_spool ..))

theorem Eng.BanksOnly.updateReplace {e e' : Eng} (h : e.BanksOnly e') : e.BanksOnly e'.updateReplace :=
  h.keep e'.updateReplace_flt (congrArg _ e'.updateReplace_spool)

theorem Eng.BanksOnly.updateReady {e e' : Eng} (h : e.BanksOnly e') : e.BanksOnly e'.updateReady :=
  h.keep e'.updateReady_flt (congrArg _ e'.updateReady_spool)

/-! ### Banks (R249, R252) -/

theorem Eng.breakQueue_banksOnly (e : Eng) (q : Nat) (bad : Option Nat) : e.BanksOnly (e.breakQueue q bad) := by
  unfold Eng.breakQueue
  refine .raise ?_ _ _ _ _
  exact .keep (.refl e) rfl rfl

theorem Eng.BanksOnly.breakBank {e e' : Eng} (h : e.BanksOnly e') (b : Nat) : e.BanksOnly (e'.breakBank b) :=
  .foldl (fun e q => e.breakQueue_banksOnly q none) h _

theorem Eng.loseFrames_banksOnly (e : Eng) (b : Nat) : e.BanksOnly (e.loseFrames b) := by
  unfold Eng.loseFrames
  extract_lets l gone
  split <;> exact .keep (.refl e) rfl rfl

theorem Eng.bankDown_banksOnly (e : Eng) (b : Nat) : e.BanksOnly (e.bankDown b) := by
  unfold Eng.bankDown
  split
  · refine .breakBank ?_ b
    exact .keep (e.loseFrames_banksOnly b) rfl rfl
  · exact .refl e

theorem Eng.bankLost_banksOnly (e : Eng) (b : Nat) : e.BanksOnly (e.bankLost b) := by
  unfold Eng.bankLost
  split
  · have hlost := e.loseFrames_banksOnly b
    refine ((Eng.BanksOnly.breakBank ?_ b).raise _ _ _ _)
    exact ⟨congrArg (fun f : Flt => { f with banksAbsent := e.flt.banksAbsent ++ [b] }) hlost.flt, hlost.corrupt⟩
  · exact .refl e

theorem Eng.bankUp_banksOnly (e : Eng) (b : Nat) : e.BanksOnly (e.bankUp b) := by
  unfold Eng.bankUp
  split <;> exact .keep (.refl e) rfl rfl

/-! ### Clusters (R346, R347) -/

theorem Eng.BanksOnly.bump {e e' : Eng} (h : e.BanksOnly e') (off lo n k : Nat) : e.BanksOnly (e'.bump off lo n k) := h.keep rfl rfl

theorem Eng.BanksOnly.postMap {e e' : Eng} (h : e.BanksOnly e') (q : Nat) : e.BanksOnly (e'.postMap q) := h.keep rfl rfl

theorem Eng.BanksOnly.mapCluster {e e' : Eng} (h : e.BanksOnly e') (q n v : Nat) : e.BanksOnly (e'.setQmapByte q n v) := by
  unfold Eng.setQmapByte
  split <;> exact h.keep rfl rfl

theorem Eng.replaceCluster_banksOnly (e : Eng) (q pos : Nat) : e.BanksOnly (e.replaceCluster q pos) := by
  unfold Eng.replaceCluster
  split
  · exact .refl e
  split
  · exact ((((Eng.BanksOnly.refl e).mapCluster _ _ _).bump _ _ _ _).postMap _).fltEvent _ _ _ _ _
  split
  · exact .refl e
  · exact (((Eng.BanksOnly.refl e).mapCluster _ _ _).postMap _).fltEvent _ _ _ _ _

/-! ### Bays out of use and back (R350) -/

theorem Eng.banksAbsent_banksOnly (e : Eng) (l : List Nat) : e.BanksOnly { e with flt := { e.flt with banksAbsent := l } } := ⟨rfl, rfl⟩

theorem Eng.bayGone_banksOnly (e : Eng) (b : Nat) : e.BanksOnly (e.bayGone b) := by
  unfold Eng.bayGone
  refine .foldl (fun e c => ?_) (.foldl (fun e k => ?_) (.refl e) _) _
  · exact e.replaceCluster_banksOnly c.1 c.2
  · extract_lets _ marked
    have hmarked : e.BanksOnly marked := e.banksAbsent_banksOnly _
    split
    · exact hmarked.trans (marked.bankLost_banksOnly k)
    · exact hmarked

theorem Eng.clearBay_banksOnly (e : Eng) (b : Nat) : e.BanksOnly (e.clearBay b) := by
  unfold Eng.clearBay
  refine .foldl (fun e c => ?_) (.foldl (fun e k => e.bankUp_banksOnly k) ?_ _) _
  · exact e.replaceCluster_banksOnly c.1 c.2
  · exact e.banksAbsent_banksOnly _

theorem mem_addOnce (l : List Nat) (x : Nat) : x ∈ (if l.contains x then l else l ++ [x]) := by
  split
  next h => exact List.contains_iff_mem.1 h
  next => exact List.mem_append_right _ (List.mem_singleton_self x)

/-- The records of fault control once a bay is contained. -/
def Flt.containsBay (b : Nat) (f : Flt) : Flt :=
  { f with baysReset := f.baysReset.filter (· != b)
           baysContained := if f.baysContained.contains b then f.baysContained else f.baysContained ++ [b] }

/-- The records of fault control once a dike is contained. -/
def Flt.containsDike (d : Nat) (f : Flt) : Flt :=
  { f with dikesReset := f.dikesReset.filter (· != d)
           dikesContained := if f.dikesContained.contains d then f.dikesContained else f.dikesContained ++ [d] }

theorem Eng.containBay_banksOnly (e : Eng) (b : Nat) : Eng.BanksOnly { e with flt := e.flt.containsBay b } (e.containBay b) := by
  unfold Eng.containBay
  extract_lets _ marked
  exact ((Eng.BanksOnly.fltEvent (.refl marked) _ _ _ _ _).trans (Eng.bayGone_banksOnly _ b)).updateReplace.updateReady

theorem Eng.containDike_banksOnly (e : Eng) (d : Nat) : Eng.BanksOnly { e with flt := e.flt.containsDike d } (e.containDike d) := by
  unfold Eng.containDike
  extract_lets _ marked
  exact (Eng.BanksOnly.foldl (fun e b => e.bayGone_banksOnly b) ((Eng.BanksOnly.refl marked).fltEvent _ _ _ _ _) _).updateReplace.updateReady

/-! ### Starts of resets (R351, R352) -/

/-- The records of fault control once a bay is in reset. -/
def Flt.resetsBay (b : Nat) (f : Flt) : Flt := { f with recovery := some (.bay b), baysReset := f.baysReset ++ [b] }

/-- The records of fault control once a dike is in reset. -/
def Flt.resetsDike (d : Nat) (f : Flt) : Flt :=
  { f with recovery := some (.dike d), baysReset := f.baysReset.filter (fun b => b / 6 != d), dikesReset := f.dikesReset ++ [d] }

theorem Eng.BanksOnly.clearTablesOf {e e' : Eng} (h : e.BanksOnly e') (bays : List Nat) : e.BanksOnly (e'.clearTablesOf bays) :=
  .foldl (fun e t => .keep (e' := e) (e'' := e.clearTable t) (.refl e) rfl rfl) h _

theorem Eng.startBay_banksOnly (e : Eng) (b : Nat) : Eng.BanksOnly { e with flt := e.flt.resetsBay b } (e.startBay b) := by
  unfold Eng.startBay
  extract_lets _ marked told
  have hmarked : Eng.BanksOnly { e with flt := e.flt.resetsBay b } marked := (Eng.BanksOnly.refl _).keep (Eng.wake_flt _) (congrArg _ (Eng.wake_spool _))
  have htold := (hmarked.bump Reg.fltCount 8 8 1).fltEvent 0x0604 (some b) (some (b / 6)) none none
  exact (Eng.BanksOnly.foldl (fun e k => e.bankDown_banksOnly k) (htold.clearTablesOf [b]) _).updateReplace

theorem Eng.startDike_banksOnly (e : Eng) (d : Nat) : Eng.BanksOnly { e with flt := e.flt.resetsDike d } (e.startDike d) := by
  unfold Eng.startDike
  extract_lets _ marked told
  have hmarked : Eng.BanksOnly { e with flt := e.flt.resetsDike d } marked := (Eng.BanksOnly.refl _).keep (Eng.wake_flt _) (congrArg _ (Eng.wake_spool _))
  have htold := (hmarked.bump Reg.fltCount 16 8 1).fltEvent 0x0606 none (some d) none none
  exact (Eng.BanksOnly.foldl (fun e k => e.bankDown_banksOnly k) (htold.clearTablesOf (dikeBays d)) _).updateReplace

/-! ### A bay's return from its reset (R51, R57, R58) -/

/-- Of the records of fault control only the lists of contained bays and of absent banks change. -/
structure Eng.BaysOnly (e e' : Eng) : Prop where
  flt : e'.flt = { e.flt with baysContained := e'.flt.baysContained, banksAbsent := e'.flt.banksAbsent }

theorem Eng.BanksOnly.baysOnly {e e' : Eng} (h : e.BanksOnly e') : e.BaysOnly e' := ⟨by rw [h.flt]⟩

theorem Eng.BaysOnly.trans {e e' e'' : Eng} (h : e.BaysOnly e') (h' : e'.BaysOnly e'') : e.BaysOnly e'' := ⟨by rw [h'.flt, h.flt]⟩

theorem Eng.unconfigure_baysOnly (e : Eng) (b : Nat) : e.BaysOnly (e.unconfigure b) := by
  unfold Eng.unconfigure
  extract_lets u _ _ marked
  have hmarked : e.BaysOnly marked := ⟨rfl⟩
  exact hmarked.trans (((Eng.BanksOnly.refl marked).raise _ _ _ _).trans (Eng.bayGone_banksOnly _ b)).updateReplace.baysOnly

theorem Eng.accSlot_banksOnly (e : Eng) (slot n : Nat) : e.BanksOnly (e.accSlot slot n) := by
  rw [e.accSlot_eq]
  exact ⟨rfl, rfl⟩

theorem Eng.fillCache_banksOnly (e : Eng) (m : Mem) (slot : Nat) : e.BanksOnly (e.fillCache m slot) := by
  unfold Eng.fillCache
  split
  · exact .refl e
  · extract_lets a h bytes base gone filled
    refine .trans ?_ (Eng.accSlot_banksOnly _ _ _)
    exact .keep (.refl e) rfl rfl

theorem Eng.keptFails_banksOnly (e : Eng) (code sec : Nat) : e.BanksOnly (e.keptFails code sec) := by
  unfold Eng.keptFails
  extract_lets _ rejected
  have hrejected : e.BanksOnly rejected := .keep (.refl e) rfl rfl
  exact (hrejected.raise _ _ _ _).updateReady

theorem Eng.bayBack_baysOnly (e : Eng) (m : Mem) (b : Nat) : e.BaysOnly (e.bayBack m b) := by
  unfold Eng.bayBack
  split
  · split
    next code sec _ => exact (e.keptFails_banksOnly code sec).baysOnly
    next q _ _ =>
      extract_lets configured up filled
      have hconfigured : e.BanksOnly configured := .keep (.refl e) rfl rfl
      have hup : e.BanksOnly up := .foldl (fun e k => e.bankUp_banksOnly k) hconfigured _
      have hfilled : e.BanksOnly filled := by
        unfold filled
        split
        · exact .foldl (fun e (kl : Nat × LSlot) => e.fillCache_banksOnly m kl.1) hup _
        · exact hup
      refine (Eng.BanksOnly.foldl (fun e c => ?_) hfilled _).baysOnly
      split
      · exact e.replaceCluster_banksOnly c.1 c.2
      · exact .refl e
  · exact e.unconfigure_baysOnly b

/-! ### The fault queue (R353) -/

theorem Eng.withQueue_nil (e : Eng) (hq : e.flt.queue = []) : e.withQueue [] = e := by rw [Eng.withQueue, ← hq]

/-- Nothing waits: no recovery follows. -/
theorem Eng.nextRecovery_idle (e : Eng) (hq : e.flt.queue = []) : e.nextRecovery = e := by
  unfold Eng.nextRecovery
  split
  · rfl
  · have hempty : e.withQueue [] = e := e.withQueue_nil hq
    simp only [hq, List.filter_nil, List.length_nil, Eng.markUnits]
    exact hempty

/-- Once what is present has been looked at again, the records of fault control are the same where nothing waits. -/
theorem Eng.recoveryEnds_flt (e : Eng) (hq : e.flt.queue = []) : e.updateReplace.nextRecovery.flt = e.flt := by
  rw [e.updateReplace.nextRecovery_idle (by rw [Eng.updateReplace_flt, hq]), Eng.updateReplace_flt]

/-- A bay that is neither in reset nor contained, nor is its dike. -/
theorem Eng.bayDown_eq_false {e : Eng} {b : Nat} (h : e.bayDown b = false) :
    (b ∉ e.flt.baysReset ∧ b ∉ e.flt.baysContained) ∧ b / 6 ∉ e.flt.dikesReset ∧ b / 6 ∉ e.flt.dikesContained := by
  simpa [Eng.bayDown, and_assoc] using h

theorem Eng.nextRecovery_bay (e : Eng) {b : Nat} (hr : e.flt.recovery = none) (hp : e.pwr.trans = false) (hq : e.flt.queue = [])
    (hb : e.bayDown b = false) : (e.withQueue [.bay b]).nextRecovery = e.startBay b := by
  obtain ⟨⟨hreset, hcontained⟩, hdike, hdikeContained⟩ := Eng.bayDown_eq_false hb
  have hstart : (e.withQueue [.bay b]).nextRecovery = (e.withQueue []).startBay b := by
    simp [Eng.nextRecovery, Eng.withQueue, hr, hp, Eng.covered, Eng.bayDown, hreset, hcontained, hdike, hdikeContained, Eng.markUnits,
      Eng.nextFault, FaultRec.order]
  rw [hstart, e.withQueue_nil hq]

theorem Eng.nextRecovery_dike (e : Eng) {d : Nat} (hr : e.flt.recovery = none) (hp : e.pwr.trans = false) (hq : e.flt.queue = [])
    (hd : d ∉ e.flt.dikesContained) : (e.withQueue [.dike d]).nextRecovery = e.startDike d := by
  have hstart : (e.withQueue [.dike d]).nextRecovery = (e.withQueue []).startDike d := by
    simp [Eng.nextRecovery, Eng.withQueue, hr, hp, hd, Eng.covered, Eng.markUnits, Eng.nextFault, FaultRec.order]
  rw [hstart, e.withQueue_nil hq]

/-- A fault that finds nothing under way and nothing waiting has its turn at once. -/
theorem Eng.addFault_idle (e : Eng) {r : FaultRec} (hcompute : r ≠ .compute) (hr : e.flt.recovery = none) (hq : e.flt.queue = []) :
    e.addFault r = (e.withQueue [r]).nextRecovery := by
  simp [Eng.addFault, hcompute, hr, hq, Eng.withQueue]

theorem Eng.addFault_bay (e : Eng) {b : Nat} (hr : e.flt.recovery = none) (hq : e.flt.queue = []) (hp : e.pwr.trans = false)
    (hb : e.bayDown b = false) : e.addFault (.bay b) = e.startBay b := by
  rw [e.addFault_idle (by simp) hr hq, e.nextRecovery_bay hr hp hq hb]

theorem Eng.addFault_dike (e : Eng) {d : Nat} (hr : e.flt.recovery = none) (hq : e.flt.queue = []) (hp : e.pwr.trans = false)
    (hd : d ∉ e.flt.dikesContained) : e.addFault (.dike d) = e.startDike d := by
  rw [e.addFault_idle (by simp) hr hq, e.nextRecovery_dike hr hp hq hd]

/-! ### BAY_RESET (R351) -/

theorem Eng.bayFault_contained (e : Eng) {b : Nat} (h : b ∈ e.flt.baysContained ∨ b / 6 ∈ e.flt.dikesContained) : e.bayFault b = e := by
  simp [Eng.bayFault, h]

theorem Eng.bayFault_again (e : Eng) {b t : Nat} (hb : b ∉ e.flt.baysContained) (hd : b / 6 ∉ e.flt.dikesContained)
    (hreset : b ∉ e.flt.baysReset) (ht : KV.find e.flt.bayResetNs b = some t) (hsoon : e.time.ns < t + 10000000000) :
    e.bayFault b = e.containBay b := by
  simp [Eng.bayFault, hb, hd, hreset, ht, Eng.now, hsoon]

theorem Eng.bayFault_queues (e : Eng) {b : Nat} (hb : b ∉ e.flt.baysContained) (hd : b / 6 ∉ e.flt.dikesContained)
    (hlate : b ∈ e.flt.baysReset ∨ ∀ t, KV.find e.flt.bayResetNs b = some t → t + 10000000000 ≤ e.time.ns) :
    e.bayFault b = e.addFault (.bay b) := by
  rcases hlate with hreset | hlate
  · simp [Eng.bayFault, hb, hd, hreset]
  · cases ht : KV.find e.flt.bayResetNs b with
    | none => simp [Eng.bayFault, hb, hd, ht]
    | some t => simp [Eng.bayFault, hb, hd, ht, Eng.now, Nat.not_lt.2 (hlate t ht)]

theorem exec_bayReset_contained {s : State} (h : s.on) {b : Nat} (hb : b ∈ s.eng.flt.baysContained ∨ b / 6 ∈ s.eng.flt.dikesContained) :
    exec (.bayReset b) s = .next { s with eng := s.work } :=
  (exec_bayReset b s).trans (h.onPower_eng (s.work.bayFault_contained hb) rfl rfl)

section
variable {s : State} (h : s.on) {b : Nat} (hb : b ∉ s.eng.flt.baysContained) (hd : b / 6 ∉ s.eng.flt.dikesContained)
include h hb hd

theorem exec_bayReset_again {t : Nat} (hreset : b ∉ s.eng.flt.baysReset) (ht : KV.find s.eng.flt.bayResetNs b = some t)
    (hsoon : s.eng.time.ns < t + 10000000000) : exec (.bayReset b) s = .next (s.leaves (s.work.containBay b)) :=
  (exec_bayReset b s).trans (h.onPower_leaves (s.work.bayFault_again hb hd hreset ht hsoon))

theorem exec_bayReset_queues
    (hlate : b ∈ s.eng.flt.baysReset ∨ ∀ t, KV.find s.eng.flt.bayResetNs b = some t → t + 10000000000 ≤ s.eng.time.ns) :
    exec (.bayReset b) s = .next (s.leaves (s.work.addFault (.bay b))) :=
  (exec_bayReset b s).trans (h.onPower_leaves (s.work.bayFault_queues hb hd hlate))

end

theorem exec_bayReset_starts {s : State} (h : s.on) {b : Nat} (hr : s.eng.flt.recovery = none) (hq : s.eng.flt.queue = [])
    (hp : s.eng.pwr.trans = false) (hup : s.eng.bayDown b = false)
    (hlate : ∀ t, KV.find s.eng.flt.bayResetNs b = some t → t + 10000000000 ≤ s.eng.time.ns) :
    exec (.bayReset b) s = .next (s.leaves (s.work.startBay b)) := by
  obtain ⟨⟨-, hb⟩, -, hd⟩ := Eng.bayDown_eq_false hup
  rw [exec_bayReset_queues h hb hd (.inr hlate), s.work.addFault_bay hr hq hp hup]

/-! ### DIKE_RESET (R352) -/

theorem exec_dikeReset_contained {s : State} (h : s.on) {d : Nat} (hd : d ∈ s.eng.flt.dikesContained) :
    exec (.dikeReset d) s = .next { s with eng := s.work } :=
  (exec_dikeReset d s).trans (h.onPower_eng (if_pos (List.contains_iff_mem.2 hd)) rfl rfl)

theorem exec_dikeReset_queues {s : State} (h : s.on) {d : Nat} (hd : d ∉ s.eng.flt.dikesContained) :
    exec (.dikeReset d) s = .next (s.leaves (s.work.addFault (.dike d))) :=
  (exec_dikeReset d s).trans (h.onPower_leaves (if_neg (mt List.contains_iff_mem.1 hd)))

theorem exec_dikeReset_starts {s : State} (h : s.on) {d : Nat} (hd : d ∉ s.eng.flt.dikesContained) (hr : s.eng.flt.recovery = none)
    (hq : s.eng.flt.queue = []) (hp : s.eng.pwr.trans = false) : exec (.dikeReset d) s = .next (s.leaves (s.work.startDike d)) := by
  rw [exec_dikeReset_queues h hd, s.work.addFault_dike hr hq hp hd]

/-! ### BAY_RESET_REQUEST (R376) -/

/-- An alert engine need not wake. -/
theorem State.alert.wake {s : State} (h : s.alert) : s.work.wake = s.work := by
  obtain ⟨-, hcur, htrans, -⟩ := h
  simp [Eng.wake, State.work, hcur, htrans]

/-- A write of TWK_ENG_RESET that asks for a bay's reset asks for that bay alone. -/
theorem Eng.writeAccess_bayReset (e : Eng) (m : Mem) {b : Nat} (hb : b < 64) :
    e.writeAccess m false Reg.engReset false (2 + b * 256) = e.requestBay b := by
  have hvalue : (2 + b * 256) % 2 ^ 32 = 2 + b * 256 := Nat.mod_eq_of_lt (by omega)
  have hbay : field (2 + b * 256) 8 6 = b := by rw [field]; omega
  have hask : bit (2 + b * 256) 1 = true := by rw [bit, beq_iff_eq]; omega
  have halone : bit (2 + b * 256) 0 = false := by rw [bit, beq_eq_false_iff_ne]; omega
  calc e.writeAccess m false Reg.engReset false (2 + b * 256)
      = e.writeReset ((2 + b * 256) % 2 ^ 32) := rfl
    _ = e.requestBay b := by rw [hvalue, Eng.writeReset, hask, hbay, halone]; rfl

theorem exec_bayResetRequest_alert {s : State} (h : s.alert) {b : Nat} (hb : b < 64) :
    exec (.bayResetRequest b) s = .next (s.leaves (s.work.requestBay b)) := by
  rw [exec_bayResetRequest, s.onPower_eq _ h.1.1, h.mmioWrite, Eng.writeAccess_bayReset _ _ hb]

theorem Eng.requestBay_down (e : Eng) (hwake : e.wake = e) {b : Nat} (hdown : 36 ≤ b ∨ e.bayDown b = true) : e.requestBay b = e := by
  simp [Eng.requestBay, hwake, hdown]

/-- A request for a bay that is up takes its place in the queue, or brings a compute reset where that is full. -/
theorem Eng.requestBay_up (e : Eng) (hwake : e.wake = e) {b : Nat} (hb : b < 36) (hup : e.bayDown b = false) : e.requestBay b =
    if e.flt.queue.length ≥ 64 then (if e.flt.recovery = some .compute then e else e.startCompute)
    else (e.withQueue (e.flt.queue ++ [.bay b])).nextRecovery := by
  simp [Eng.requestBay, Eng.requestReset, hwake, Nat.not_le.2 hb, hup, Eng.withQueue]

theorem exec_bayResetRequest_down {s : State} (h : s.alert) {b : Nat} (hb : b < 64) (hdown : 36 ≤ b ∨ s.eng.bayDown b = true) :
    exec (.bayResetRequest b) s = .next { s with eng := s.work } := by
  obtain ⟨⟨-, hclean⟩, -⟩ := id h
  rw [exec_bayResetRequest_alert h hb, s.work.requestBay_down h.wake hdown, s.leaves_eq s.work hclean rfl]

theorem exec_bayResetRequest_up {s : State} (h : s.alert) {b : Nat} (hb : b < 36) (hup : s.eng.bayDown b = false) :
    exec (.bayResetRequest b) s = .next (s.leaves (
      if s.eng.flt.queue.length ≥ 64 then (if s.eng.flt.recovery = some .compute then s.work else s.work.startCompute)
      else (s.work.withQueue (s.eng.flt.queue ++ [.bay b])).nextRecovery)) := by
  rw [exec_bayResetRequest_alert h (by omega), s.work.requestBay_up h.wake hb hup]
  rfl

section
variable {s : State} (h : s.alert) {b : Nat} (hb : b < 36) (hup : s.eng.bayDown b = false)
include h hb hup

theorem exec_bayResetRequest_full (hq : 64 ≤ s.eng.flt.queue.length) (hr : s.eng.flt.recovery ≠ some .compute) :
    exec (.bayResetRequest b) s = .next (s.leaves s.work.startCompute) := by
  rw [exec_bayResetRequest_up h hb hup, if_pos hq, if_neg hr]

theorem exec_bayResetRequest_waits (hq : s.eng.flt.queue.length < 64) (hr : s.eng.flt.recovery ≠ none) :
    exec (.bayResetRequest b) s = .next { s with eng := s.work.withQueue (s.eng.flt.queue ++ [.bay b]) } := by
  have hbusy : ∀ q, (s.work.withQueue q).nextRecovery = s.work.withQueue q := fun q => if_pos (by
    simp [Eng.withQueue, State.work, Option.isSome_iff_ne_none, hr])
  obtain ⟨⟨-, hclean⟩, -⟩ := id h
  rw [exec_bayResetRequest_up h hb hup, if_neg (Nat.not_le.2 hq), hbusy, s.leaves_eq (s.work.withQueue _) hclean rfl]

theorem exec_bayResetRequest_starts (hr : s.eng.flt.recovery = none) (hq : s.eng.flt.queue = []) :
    exec (.bayResetRequest b) s = .next (s.leaves (s.work.startBay b)) := by
  obtain ⟨-, -, htrans, -⟩ := id h
  have hroom : ¬ s.eng.flt.queue.length ≥ 64 := by simp [hq]
  rw [exec_bayResetRequest_up h hb hup, if_neg hroom, hq, List.nil_append, s.work.nextRecovery_bay hr htrans hq hup]

end

/-! ### What a reset's start leaves -/

/-- A command that finds no fault of the Spool leaves the records of fault control as its work left them. -/
theorem State.leaves_flt (s : State) {e : Eng} (hc : e.spool.corrupt = false) : (s.leaves e).eng.flt = e.flt := by
  rw [s.leaves_clean e hc]

/-- Once a bay's reset has started it is the recovery under way, and what waited still waits. -/
theorem State.on.startBay_leaves {s : State} (h : s.on) (b : Nat) :
    (s.leaves (s.work.startBay b)).eng.flt.recovery = some (.bay b) ∧
    (s.leaves (s.work.startBay b)).eng.flt.queue = s.eng.flt.queue ∧ b ∈ (s.leaves (s.work.startBay b)).eng.flt.baysReset := by
  have hstart := s.work.startBay_banksOnly b
  rw [s.leaves_flt (hstart.corrupt.trans h.2), hstart.flt]
  exact ⟨rfl, rfl, List.mem_append_right _ (List.mem_singleton_self b)⟩

/-- Once a dike's reset has started it is the recovery under way, and stands for the resets of the dike's bays. -/
theorem State.on.startDike_leaves {s : State} (h : s.on) (d : Nat) :
    (s.leaves (s.work.startDike d)).eng.flt.recovery = some (.dike d) ∧
    (s.leaves (s.work.startDike d)).eng.flt.queue = s.eng.flt.queue ∧ d ∈ (s.leaves (s.work.startDike d)).eng.flt.dikesReset ∧
    ∀ x ∈ (s.leaves (s.work.startDike d)).eng.flt.baysReset, x / 6 ≠ d := by
  have hstart := s.work.startDike_banksOnly d
  rw [s.leaves_flt (hstart.corrupt.trans h.2), hstart.flt]
  exact ⟨rfl, rfl, List.mem_append_right _ (List.mem_singleton_self d), fun x hx => bne_iff_ne.1 (List.mem_filter.1 hx).2⟩

/-! ### Ends of resets (R350 to R353) -/

/-- The engine with no recovery under way, as the end of a reset finds it. -/
def Eng.ended (e : Eng) : Eng := { e with flt := { e.flt with recovery := none } }

/-- The records of fault control once a bay has returned from its own reset, which is timed. -/
def Flt.returnsBay (b now : Nat) (f : Flt) : Flt :=
  { f with baysReset := f.baysReset.filter (· != b), bayResetNs := KV.put f.bayResetNs b now }

/-- The records of fault control once a dike has returned from its reset. -/
def Flt.returnsDike (d : Nat) (f : Flt) : Flt := { f with dikesReset := f.dikesReset.filter (· != d) }

/-- A bay's turn in the return of its dike, which is timed. -/
def Eng.returnBay (m : Mem) (e : Eng) (b : Nat) : Eng :=
  { e with flt := { e.flt with bayResetNs := KV.put e.flt.bayResetNs b e.now } }.bayBack m b

section
variable (e : Eng) (m : Mem)

theorem Eng.bayResetEnds_failed {b : Nat} (hr : e.flt.recovery = some (.bay b)) :
    e.bayResetEnds m b false = ((e.ended.containBay b).updateReplace.nextRecovery).settle m := by
  rw [Eng.bayResetEnds, if_pos hr]
  dsimp only
  rw [if_neg Bool.false_ne_true]
  rfl

theorem Eng.bayResetEnds_passed {b : Nat} (hr : e.flt.recovery = some (.bay b)) : e.bayResetEnds m b true =
    ((({ e.ended with flt := e.ended.flt.returnsBay b e.now }.bayBack m b).updateReplace).nextRecovery).settle m := by
  rw [Eng.bayResetEnds, if_pos hr]
  dsimp only
  rw [if_pos rfl]
  rfl

theorem Eng.dikeResetEnds_failed {d : Nat} (hr : e.flt.recovery = some (.dike d)) :
    e.dikeResetEnds m d false = ((e.ended.containDike d).updateReplace.nextRecovery).settle m := by
  rw [Eng.dikeResetEnds, if_pos hr]
  dsimp only
  rw [if_neg Bool.false_ne_true]
  rfl

theorem Eng.dikeResetEnds_passed {d : Nat} (hr : e.flt.recovery = some (.dike d)) : e.dikeResetEnds m d true =
    (((((dikeBays d).filter (fun b => !e.flt.baysContained.contains b)).foldl (Eng.returnBay m)
      { e.ended with flt := e.ended.flt.returnsDike d }).updateReplace).nextRecovery).settle m := by
  rw [Eng.dikeResetEnds, if_pos hr]
  dsimp only
  rw [if_pos rfl]
  rfl

end

theorem exec_bayResetDone_other {s : State} (h : s.on) {b : Nat} (hr : s.eng.flt.recovery ≠ some (.bay b)) (ok : Bool) :
    exec (.bayResetDone b ok) s = .next { s with eng := s.work } :=
  (exec_bayResetDone b ok s).trans (h.onPower_eng (if_neg hr) rfl rfl)

theorem exec_bayResetDone_ends {s : State} (h : s.on) {b : Nat} {ok : Bool} {e : Eng} (he : s.work.bayResetEnds s.hbm b ok = e) :
    exec (.bayResetDone b ok) s = .next (s.leaves e) :=
  (exec_bayResetDone b ok s).trans (h.onPower_leaves he)

theorem exec_dikeResetDone_other {s : State} (h : s.on) {d : Nat} (hr : s.eng.flt.recovery ≠ some (.dike d)) (ok : Bool) :
    exec (.dikeResetDone d ok) s = .next { s with eng := s.work } :=
  (exec_dikeResetDone d ok s).trans (h.onPower_eng (if_neg hr) rfl rfl)

theorem exec_dikeResetDone_ends {s : State} (h : s.on) {d : Nat} {ok : Bool} {e : Eng} (he : s.work.dikeResetEnds s.hbm d ok = e) :
    exec (.dikeResetDone d ok) s = .next (s.leaves e) :=
  (exec_dikeResetDone d ok s).trans (h.onPower_leaves he)

/-! ### CONTAINMENT_CLEARED (R51, R350) -/

/-- The engine with a bay's own containment lifted. -/
def Eng.uncontainBay (b : Nat) (e : Eng) : Eng := { e with flt := { e.flt with baysContained := e.flt.baysContained.filter (· != b) } }

theorem Eng.clearContained_bay_stays (e : Eng) {b : Nat} (h : b ∉ e.flt.baysContained ∨ bit e.loader.baysUncfg b = true) :
    e.clearContained (some b) none = e.updateReplace := by
  rcases h with h | h <;> simp [Eng.clearContained, h]

theorem Eng.clearContained_bay_returns (e : Eng) {b : Nat} (hb : b ∈ e.flt.baysContained) (hu : bit e.loader.baysUncfg b = false) :
    e.clearContained (some b) none =
      (if (e.uncontainBay b).bayDown b then e.uncontainBay b else (e.uncontainBay b).clearBay b).updateReplace := by
  have hlift : (e.flt.baysContained.contains b && !bit e.loader.baysUncfg b) = true := by simp [hb, hu]
  unfold Eng.clearContained
  dsimp only
  rw [if_pos hlift]
  rfl

theorem Eng.clearContained_dike (e : Eng) {d : Nat} (hd : d ∈ e.flt.dikesContained) {x : Eng}
    (hx : x = { e with flt := { e.flt with dikesContained := e.flt.dikesContained.filter (· != d) } }) :
    e.clearContained none (some d) = (((dikeBays d).filter (fun b => !x.bayDown b)).foldl (fun e b => e.clearBay b) x).updateReplace := by
  subst hx
  unfold Eng.clearContained
  dsimp only
  rw [if_pos (List.contains_iff_mem.2 hd)]

theorem exec_containmentCleared_leaves {s : State} (h : s.on) {bay dike : Option Nat} {e : Eng} (he : s.work.clearContained bay dike = e) :
    exec (.containmentCleared bay dike) s = .next (s.leaves (e.settle s.hbm)) :=
  (exec_containmentCleared bay dike s).trans (h.onPower_leaves (congrArg (Eng.settle s.hbm) he))

/-! ### No recovery is left (R353) -/

theorem Eng.returnBay_baysOnly (e : Eng) (m : Mem) (b : Nat) :
    Eng.BaysOnly { e with flt := { e.flt with bayResetNs := KV.put e.flt.bayResetNs b e.now } } (e.returnBay m b) :=
  Eng.bayBack_baysOnly _ m b

/-- What returning the bays of a dike leaves alone: the recovery under way, what waits for one, and the dikes in reset. -/
structure Eng.SameDikes (e e' : Eng) : Prop where
  recovery : e'.flt.recovery = e.flt.recovery
  queue : e'.flt.queue = e.flt.queue
  dikesReset : e'.flt.dikesReset = e.flt.dikesReset

theorem Eng.returnBays_sameDikes (e : Eng) (m : Mem) (l : List Nat) : e.SameDikes (l.foldl (Eng.returnBay m) e) :=
  List.foldlRecOn l (Eng.returnBay m) ⟨rfl, rfl, rfl⟩ (fun x hx b _ => by
    obtain ⟨hrecovery, hqueue, hdikes⟩ := hx
    have hflt := (x.returnBay_baysOnly m b).flt
    exact ⟨by rw [hflt]; exact hrecovery, by rw [hflt]; exact hqueue, by rw [hflt]; exact hdikes⟩)

section
variable {s : State} (h : s.on) (hq : s.eng.flt.queue = [])
include h hq

theorem exec_bayResetDone_passed {b : Nat} (hr : s.eng.flt.recovery = some (.bay b)) :
    ∃ e : Eng, exec (.bayResetDone b true) s = .next (s.leaves (e.settle s.hbm)) ∧ e.flt.recovery = none ∧ b ∉ e.flt.baysReset ∧
      KV.find e.flt.bayResetNs b = some s.eng.time.ns := by
  have hback := Eng.bayBack_baysOnly { s.work.ended with flt := s.work.ended.flt.returnsBay b s.work.now } s.hbm b
  refine ⟨_, exec_bayResetDone_ends h (s.work.bayResetEnds_passed s.hbm hr), ?_⟩
  rw [Eng.recoveryEnds_flt _ (by rw [hback.flt]; exact hq), hback.flt]
  exact ⟨rfl, by simp [Flt.returnsBay], (KV.find_put _ _ _ _).trans (if_pos rfl)⟩

theorem exec_bayResetDone_failed {b : Nat} (hr : s.eng.flt.recovery = some (.bay b)) :
    ∃ e : Eng, exec (.bayResetDone b false) s = .next (s.leaves (e.settle s.hbm)) ∧ e.flt.recovery = none ∧ b ∉ e.flt.baysReset ∧
      b ∈ e.flt.baysContained := by
  have hgone := s.work.ended.containBay_banksOnly b
  refine ⟨_, exec_bayResetDone_ends h (s.work.bayResetEnds_failed s.hbm hr), ?_⟩
  rw [Eng.recoveryEnds_flt _ (by rw [hgone.flt]; exact hq), hgone.flt]
  exact ⟨rfl, by simp [Flt.containsBay], mem_addOnce _ _⟩

theorem exec_dikeResetDone_passed {d : Nat} (hr : s.eng.flt.recovery = some (.dike d)) :
    ∃ e : Eng, exec (.dikeResetDone d true) s = .next (s.leaves (e.settle s.hbm)) ∧ e.flt.recovery = none ∧ d ∉ e.flt.dikesReset := by
  obtain ⟨hrecovery, hqueue, hdikes⟩ := Eng.returnBays_sameDikes { s.work.ended with flt := s.work.ended.flt.returnsDike d } s.hbm
    ((dikeBays d).filter (fun b => !s.work.flt.baysContained.contains b))
  refine ⟨_, exec_dikeResetDone_ends h (s.work.dikeResetEnds_passed s.hbm hr), ?_⟩
  rw [Eng.recoveryEnds_flt _ (hqueue.trans hq)]
  exact ⟨hrecovery, by rw [hdikes]; simp [Flt.returnsDike]⟩

theorem exec_dikeResetDone_failed {d : Nat} (hr : s.eng.flt.recovery = some (.dike d)) :
    ∃ e : Eng, exec (.dikeResetDone d false) s = .next (s.leaves (e.settle s.hbm)) ∧ e.flt.recovery = none ∧ d ∉ e.flt.dikesReset ∧
      d ∈ e.flt.dikesContained := by
  have hgone := s.work.ended.containDike_banksOnly d
  refine ⟨_, exec_dikeResetDone_ends h (s.work.dikeResetEnds_failed s.hbm hr), ?_⟩
  rw [Eng.recoveryEnds_flt _ (by rw [hgone.flt]; exact hq), hgone.flt]
  exact ⟨rfl, by simp [Flt.containsDike], mem_addOnce _ _⟩

end

theorem exec_containmentCleared_bay {s : State} (h : s.on) {b : Nat} (hb : b ∈ s.eng.flt.baysContained)
    (hu : bit s.eng.loader.baysUncfg b = false) :
    ∃ e : Eng, exec (.containmentCleared (some b) none) s = .next (s.leaves (e.settle s.hbm)) ∧ b ∉ e.flt.baysContained := by
  refine ⟨_, exec_containmentCleared_leaves h (s.work.clearContained_bay_returns hb hu), ?_⟩
  have hlifted : b ∉ (s.work.uncontainBay b).flt.baysContained := by simp [Eng.uncontainBay]
  rw [Eng.updateReplace_flt]
  split
  · exact hlifted
  · rw [((s.work.uncontainBay b).clearBay_banksOnly b).flt]
    exact hlifted

end Sys2Proof.Machine

open Sys2Proof Sys2Proof.Machine

/-- Settles O52: each command's end by its case; what a reset starts, and what its end leaves, follow from what flushing banks
and moving clusters leave alone. -/
theorem baysAndDikesAreResetOrContained : Obligations.BaysAndDikesAreResetOrContained := by
  unfold Obligations.BaysAndDikesAreResetOrContained
  refine ⟨fun s b h => ⟨exec_bayReset_contained h, fun hb hd => ⟨fun t => exec_bayReset_again h hb hd, fun hlate =>
      ⟨exec_bayReset_queues h hb hd hlate, fun hr hq hp hup => exec_bayReset_starts h hr hq hp hup (hlate.resolve_left ?_)⟩⟩⟩,
    fun s d h => ⟨exec_dikeReset_contained h, fun hd => ⟨exec_dikeReset_queues h hd, exec_dikeReset_starts h hd⟩⟩,
    fun s b h hb64 => ⟨exec_bayResetRequest_down h hb64, fun hb hup => ⟨exec_bayResetRequest_full h hb hup,
      fun hr hq => exec_bayResetRequest_waits h hb hup hq hr, exec_bayResetRequest_starts h hb hup⟩⟩,
    fun s b e h he => ⟨exec_bayResetDone_other h, fun hr => ?_⟩,
    fun s d e h he => ⟨exec_dikeResetDone_other h, fun hr => ?_⟩,
    fun s b e h he => ⟨fun hstays => exec_containmentCleared_leaves h (s.work.clearContained_bay_stays hstays), fun hb hu => ?_⟩,
    fun s d e h hd he => exec_containmentCleared_leaves h (s.work.clearContained_dike hd he),
    fun s b d h hr hq hp => ⟨fun hup hlate => ?_, fun hup halert hb => ?_, fun hd => ?_⟩,
    fun s b d h hq => ⟨fun hr => ⟨exec_bayResetDone_passed h hq hr, exec_bayResetDone_failed h hq hr⟩,
      fun hr => ⟨exec_dikeResetDone_passed h hq hr, exec_dikeResetDone_failed h hq hr⟩, exec_containmentCleared_bay h⟩⟩
  · obtain ⟨⟨hreset, -⟩, -⟩ := Eng.bayDown_eq_false hup
    exact hreset
  · subst he
    exact ⟨exec_bayResetDone_ends h (s.work.bayResetEnds_failed s.hbm hr), exec_bayResetDone_ends h (s.work.bayResetEnds_passed s.hbm hr)⟩
  · subst he
    exact ⟨exec_dikeResetDone_ends h (s.work.dikeResetEnds_failed s.hbm hr), exec_dikeResetDone_ends h (s.work.dikeResetEnds_passed s.hbm hr)⟩
  · subst he
    exact exec_containmentCleared_leaves h (s.work.clearContained_bay_returns hb hu)
  · obtain ⟨hrecovery, hqueue, hreset⟩ := h.startBay_leaves b
    exact ⟨_, exec_bayReset_starts h hr hq hp hup hlate, hrecovery, hqueue.trans hq, hreset⟩
  · obtain ⟨hrecovery, -, hreset⟩ := h.startBay_leaves b
    exact ⟨_, exec_bayResetRequest_starts halert hb hup hr hq, hrecovery, hreset⟩
  · obtain ⟨hrecovery, hqueue, hdike, hbays⟩ := h.startDike_leaves d
    exact ⟨_, exec_dikeReset_starts h hd hr hq hp, hrecovery, hqueue.trans hq, hdike, hbays⟩

end

section
/-! SUPPORT. The pool registers: which they are, where a write of one goes, and what leaves them as they are (R259, R432). -/

namespace Sys2Proof.Machine

/-! ### Where the pool registers lie (Table 11-8) -/

/-- TWK_BOB_TABLE, and base and count of each of the eight pools. -/
def poolRegs : List Nat := Reg.bobTable :: (List.range 16).map (fun i => 0xC0100 + 8 * i)

theorem mem_poolRegs {off : Nat} (h : isPoolReg off = true) : off ∈ poolRegs := by
  simp only [isPoolReg, Bool.or_eq_true, Bool.and_eq_true, beq_iff_eq, decide_eq_true_eq] at h
  simp only [poolRegs, List.mem_cons, List.mem_map, List.mem_range]
  obtain rfl | ⟨⟨hlow, hhigh⟩, hplace⟩ := h
  · exact .inl rfl
  · exact .inr ⟨(off - 0xC0100) / 8, by omega, by omega⟩

/-- Each is a register of its own width below the doorbells, apart from the management port's and the polder slots'. -/
theorem poolRegs_place : ∀ off ∈ poolRegs, accessOk off (isWide off) = true ∧ off < 0x200000 ∧ isWide (off - 4) = false ∧
    isMgmtReg off = false ∧ off / 0x10000 ≠ 2 := by
  decide

/-- All but TWK_BOB_TABLE: the bases are 64-bit registers, the counts 32-bit ones. -/
theorem poolRegs_width : ∀ off ∈ poolRegs, off ≠ Reg.bobTable → (isWide off = false ↔ off % 16 = 8) := by
  decide

theorem ne_of_isPoolReg {o r : Nat} (ho : isPoolReg o = true) (hr : isPoolReg r = false) : o ≠ r := by
  rintro rfl
  simp [ho] at hr

theorem regReset_pool {o : Nat} (h : isPoolReg o = true) : regReset o = 0 :=
  (show ∀ o ∈ poolRegs, regReset o = 0 by decide) o (mem_poolRegs h)

theorem surviveReg_pool {o : Nat} (h : isPoolReg o = true) : surviveReg o = true :=
  (show ∀ o ∈ poolRegs, surviveReg o = true by decide) o (mem_poolRegs h)

/-! ### Work that keeps the pool registers -/

/-- Every pool register has the value it had. -/
def Eng.SamePools (e e' : Eng) : Prop := ∀ o, isPoolReg o = true → e'.reg o = e.reg o

theorem Eng.SamePools.of_regs {e e' : Eng} (h : e'.regs = e.regs) : e.SamePools e' := fun o _ => by rw [Eng.reg, Eng.reg, h]

theorem Eng.SamePools.trans {e e' e'' : Eng} (h : e.SamePools e') (h' : e'.SamePools e'') : e.SamePools e'' :=
  fun o ho => (h' o ho).trans (h o ho)

section
variable {e e' : Eng} (h : e.SamePools e') {r v lo n k code arg tag : Nat} {polder bay dike quarter pos : Option Nat}
include h

theorem Eng.SamePools.setReg (hr : isPoolReg r = false) : e.SamePools (e'.setReg r v) :=
  fun o ho => (Eng.setReg_reg_other _ _ _ _ (ne_of_isPoolReg ho hr)).trans (h o ho)

theorem Eng.SamePools.bump (hr : isPoolReg r = false) : e.SamePools (e'.bump r lo n k) := h.setReg hr

theorem Eng.SamePools.post {p : Post} : e.SamePools (e'.post p) := h.trans (.of_regs rfl)

theorem Eng.SamePools.raise (hcode : isPoolReg (Reg.evtCnt (code / 256)) = false) : e.SamePools (e'.raise code arg polder tag) := by
  have hother : ∀ r ∈ [Reg.evtLost, Reg.evtLast, Reg.evtCnt (code / 256), Reg.evtCnt 5], isPoolReg r = false := by
    simp only [List.forall_mem_cons, List.not_mem_nil, false_implies, implies_true, and_true]
    exact ⟨rfl, rfl, hcode, rfl⟩
  intro o ho
  exact (Eng.raise_reg_other _ _ _ _ _ fun hmem => ne_of_isPoolReg ho (hother o hmem) rfl).trans (h o ho)

theorem Eng.SamePools.fltEvent (hcode : isPoolReg (Reg.evtCnt (code / 256)) = false) :
    e.SamePools (e'.fltEvent code bay dike quarter pos) := .raise (h.setReg (by rfl)) hcode

theorem Eng.SamePools.setReplace : e.SamePools e'.setReplace := by
  have hset : e.SamePools (e'.setReg Reg.engReplace e'.replaceWord) := h.setReg (by rfl)
  unfold Eng.setReplace
  split
  · exact h
  split
  · exact hset
  · exact .raise hset.post (by rfl)

theorem Eng.SamePools.updateReady : e.SamePools e'.updateReady := by
  unfold Eng.updateReady
  dsimp only
  split
  · refine .setReplace (.raise ?_ (by rfl))
    exact h.trans (.of_regs rfl)
  split
  · refine .raise ?_ (by rfl)
    exact h.trans (.of_regs rfl)
  · exact h

end

/-! ### Buffers given back by a host role that starts over -/

@[simp] theorem Eng.setEntry_regs (e : Eng) (n : Nat) (f : BEntry → BEntry) : (e.setEntry n f).regs = e.regs := rfl

@[simp] theorem Eng.toTail_regs (e : Eng) (p n : Nat) : (e.toTail p n).regs = e.regs := by
  unfold Eng.toTail
  dsimp only
  split <;> rfl

@[simp] theorem Eng.freeBuf_regs (e : Eng) (n : Nat) : (e.freeBuf n).regs = e.regs := by
  unfold Eng.freeBuf
  dsimp only
  split <;> simp

theorem Eng.samePools_engDec (e : Eng) (b : Buf) : e.SamePools (e.engDec b) := by
  unfold Eng.engDec
  dsimp only
  split
  · exact Eng.SamePools.bump (.of_regs rfl) (by rfl)
  split
  · exact .of_regs rfl
  split
  · exact .of_regs (by simp)
  · exact .of_regs rfl

/-- What each step of a fold keeps, the fold keeps. -/
theorem Eng.samePools_foldl {α : Type} {f : Eng → α → Eng} (hf : ∀ e a, Eng.SamePools e (f e a)) (l : List α) (e : Eng) :
    e.SamePools (l.foldl f e) := by
  induction l generalizing e with
  | nil => exact .of_regs rfl
  | cons a t ih => exact (hf e a).trans (ih (f e a))

theorem Eng.samePools_unready (e : Eng) (r : HostRole) : e.SamePools (e.unready r) :=
  (Eng.samePools_foldl (fun e b => e.samePools_engDec b) _ e).trans (.of_regs rfl)

/-! ### Compute reset (R432) -/

/-- The registers that survive a compute reset hold what they held once its host roles have started over. -/
theorem Eng.clearCompute_reg (e : Eng) {o : Nat} (h : surviveReg o = true) :
    e.clearCompute.reg o = ((e.roles.filter (fun r => !r.ready)).foldl (fun (e : Eng) r => e.unready r) e).reg o := by
  unfold Eng.clearCompute
  simp only [Eng.reg, KV.get, KV.find_filter, h, if_true]

theorem Eng.samePools_clearCompute (e : Eng) : e.SamePools e.clearCompute := fun o ho =>
  (e.clearCompute_reg (surviveReg_pool ho)).trans (Eng.samePools_foldl (fun e r => e.samePools_unready r) _ e o ho)

theorem Eng.samePools_startCompute (e : Eng) : e.SamePools e.startCompute := by
  unfold Eng.startCompute
  refine .updateReady (.fltEvent (.post (.bump (.bump (.setReg ?_ (by rfl)) (by rfl)) (by rfl))) (by rfl))
  exact e.samePools_clearCompute.trans (.of_regs rfl)

theorem Eng.samePools_computeFails (e : Eng) : e.SamePools e.computeFails := by
  unfold Eng.computeFails
  exact .updateReady (.post (.fltEvent (.of_regs rfl) (by rfl)))

theorem Eng.samePools_addFault_compute (e : Eng) : e.SamePools (e.addFault .compute) := by
  rw [Eng.addFault, if_pos rfl]
  split
  · exact e.samePools_computeFails
  · exact e.samePools_startCompute

theorem Eng.samePools_takeCorrupt (e : Eng) : e.SamePools e.takeCorrupt := by
  unfold Eng.takeCorrupt
  split
  · exact .trans (.of_regs rfl) (Eng.samePools_addFault_compute _)
  · exact .of_regs rfl

/-- The pool registers of the state a command leaves are those its work left. -/
theorem State.leaves_samePools (s : State) (e : Eng) : e.SamePools (s.leaves e).eng := e.samePools_takeCorrupt.trans (.of_regs rfl)

theorem exec_computeReset_samePools {s : State} (h : s.on) :
    ∃ t, exec .computeReset s = .next t ∧ s.eng.SamePools t.eng :=
  ⟨_, (exec_computeReset s).trans (h.onPower _), s.work.samePools_addFault_compute.trans (s.leaves_samePools _)⟩

theorem exec_engPorstN_pool (s : State) :
    ∃ t, exec .engPorstN s = .next t ∧ ∀ o, isPoolReg o = true → t.eng.reg o = 0 :=
  ⟨_, exec_engPorstN s, fun _ ho => regReset_pool ho⟩

/-! ### A write of a pool register (R259) -/

/-- What a pool register takes of a whole value written to it. -/
def poolValue (off v : Nat) : Nat := if off = Reg.bobTable then v / 4096 * 4096 else if isWide off then v else v % 2 ^ 23

/-- A value that fits its register, and for TWK_BOB_TABLE is aligned, is stored as it is, a count without its upper bits. -/
theorem poolValue_of_aligned {off v : Nat} (h : off = Reg.bobTable → v % 4096 = 0) :
    poolValue off v = if isWide off then v else v % 2 ^ 23 := by
  unfold poolValue
  split
  · next htable =>
    subst htable
    exact Nat.div_mul_cancel (Nat.dvd_of_mod_eq_zero (h rfl))
  · rfl

/-- The engine once a pool register has taken a value: where the configuration is valid, its table starts over. -/
def Eng.poolWritten (off v : Nat) (e : Eng) : Eng :=
  if (e.setReg off (poolValue off v)).poolsValid then (e.setReg off (poolValue off v)).bobInitTable false
  else e.setReg off (poolValue off v)

theorem Eng.writePool_refuses (e : Eng) (h : e.heldAny = true) (off byteOff : Nat) (wide : Bool) (v : Nat) :
    e.writePool off byteOff wide v = e.bobRefuse := if_pos h

theorem Eng.writePool_writes (e : Eng) (h : e.heldAny = false) {off v : Nat} (hoff : isPoolReg off = true) (hv : v < 2 ^ 64) :
    e.writePool off 0 (isWide off) v = e.poolWritten off v := by
  have hvalue : (if off = Reg.bobTable then mergeHalf (e.reg off) 0 (isWide off) v / 4096 * 4096
      else if off % 16 = 8 then v % 2 ^ 23 else mergeHalf (e.reg off) 0 (isWide off) v) = poolValue off v := by
    unfold poolValue
    split
    · next htable =>
      subst htable
      exact congrArg (· / 4096 * 4096) (Nat.mod_eq_of_lt hv)
    · next htable =>
      have hwidth := poolRegs_width off (mem_poolRegs hoff) htable
      cases hw : isWide off with
      | true =>
        have hbase : off % 16 ≠ 8 := fun hcount => by simp [hwidth.2 hcount] at hw
        rw [if_neg hbase, if_pos rfl]
        exact Nat.mod_eq_of_lt hv
      | false => simp [hwidth.1 hw]
  simp only [Eng.writePool, h, hvalue, Eng.poolWritten, Bool.false_eq_true, if_false]

/-- A whole write of a pool register reaches it, by whatever port. -/
theorem Eng.writeAccess_pool (e : Eng) (m : Mem) (mgmt : Bool) {off v : Nat} (hoff : isPoolReg off = true)
    (hv : isWide off = false → v < 2 ^ 32) :
    e.writeAccess m mgmt off (isWide off) v = (e.writePool off 0 (isWide off) v).settle m := by
  obtain ⟨hok, hlt, hw4, hmgmt, hslot⟩ := poolRegs_place off (mem_poolRegs hoff)
  have hdoorbell : ¬ (0x200000 ≤ off ∧ off < 0x220000) := by omega
  have hval : e.writeVal m mgmt off 0 (isWide off) v = (e.writePool off 0 (isWide off) v).settle m := by
    simp only [Eng.writeVal, hmgmt, hslot, hoff, Bool.false_eq_true, if_true, if_false]
  rw [← hval]
  cases hw : isWide off with
  | true => simp [Eng.writeAccess, hw ▸ hok, hw, hdoorbell]
  | false =>
    have hmod : v % 4294967296 = v := Nat.mod_eq_of_lt (hv hw)
    simp [Eng.writeAccess, Eng.write32, hw ▸ hok, hw, hw4, hdoorbell, hmod]

section
variable {s : State} (h : s.alert) {off v : Nat} (hoff : isPoolReg off = true) (hv : isWide off = false → v < 2 ^ 32)
include h hoff hv

theorem exec_poolConfigWrite_refuses (hheld : s.eng.heldAny = true) :
    exec (.poolConfigWrite off (isWide off) v) s = .next (s.leaves (s.work.bobRefuse.settle s.hbm)) := by
  rw [exec_poolConfigWrite, h.1.onPower, h.mmioWrite, Eng.writeAccess_pool _ _ _ hoff hv, s.work.writePool_refuses hheld]

theorem exec_poolConfigWrite_writes (hfree : s.eng.heldAny = false) (hv64 : v < 2 ^ 64) :
    exec (.poolConfigWrite off (isWide off) v) s = .next (s.leaves ((s.work.poolWritten off v).settle s.hbm)) := by
  rw [exec_poolConfigWrite, h.1.onPower, h.mmioWrite, Eng.writeAccess_pool _ _ _ hoff hv, s.work.writePool_writes hfree hoff hv64]

end

theorem Eng.poolWritten_regs (e : Eng) (off v : Nat) : (e.poolWritten off v).regs = (e.setReg off (poolValue off v)).regs := by
  unfold Eng.poolWritten
  split <;> rfl

theorem Eng.poolWritten_reg_same (e : Eng) (off v : Nat) : (e.poolWritten off v).reg off = poolValue off v := by
  rw [Eng.reg, Eng.poolWritten_regs]
  exact e.setReg_reg_same off _

theorem Eng.poolWritten_reg_other (e : Eng) {off o : Nat} (v : Nat) (h : o ≠ off) : (e.poolWritten off v).reg o = e.reg o := by
  rw [Eng.reg, Eng.poolWritten_regs]
  exact e.setReg_reg_other _ _ _ h

theorem Eng.samePools_bobRefuse (e : Eng) : e.SamePools e.bobRefuse := Eng.SamePools.raise (.of_regs rfl) (by rfl)

end Sys2Proof.Machine

open Sys2Proof Sys2Proof.Machine

/-- Settles O60: a write goes by HELD_ANY to the refusal or to the register alone; a compute reset keeps the pool registers since
every step of it does; the power-on reset leaves no register stored. -/
theorem poolRegistersHoldFastAndStick : Obligations.PoolRegistersHoldFastAndStick := by
  unfold Obligations.PoolRegistersHoldFastAndStick
  refine ⟨fun s off v wide h hoff hwide hv halign => ?_, fun s h _ => exec_computeReset_samePools h, exec_engPorstN_pool⟩
  subst hwide
  have hv32 : isWide off = false → v < 2 ^ 32 := fun hw => by simpa [hw] using hv
  have hv64 : v < 2 ^ 64 := Nat.lt_of_lt_of_le hv (by split <;> decide)
  refine ⟨fun hheld => ⟨_, rfl, exec_poolConfigWrite_refuses h hoff hv32 hheld, s.work.samePools_bobRefuse, ?_⟩,
    fun hfree => ⟨_, exec_poolConfigWrite_writes h hoff hv32 hfree hv64, ?_, fun o ho => s.work.poolWritten_reg_other v ho⟩⟩
  · rw [Eng.raise_bob]
  · rw [Eng.poolWritten_reg_same, poolValue_of_aligned halign]

end

section
/-! SUPPORT. How the buffer table starts over, and INIT, INIT_DONE and the late request of an empty pool (R258, R267). -/

namespace Sys2Proof.Machine

/-! ### What the table's start over leaves (R258) -/

theorem Eng.bufTotal_congr {e e' : Eng} (hcount : e'.poolCount = e.poolCount) : e'.bufTotal = e.bufTotal := by
  rw [Eng.bufTotal, Eng.bufTotal, Eng.poolFirst, Eng.poolFirst, hcount]

/-- Whether the configuration is valid is told by the registers alone. -/
theorem Eng.poolsValid_congr {e e' : Eng} (hcount : e'.poolCount = e.poolCount) (hbase : e'.poolBase = e.poolBase)
    (htable : e'.reg Reg.bobTable = e.reg Reg.bobTable) : e'.poolsValid = e.poolsValid := by
  rw [Eng.poolsValid, Eng.poolsValid, hcount, hbase, htable, Eng.bufTotal_congr hcount]

/-- TWK_BOB_CTRL is no part of the pool configuration. -/
theorem Eng.poolsValid_setReg_bobCtrl (e : Eng) (v : Nat) : (e.setReg Reg.bobCtrl v).poolsValid = e.poolsValid := by
  have hreg {o : Nat} (ho : Reg.bobCtrl < o) : (e.setReg Reg.bobCtrl v).reg o = e.reg o := e.setReg_reg_other _ _ _ (Nat.ne_of_gt ho)
  refine Eng.poolsValid_congr (funext fun p => congrArg (field · 0 23) (hreg ?_)) (funext fun p => hreg ?_) (hreg (by decide))
  · simp only [Reg.bobCtrl, Reg.bobPoolCount]; omega
  · simp only [Reg.bobCtrl, Reg.bobPoolBase]; omega

@[simp] theorem Eng.bobInitTable_poolsValid (e : Eng) (keep : Bool) : (e.bobInitTable keep).poolsValid = e.poolsValid :=
  Eng.poolsValid_congr rfl rfl rfl

/-- Writing to HBM changes no entry of the table, nor which buffers are fresh. -/
theorem Eng.freshFrom_store (e : Eng) (a : Nat) (bs : List Byte) (freed : List Nat) (fuel i top : Nat) :
    (e.store a bs).freshFrom freed fuel i top = e.freshFrom freed fuel i top := by
  induction fuel generalizing i with
  | zero => rfl
  | succ fuel ih =>
    rw [Eng.freshFrom, Eng.freshFrom, ih]
    rfl

theorem Eng.bufNext_store (e : Eng) (a : Nat) (bs : List Byte) (n : Nat) : (e.store a bs).bufNext n = e.bufNext n := by
  have hfresh (p i : Nat) : (e.store a bs).freshOf p i = e.freshOf p i := e.freshFrom_store a bs _ _ _ _
  unfold Eng.bufNext
  simp only [hfresh]
  rfl

theorem Eng.entryWord_store (e : Eng) (a : Nat) (bs : List Byte) (n : Nat) : (e.store a bs).entryWord n = e.entryWord n := by
  unfold Eng.entryWord
  rw [Eng.bufNext_store]
  rfl

theorem Eng.bobInitTable_configValid (e : Eng) (keep : Bool) : (e.bobInitTable keep).configValid = e.poolsValid :=
  (Bool.true_and _).trans (e.bobInitTable_poolsValid keep)

/-- The table that goes to HBM is the one the engine then holds. -/
theorem Eng.tableBack_wlog (e : Eng) : e.tableBack.wlog = (e.tableBack.reg Reg.bobTable,
    (List.range e.tableBack.bufTotal).flatMap (fun i => leBytes 8 (e.tableBack.entryWord i))) :: e.wlog := by
  have hentries : e.tableBack.entryWord = e.entryWord := funext (e.entryWord_store _ _)
  rw [hentries, Eng.bufTotal_congr (e := e) (e' := e.tableBack) rfl]
  rfl

/-- Where orphans do not stay, a start over keeps the retired entries and no others. -/
theorem Eng.bobInitTable_entries (e : Eng) {n : Nat} {b : BEntry} (h : KV.find (e.bobInitTable false).bob.entries n = some b) :
    b = { retired := true } := by
  obtain ⟨⟨k, old⟩, -, hkept⟩ := List.mem_filterMap.1 (KV.mem_of_find h)
  cases hold : old.retired <;> simp_all

section
variable (e : Eng) {off v : Nat}

theorem Eng.poolWritten_poolsValid : (e.poolWritten off v).poolsValid = (e.setReg off (poolValue off v)).poolsValid := by
  unfold Eng.poolWritten
  split <;> rfl

theorem Eng.poolWritten_invalid (h : (e.poolWritten off v).poolsValid = false) : e.poolWritten off v = e.setReg off (poolValue off v) :=
  if_neg (by simp [← e.poolWritten_poolsValid, h])

theorem Eng.poolWritten_valid (h : (e.poolWritten off v).poolsValid = true) :
    e.poolWritten off v = (e.setReg off (poolValue off v)).bobInitTable false :=
  if_pos (e.poolWritten_poolsValid.symm.trans h)

end

/-! ### INIT and INIT_DONE (R258) -/

/-- A write of TWK_BOB_CTRL with INIT set keeps DF_FAULT and starts the table over, or is refused. -/
theorem Eng.writeAccess_bobInit (e : Eng) (m : Mem) (mgmt : Bool) (v : Nat) :
    e.writeAccess m mgmt Reg.bobCtrl false (2 + v % 2) = ((e.setReg Reg.bobCtrl (v % 2)).initBob).settle m := by
  have hfault : (2 + v % 2) % 2 ^ 32 % 2 = v % 2 := by omega
  have hinit : bit ((2 + v % 2) % 2 ^ 32) 1 = true := by rw [bit, beq_iff_eq]; omega
  calc e.writeAccess m mgmt Reg.bobCtrl false (2 + v % 2)
      = (e.writeBobCtrl ((2 + v % 2) % 2 ^ 32)).settle m := rfl
    _ = ((e.setReg Reg.bobCtrl (v % 2)).initBob).settle m := by rw [Eng.writeBobCtrl, hinit, hfault]; rfl

theorem Eng.initBob_refuses (e : Eng) (h : e.heldAny = true ∨ e.configValid = false) : e.initBob = e.bobRefuse :=
  if_pos (by simpa using h)

theorem Eng.initBob_starts (e : Eng) (hheld : e.heldAny = false) (hvalid : e.configValid = true) : e.initBob = e.bobInitTable false :=
  if_neg (by simp [hheld, hvalid])

/-- The engine as INIT acts on it: DF_FAULT as it stands. -/
def State.faultStored (s : State) : Eng := s.work.setReg Reg.bobCtrl (s.eng.reg Reg.bobCtrl % 2)

/-- Storing DF_FAULT leaves CONFIG_VALID as it was. -/
theorem State.faultStored_configValid (s : State) : s.faultStored.configValid = s.eng.configValid :=
  congrArg (s.eng.bob.ready && ·) (s.work.poolsValid_setReg_bobCtrl _)

theorem exec_bobInit_alert {s : State} (h : s.alert) : exec .bobInit s = .next (s.leaves (s.faultStored.initBob.settle s.hbm)) := by
  rw [exec_bobInit, h.1.onPower, h.mmioWrite, Eng.writeAccess_bobInit]
  rfl

theorem exec_bobInit_refuses {s : State} (h : s.alert) (hrefused : s.eng.heldAny = true ∨ s.eng.configValid = false) :
    exec .bobInit s = .next (s.leaves (s.faultStored.bobRefuse.settle s.hbm)) := by
  rw [exec_bobInit_alert h, s.faultStored.initBob_refuses (hrefused.imp_right s.faultStored_configValid.trans)]

theorem exec_bobInit_starts {s : State} (h : s.alert) (hheld : s.eng.heldAny = false) (hvalid : s.eng.configValid = true) :
    exec .bobInit s = .next (s.leaves ((s.faultStored.bobInitTable false).settle s.hbm)) := by
  rw [exec_bobInit_alert h, s.faultStored.initBob_starts hheld (s.faultStored_configValid.trans hvalid)]

theorem exec_initDone_busy {s : State} (h : s.on) (hbusy : s.eng.bob.busy = true) :
    exec .initDone s = .next (s.leaves (({ s.work with bob := { s.eng.bob with busy := false } } : Eng).settle s.hbm)) :=
  (exec_initDone s).trans (h.onPower_leaves (if_pos hbusy))

theorem exec_initDone_idle {s : State} (h : s.on) (hidle : s.eng.bob.busy = false) :
    exec .initDone s = .next { s with eng := s.work } :=
  (exec_initDone s).trans (h.onPower_eng (if_neg (by simp [State.work, hidle])) rfl rfl)

/-! ### POOL_EMPTY_TIMEOUT (R267) -/

theorem Eng.poolLate_found (e : Eng) {p : Nat} {w : BWait}
    (hw : e.bob.waits.find? (fun w => w.pools.contains p && !w.raised) = some w) : e.poolLate p = e.poolWaitLate p w := by
  simp only [Eng.poolLate, hw]

theorem exec_poolEmptyTimeout_found {s : State} (h : s.on) {p : Nat} {w : BWait}
    (hw : s.eng.bob.waits.find? (fun w => w.pools.contains p && !w.raised) = some w) :
    exec (.poolEmptyTimeout p) s = .next (s.leaves (s.work.poolWaitLate p w)) :=
  (exec_poolEmptyTimeout p s).trans (h.onPower_leaves (s.work.poolLate_found hw))

end Sys2Proof.Machine

open Sys2Proof Sys2Proof.Machine

/-- Settles O40: a write goes by HELD_ANY to the refusal or to the register, and from there by the configuration's validity to the
table's start over; INIT goes the same two ways. -/
theorem poolsAreSetUpOnceNothingIsHeld : Obligations.PoolsAreSetUpOnceNothingIsHeld := by
  unfold Obligations.PoolsAreSetUpOnceNothingIsHeld
  refine ⟨fun s off v wide h hoff hv64 hwide hv => ?_, fun s h => ⟨fun hrefused => ⟨_, rfl, ?_⟩, fun hheld hvalid => ⟨_, rfl, ?_⟩⟩,
    fun s h => ⟨exec_initDone_busy h, exec_initDone_idle h⟩, fun s p w h hw => ⟨_, rfl, exec_poolEmptyTimeout_found h hw⟩⟩
  · subst hwide
    refine ⟨exec_poolConfigWrite_refuses h hoff hv, fun hfree => ⟨_, exec_poolConfigWrite_writes h hoff hv hfree hv64,
      s.work.poolWritten_reg_same off v, fun o ho => s.work.poolWritten_reg_other v ho, fun hinvalid => ?_, fun hvalid => ?_⟩⟩
    · rw [s.work.poolWritten_invalid hinvalid]
      rfl
    · rw [s.work.poolWritten_valid hvalid]
      have hconfig := (Eng.bobInitTable_configValid _ false).trans (s.work.poolWritten_poolsValid.symm.trans hvalid)
      exact ⟨rfl, hconfig, rfl, rfl, Eng.tableBack_wlog _, fun n b => Eng.bobInitTable_entries _⟩
  · exact exec_bobInit_refuses h hrefused
  · exact exec_bobInit_starts h hheld hvalid

end

section
/-! SUPPORT. ADMIT, RETIRE and RELEASE by their checks, and what releasing one buffer does (R263 to R265, R268, R270, R420). -/

namespace Sys2Proof.Machine

/-! ### Table entries of the bobbin manager (R257) -/

theorem Eng.bentry_setEntry_same (e : Eng) (n : Nat) (f : BEntry → BEntry) : (e.setEntry n f).bentry n = f (e.bentry n) :=
  KV.get_put _ _ _ _

theorem Eng.bentry_toTail (e : Eng) (p n k : Nat) : (e.toTail p n).bentry k = e.bentry k := by
  unfold Eng.toTail
  dsimp only
  split <;> rfl

/-- The GEN that follows one: 1 after 63 (R257). -/
def nextGen (gen : Nat) : Nat := if gen ≥ 63 then 1 else gen + 1

/-- A buffer given back is free or in its owner's reserve, held by nobody, with its next GEN. -/
theorem Eng.freeBuf_frees (e : Eng) (n : Nat) : (((e.freeBuf n).bentry n).st = .free ∨ ((e.freeBuf n).bentry n).st = .reserved) ∧
    ((e.freeBuf n).bentry n).count = 0 ∧ ((e.freeBuf n).bentry n).gen = nextGen (e.bentry n).gen := by
  unfold Eng.freeBuf
  dsimp only
  split
  · rw [Eng.bentry_setEntry_same]
    exact ⟨.inr rfl, rfl, rfl⟩
  · rw [Eng.bentry_toTail, Eng.bentry_setEntry_same]
    exact ⟨.inl rfl, rfl, rfl⟩

/-! ### One buffer of a RELEASE (R264) -/

/-- A reference given up: a unit of the engine counts no more of them than are left. -/
def Eng.dropRef (n : Nat) (e : Eng) : Eng := e.setEntry n (fun b => { b with count := b.count - 1, eng := min b.eng (b.count - 1) })

/-- A reference given up, and with the last one the buffer. -/
def Eng.giveBack (n : Nat) (e : Eng) : Eng := if (e.bentry n).count = 1 then (e.dropRef n).freeBuf n else e.dropRef n

section
variable (e : Eng) {n : Nat}

theorem Eng.dropRef_bentry : (e.dropRef n).bentry n =
    { e.bentry n with count := (e.bentry n).count - 1, eng := min (e.bentry n).eng ((e.bentry n).count - 1) } :=
  e.bentry_setEntry_same n _

theorem Eng.giveBack_count : ((e.giveBack n).bentry n).count = (e.bentry n).count - 1 := by
  unfold Eng.giveBack
  split
  · next hlast =>
    obtain ⟨-, hcount, -⟩ := (e.dropRef n).freeBuf_frees n
    rw [hcount, hlast]
  · rw [e.dropRef_bentry]

/-- A buffer with references left stays as it is held. -/
theorem Eng.giveBack_more (h : 1 < (e.bentry n).count) :
    ((e.giveBack n).bentry n).st = (e.bentry n).st ∧ ((e.giveBack n).bentry n).gen = (e.bentry n).gen := by
  rw [Eng.giveBack, if_neg (Nat.ne_of_gt h), e.dropRef_bentry]
  exact ⟨rfl, rfl⟩

theorem Eng.giveBack_last (h : (e.bentry n).count = 1) : (((e.giveBack n).bentry n).st = .free ∨ ((e.giveBack n).bentry n).st = .reserved) ∧
    ((e.giveBack n).bentry n).gen = nextGen (e.bentry n).gen := by
  obtain ⟨hst, -, hgen⟩ := (e.dropRef n).freeBuf_frees n
  rw [e.dropRef_bentry] at hgen
  rw [Eng.giveBack, if_pos h]
  exact ⟨hst, hgen⟩

variable {p gen : Nat} {single : Bool}

theorem Eng.releaseOne_foreign (howner : (e.bentry n).owner ≠ p) (hst : (e.bentry n).st = .held ∨ (e.bentry n).st = .reserved) :
    e.releaseOne (some p) single gen n = (stPriv, false, e) :=
  if_pos (by rcases hst with hst | hst <;> simp [hst, howner])

/-- A free buffer is a double free, which only a counter shows. -/
theorem Eng.releaseOne_free (hfree : (e.bentry n).st = .free) (hret : (e.bentry n).retired = false) :
    ∃ lo, e.releaseOne (some p) single gen n = (stDoubleFree, true, e.bump Reg.bobDf lo 16 1) := by
  unfold Eng.releaseOne
  dsimp only
  rw [if_neg (by simp [hfree]), if_neg (by simp [hret])]
  split
  · exact ⟨0, rfl⟩
  · exact ⟨16, if_pos (by simp [hfree])⟩

theorem Eng.releaseOne_held (hret : (e.bentry n).retired = false) (howner : (e.bentry n).owner = p) (hheld : (e.bentry n).st = .held)
    (hcount : 0 < (e.bentry n).count) (hgen : single = false ∨ gen = 0 ∨ gen = (e.bentry n).gen) :
    e.releaseOne (some p) single gen n = (0, false, e.giveBack n) := by
  have hmatch : ¬ (single && gen ≠ 0 && gen ≠ (e.bentry n).gen) = true := by
    rcases hgen with hgen | hgen | hgen <;> simp [hgen]
  unfold Eng.releaseOne
  dsimp only
  rw [if_neg (by simp [howner, hheld]), if_neg (by simp [hret]), if_neg hmatch, if_neg (by simp [hheld, Nat.ne_of_gt hcount])]
  rfl

end

/-! ### ADMIT and RETIRE (R268, R270) -/

theorem State.runs.exec_admit {s : State} {r idx : Nat} {c : Cmd} (h : s.runs r idx opAdmit c) {e : Eng} (he : (s.run c).admitNew c = e) :
    exec (.admitSeq r idx) s = .next (s.leaves (e.settle s.hbm)) :=
  (exec_admitSeq r idx s).trans (h.1.onPower_leaves ((h.runCmd _).trans (congrArg (Eng.settle s.hbm) he)))

theorem State.runs.exec_retire {s : State} {r idx : Nat} {c : Cmd} (h : s.runs r idx opRetire c) :
    exec (.retire r idx) s = .next (s.leaves (((s.run c).retireNew c).settle s.hbm)) :=
  (Machine.exec_retire r idx s).trans (h.1.onPower_leaves (h.runCmd _))

/-- The sequences of a command's polder. -/
def Eng.seqsOf (e : Eng) (c : Cmd) : List BSeq := e.bob.seqs.filter (fun x => x.polder == c.polder)

/-- An ADMIT that passed its checks waits with its sequence for the slot's boundary. -/
def Eng.admitWaits (c : Cmd) (e : Eng) : Eng :=
  { e with bob := { e.bob with seqs := e.bob.seqs ++ [{ polder := c.polder, seq := c.d.seq, slot := c.d.slot, resv := c.d.resv, cmd := c.id }] } }

section
variable (e : Eng) {c : Cmd}

/-- ADMIT's checks, in their order. -/
theorem Eng.admitNew_eq : e.admitNew c =
    if !e.reservedClass c.polder then e.complete c.id stBad
    else if (e.seqsOf c).any (fun x => x.seq == c.d.seq) then e.complete c.id stBad
    else if (e.seqsOf c).length ≥ 4096 then e.complete c.id stQuota
    else if (List.range 8).any (fun p => decide (e.bobQ c.polder p < c.d.resv.getD p 0)) then e.complete c.id stQuota
    else e.admitWaits c := rfl

theorem Eng.admitNew_bad (h : e.reservedClass c.polder = false ∨ ∃ x ∈ e.seqsOf c, x.seq = c.d.seq) : e.admitNew c = e.complete c.id stBad := by
  rw [Eng.admitNew_eq]
  split
  · rfl
  · next hclass => exact if_pos (by simpa using h.resolve_left (by simpa using hclass))

section
variable (hclass : e.reservedClass c.polder = true) (hnew : ∀ x ∈ e.seqsOf c, x.seq ≠ c.d.seq)
include hclass hnew

theorem Eng.admitNew_over (h : 4096 ≤ (e.seqsOf c).length ∨ ∃ p, p < 8 ∧ e.bobQ c.polder p < c.d.resv.getD p 0) :
    e.admitNew c = e.complete c.id stQuota := by
  rw [Eng.admitNew_eq, if_neg (by simp [hclass]), if_neg (by simpa using hnew)]
  split
  · rfl
  · next hroom => exact if_pos (by simpa using h.resolve_left hroom)

theorem Eng.admitNew_waits (hroom : (e.seqsOf c).length < 4096) (hquota : ∀ p, p < 8 → c.d.resv.getD p 0 ≤ e.bobQ c.polder p) :
    e.admitNew c = e.admitWaits c := by
  rw [Eng.admitNew_eq, if_neg (by simp [hclass]), if_neg (by simpa using hnew), if_neg (by simpa using hroom), if_neg (by simpa using hquota)]

end

end

/-! ### RELEASE (R264, R265) -/

theorem State.runs.exec_release {s : State} {r idx : Nat} {c : Cmd} (h : s.runs r idx opRelease c) {e : Eng} (he : (s.run c).releaseNow c = e) :
    exec (.release r idx) s = .next (s.leaves (e.settle s.hbm)) :=
  (Machine.exec_release r idx s).trans (h.1.onPower_leaves ((h.runCmd _).trans (congrArg (Eng.settle s.hbm) he)))

/-- How a RELEASE ends that has gone over its handles: `x` has the first failing status, how many were double frees, and the
engine. -/
def releaseEnded (c : Cmd) (x : Nat × Nat × Eng) : Eng :=
  (if x.2.1 = 0 then x.2.2 else x.2.2.raise 0x0490 (arg4 0 (field c.d.handle 22 3) x.2.1) (some c.polder) c.d.tag).complete c.id x.1

section
variable (e : Eng) {c : Cmd}

theorem Eng.releaseNow_bad (h : e.releaseRange c.d.handle c.d.relCount = none ∨ (1 < c.d.relCount ∧ field c.d.handle 26 6 ≠ 0)) :
    e.releaseNow c = e.complete c.id stBad := by
  unfold Eng.releaseNow
  dsimp only
  split
  · rfl
  · next hrange => exact if_pos (by simpa [hrange] using h)

theorem Eng.releaseNow_releases {l : List Nat} (hrange : e.releaseRange c.d.handle c.d.relCount = some l)
    (hgen : c.d.relCount = 1 ∨ field c.d.handle 26 6 = 0) {x : Nat × Nat × Eng}
    (hx : x = Eng.releaseAll (some c.polder) (decide (c.d.relCount = 1)) (field c.d.handle 26 6) l (0, 0, e)) :
    e.releaseNow c = if x.2.1 = 0 ∨ bit ((releaseEnded c x).reg Reg.bobCtrl) 0 = false then releaseEnded c x
      else (releaseEnded c x).tearDown c.polder 0x0490 c.d.tag none := by
  have hone : (decide (c.d.relCount > 1) && decide (field c.d.handle 26 6 ≠ 0)) = false := by
    rcases hgen with h | h <;> simp [h]
  obtain ⟨st, df, e'⟩ := x
  unfold Eng.releaseNow
  simp only [hrange, hone, ← hx, Bool.false_eq_true, if_false]
  by_cases hdf : df = 0
  · simp [hdf, releaseEnded]
  · simp only [releaseEnded, hdf, Nat.pos_of_ne_zero hdf, if_true, if_false, false_or, decide_true, Bool.true_and]
    split <;> simp_all

end

/-! ### RELEASE messages (R263, R420) -/

theorem exec_mxRel_full {s : State} (h : s.on) (handle count : Nat) (hfull : 256 ≤ s.eng.bob.fifo.length) :
    exec (.mxRel handle count) s = .next { s with eng := s.work } :=
  (exec_mxRel handle count s).trans (h.onPower_eng (if_pos hfull) rfl rfl)

/-- The engine with the FIFO of RELEASE messages as given. -/
def State.fifoSet (s : State) (l : List (Nat × Nat)) : Eng := { s.work with bob := { s.eng.bob with fifo := l } }

theorem exec_mxRel_joins {s : State} (h : s.on) (handle count : Nat) (hroom : s.eng.bob.fifo.length < 256) :
    exec (.mxRel handle count) s = .next (s.leaves (if 192 ≤ s.eng.bob.fifo.length + 1 ∧ s.eng.active = false
      then (s.fifoSet (s.eng.bob.fifo ++ [(handle, count)])).wake else s.fifoSet (s.eng.bob.fifo ++ [(handle, count)]))) := by
  refine (exec_mxRel handle count s).trans (h.onPower_leaves ((if_neg (Nat.not_le.2 hroom)).trans ?_))
  have hwake : (decide (192 ≤ (s.eng.bob.fifo ++ [(handle, count)]).length) && !s.eng.active) = true ↔
      192 ≤ s.eng.bob.fifo.length + 1 ∧ s.eng.active = false := by simp
  simp only [← hwake]
  rfl

theorem exec_releaseMessage_drains {s : State} (h : s.alert) {handle count : Nat} {rest : List (Nat × Nat)}
    (hfifo : s.eng.bob.fifo = (handle, count) :: rest) : exec .releaseMessage s =
      .next (s.leaves (((s.fifoSet rest).releaseMsg handle (if count = 0 then 4096 else count)).settle s.hbm)) := by
  have hfifo' : s.work.bob.fifo = (handle, count) :: rest := hfifo
  refine (exec_releaseMessage s).trans (h.1.onPower_leaves ?_)
  simp only [Eng.drainRelease, hfifo', h.awake, if_true]
  rfl

end Sys2Proof.Machine

open Sys2Proof Sys2Proof.Machine

/-- Settles O39: each command by its checks in order, a buffer by its entry, the messages by the length of their FIFO. -/
theorem reservesAndReleasesAnswerTheirChecks : Obligations.ReservesAndReleasesAnswerTheirChecks := by
  unfold Obligations.ReservesAndReleasesAnswerTheirChecks
  refine ⟨fun s r idx c mine h hmine => ?_, fun s r idx c h => h.exec_retire,
    fun s r idx c h => ⟨fun hbad => h.exec_release ((s.run c).releaseNow_bad hbad), fun l x e hrange hgen hx he => ?_⟩,
    fun e p gen n single b hb hret => ?_,
    fun s handle count h => ⟨exec_mxRel_full h handle count, exec_mxRel_joins h handle count⟩,
    fun s handle count rest h hfifo => exec_releaseMessage_drains h hfifo⟩
  · subst hmine
    refine ⟨fun st hst => ?_, fun hclass hnew hroom hquota => h.exec_admit ?_⟩
    · obtain ⟨rfl, hbad⟩ | ⟨rfl, hclass, hnew, hover⟩ := hst
      · exact h.exec_admit ((s.run c).admitNew_bad hbad)
      · exact h.exec_admit ((s.run c).admitNew_over hclass hnew hover)
    · exact (s.run c).admitNew_waits hclass hnew hroom hquota
  · subst he
    exact h.exec_release ((s.run c).releaseNow_releases hrange hgen hx)
  · subst hb
    refine ⟨e.releaseOne_foreign, fun hfree => ?_, fun howner hheld hcount hgen => ⟨_, e.releaseOne_held hret howner hheld hcount hgen,
      e.giveBack_count, fun hmore => ?_, e.giveBack_last⟩⟩
    · obtain ⟨lo, hone⟩ := e.releaseOne_free (p := p) (gen := gen) (single := single) hfree hret
      rw [hone]
      exact ⟨rfl, rfl, Eng.bump_bob _ _ _ _ _⟩
    · exact hheld ▸ e.giveBack_more hmore

end

section
/-! SUPPORT. Steps, completion and power: what a command is before power-good, and a compute reset that nothing delays
(R370, R376, R424). -/

namespace Sys2Proof.Machine

/-- Every command completes, whether it is work of the engine or of Tape, with the queue as it was. -/
theorem exec_completes (c : Instr) (s : State) : ∃ t, exec c s = .next t ∧ t.pending = s.pending := by
  cases hc : c.ofTape with
  | false =>
    obtain ⟨t, ht, hpending, -⟩ := exec_next_of_engine c s hc
    exact ⟨t, ht, hpending⟩
  | true =>
    obtain ⟨t, ht, -, hpending⟩ := exec_next_of_tape c s hc
    exact ⟨t, ht, hpending⟩

/-! ### Before power-good (R370) -/

/-- The state of a block that has written nothing is the state with no write under way. -/
theorem State.eng_of_wlog_nil {s : State} (h : s.eng.wlog = []) : ({ s with eng := { s.eng with wlog := [] } } : State) = s := by
  rw [← h]

/-- The end of phase 1 is nothing on an engine without power. -/
theorem Eng.spineDone_off (e : Eng) (h : e.boot.powered = false) : e.spineDone = e := by
  simp [Eng.spineDone, h]

theorem exec_spinePhaseDone_off {s : State} (h : s.eng.boot.powered = false) :
    exec .spinePhaseDone s = .next { s with eng := { s.eng with wlog := [] } } := by
  have hdone : Eng.spineDone { s.eng with wlog := [] } = { s.eng with wlog := [] } := Eng.spineDone_off _ h
  simp [exec_spinePhaseDone, State.apply, hdone, Eng.view]

/-! ### A compute reset that nothing delays (R353, R376) -/

theorem Eng.wake_of_active (e : Eng) (htrans : e.pwr.trans = false) (hcur : e.pwr.cur = 0) : e.wake = e := by
  simp [Eng.wake, htrans, hcur]

/-- Alone in the queue a compute reset is what comes next, and it starts at once. -/
theorem Eng.nextRecovery_compute (e : Eng) (hrec : e.flt.recovery = none) (htrans : e.pwr.trans = false)
    (hqueue : e.flt.queue = [.compute]) :
    e.nextRecovery = ({ e with flt := { e.flt with queue := [] } } : Eng).startCompute := by
  simp [Eng.nextRecovery, hrec, htrans, hqueue, Eng.covered, Eng.markUnits, Eng.nextFault, FaultRec.order]

/-- On an ACTIVE engine with no recovery running or waiting, a requested compute reset starts. -/
theorem Eng.requestReset_compute (e : Eng) (hrec : e.flt.recovery = none) (htrans : e.pwr.trans = false) (hcur : e.pwr.cur = 0)
    (hqueue : e.flt.queue = []) : e.requestReset .compute = ({ e with flt := { e.flt with queue := [] } } : Eng).startCompute := by
  have hwaits : e.requestReset .compute = ({ e with flt := { e.flt with queue := [.compute] } } : Eng).nextRecovery := by
    simp [Eng.requestReset, e.wake_of_active htrans hcur, hrec, hqueue]
  rw [hwaits]
  exact Eng.nextRecovery_compute _ hrec htrans rfl

/-! ### Lost clocks (R425, Table 19-4) -/

theorem exec_clockMissing_on {s : State} (h : s.on) (island : Nat) : exec (.clockMissing island) s =
    .next (s.leaves (if island < 3 then (s.work.islandBays island).foldl (fun (e : Eng) b => e.bayFault b) s.work
      else s.work.requestReset .compute)) := by
  refine (exec_clockMissing island s).trans (h.onPower_leaves ?_)
  have hp : s.work.boot.powered = true := h.1
  simp [Eng.clockLost, hp]

end Sys2Proof.Machine

open Sys2Proof Sys2Proof.Machine

/-- Settles O1: the queue is empty or starts with a command, the two cases of a step. -/
theorem stepRunsFrontCommand : Obligations.StepRunsFrontCommand := by
  unfold Obligations.StepRunsFrontCommand
  refine fun s => ⟨fun c rest hpending => ?_, fun hpending => ?_⟩
  · simp only [step, hpending]
  · simp only [step, hpending]

/-- Settles O2: a command is work of the engine or of Tape, and each of them completes with the queue as it was. -/
theorem everyCommandCompletes : Obligations.EveryCommandCompletes := by
  unfold Obligations.EveryCommandCompletes
  exact exec_completes

/-- Settles O4: the state after reset is one closed value, each part of which is computed. -/
theorem resetMeetsInv : Obligations.ResetMeetsInv := by
  unfold Obligations.ResetMeetsInv
  refine ⟨⟨Mem.wf_nil, rfl, rfl⟩, rfl, rfl, rfl, rfl, rfl, rfl, rfl, ?_, rfl, rfl, rfl, rfl, rfl, ?_⟩
  · decide
  · decide

/-- Settles O6: a command that is not of Tape waits for power-good, but for three: POWER_GOOD and ENG_PORST_N are set
aside, and the end of phase 1 finds no phase that runs. -/
theorem nothingBeforePower : Obligations.NothingBeforePower := by
  unfold Obligations.NothingBeforePower
  intro c s t hoff hwlog hengine hporst hgood hexec
  have hstays : exec c s = .next { s with eng := { s.eng with wlog := [] } } := by
    rcases exec_shape s c with ⟨-, f, hshape⟩ | ⟨-, ⟨r, rfl⟩ | rfl | rfl, -⟩ | ⟨htape, -⟩
    · rw [hshape, s.onPower_off f hoff]
    · exact absurd rfl (hgood r)
    · exact exec_spinePhaseDone_off hoff
    · exact absurd rfl hporst
    · cases hengine.symm.trans htape
  cases hstays.symm.trans hexec
  exact State.eng_of_wlog_nil hwlog

/-- Settles O10: a lost clock is a fault of its island's bays or asks for a compute reset; the power-on reset keeps only
what has left the engine. -/
theorem resetsAndLostClocks : Obligations.ResetsAndLostClocks := by
  unfold Obligations.ResetsAndLostClocks
  refine ⟨fun s h => ⟨fun island hisland => ?_, ?_, fun island hisland => ?_, ?_, fun hrec htrans hcur hqueue => ?_⟩, fun s => ?_⟩
  · simp [exec_clockMissing_on h, Eng.islandBays, hisland, Nat.lt_trans hisland]
  · exact exec_clockMissing_on h 2
  · simp [exec_clockMissing_on h, Nat.not_lt.2 hisland]
  · exact (exec_engCrstN s).trans (h.onPower _)
  · exact s.work.requestReset_compute hrec htrans hcur hqueue
  · exact ⟨_, exec_engPorstN s, rfl, rfl, rfl, rfl⟩

end

section
/-! SUPPORT. Waves and their self-tests, and what containing a bay leaves of it (R350, R351, R372). -/

namespace Sys2Proof.Machine

/-! ### Banks of a bay out of use (R350) -/

@[simp] theorem Eng.breakBank_flt (e : Eng) (b : Nat) : (e.breakBank b).flt = e.flt :=
  List.foldlRecOn (motive := fun e' : Eng => e'.flt = e.flt) _ _ rfl (fun _ h _ _ => (Eng.raise_flt ..).trans h)

@[simp] theorem Eng.loseFrames_flt (e : Eng) (b : Nat) : (e.loseFrames b).flt = e.flt := by
  unfold Eng.loseFrames
  extract_lets l gone
  split <;> rfl

@[simp] theorem Eng.setQmapByte_flt (e : Eng) (q n v : Nat) : (e.setQmapByte q n v).flt = e.flt := by
  unfold Eng.setQmapByte
  split <;> rfl

@[simp] theorem Eng.replaceCluster_flt (e : Eng) (q pos : Nat) : (e.replaceCluster q pos).flt = e.flt := by
  unfold Eng.replaceCluster
  split
  · rfl
  split
  · simp [Eng.postMap]
  split
  · rfl
  · simp [Eng.postMap]

/-- Losing a bank takes none out of those that are absent. -/
theorem Eng.bankLost_absent (e : Eng) (b : Nat) {k : Nat} (h : k ∈ e.flt.banksAbsent) : k ∈ (e.bankLost b).flt.banksAbsent := by
  unfold Eng.bankLost
  split
  · simp [h]
  · exact h

/-- One bank of a bay going out of use is among those absent from then on. -/
def Eng.bankGone (e : Eng) (k : Nat) : Eng :=
  let e := { e with flt.banksAbsent := if e.flt.banksAbsent.contains k then e.flt.banksAbsent else e.flt.banksAbsent ++ [k] }
  if e.bankPresent k then e.bankLost k else e

theorem Eng.bankGone_absent (e : Eng) (k : Nat) {j : Nat} (h : j = k ∨ j ∈ e.flt.banksAbsent) : j ∈ (e.bankGone k).flt.banksAbsent := by
  have hmarked : j ∈ (if e.flt.banksAbsent.contains k then e.flt.banksAbsent else e.flt.banksAbsent ++ [k]) := by
    obtain rfl | h := h
    · exact mem_addOnce _ _
    · split <;> simp [h]
  unfold Eng.bankGone
  extract_lets e'
  split
  · exact Eng.bankLost_absent _ _ hmarked
  · exact hmarked

theorem Eng.bankGone_foldl_absent (l : List Nat) (e : Eng) {j : Nat} (h : j ∈ l ∨ j ∈ e.flt.banksAbsent) :
    j ∈ (l.foldl Eng.bankGone e).flt.banksAbsent := by
  induction l generalizing e with
  | nil => simpa using h
  | cons k l ih =>
    refine ih _ ?_
    obtain h | h := h
    · obtain rfl | h := List.mem_cons.1 h
      · exact .inr (e.bankGone_absent j (.inl rfl))
      · exact .inl h
    · exact .inr (e.bankGone_absent k (.inr h))

theorem Eng.bayGone_absent (e : Eng) (b : Nat) {k : Nat} (h : k ∈ bayBanks b) : k ∈ (e.bayGone b).flt.banksAbsent := by
  have hflt : (e.bayGone b).flt = ((bayBanks b).foldl Eng.bankGone e).flt :=
    List.foldlRecOn (motive := fun e' : Eng => e'.flt = ((bayBanks b).foldl Eng.bankGone e).flt) _ _ rfl (fun e' h c _ => (e'.replaceCluster_flt c.1 c.2).trans h)
  rw [hflt]
  exact Eng.bankGone_foldl_absent _ _ (.inl h)

/-- Every bank of a contained bay is absent. -/
theorem Eng.containBay_absent (e : Eng) (b : Nat) {k : Nat} (h : k ∈ bayBanks b) : k ∈ (e.containBay b).flt.banksAbsent := by
  simp only [Eng.containBay, Eng.updateReady_flt, Eng.updateReplace_flt]
  exact Eng.bayGone_absent _ _ h

theorem Eng.bayDown_of_contained {e : Eng} {b : Nat} (h : b ∈ e.flt.baysContained ∨ b / 6 ∈ e.flt.dikesContained) :
    e.bayDown b = true := by
  obtain h | h := h <;> simp [Eng.bayDown, h]

theorem Eng.bayDown_containBay (e : Eng) (b : Nat) : (e.containBay b).bayDown b = true := by
  refine Eng.bayDown_of_contained (.inl ?_)
  rw [(e.containBay_banksOnly b).flt]
  exact mem_addOnce _ _

theorem dikeBays_div {d b : Nat} (h : b ∈ dikeBays d) : b / 6 = d := by
  obtain ⟨i, hi, rfl⟩ := List.mem_map.1 h
  have := List.mem_range.1 hi
  omega

theorem Eng.bayDown_containDike (e : Eng) {d b : Nat} (h : b ∈ dikeBays d) : (e.containDike d).bayDown b = true := by
  refine Eng.bayDown_of_contained (.inr ?_)
  rw [(e.containDike_banksOnly d).flt, dikeBays_div h]
  exact mem_addOnce _ _

/-! ### Waves (R372) -/

theorem Eng.releaseWave_next (e : Eng) (hphase : 2 ≤ e.boot.phase) (hroom : e.boot.wavesReleased.length < 6) :
    e.releaseWave e.boot.wavesReleased.length =
      { e.reach (e.boot.waveNs + 120000000) with boot :=
        { e.boot with wavesReleased := e.boot.wavesReleased ++ [e.boot.wavesReleased.length]
                      waveNs := max e.time.ns (e.boot.waveNs + 120000000) } } := by
  simp [Eng.releaseWave, Nat.not_lt.2 hphase, Nat.not_le.2 hroom]
  rfl

/-- The engine at the end of a wave's self-test, which for the last wave takes 30 ms longer (Table 16-1). -/
def Eng.selftestTime (w : Nat) (e : Eng) : Eng := if w = 5 then e.reach (e.boot.waveNs + 150000000) else e

/-- Bays of a dike that fail their self-test. -/
def failingBays (w : Nat) (failed : List Nat) : List Nat := (dikeBays w).filter (fun b => failed.contains b)

theorem failingBays_eq_nil {w : Nat} {failed : List Nat} (h : ∀ b ∈ dikeBays w, b ∉ failed) : failingBays w failed = [] :=
  List.filter_eq_nil_iff.2 (fun b hb => by simpa using h b hb)

theorem failingBays_ne_nil {w : Nat} {failed : List Nat} (h : ∃ b ∈ dikeBays w, b ∈ failed) : failingBays w failed ≠ [] := by
  obtain ⟨b, hb, hfailed⟩ := h
  exact List.ne_nil_of_mem (List.mem_filter.2 ⟨hb, by simpa using hfailed⟩)

theorem failingBays_length (w : Nat) (failed : List Nat) : (failingBays w failed).length = 6 ↔ failingBays w failed = dikeBays w := by
  have hsix : (dikeBays w).length = 6 := by simp [dikeBays]
  rw [failingBays, List.filter_eq_self, ← List.length_filter_eq_length_iff, hsix]

/-- What becomes of the failing bays of a wave: they are contained one by one, all six with their dike. -/
def Eng.containFailing (w : Nat) (bad : List Nat) (e : Eng) : Eng :=
  if bad.length = 6 then e.containDike w else bad.foldl (fun (e : Eng) b => e.containBay b) e

/-- A wave is done. -/
def Eng.waveDone (w : Nat) (e : Eng) : Eng := { e with boot := { e.boot with wavesDone := e.boot.wavesDone ++ [w] } }

theorem Eng.waveTested_once (e : Eng) {w : Nat} (failed : List Nat) (hreleased : e.boot.wavesReleased.contains w = true)
    (hdone : e.boot.wavesDone.contains w = false) :
    e.waveTested w failed = (((if (failingBays w failed).isEmpty then e.selftestTime w
      else (e.selftestTime w).raise 0x0908 (arg9 (e.selftestTime w).pwr.cur 0) none 0).containFailing w (failingBays w failed)).waveDone w).updateReady := by
  simp only [Eng.waveTested, hreleased, hdone, Bool.not_true, Bool.or_self, Bool.false_eq_true, if_false]
  rfl

theorem Eng.selftestTime_pwr (e : Eng) (w : Nat) : (e.selftestTime w).pwr = e.pwr := by
  unfold Eng.selftestTime
  split <;> rfl

/-- With no failing bay a self-test moves hall time and marks its wave done. -/
theorem Eng.waveTested_passed (e : Eng) {w : Nat} {failed : List Nat} (hreleased : e.boot.wavesReleased.contains w = true)
    (hdone : e.boot.wavesDone.contains w = false) (hpass : ∀ b ∈ dikeBays w, b ∉ failed) :
    e.waveTested w failed = ((e.selftestTime w).waveDone w).updateReady := by
  rw [e.waveTested_once failed hreleased hdone, failingBays_eq_nil hpass]
  rfl

theorem Eng.waveTested_failed (e : Eng) {w : Nat} {failed : List Nat} (hreleased : e.boot.wavesReleased.contains w = true)
    (hdone : e.boot.wavesDone.contains w = false) (hfail : ∃ b ∈ dikeBays w, b ∈ failed) :
    e.waveTested w failed = ((((e.selftestTime w).raise 0x0908 (arg9 e.pwr.cur 0) none 0).containFailing w
      (failingBays w failed)).waveDone w).updateReady := by
  rw [e.waveTested_once failed hreleased hdone, if_neg (mt List.isEmpty_iff.1 (failingBays_ne_nil hfail)), e.selftestTime_pwr]

theorem State.selftestTime_work (s : State) (w : Nat) :
    s.work.selftestTime w = { s.work with time := (s.work.selftestTime w).time } := by
  unfold Eng.selftestTime
  split <;> rfl

theorem State.selftestTime_ns (s : State) (w : Nat) : (s.work.selftestTime w).time.ns =
    if w = 5 then max s.eng.time.ns (s.eng.boot.waveNs + 150000000) else s.eng.time.ns := by
  unfold Eng.selftestTime
  split <;> rfl

/-- Work that leaves the Spool alone leaves the engine as it is, its writes in HBM. -/
theorem State.on.leaves_eng {s : State} (h : s.on) {e : Eng} (hspool : e.spool = s.eng.spool) :
    (s.leaves e).eng = { e with wlog := [] } := by
  rw [s.leaves_clean e (hspool ▸ h.2)]

theorem Eng.updateReady_wavesDone (e : Eng) : e.updateReady.boot.wavesDone = e.boot.wavesDone := by
  rw [Eng.updateReady_boot]

end Sys2Proof.Machine

open Sys2Proof Sys2Proof.Machine

/-- Settles O8: a release is one change of the bring-up record; a self-test is its time, its containments, and the mark
of its wave. -/
theorem wavesAreReleasedAndTested : Obligations.WavesAreReleasedAndTested := by
  unfold Obligations.WavesAreReleasedAndTested
  refine ⟨fun s h => ⟨fun w hphase hw hroom => ?_, fun w failed hreleased hdone hpass => ?_⟩,
    fun s w failed h hreleased hdone hfail => ?_, fun e b => ⟨e.bayDown_containBay b, fun k => e.containBay_absent b⟩,
    fun e d b => e.bayDown_containDike⟩
  · subst hw
    exact ⟨_, (exec_waveRelease _ s).trans (h.onPower_eng (s.work.releaseWave_next hphase hroom) rfl rfl), rfl, rfl, rfl, rfl⟩
  · have hwork : (s.work.selftestTime w).waveDone w = { s.work with
        time := (s.work.selftestTime w).time, boot := { s.eng.boot with wavesDone := s.eng.boot.wavesDone ++ [w] } } := by
      rw [Eng.waveDone, s.selftestTime_work w]
      rfl
    refine ⟨_, (s.work.selftestTime w).waveDone w, (exec_waveSelftestDone w failed s).trans (h.onPower_leaves
      (s.work.waveTested_passed hreleased hdone hpass)), rfl, hwork, s.selftestTime_ns w, ?_⟩
    have hspool : ((s.work.selftestTime w).waveDone w).updateReady.spool = s.eng.spool := by
      rw [Eng.updateReady_spool, hwork]
      rfl
    rw [h.leaves_eng hspool]
    exact (Eng.updateReady_wavesDone _).trans (by rw [hwork])
  · refine ⟨_, ((s.work.selftestTime w).raise 0x0908 (arg9 s.eng.pwr.cur 0) none 0).containFailing w (failingBays w failed),
      (exec_waveSelftestDone w failed s).trans (h.onPower_leaves (s.work.waveTested_failed hreleased hdone hfail)), rfl, _, rfl,
      fun hall => if_pos ((failingBays_length w failed).2 hall), fun hsome => if_neg (mt (failingBays_length w failed).1 hsome)⟩

end

section
/-! SUPPORT. Tacks: the pending list stays in order, and a latch copies the counters into one bank (R390 to R392). -/

namespace Sys2Proof

/-! ### Insertion into an ascending list -/

theorem mem_insertBy {α : Type} {le : α → α → Bool} {x y : α} {l : List α} : y ∈ insertBy le x l ↔ y = x ∨ y ∈ l := by
  induction l with
  | nil => simp [insertBy]
  | cons z l ih =>
    by_cases h : le z x = true
    · simp [insertBy, h, ih, or_left_comm]
    · simp [insertBy, h]

theorem length_insertBy {α : Type} (le : α → α → Bool) (x : α) (l : List α) : (insertBy le x l).length = l.length + 1 := by
  induction l with
  | nil => rfl
  | cons z l ih =>
    by_cases h : le z x = true <;> simp [insertBy, h, ih]

/-- Insertion by a key keeps a list ascending in it. -/
theorem insertBy_pairwise {α : Type} (key : α → Nat) (x : α) {l : List α} (h : l.Pairwise (fun a b => key a ≤ key b)) :
    (insertBy (fun a b => decide (key a ≤ key b)) x l).Pairwise (fun a b => key a ≤ key b) := by
  induction l with
  | nil => simp [insertBy]
  | cons z l ih =>
    obtain ⟨hz, hl⟩ := List.pairwise_cons.1 h
    by_cases hle : key z ≤ key x
    · simp only [insertBy, hle, decide_true, if_true]
      refine List.pairwise_cons.2 ⟨fun y hy => ?_, ih hl⟩
      obtain rfl | hy := mem_insertBy.1 hy
      · exact hle
      · exact hz y hy
    · simp only [insertBy, hle, decide_false, Bool.false_eq_true, if_false]
      refine List.pairwise_cons.2 ⟨fun y hy => ?_, h⟩
      obtain rfl | hy := List.mem_cons.1 hy
      · omega
      · exact Nat.le_trans (by omega) (hz y hy)

end Sys2Proof

namespace Sys2Proof.Machine

/-! ### TACK starts (R390) -/

theorem State.runs.exec_tack {s : State} {r idx : Nat} {c : Cmd} (h : s.runs r idx opTack c) {e : Eng} (he : (s.run c).startTack c = e) :
    exec (.tack r idx) s = .next (s.leaves (e.settle s.hbm)) :=
  (Machine.exec_tack r idx s).trans (h.1.onPower_leaves ((h.runCmd _).trans (congrArg (Eng.settle s.hbm) he)))

/-- A TACK of this chip alone only joins the list, or is refused where that is full. -/
theorem Eng.startTack_local (e : Eng) {c : Cmd} (hscope : c.d.scope ≠ 1) :
    e.startTack c = (e.addTack c.d.a false [c.id]).getD (e.complete c.id stBad) := by
  simp only [Eng.startTack, hscope, decide_false]
  cases e.addTack c.d.a false [c.id] <;> rfl

theorem Eng.addTack_joins (e : Eng) {t : Nat} (scope : Bool) (cmds : List Nat) (h : e.tacks.any (fun k => k.t == t) = true) :
    e.addTack t scope cmds = some { e with
      tacks := e.tacks.map (fun k => if k.t = t then { k with scope := k.scope || scope, cmds := k.cmds ++ cmds } else k) } := if_pos h

theorem Eng.addTack_full (e : Eng) {t : Nat} (scope : Bool) (cmds : List Nat) (h : e.tacks.any (fun k => k.t == t) = false)
    (hfull : 8 ≤ e.tacks.length) : e.addTack t scope cmds = none := by
  simp [Eng.addTack, h, hfull]

theorem Eng.addTack_inserts (e : Eng) {t : Nat} (scope : Bool) (cmds : List Nat) (h : e.tacks.any (fun k => k.t == t) = false)
    (hroom : e.tacks.length < 8) : e.addTack t scope cmds = some { e with
      tacks := insertBy (fun (a b : Tack) => a.t ≤ b.t) { t := t, scope := scope, cmds := cmds, due := decide (t < e.now) } e.tacks } := by
  simp [Eng.addTack, h, Nat.not_le.2 hroom]

/-! ### TACK_LATCH (R391, R392; log 11) -/

theorem exec_tackLatch_on {s : State} (h : s.on) {e : Eng} (he : s.work.latch = e) : exec .tackLatch s = .next (s.leaves (e.settle s.hbm)) :=
  (exec_tackLatch s).trans (h.onPower_leaves (congrArg (Eng.settle s.hbm) he))

/-- What the bank of a tack holds: its T and lateness, the count of latches, and the counters as they stand. -/
def Eng.shadow (e : Eng) (k : Tack) : Shadow :=
  { t := k.t, scope := k.scope, late := k.due, latches := satAdd 16 e.latches 1, ns := e.now, regs := e.regs, gauges := e.gauges
    experts := e.experts, srcs := e.srcs, spool := e.spool, bob := e.bob, slots := e.pld.slots, tt := e.tt, loader := e.loader }

/-- The first pending tack has left the list for its bank. -/
def Eng.latched (e : Eng) (k : Tack) (rest : List Tack) : Eng :=
  { e with tacks := rest, latches := satAdd 16 e.latches 1, lastBank := e.tackBank
           bank0 := if e.tackBank = 0 then some (e.shadow k) else e.bank0
           bank1 := if e.tackBank = 1 then some (e.shadow k) else e.bank1 }

/-- A tack's latch is told where it is late. -/
def Eng.tellLate (e : Eng) (k : Tack) : Eng := if k.due then e.raise 0x05B0 (arg5 0 0 0) none 0 else e

/-- A command of a tack completes with its HALL_TIME. -/
def Eng.endTack (t : Nat) (e : Eng) (id : Nat) : Eng :=
  (e.setCmd id (fun c => { c with res := { c.res with time := some t } })).complete id stOk

theorem Eng.latch_nil (e : Eng) (h : e.tacks = []) : e.latch = e := by
  simp [Eng.latch, h]

theorem Eng.latch_cons (e : Eng) {k : Tack} {rest : List Tack} (h : e.tacks = k :: rest) :
    e.latch = k.cmds.foldl (Eng.endTack (if k.due then (((e.reach k.t).latched k rest).tellLate k).now else k.t))
      (((e.reach k.t).latched k rest).tellLate k) := by
  simp only [Eng.latch, h]
  rfl

theorem Eng.tackBank_cases (e : Eng) : e.tackBank = 0 ∨ e.tackBank = 1 := by
  unfold Eng.tackBank
  extract_lets v
  split
  · exact .inr rfl
  split
  · exact .inl rfl
  · omega

/-- One bank holds the latched tack, and the other stays as it was. -/
theorem Eng.latched_banks (e : Eng) (k : Tack) (rest : List Tack) :
    ((e.latched k rest).lastBank = 0 ∧ (e.latched k rest).bank0 = some (e.shadow k) ∧ (e.latched k rest).bank1 = e.bank1) ∨
    ((e.latched k rest).lastBank = 1 ∧ (e.latched k rest).bank1 = some (e.shadow k) ∧ (e.latched k rest).bank0 = e.bank0) := by
  obtain h | h := e.tackBank_cases <;> simp [Eng.latched, h]

theorem Eng.tellLate_cmds (e : Eng) (k : Tack) : (e.tellLate k).cmds = e.cmds := by
  unfold Eng.tellLate
  split <;> simp

theorem Eng.tellLate_tacks (e : Eng) (k : Tack) : (e.tellLate k).tacks = e.tacks := by
  unfold Eng.tellLate
  split <;> simp

theorem Eng.tellLate_now (e : Eng) (k : Tack) : (e.tellLate k).now = e.now := by
  unfold Eng.tellLate Eng.now
  split <;> simp

end Sys2Proof.Machine

open Sys2Proof Sys2Proof.Machine

/-- Settles O38: a tack joins, is refused or is inserted by key; a latch moves the first one into a bank and completes
its commands. -/
theorem tacksLatchEveryCounter : Obligations.TacksLatchEveryCounter := by
  unfold Obligations.TacksLatchEveryCounter
  refine ⟨fun s r idx c h hscope => ?_, fun s h => ⟨fun hnone => ?_, fun k rest htacks hcmds hdue => ?_, fun k rest htacks id c hcmds _ => ?_⟩⟩
  · have hstart := (s.run c).startTack_local hscope
    refine ⟨fun hany => h.exec_tack ?_, fun hany hfull => h.exec_tack ?_, fun hany hroom hsorted => ?_⟩
    · rw [hstart, (s.run c).addTack_joins _ _ hany]
      rfl
    · rw [hstart, (s.run c).addTack_full _ _ hany hfull]
      rfl
    · refine ⟨_, h.exec_tack (hstart.trans (by rw [(s.run c).addTack_inserts _ _ hany hroom]; rfl)),
        insertBy_pairwise Tack.t _ hsorted, length_insertBy _ _ _, mem_insertBy.2 (.inl rfl), fun k hk => mem_insertBy.2 (.inr hk)⟩
  · exact exec_tackLatch_on h (s.work.latch_nil hnone)
  · have hlatch : s.work.latch = (s.work.reach k.t).latched k rest := by
      rw [s.work.latch_cons htacks, hcmds, Eng.tellLate, hdue]
      rfl
    exact ⟨_, _, exec_tackLatch_on h hlatch, rfl, rfl, hdue, rfl, rfl, rfl, rfl, rfl, rfl, Eng.latched_banks _ k rest⟩
  · refine ⟨((s.work.reach k.t).latched k rest).tellLate k, exec_tackLatch_on h ?_, Eng.tellLate_cmds _ _, Eng.tellLate_tacks _ _, ?_⟩
    · rw [s.work.latch_cons htacks, hcmds, Eng.tellLate_now]
      rfl
    · have hnow : (((s.work.reach k.t).latched k rest).tellLate k).time.ns = max s.work.time.ns k.t := Eng.tellLate_now _ _
      rw [hnow]
      exact Nat.le_max_right _ _

end

section
/-! SUPPORT. Gauges: the registers that bind and clear them, and what a sample changes (R384 to R387). -/

namespace Sys2Proof.Machine

/-- A write of half, or all, of TWK_GAU_BIND reaches it, by whatever port. -/
theorem Eng.writeAccess_gauBind (e : Eng) (m : Mem) (mgmt : Bool) {off v : Nat} {wide : Bool} (h : halfOk off wide v = true) :
    e.writeAccess m mgmt (Reg.gauBind + off) wide v = e.bindGauge off wide v :=
  e.writeAccess_half m mgmt h (by decide) (by decide) (by decide)

theorem exec_gauBind_alert {s : State} (h : s.alert) {off v : Nat} {wide : Bool} (hv : halfOk off wide v = true) :
    exec (.gauBind off wide v) s = .next (s.leaves (s.work.bindGauge off wide v)) := by
  rw [exec_gauBind, h.1.onPower, h.mmioWrite, Eng.writeAccess_gauBind _ _ _ hv]

/-- The gauge with a binding that is allowed: its values start over where another source is bound. -/
def Gauge.rebound (g : Gauge) (b now : Nat) : Gauge :=
  if bindKey b = bindKey g.bind then { g with bind := b } else { bind := b, clearedAt := now }

/-- What TWK_GAU_BIND holds after a write for the selected gauge. -/
def Eng.newBind (e : Eng) (off : Nat) (wide : Bool) (v : Nat) : Nat :=
  Nat.land (mergeHalf (e.gaugeAt e.gaugeSel).bind off wide v) bindMask

theorem Eng.bindGauge_ok (e : Eng) {off v : Nat} {wide : Bool} (h : e.bindOk (e.newBind off wide v) = true) :
    e.bindGauge off wide v = { e with
      gauges := KV.put e.gauges e.gaugeSel ((e.gaugeAt e.gaugeSel).rebound (e.newBind off wide v) e.now) } := if_pos h

theorem Eng.bindGauge_refused (e : Eng) {off v : Nat} {wide : Bool} (h : e.bindOk (e.newBind off wide v) = false) :
    e.bindGauge off wide v =
      (e.setReg Reg.gauStatus (setBit (e.reg Reg.gauStatus) 8 true)).raise 0x05B2 (arg5 0 0 0) none 0 := by
  unfold Eng.newBind at h
  simp only [Eng.bindGauge, h, Bool.false_eq_true, if_false]

theorem exec_gauClear_alert {s : State} (h : s.alert) :
    exec .gauClear s = .next { s with eng := s.work.clearGauge s.eng.gaugeSel } := by
  rw [exec_gauClear, h.1.onPower, h.mmioWrite]
  exact congrArg Host.Outcome.next (s.leaves_eq _ h.1.2 rfl)

/-! ### CLEAR_ALL (R387) -/

/-- Clearing the gauges of a list leaves the engine but for its gauges. -/
theorem Eng.clearGauge_foldl (l : List Nat) (e : Eng) :
    l.foldl (fun (e : Eng) g => e.clearGauge g) e = { e with gauges := (l.foldl (fun (e : Eng) g => e.clearGauge g) e).gauges } := by
  refine List.foldlRecOn (motive := fun e' : Eng => e' = { e with gauges := e'.gauges }) l _ rfl (fun e' h g _ => ?_)
  rw [Eng.clearGauge, h]

/-- Clearing the gauges of a list clears each of them, its binding kept, and no other. -/
theorem Eng.find_clearGauge_foldl (l : List Nat) (e : Eng) (k : Nat) :
    KV.find (l.foldl (fun (e : Eng) g => e.clearGauge g) e).gauges k =
      if k ∈ l then some ((e.gaugeAt k).clear e.now) else KV.find e.gauges k := by
  induction l generalizing e with
  | nil => rfl
  | cons g l ih =>
    have hput : KV.find (e.clearGauge g).gauges k = if k = g then some ((e.gaugeAt g).clear e.now) else KV.find e.gauges k :=
      KV.find_put _ _ _ _
    have hat : ((e.clearGauge g).gaugeAt k).bind = (e.gaugeAt k).bind := by
      simp only [Eng.gaugeAt, KV.get, hput]
      split
      next h => rw [h]; rfl
      next => rfl
    rw [List.foldl_cons, ih, hput]
    by_cases hk : k ∈ l
    · simp only [hk, if_true, List.mem_cons, or_true, Gauge.clear, hat]
      rfl
    · by_cases hkg : k = g
      · subst hkg
        simp [hk]
      · simp [hk, hkg]

theorem exec_gauClearAll_alert {s : State} (h : s.alert) :
    exec .gauClearAll s = .next { s with eng := { s.work with gauges := s.work.clearGauges.gauges } } := by
  have hclear : s.work.clearGauges = { s.work with gauges := s.work.clearGauges.gauges } := Eng.clearGauge_foldl _ _
  rw [exec_gauClearAll]
  refine h.1.onPower_eng ?_ rfl rfl
  rw [h.mmioWrite]
  exact hclear

/-! ### LEVEL_SAMPLE (R384; log 11) -/

theorem Eng.sampleLevels_past (e : Eng) {us : Nat} (h : us * 1000 < e.time.ns) : e.sampleLevels us = e := if_pos h

/-- A sample at a time not yet passed gives each gauge that samples then its source's value. -/
theorem Eng.sampleLevels_due (e : Eng) {us : Nat} (h : e.time.ns ≤ us * 1000) :
    e.sampleLevels us = { e.reach (us * 1000) with
      gauges := e.gauges.map (fun kg => match (if kg.2.samples us then (e.reach (us * 1000)).level kg.2.bind else none) with
        | some x => (kg.1, kg.2.take x)
        | none => kg) } := by
  have hdue : e.sampleLevels us = { e.reach (us * 1000) with
      gauges := e.gauges.map (fun kg => if kg.2.samples us then (match (e.reach (us * 1000)).level kg.2.bind with
        | some x => (kg.1, kg.2.take x)
        | none => kg) else kg) } := if_neg (Nat.not_lt.2 h)
  rw [hdue, List.map_congr_left (fun kg _ => ?_)]
  by_cases hs : kg.2.samples us = true
  · simp only [hs, if_true]
  · simp only [hs, Bool.false_eq_true, if_false]

end Sys2Proof.Machine

open Sys2Proof Sys2Proof.Machine

/-- Settles O56: each write reaches its register, whose work is on the gauges alone; a sample is a map over them. -/
theorem gaugesBindClearAndSample : Obligations.GaugesBindClearAndSample := by
  unfold Obligations.GaugesBindClearAndSample
  refine ⟨fun s off v b k wide g h hv hk hg hb => ?_, fun s h => exec_gauClear_alert h,
    fun s h => ⟨_, exec_gauClearAll_alert h, fun k hk => ?_, fun k hk => ?_⟩, fun s us h => ⟨fun hpast => ?_, fun hdue => ?_⟩⟩
  · subst hk hg hb
    refine ⟨fun hok => ⟨_, rfl, ?_⟩, fun hbad => ?_⟩
    · rw [exec_gauBind_alert h hv, s.work.bindGauge_ok hok]
      exact congrArg Host.Outcome.next (s.leaves_eq _ h.1.2 rfl)
    · rw [exec_gauBind_alert h hv, s.work.bindGauge_refused hbad]
      rfl
  · exact (Eng.find_clearGauge_foldl _ s.work k).trans (if_pos (List.mem_range.2 hk))
  · exact (Eng.find_clearGauge_foldl _ s.work k).trans (if_neg (mt List.mem_range.1 (Nat.not_lt.2 hk)))
  · exact (exec_levelSample us s).trans (h.onPower_eng (s.work.sampleLevels_past hpast) rfl rfl)
  · exact ⟨_, rfl, (exec_levelSample us s).trans (h.onPower_eng (s.work.sampleLevels_due hdue) rfl rfl)⟩

end

section
/-! SUPPORT. The exchange with the time parent, and the writes that void the promise of the mode (R332, R333, R340). -/

namespace Sys2Proof.Machine

/-! ### SYNC (R332, R333; log 28) -/

theorem Eng.syncStart_alone (e : Eng) (h : e.timeParent = none) : e.syncStart = e := by
  simp [Eng.syncStart, h]

theorem Eng.syncStart_asks (e : Eng) {p : Nat} (hp : e.boot.powered = true) (h : e.timeParent = some p) :
    e.syncStart = ({ e with time := { e.time with asked := some (p, e.now * 1000) } } : Eng).transmit (e.towards p) 7 64
      (.sync { peer := p, reply := false, t1 := e.now * 1000 }) := by
  simp [Eng.syncStart, hp, h]

theorem Eng.syncTake_request (e : Eng) {m : SyncMsg} (a : Nat) (hp : e.boot.powered = true) (h : m.reply = false) :
    e.syncTake m a = e.transmit (e.towards m.peer) 7 64
      (.sync { peer := m.peer, reply := true, t1 := m.t1, t2 := a - m.corr, t3 := e.now * 1000 }) := by
  simp [Eng.syncTake, hp, h]

/-- A reply that was asked for gives an offset, from its four timestamps. -/
theorem Eng.syncTake_reply (e : Eng) {m : SyncMsg} (a : Nat) {d : Int} (hp : e.boot.powered = true) (h : m.reply = true)
    (hasked : e.time.asked = some (m.peer, m.t1))
    (hd : d = Int.tdiv (((m.t2 : Int) - (m.t1 : Int)) - ((a : Int) - (m.corr : Int) - (m.t3 : Int))) 2) :
    e.syncTake m a = e.takeOffset m.peer d := by
  simp [Eng.syncTake, hp, h, hasked, hd]

theorem Eng.syncTake_stray (e : Eng) {m : SyncMsg} (a : Nat) (h : m.reply = true) (hasked : e.time.asked ≠ some (m.peer, m.t1)) :
    e.syncTake m a = e := by
  unfold Eng.syncTake
  split
  · rfl
  rw [h]
  cases hask : e.time.asked with
  | none => rfl
  | some pt =>
    obtain ⟨p, t1⟩ := pt
    have hne : ¬ (m.peer = p ∧ m.t1 = t1) := fun ⟨hp, ht⟩ => hasked (by rw [hask, hp, ht])
    simp [hne]

/-! ### An offset (R333; log 28) -/

/-- The engine with an offset taken: the count, the last three offsets, and no exchange under way. -/
def Eng.withOffset (d : Int) (e : Eng) : Eng :=
  { e.setReg Reg.detTimeOfs (ofSigned 32 d) with time := { e.time with
      ns := if e.boot.ready || e.time.set then e.time.ns else (e.time.ns + d / 1000).toNat
      offsets := (d :: e.time.offsets).take 3
      lastReply := if e.boot.ready || e.time.set then e.time.ns else (e.time.ns + d / 1000).toNat
      asked := none, set := true } }

/-- The last three offsets are all within 0.25 ns. -/
def inLock (l : List Int) : Bool := l.length = 3 && l.all (fun (o : Int) => o.natAbs ≤ 250)

theorem inLock_iff (l : List Int) : inLock l = true ↔ l.length = 3 ∧ ∀ o ∈ l, o.natAbs ≤ 250 := by
  simp [inLock]

/-- TIME_LOCKED takes a value, with its event where it changes. -/
def Eng.tellLock (p : Nat) (b : Bool) (e : Eng) : Eng :=
  if b && !e.time.locked then ({ e with time := { e.time with locked := true } } : Eng).raise 0x0191 (arg1 none p) none 0
  else if !b && e.time.locked then e.timeUnlocked
  else e

theorem Eng.takeOffset_eq (e : Eng) (p : Nat) (d : Int) :
    e.takeOffset p d = (e.withOffset d).tellLock p (inLock (e.withOffset d).time.offsets) := rfl

theorem TimeBase.locked_self {x : TimeBase} {b : Bool} (h : x.locked = b) : x = { x with locked := b } := by
  rw [← h]

theorem Eng.tellLock_time (e : Eng) (p : Nat) (b : Bool) : (e.tellLock p b).time = { e.time with locked := b } := by
  cases b <;> cases hlock : e.time.locked
  · rw [← TimeBase.locked_self hlock]
    simp [Eng.tellLock, hlock]
  · simp [Eng.tellLock, hlock, Eng.timeUnlocked]
  · simp [Eng.tellLock, hlock]
  · rw [← TimeBase.locked_self hlock]
    simp [Eng.tellLock, hlock]

theorem Eng.takeOffset_time (e : Eng) (p : Nat) (d : Int) :
    (e.takeOffset p d).time = { (e.withOffset d).time with locked := inLock (e.withOffset d).time.offsets } :=
  (congrArg Eng.time (e.takeOffset_eq p d)).trans (Eng.tellLock_time _ _ _)

/-- Work on hall time and the events that tell it leave HBM, the Spool, the commands and the ports alone. -/
structure Eng.TimeOnly (e e' : Eng) : Prop where
  wlog : e'.wlog = e.wlog
  spool : e'.spool = e.spool
  cmds : e'.cmds = e.cmds
  ports : e'.ports = e.ports

theorem Eng.TimeOnly.raise {e e' : Eng} (h : e.TimeOnly e') (code arg : Nat) (polder : Option Nat) (tag : Nat) :
    e.TimeOnly (e'.raise code arg polder tag) := by
  obtain ⟨hw, hs, hc, hp⟩ := h
  constructor <;> simpa

theorem Eng.TimeOnly.withTime {e e' : Eng} (h : e.TimeOnly e') (x : TimeBase) : e.TimeOnly { e' with time := x } := by
  obtain ⟨hw, hs, hc, hp⟩ := h
  exact ⟨hw, hs, hc, hp⟩

theorem Eng.takeOffset_timeOnly (e : Eng) (p : Nat) (d : Int) : e.TimeOnly (e.takeOffset p d) := by
  have hoff : e.TimeOnly (e.withOffset d) := ⟨rfl, rfl, rfl, rfl⟩
  rw [e.takeOffset_eq]
  unfold Eng.tellLock
  split
  · exact (hoff.withTime _).raise _ _ _ _
  split
  · exact (hoff.withTime _).raise _ _ _ _
  · exact hoff

/-- Work on hall time leaves the engine as it made it, and HBM as it was. -/
theorem State.on.leaves_timeOnly {s : State} (h : s.on) {e : Eng} (he : s.work.TimeOnly e) : s.leaves e = { s with eng := e } :=
  s.leaves_eq e ((congrArg _ he.spool).trans h.2) he.wlog

/-! ### A parent that does not answer (R333) -/

/-- The engine that gives up its parent: the time due has come, the offsets are gone. -/
def Eng.parentLost (p : Nat) (e : Eng) : Eng :=
  { e.reach (e.time.lastReply + 100000000) with time := { (e.reach (e.time.lastReply + 100000000)).time with
      offsets := [], asked := none, lastReply := max e.time.ns (e.time.lastReply + 100000000), skipped := e.time.skipped ++ [p] } }

theorem Eng.syncLost_eq (e : Eng) {p : Nat} (hp : e.boot.powered = true) (h : e.timeParent = some p) :
    e.syncLost = (if (e.parentLost p).timeParent.isNone || (e.parentLost p).timeParent == some p
      then { e.parentLost p with time := { (e.parentLost p).time with skipped := [] } } else e.parentLost p : Eng).timeUnlocked := by
  simp only [Eng.syncLost, hp, h, Bool.not_true, Bool.false_eq_true, if_false]
  rfl

theorem Eng.syncLost_time (e : Eng) {p : Nat} (hp : e.boot.powered = true) (h : e.timeParent = some p) :
    ∃ l, e.syncLost.time = { (e.parentLost p).time with locked := false, skipped := l } := by
  rw [e.syncLost_eq hp h, Eng.timeUnlocked, Eng.raise_time]
  split <;> exact ⟨_, rfl⟩

theorem Eng.syncLost_timeOnly (e : Eng) {p : Nat} (hp : e.boot.powered = true) (h : e.timeParent = some p) : e.TimeOnly e.syncLost := by
  rw [e.syncLost_eq hp h]
  refine .raise ?_ _ _ _ _
  split <;> exact ⟨rfl, rfl, rfl, rfl⟩

/-! ### The mode and the seeds (R322, R329, R340) -/

theorem exec_engMode_alert {s : State} (h : s.alert) {v : Nat} (hv : v < 2 ^ 32) :
    exec (.engMode v) s = .next (s.leaves (s.work.writeMode v)) := by
  have hwrite : s.work.writeAccess s.hbm false Reg.engMode false v = s.work.writeMode (v % 2 ^ 32) := rfl
  rw [exec_engMode, h.1.onPower, h.mmioWrite, hwrite, Nat.mod_eq_of_lt hv]

theorem Eng.writeMode_same (e : Eng) {v : Nat} (h : bit v 0 = e.detm) : e.writeMode v = e := if_pos h

/-- DETM is changed, and told. -/
def Eng.modeChanged (v : Nat) (e : Eng) : Eng := (e.setReg Reg.engMode (v % 2)).raise 0x05A0 (arg5 0 0 0) none 0

theorem Eng.modeChanged_detm (e : Eng) (v : Nat) : (e.modeChanged v).detm = bit v 0 := by
  rw [Eng.detm, Eng.modeChanged, Eng.raise_reg_other _ _ _ _ _ (by decide), Eng.setReg_reg_same]
  simp [bit]

theorem Eng.writeMode_changes (e : Eng) {v : Nat} (h : bit v 0 ≠ e.detm) :
    e.writeMode v = if e.stepOpen (fun _ => true) then (e.modeChanged v).voidPromise else e.modeChanged v := by
  have hopen : (e.modeChanged v).stepOpen (fun _ => true) = e.stepOpen (fun _ => true) := by
    simp [Eng.stepOpen, Eng.modeChanged]
  rw [← hopen]
  exact if_neg h

theorem Eng.writeAccess_detSeed (e : Eng) (m : Mem) (mgmt : Bool) {off v : Nat} {wide : Bool} (h : halfOk off wide v = true) :
    e.writeAccess m mgmt (Reg.detSeed + off) wide v = e.writeSeed off wide v :=
  e.writeAccess_half m mgmt h (by decide) (by decide) (by decide)

theorem exec_detSeed_alert {s : State} (h : s.alert) {off v : Nat} {wide : Bool} (hv : halfOk off wide v = true) :
    exec (.detSeed off wide v) s = .next (s.leaves (s.work.writeSeed off wide v)) :=
  (exec_detSeed off wide v s).trans (h.1.onPower_leaves ((h.mmioWrite _ _ _).trans (s.work.writeAccess_detSeed s.hbm false hv)))

section
variable (e : Eng) {off v : Nat} {wide : Bool} {p : PldSlot} {seed : W64} (hp : p = e.pslot e.seedSlot)
  (hseed : seed = BitVec.ofNat 64 (mergeHalf p.seed.toNat off wide v))
include hp hseed

theorem Eng.writeSeed_same (h : p.st = .empty ∨ seed = p.seed) : e.writeSeed off wide v = e := by
  subst hp
  refine if_pos ?_
  simpa [← hseed] using h

theorem Eng.writeSeed_changes (hst : p.st ≠ .empty) (hne : seed ≠ p.seed) :
    e.writeSeed off wide v = if e.stepOpen (fun k => (e.polderSlots p.polder).contains k)
      then (e.setPslot e.seedSlot (fun q => { q with seed := seed })).voidPromise else e.setPslot e.seedSlot (fun q => { q with seed := seed }) := by
  subst hp
  refine (if_neg ?_).trans ?_
  · simpa [← hseed] using ⟨hst, hne⟩
  · rw [← hseed]
    rfl

end

end Sys2Proof.Machine

open Sys2Proof Sys2Proof.Machine

/-- Settles O45: SYNC by the message and what was asked, an offset by what it makes of hall time, a write by whether it
changes its value. -/
theorem hallTimeAndPromises : Obligations.HallTimeAndPromises := by
  unfold Obligations.HallTimeAndPromises
  refine ⟨⟨fun s h => ⟨fun hnone => ?_, fun p hp => ?_⟩, fun s m a h hreply => ?_, fun s m a h hreply hasked => ?_,
    fun s m a d h hreply hasked hd => ?_, fun s p h hp => ?_, fun s h => ?_⟩, fun s v h hv => ⟨fun hsame => ?_, fun hnew => ?_⟩,
    fun s off v wide p seed h hv hp hseed => ⟨fun hsame => ?_, fun hst hne => ?_⟩⟩
  · exact (exec_syncTimer s).trans (h.onPower_eng (s.work.syncStart_alone hnone) rfl rfl)
  · exact ⟨_, rfl, (exec_syncTimer s).trans (h.onPower_leaves (s.work.syncStart_asks h.1 hp))⟩
  · exact (exec_syncMessage m a s).trans (h.onPower_leaves (s.work.syncTake_request a h.1 hreply))
  · exact (exec_syncMessage m a s).trans (h.onPower_eng (s.work.syncTake_stray a hreply hasked) rfl rfl)
  · have honly := s.work.takeOffset_timeOnly m.peer d
    have htime := s.work.takeOffset_time m.peer d
    refine ⟨_, (exec_syncMessage m a s).trans (h.onPower_leaves (s.work.syncTake_reply a h.1 hreply hasked hd)), ?_⟩
    rw [h.leaves_timeOnly honly]
    refine ⟨congrArg TimeBase.asked htime, congrArg TimeBase.offsets htime, (congrArg TimeBase.ns htime).trans ?_, ?_, rfl, rfl,
      honly.cmds, honly.ports⟩
    · simp only [Eng.withOffset, ← Bool.or_eq_true]
      rfl
    · rw [htime]
      exact inLock_iff _
  · have honly := s.work.syncLost_timeOnly h.1 hp
    obtain ⟨l, htime⟩ := s.work.syncLost_time h.1 hp
    refine ⟨_, (exec_syncTimeout s).trans (h.onPower_leaves rfl), ?_⟩
    rw [h.leaves_timeOnly honly]
    refine ⟨?_, ?_, ?_, ?_, ?_, rfl, honly.cmds, honly.ports⟩ <;> rw [htime] <;> rfl
  · exact (exec_timeRootDesignated s).trans (h.onPower_eng rfl rfl rfl)
  · rw [exec_engMode_alert h hv, s.work.writeMode_same hsame]
    exact congrArg Host.Outcome.next (s.leaves_eq _ h.1.2 rfl)
  · exact ⟨_, rfl, Eng.modeChanged_detm _ _, by rw [exec_engMode_alert h hv, s.work.writeMode_changes hnew]; rfl⟩
  · rw [exec_detSeed_alert h hv, s.work.writeSeed_same hp hseed hsame]
    exact congrArg Host.Outcome.next (s.leaves_eq _ h.1.2 rfl)
  · exact ⟨_, rfl, by rw [exec_detSeed_alert h hv, s.work.writeSeed_changes hp hseed hst hne]; rfl⟩

end

section
/-! SUPPORT. A lane that fails again while the engine rests in a power state: the event of the mismatch wakes the engine, and
during the exit that it starts no recovery starts (R344, R376, R435). -/

namespace Sys2Proof.Machine

/-- An engine in power state 3 that no transition of leads anywhere, with an event ring of 64 records; lane 0 of cluster 0 has
failed at cycle 0. -/
def restingState : State where
  eng := { boot := { powered := true }, pwr := { cur := 3 }, flt := { laneLast := [(0, 0)] }, regs := [(Reg.evtCfg, 6)] }

theorem restingState_on : restingState.on := ⟨rfl, rfl⟩

/-- The lane's second failure is told first, and being of class 6 the event starts the exit to ACTIVE; the substitution then
waits in the queue for its end. -/
theorem restingState_waits : (restingState.work.laneFails 0 0 0 0).flt.recovery = none := by
  decide +kernel

end Sys2Proof.Machine

open Sys2Proof Sys2Proof.Machine

/-- Refutes O51, in its clause on a substitution that starts where no recovery runs or waits and no transition goes on. In a
power state the event of the mismatch itself starts a transition, the exit to ACTIVE, and the substitution waits for it. -/
theorem not_failedClustersAndHalvesAreReplaced : ¬ Obligations.FailedClustersAndHalvesAreReplaced := by
  unfold Obligations.FailedClustersAndHalvesAreReplaced
  intro h
  obtain ⟨hlane, -⟩ := h
  obtain ⟨-, hpresent⟩ := hlane restingState 0 0 0 0 0 0 _ restingState_on (by decide) rfl rfl
  obtain ⟨-, hagain⟩ := hpresent (by decide) (by decide)
  obtain ⟨-, hstarts⟩ := hagain 0 rfl (Nat.le_refl 0) (Nat.zero_le _)
  obtain ⟨u, hu, hrecovery, -⟩ := hstarts rfl rfl rfl
  obtain rfl := Host.Outcome.next.inj (hu.symm.trans
    ((exec_laneMismatch 0 0 0 0 restingState).trans (restingState_on.onPower_leaves rfl)))
  have hclean : (restingState.work.laneFails 0 0 0 0).spool.corrupt = false := by decide +kernel
  rw [restingState.leaves_clean _ hclean] at hrecovery
  cases restingState_waits.symm.trans hrecovery

end

section
/-! SUPPORT. The entry into a power state whose own event is the 48th that is held: the event starts the exit (R379, R435). -/

namespace Sys2Proof.Machine

/-- An engine in power state 3 that enters state 4, with an event ring of 64 records, 47 of which are held. -/
def fullHoldState : State where
  eng := { boot := { powered := true }, pwr := { cur := 3, trans := true, target := 4 }, regs := [(Reg.evtCfg, 6)]
           evt := { held := List.replicate 47 [] } }

theorem fullHoldState_on : fullHoldState.on := ⟨rfl, rfl⟩

/-- The event of the entry is held as the 48th, which wakes the engine again. -/
theorem fullHoldState_wakes : fullHoldState.work.entryDone.pwr.trans = true := by
  decide +kernel

end Sys2Proof.Machine

open Sys2Proof Sys2Proof.Machine

/-- Refutes O55, in its clause on an entry with no wake meanwhile. The entry's own event is held for the ring, and where it is
the 48th held record it starts the exit, though no wake came. -/
theorem not_powerStatesAreEnteredAndLeft : ¬ Obligations.PowerStatesAreEnteredAndLeft := by
  unfold Obligations.PowerStatesAreEnteredAndLeft
  intro h
  obtain ⟨-, hentry, -⟩ := h
  obtain ⟨t, ht, -, -, -, -, -, hrests, -⟩ := hentry fullHoldState 4 fullHoldState_on rfl rfl (by decide) rfl
  have hclean : fullHoldState.work.entryDone.spool.corrupt = false := by decide +kernel
  obtain rfl := Host.Outcome.next.inj (ht.symm.trans
    ((exec_powerEntryDone fullHoldState).trans (fullHoldState_on.onPower_leaves rfl)))
  have htrans := hrests rfl
  rw [fullHoldState.leaves_clean _ hclean] at htrans
  cases htrans.symm.trans fullHoldState_wakes

end

section
/-! SUPPORT. What the end of any command keeps: hall time, and the commands that have ended. The handshake that forms a group (R276,
R277, R288), and the numbers of collectives and barriers (R275, R283, R335). -/

namespace Sys2Proof.Machine

/-! ### The end of a command of any opcode (R66, R87) -/

/-- What the end of a command keeps: hall time, which commands there are, and every command that has ended, but for where its completion
record stands. -/
structure Eng.Closes (e e' : Eng) : Prop where
  time : e'.time = e.time
  ids : e'.cmds.map (·.id) = e.cmds.map (·.id)
  ended : ∀ id x, e.cmd? id = some x → x.done = true → ∃ held recorded, e'.cmd? id = some (x.withSlot held recorded)

theorem Eng.KeepsEnded.closes {e e' : Eng} (h : e.KeepsEnded e') (ht : e'.time = e.time)
    (hids : e'.cmds.map (·.id) = e.cmds.map (·.id)) : e.Closes e' := ⟨ht, hids, h.ended⟩

theorem Eng.Closes.of_cmds {e e' : Eng} (ht : e'.time = e.time) (hc : e'.cmds = e.cmds) : e.Closes e' :=
  ⟨ht, by rw [hc], fun id x hx _ => ⟨x.slotHeld, x.recorded, by rw [Eng.cmd?, hc]; exact hx⟩⟩

theorem Eng.Closes.refl (e : Eng) : e.Closes e := .of_cmds rfl rfl

theorem Eng.Closes.trans {e e' e'' : Eng} (h : e.Closes e') (h' : e'.Closes e'') : e.Closes e'' := by
  refine ⟨h'.time.trans h.time, h'.ids.trans h.ids, fun id x hx hdone => ?_⟩
  obtain ⟨held, recorded, hx'⟩ := h.ended id x hx hdone
  obtain ⟨held', recorded', hx''⟩ := h'.ended id _ hx' hdone
  exact ⟨held', recorded', hx''⟩

theorem Eng.Closes.foldl {α : Type} {f : Eng → α → Eng} (hf : ∀ (e : Eng) x, e.Closes (f e x)) (l : List α) (e : Eng) :
    e.Closes (l.foldl f e) :=
  List.foldlRecOn l f (.refl e) (fun e' h x _ => h.trans (hf e' x))

/-- A command that is not there is not there afterwards. -/
theorem Eng.Closes.absent {e e' : Eng} (h : e.Closes e') {id : Nat} (hc : e.cmd? id = none) : e'.cmd? id = none := by
  have hnot : ∀ e : Eng, e.cmd? id = none ↔ id ∉ e.cmds.map (·.id) := fun e => by
    simp [Eng.cmd?]
  rw [hnot] at hc ⊢
  rw [h.ids]
  exact hc

theorem map_updFirst_id {f : Cmd → Cmd} (hf : ∀ x, (f x).id = x.id) (id : Nat) (l : List Cmd) :
    (updFirst (fun c => c.id == id) f l).map (·.id) = l.map (·.id) := by
  induction l with
  | nil => rfl
  | cons c l ih =>
    unfold updFirst
    split
    · simp [hf]
    · simp [ih]

theorem Eng.setCmd_ids (e : Eng) (id : Nat) {f : Cmd → Cmd} (hf : ∀ x, (f x).id = x.id) :
    (e.setCmd id f).cmds.map (·.id) = e.cmds.map (·.id) :=
  map_updFirst_id hf id e.cmds

theorem Eng.toTail_closes (e : Eng) (p n : Nat) : e.Closes (e.toTail p n) := by
  unfold Eng.toTail
  dsimp only
  split <;> exact .of_cmds rfl rfl

theorem Eng.freeBuf_closes (e : Eng) (n : Nat) : e.Closes (e.freeBuf n) := by
  have hset : ∀ f, e.Closes (e.setEntry n f) := fun f => .of_cmds rfl rfl
  unfold Eng.freeBuf
  dsimp only
  split
  · exact hset _
  · exact (hset _).trans (Eng.toTail_closes _ _ _)

theorem Eng.engDec_closes (e : Eng) (b : Buf) : e.Closes (e.engDec b) := by
  have hset : ∀ n f, e.Closes (e.setEntry n f) := fun n f => .of_cmds rfl rfl
  unfold Eng.engDec
  dsimp only
  split
  · exact .of_cmds rfl rfl
  · split
    · exact .refl e
    · split
      · exact (hset _ _).trans (Eng.freeBuf_closes _ _)
      · exact hset _ _

theorem Eng.setWork_closes (e : Eng) (cmd : Nat) (f : RouteWork → RouteWork) : e.Closes (e.setWork cmd f) := .of_cmds rfl rfl

theorem Eng.engDecAll_closes (e : Eng) (l : List Buf) : e.Closes (e.engDecAll l) := .foldl Eng.engDec_closes l e

theorem Eng.releaseArea_closes (e : Eng) (cmd : Nat) (bwd : Bool) : e.Closes (e.releaseArea cmd bwd) := by
  unfold Eng.releaseArea
  split
  · exact .refl e
  · exact (e.engDecAll_closes _).trans (Eng.setWork_closes _ _ _)

theorem Eng.releaseSaved_closes (e : Eng) (cmd : Nat) : e.Closes (e.releaseSaved cmd) := by
  unfold Eng.releaseSaved
  split
  · exact .refl e
  · exact (e.engDecAll_closes _).trans (Eng.setWork_closes _ _ _)

theorem Eng.combineEnds_closes (e : Eng) (c : Cmd) : e.Closes (e.combineEnds c) := by
  unfold Eng.combineEnds
  split
  · exact .refl e
  · split
    · split
      · exact .refl e
      · refine Eng.Closes.trans ?_ (Eng.setWork_closes _ _ _)
        split
        · exact .refl e
        · exact e.releaseArea_closes _ _
    · split
      · exact .refl e
      · exact ((e.releaseArea_closes _ _).trans (Eng.releaseSaved_closes _ _)).trans (Eng.setWork_closes _ _ _)

theorem Eng.accTime_time (e : Eng) (polder : Nat) : (e.accTime polder).time = e.time :=
  (e.free.2.free.2.account_sameUnits polder (fun a => { a with time := (a.time + e.free.1.toNat) % 2 ^ 64 })).time

theorem Eng.closeAccounts_time (e : Eng) (c : Cmd) : (e.closeAccounts c).time = e.time := by
  unfold Eng.closeAccounts
  extract_lets freed booked
  have hfreed : freed.time = e.time := by
    dsimp only [freed]
    split <;> rfl
  have hbooked : booked.time = freed.time := by
    dsimp only [booked]
    split
    · exact (freed.account_sameUnits _ _).time
    · rfl
  split
  · rw [Eng.accTime_time, hbooked, hfreed]
  · rw [hbooked, hfreed]

theorem Eng.closeAccounts_closes (e : Eng) (c : Cmd) : e.Closes (e.closeAccounts c) :=
  .of_cmds (e.closeAccounts_time c) (e.closeAccounts_sameCmds c).cmds

theorem Eng.pushRecord_closes (e : Eng) (id : Nat) : e.Closes (e.pushRecord id) := by
  refine (e.pushRecord_keepsEnded id).closes ?_ ?_
  · unfold Eng.pushRecord
    split <;> rfl
  · unfold Eng.pushRecord
    split
    · rfl
    · exact e.setCmd_ids id (fun _ => rfl)

theorem Eng.serveSlots_closes (e : Eng) (r : Nat) : e.Closes (e.serveSlots r) := by
  refine Eng.Closes.foldl (fun e c => ?_) _ e
  split
  · exact e.pushRecord_closes c.id
  · exact .refl e

theorem Eng.markStall_closes (e : Eng) (r : Nat) : e.Closes (e.markStall r) := by
  unfold Eng.markStall
  extract_lets g waits t
  split <;> exact .of_cmds rfl rfl

theorem Eng.bookEnd_closes (e : Eng) (id status : Nat) (c : Cmd) :
    (e.setCmd id (Cmd.ended status e.now)).Closes (e.bookEnd id status c) := by
  have hclosed := Eng.closeAccounts_closes (e.setCmd id (Cmd.ended status e.now)) c
  unfold Eng.bookEnd
  dsimp only
  split
  · exact hclosed.trans (Eng.combineEnds_closes _ c)
  · exact hclosed

theorem Eng.completeOne_closes_ended (e : Eng) {id : Nat} {c : Cmd} (status : Nat) (hc : e.cmd? id = some c) (hopen : c.done = false) :
    (e.setCmd id (Cmd.ended status e.now)).Closes (e.completeOne id status) := by
  rw [e.completeOne_books status hc hopen]
  refine (e.bookEnd_closes id status c).trans (Eng.Closes.trans ?_ (Eng.markStall_closes _ _))
  split
  · exact Eng.pushRecord_closes _ _
  · exact Eng.serveSlots_closes _ _

theorem Eng.setCmd_closes (e : Eng) {id : Nat} {c : Cmd} {f : Cmd → Cmd} (hf : ∀ x, (f x).id = x.id)
    (hc : e.cmd? id = some c) (hopen : c.done = false) : e.Closes (e.setCmd id f) :=
  (e.setCmd_keepsEnded hf hc hopen).closes rfl (e.setCmd_ids id hf)

theorem Eng.completeOne_closes (e : Eng) (id status : Nat) : e.Closes (e.completeOne id status) := by
  cases hc : e.cmd? id with
  | none =>
    simp only [Eng.completeOne, hc]
    exact .refl e
  | some c =>
    cases hdone : c.done with
    | true =>
      rw [e.completeOne_of_done status hc hdone]
      exact .refl e
    | false =>
      exact (e.setCmd_closes (f := Cmd.ended status e.now) (fun _ => rfl) hc hdone).trans (e.completeOne_closes_ended status hc hdone)

theorem Eng.settleFences_closes (e : Eng) : e.Closes e.settleFences := by
  refine Eng.Closes.foldl (fun e id => ?_) _ e
  split
  · split
    · exact e.completeOne_closes _ _
    · exact .refl e
  · exact .refl e

theorem Eng.markBlocked_closes (e : Eng) : e.Closes e.markBlocked := by
  refine e.markBlocked_keepsEnded.closes rfl ?_
  simp only [Eng.markBlocked, List.map_map]
  refine List.map_congr_left (fun c _ => ?_)
  simp only [Function.comp_apply, Cmd.markBlocked]
  repeat' split
  all_goals rfl

theorem Eng.complete_closes (e : Eng) (id status : Nat) : e.Closes (e.complete id status) :=
  ((e.completeOne_closes id status).trans (Eng.settleFences_closes _)).trans (Eng.markBlocked_closes _)

/-- A command that had not ended ends with its status and its time, whatever its opcode. -/
theorem Eng.complete_cmd?_of_open (e : Eng) {id : Nat} {c : Cmd} (status : Nat) (hc : e.cmd? id = some c) (hopen : c.done = false) :
    ∃ held recorded, (e.complete id status).cmd? id = some ((c.ended status e.now).withSlot held recorded) :=
  (((e.completeOne_closes_ended status hc hopen).trans (Eng.settleFences_closes _)).trans (Eng.markBlocked_closes _)).ended id _
    (e.setCmd_cmd?_same (fun _ => rfl) hc) rfl

/-- The command named by an end is over, if it is there at all. -/
theorem Eng.complete_done (e : Eng) (id status : Nat) {x : Cmd} (hx : (e.complete id status).cmd? id = some x) : x.done = true := by
  cases hc : e.cmd? id with
  | none =>
    rw [(e.complete_closes id status).absent hc] at hx
    cases hx
  | some c =>
    cases hdone : c.done with
    | true =>
      obtain ⟨held, recorded, h⟩ := (e.complete_closes id status).ended id c hc hdone
      rw [h] at hx
      cases hx
      exact hdone
    | false =>
      obtain ⟨held, recorded, h⟩ := e.complete_cmd?_of_open status hc hdone
      rw [h] at hx
      cases hx
      rfl

/-! ### A group forms (R276, R277, R288) -/

theorem Eng.tellKids_sameGroups (e : Eng) (ms : List Nat) (h : ChunkHdr) (payload : List Byte) : e.SameGroups (e.tellKids ms h payload) :=
  .foldl (fun e _ => (e.sendNew_sameUnits _ _).sameGroups) _ e

theorem Eng.raise_sameGroups (e : Eng) (code arg : Nat) (polder : Option Nat) (tag : Nat) : e.SameGroups (e.raise code arg polder tag) :=
  (e.raise_sameUnits code arg polder tag).sameGroups

theorem Eng.voidPromise_sameGroups (e : Eng) : e.SameGroups e.voidPromise :=
  ⟨(Eng.raise_sameGroups ((e.setReg Reg.detStatus (setBit (e.reg Reg.detStatus) 3 true)).bump32 Reg.detVoids 1) 0x05A1 0 none 0).groups⟩

/-- What an outcome sets and no numbering of barriers changes: all of a group but its next BSEQ. -/
def Group.withBseq (n : Nat) (g : Group) : Group := { g with bseq := n }

theorem Eng.setGroup_group_other (e : Eng) {g k : Nat} (f : Group → Group) (h : k ≠ g) : (e.setGroup g f).group k = e.group k := by
  simp [Eng.group, Eng.setGroup, KV.get, KV.upd, KV.find_put, h]

theorem Eng.numberBarrier_group (e : Eng) (id g : Nat) : ∃ n, (e.numberBarrier id).group g = (e.group g).withBseq n := by
  unfold Eng.numberBarrier
  split
  · exact ⟨_, rfl⟩
  · next c hc =>
    split
    · by_cases hg : g = c.d.group
      · subst hg
        exact ⟨_, Eng.setGroup_group_same _ _ _⟩
      · exact ⟨_, Eng.setGroup_group_other _ _ hg⟩
    · exact ⟨_, rfl⟩

theorem Eng.numberBarriers_group (l : List Nat) (e : Eng) (g : Nat) :
    ∃ n, (l.foldl (fun (e : Eng) id => e.numberBarrier id) e).group g = (e.group g).withBseq n := by
  induction l generalizing e with
  | nil => exact ⟨_, rfl⟩
  | cons id l ih =>
    obtain ⟨n, hn⟩ := ih (e.numberBarrier id)
    obtain ⟨k, hk⟩ := e.numberBarrier_group id g
    exact ⟨n, by rw [List.foldl_cons, hn, hk]; rfl⟩

/-- A handshake with all values equal leaves the group FORMED, its operations numbered from 0 and its epoch 1 or, formed again, its own. -/
theorem Eng.formOutcome_equal (e : Eng) {g : Nat} {f : Form} (factor : Bool) (h : (e.group g).form = some f) :
    ∃ (x : Group) (n : Nat), (e.formOutcome g true factor).group g = x.withBseq n ∧ x.st = .formed ∧ x.seq = 0 ∧ x.factorOk = factor ∧
      x.epoch = if (e.group g).st == .reforming then (e.group g).epoch else 1 := by
  unfold Eng.formOutcome
  simp only [h, if_true]
  obtain ⟨n, hn⟩ := Eng.numberBarriers_group _ _ g
  rw [(Eng.complete_sameGroups _ _ _).group]
  have hvoid : ∀ (b : Bool) (e : Eng), (if b then e.voidPromise else e).group g = e.group g := fun b e => by
    split
    · exact e.voidPromise_sameGroups.group g
    · rfl
  rw [hvoid, (Eng.raise_sameGroups _ _ _ _ _).group, hn, Eng.setGroup_group_same]
  exact ⟨_, n, rfl, rfl, rfl, rfl, rfl⟩

/-- A handshake that found a difference leaves the group UNFORMED. -/
theorem Eng.formOutcome_differs (e : Eng) {g : Nat} {f : Form} (factor : Bool) (h : (e.group g).form = some f) :
    ((e.formOutcome g false factor).group g).st = .unformed := by
  unfold Eng.formOutcome
  simp only [h, Bool.false_eq_true, if_false]
  rw [(Eng.complete_sameGroups _ _ _).group, (Eng.raise_sameGroups _ _ _ _ _).group, Eng.setGroup_group_same]

/-- A member that stays silent leaves the group UNFORMED and ends its command, no earlier than TWK_COL_FORM_TO after the start. -/
theorem Eng.formLate_spec (e : Eng) {g : Nat} {f : Form} (h : (e.group g).form = some f) :
    ((e.formLate g).group g).st = .unformed ∧ (∀ x, (e.formLate g).cmd? f.cmd = some x → x.done = true) ∧
      (e.formLate g).time.ns = max e.time.ns (f.startNs + field (e.reg Reg.colFormTo) 0 16 * 1000000) := by
  unfold Eng.formLate
  simp only [h]
  refine ⟨?_, fun x hx => Eng.complete_done _ _ _ hx, ?_⟩
  · rw [(Eng.complete_sameGroups _ _ _).group, (Eng.raise_sameGroups _ _ _ _ _).group, Eng.setGroup_group_same]
  · rw [(Eng.complete_closes _ _ _).time, (Eng.raise_sameUnits _ _ _ _ _).time]
    rfl

section
variable {e : Eng} {m : Mem} {c : Cmd} {l : List Nat} (hl : e.chipList m c.d.a c.d.members = some l)
include hl

theorem Eng.startForm_refused (hbad : (e.group c.d.group).st ≠ .unformed ∨ e.marked c.d.a (4 * c.d.members) = false ∨ ascending l = false ∨
    e.chip ∉ l ∨ ∃ x ∈ l, e.topo.hasTray (chipRack x) (chipTray x) = false) : e.startForm m c = e.complete c.id stBad := by
  simp only [Eng.startForm, hl]
  rw [if_pos]
  simpa [or_assoc] using hbad

theorem Eng.startForm_accepted (hst : (e.group c.d.group).st = .unformed) (hmarked : e.marked c.d.a (4 * c.d.members) = true)
    (hasc : ascending l = true) (hself : e.chip ∈ l) (htray : ∀ x ∈ l, e.topo.hasTray (chipRack x) (chipTray x) = true) {f : Form}
    (hf : f = { cmd := c.id, startNs := e.now, crc := listCrc l, factor := e.factorEdges l }) :
    e.startForm m c = (((((e.setGroup c.d.group (fun x =>
      { st := .forming, owner := c.polder, membersAddr := c.d.a, members := l, form := some f, early := x.early })).accHbm c.polder
        (4 * l.length)).formStep c.d.group).replayEarly m).settle m) := by
  simp only [Eng.startForm, hl]
  rw [if_neg, hf]
  simpa [hst, hmarked, hasc, hself] using htray

end

/-- What GROUP_REFORM does with the chips it excludes, once its owner, epoch and state are checked. -/
def Eng.reformWithout (m : Mem) (c : Cmd) (gone : List Nat) (e : Eng) : Eng :=
  let g := e.group c.d.group
  let l := g.members.filter (fun x => !gone.contains x)
  if l.length < 2 then e.complete c.id stBad
  else if gone.contains e.chip then (e.dissolve c.d.group).complete c.id stOk
  else if !g.ops.isEmpty then e.setCmd c.id (fun c => { c with phase := .started })
  else
    let f : Form := { cmd := c.id, startNs := e.now, crc := listCrc l, factor := e.factorEdges l }
    let e := (e.cancelBarriers c.d.group).setGroup c.d.group (fun x =>
      { x with st := .reforming, epoch := if g.epoch = 65535 then 1 else g.epoch + 1, excludeAddr := c.d.a, members := l, form := some f })
    (((e.accHbm c.polder (4 * c.d.members)).formStep c.d.group).replayEarly m).settle m

theorem Eng.startReform_checked (e : Eng) (m : Mem) {c : Cmd} {gone : List Nat} (howner : (e.group c.d.group).owner = c.polder)
    (hepoch : (e.group c.d.group).epoch = c.d.groupEpoch) (hst : (e.group c.d.group).st = .formed ∨ (e.group c.d.group).st = .broken)
    (hgone : e.chipList m c.d.a c.d.members = some gone) : e.startReform m c = e.reformWithout m c gone := by
  have hin : (!((e.group c.d.group).st == .formed || (e.group c.d.group).st == .broken)) = false := by
    simpa [or_iff_not_imp_left] using hst
  have hpriv : ((e.group c.d.group).st != .unformed && decide ((e.group c.d.group).owner ≠ c.polder)) = false := by simp [howner]
  unfold Eng.startReform
  simp only [hgone, hin, hpriv, hepoch, ne_eq, not_true_eq_false, Bool.false_eq_true, if_false]
  rw [← hepoch]
  rfl

section
variable {e : Eng} {m : Mem} {c : Cmd} {gone : List Nat}

theorem Eng.reformWithout_few (hl : ((e.group c.d.group).members.filter (fun x => !gone.contains x)).length < 2) :
    e.reformWithout m c gone = e.complete c.id stBad :=
  if_pos hl

variable (hl : 2 ≤ ((e.group c.d.group).members.filter (fun x => !gone.contains x)).length)
include hl

theorem Eng.reformWithout_self (hself : e.chip ∈ gone) : e.reformWithout m c gone = (e.dissolve c.d.group).complete c.id stOk := by
  unfold Eng.reformWithout
  dsimp only
  rw [if_neg (Nat.not_lt.2 hl), if_pos (List.contains_iff_mem.2 hself)]

variable (hself : e.chip ∉ gone)
include hself

theorem Eng.reformWithout_busy (hops : (e.group c.d.group).ops ≠ []) :
    e.reformWithout m c gone = e.setCmd c.id (fun c => { c with phase := .started }) := by
  unfold Eng.reformWithout
  dsimp only
  rw [if_neg (Nat.not_lt.2 hl), if_neg (mt List.contains_iff_mem.1 hself), if_pos (by simpa using hops)]

theorem Eng.reformWithout_forms (hops : (e.group c.d.group).ops = []) {f : Form}
    (hf : f = { cmd := c.id, startNs := e.now, crc := listCrc ((e.group c.d.group).members.filter (fun x => !gone.contains x))
                factor := e.factorEdges ((e.group c.d.group).members.filter (fun x => !gone.contains x)) }) :
    e.reformWithout m c gone = ((((((e.cancelBarriers c.d.group).setGroup c.d.group (fun x =>
      { x with
        st := .reforming, epoch := if (e.group c.d.group).epoch = 65535 then 1 else (e.group c.d.group).epoch + 1, excludeAddr := c.d.a
        members := (e.group c.d.group).members.filter (fun x => !gone.contains x), form := some f })).accHbm c.polder
          (4 * c.d.members)).formStep c.d.group).replayEarly m).settle m) := by
  unfold Eng.reformWithout
  dsimp only
  rw [if_neg (Nat.not_lt.2 hl), if_neg (mt List.contains_iff_mem.1 hself), if_neg (by simp [hops]), hf]

end

/-! ### A command of the control island that has started -/

theorem State.runs.exec_groupForm {s : State} {r idx : Nat} {c : Cmd} (h : s.runs r idx opGroupForm c) {e : Eng}
    (he : (s.run c).startForm s.hbm c = e) : exec (.groupForm r idx) s = .next (s.leaves (e.settle s.hbm)) := by
  rw [Machine.exec_groupForm, h.1.onPower, h.runCmd, he]

theorem State.runs.exec_groupReform {s : State} {r idx : Nat} {c : Cmd} (h : s.runs r idx opGroupReform c) {e : Eng}
    (he : (s.run c).startReform s.hbm c = e) : exec (.groupReform r idx) s = .next (s.leaves (e.settle s.hbm)) := by
  rw [Machine.exec_groupReform, h.1.onPower, h.runCmd, he]

end Sys2Proof.Machine

open Sys2Proof Sys2Proof.Machine

/-- Settles O42: what is checked before a handshake, and what its outcome leaves. -/
theorem groupsFormAndReform : Obligations.GroupsFormAndReform := by
  unfold Obligations.GroupsFormAndReform
  refine ⟨fun s r idx c h => ⟨fun hnone => ?_, fun l hl => ⟨fun hbad => ?_, fun hst hmarked hasc hself htray => ?_⟩⟩,
    fun s r idx c g h hg => ⟨fun hst howner => ?_, fun howner => ⟨fun hepoch => ?_, fun hepoch hf hb => ?_,
      fun hepoch hst gone l hgone hl => ⟨fun hshort => ?_, fun htwo => ⟨fun hself => ?_, fun hself => ⟨fun hops => ?_, fun hops => ?_⟩⟩⟩⟩⟩,
    fun e g f factor h => ⟨fun hst => ?_, fun hst => ?_, e.formOutcome_differs factor h⟩,
    fun s g f hon h => ?_⟩
  · exact h.exec_groupForm (by simp only [Eng.startForm, hnone])
  · exact h.exec_groupForm (Eng.startForm_refused hl hbad)
  · exact ⟨_, _, rfl, rfl, h.exec_groupForm (Eng.startForm_accepted hl hst hmarked hasc hself htray rfl)⟩
  · replace hg : g = (s.run c).group c.d.group := hg
    subst hg
    exact h.exec_groupReform (by simp [Eng.startReform, hst, howner])
  · replace hg : g = (s.run c).group c.d.group := hg
    subst hg
    exact h.exec_groupReform (by simp [Eng.startReform, hepoch, howner])
  · replace hg : g = (s.run c).group c.d.group := hg
    subst hg
    exact h.exec_groupReform (by simp [Eng.startReform, hepoch, howner, hf, hb])
  · replace hg : g = (s.run c).group c.d.group := hg
    subst hg hl
    exact h.exec_groupReform ((Eng.startReform_checked _ _ howner hepoch hst hgone).trans (Eng.reformWithout_few hshort))
  · replace hg : g = (s.run c).group c.d.group := hg
    subst hg hl
    exact h.exec_groupReform ((Eng.startReform_checked _ _ howner hepoch hst hgone).trans (Eng.reformWithout_self htwo hself))
  · replace hg : g = (s.run c).group c.d.group := hg
    subst hg hl
    exact h.exec_groupReform ((Eng.startReform_checked _ _ howner hepoch hst hgone).trans (Eng.reformWithout_busy htwo hself hops))
  · replace hg : g = (s.run c).group c.d.group := hg
    subst hg hl
    exact ⟨_, _, rfl, rfl, h.exec_groupReform ((Eng.startReform_checked _ _ howner hepoch hst hgone).trans
      (Eng.reformWithout_forms htwo hself hops rfl))⟩
  · obtain ⟨x, n, hx, hformed, hseq, hok, hepoch⟩ := e.formOutcome_equal factor h
    exact ⟨_, hx.symm, hformed, hepoch.trans (if_neg (by simp [hst])), hseq, hok⟩
  · obtain ⟨x, n, hx, hformed, hseq, hok, hepoch⟩ := e.formOutcome_equal factor h
    exact ⟨_, hx.symm, hformed, hseq, hepoch.trans (if_pos (by simp [hst])), hok⟩
  · obtain ⟨hst, hdone, htime⟩ := Eng.formLate_spec s.work h
    exact ⟨_, _, (Machine.exec_formTimeout g s).trans (hon.onPower _), rfl, hst, hdone, htime⟩

end

section
/-! SUPPORT. BCAST, REDUCE and BARRIER: what they check of their group, the number they take, and the release of a barrier (R275, R277,
R283, R334, R335, R336). -/

namespace Sys2Proof.Machine

/-! ### The check of the group (R275, R277) -/

theorem Eng.groupRefuses_other {e : Eng} {c : Cmd} (hst : (e.group c.d.group).st ≠ .unformed) (howner : (e.group c.d.group).owner ≠ c.polder) :
    e.groupRefuses c = some stPriv := by
  simp [Eng.groupRefuses, hst, howner]

theorem Eng.groupRefuses_stale {e : Eng} {c : Cmd} (howner : (e.group c.d.group).st = .unformed ∨ (e.group c.d.group).owner = c.polder)
    (hstale : (e.group c.d.group).st ≠ .formed ∨ (e.group c.d.group).epoch ≠ c.d.groupEpoch) :
    e.groupRefuses c = some stEpochStale := by
  have hpriv : ((e.group c.d.group).st != .unformed && decide ((e.group c.d.group).owner ≠ c.polder)) = false := by
    simpa [or_iff_not_imp_left] using howner
  have hst : (e.group c.d.group).st != .formed || decide ((e.group c.d.group).epoch ≠ c.d.groupEpoch) := by simpa using hstale
  simp only [Eng.groupRefuses, hpriv, hst, Bool.false_eq_true, if_false, if_true]

theorem Eng.groupRefuses_none {e : Eng} {c : Cmd} (howner : (e.group c.d.group).owner = c.polder)
    (hst : (e.group c.d.group).st = .formed) (hepoch : (e.group c.d.group).epoch = c.d.groupEpoch) : e.groupRefuses c = none := by
  simp [Eng.groupRefuses, howner, hst, hepoch]

/-! ### A collective starts (R283, R287, R288) -/

theorem Eng.startOp_refused {e : Eng} {m : Mem} {reduce : Bool} {c : Cmd} {st : Nat} (h : e.groupRefuses c = some st) :
    e.startOp m reduce c = e.complete c.id st := by
  simp only [Eng.startOp, h]

section
variable {e : Eng} {m : Mem} {reduce : Bool} {c : Cmd} (h : e.groupRefuses c = none)
include h

theorem Eng.startOp_badRoot (hroot : (e.group c.d.group).members.length ≤ c.d.root) : e.startOp m reduce c = e.complete c.id stBad := by
  simp only [Eng.startOp, h]
  rw [if_pos hroot]

variable (hroot : c.d.root < (e.group c.d.group).members.length)
include hroot

theorem Eng.startOp_misaligned (hlen : c.count.getD c.d.len % 64 ≠ 0) :
    e.startOp m reduce c = e.alignError (c.d.a + c.count.getD c.d.len) c := by
  simp only [Eng.startOp, h]
  rw [if_neg (Nat.not_le.2 hroot), if_pos hlen]

variable (hlen : c.count.getD c.d.len % 64 = 0)
include hlen

theorem Eng.startOp_noFactor (hreduce : reduce = true) (hdtype : c.d.dtype = 2) (hfactor : (e.group c.d.group).factorOk = false) :
    e.startOp m reduce c = e.complete c.id stVersion := by
  subst hreduce
  simp only [Eng.startOp, h]
  rw [if_neg (Nat.not_le.2 hroot), if_neg (not_not.2 hlen), if_pos (by simp [hdtype, hfactor])]

omit h hroot hlen in
theorem Eng.setGroup_factorLenBad (g : Nat) (f : Group → Group) (a len : Nat) : (e.setGroup g f).factorLenBad m a len = e.factorLenBad m a len := rfl

/-- An accepted collective takes the group's next number and joins its operations. -/
theorem Eng.startOp_accepted {o : CollOp}
    (ho : o = { seq := (e.group c.d.group).seq, cmd := c.id, reduce := reduce, dtype := if reduce then c.d.dtype else 0, root := c.d.root
                buf := c.d.a, out := c.d.out, len := c.count.getD c.d.len, detm := e.detm, polder := c.polder })
    (hfactor : o.dtype = 2 → (e.group c.d.group).factorOk = true ∧ e.factorLenBad m c.d.a (c.count.getD c.d.len) = false) :
    e.startOp m reduce c = ((((((e.setGroup c.d.group (fun x => { x with seq := (x.seq + 1) % 2 ^ 32 })).setCmd c.id (fun x =>
      { x with detm := e.detm })).setGroup c.d.group (fun x => { x with ops := x.ops ++ [o] })).opStep m c.d.group
        (e.group c.d.group).seq).replayEarly m).settle m) := by
  have hdtype : o.dtype = if reduce then c.d.dtype else 0 := by rw [ho]
  rw [hdtype] at hfactor
  have hok : ¬((decide ((if reduce then c.d.dtype else 0) = 2) && !(e.group c.d.group).factorOk) = true) := by
    simpa using fun h2 => (hfactor h2).1
  have hfit : ¬((decide ((if reduce then c.d.dtype else 0) = 2) &&
      (e.setGroup c.d.group (fun x => { x with seq := (x.seq + 1) % 2 ^ 32 })).factorLenBad m c.d.a (c.count.getD c.d.len)) = true) := by
    rw [Eng.setGroup_factorLenBad]
    simpa using fun h2 => (hfactor h2).2
  simp only [Eng.startOp, h]
  rw [if_neg (Nat.not_le.2 hroot), if_neg (not_not.2 hlen), if_neg hok, if_neg hfit, ho]
  rfl

end

/-! ### A barrier opens and is released (R334, R335, R336) -/

theorem Eng.setCmd_group (e : Eng) (id : Nat) (f : Cmd → Cmd) (g : Nat) : (e.setCmd id f).group g = e.group g := rfl

theorem Eng.setGroup_cmd? (e : Eng) (g : Nat) (f : Group → Group) (id : Nat) : (e.setGroup g f).cmd? id = e.cmd? id := rfl

/-- What a barrier command checks: its group, or for the engine's own group 0xFF that its epoch is 0. -/
def Eng.barrierRefuses (e : Eng) (c : Cmd) : Option Nat :=
  if c.d.group = 255 then (if c.d.groupEpoch ≠ 0 then some stEpochStale else none) else e.groupRefuses c

theorem Eng.startBarrier_refused {e : Eng} {m : Mem} {c : Cmd} {st : Nat} (h : e.barrierRefuses c = some st) :
    e.startBarrier m c = e.complete c.id st := by
  have h' : (if c.d.group = 255 then (if c.d.groupEpoch ≠ 0 then some stEpochStale else none) else e.groupRefuses c) = some st := h
  simp only [Eng.startBarrier, h']

/-- A command that has its barrier number gets no other. -/
theorem Eng.numberBarrier_eq_self {e : Eng} {id n : Nat} {c : Cmd} (hc : e.cmd? id = some c) (hn : c.bseq = some n) :
    e.numberBarrier id = e := by
  simp [Eng.numberBarrier, hc, hn]

/-- The first command of a barrier number opens that barrier. -/
theorem Eng.startBarrier_opens {e : Eng} {m : Mem} {c x : Cmd} {n : Nat} (h : e.barrierRefuses c = none) (hg : c.d.group ≠ 255)
    (hc : e.cmd? c.id = some x) (hn : x.bseq = some n) (hnew : ∀ b ∈ (e.group c.d.group).barriers, b.bseq ≠ n) :
    e.startBarrier m c = ((e.setGroup c.d.group (fun x =>
      { x with barriers := x.barriers ++ [{ bseq := n, cmd := c.id, started := true }] })).barrierStep c.d.group n).settle m := by
  have h' : (if c.d.group = 255 then (if c.d.groupEpoch ≠ 0 then some stEpochStale else none) else e.groupRefuses c) = none := h
  have hany : (e.group c.d.group).barriers.any (fun b => b.bseq == n) = false := by simpa using hnew
  simp only [Eng.startBarrier, h', Eng.numberBarrier_eq_self hc hn, hc, Option.bind_some, hn, if_neg hg]
  rw [Eng.setGroup_congr]
  simp only [hany, Bool.false_eq_true, if_false]

/-- The result of a command whose barrier is released at `t`: its hall time, and FLAGS[5] where time is neither locked nor the root's. -/
def Cmd.releasedAt (t : Nat) (sure : Bool) (c : Cmd) : Cmd :=
  { c with res := { c.res with time := some t, flags := c.res.flags + (if sure then 0 else 32) } }

/-- The release of a barrier: no earlier than its time, its command ended with that time, and the barrier closed. -/
theorem Eng.barrierGo_spec (e : Eng) {g n t : Nat} {b : Barrier} {c : Cmd}
    (hb : (e.group g).barriers.find? (fun b => b.bseq == n) = some b) (ht : b.trel = some t) (hc : e.cmd? b.cmd = some c)
    (hopen : c.done = false) :
    (e.barrierGo g n false).time.ns = max e.time.ns t ∧ (∀ y ∈ ((e.barrierGo g n false).group g).barriers, y.bseq ≠ n) ∧
      ∃ x, (e.barrierGo g n false).cmd? b.cmd = some x ∧ x.done = true ∧ x.res.status = stOk ∧ x.res.time = some t ∧
        x.res.flags = c.res.flags + (if e.time.locked || e.time.root then 0 else 32) := by
  have hgo : e.barrierGo g n false = ((((e.reach t).bump Reg.detBarrier 0 16 1).setCmd b.cmd (Cmd.releasedAt t (e.time.locked || e.time.root))).setGroup
      g (fun x => { x with barriers := x.barriers.filter (fun b => b.bseq != n) })).complete b.cmd stOk := by
    simp only [Eng.barrierGo, hb, ht]
    rfl
  have hreleased : (((e.reach t).bump Reg.detBarrier 0 16 1).setCmd b.cmd (Cmd.releasedAt t (e.time.locked || e.time.root))).cmd? b.cmd =
      some (c.releasedAt t (e.time.locked || e.time.root)) := Eng.setCmd_cmd?_same _ (fun _ => rfl) hc
  rw [hgo]
  refine ⟨?_, ?_, ?_⟩
  · rw [(Eng.complete_closes _ _ _).time]
    rfl
  · rw [(Eng.complete_sameGroups _ _ _).group, Eng.setGroup_group_same]
    intro y hy
    simpa using (List.mem_filter.1 hy).2
  · obtain ⟨held, recorded, hx⟩ := Eng.complete_cmd?_of_open _ stOk ((Eng.setGroup_cmd? _ _ _ _).trans hreleased) hopen
    exact ⟨_, hx, rfl, rfl, rfl, rfl⟩

/-! ### A command of a collective or a barrier that has started -/

theorem State.runs.cmd?_run {s : State} {r idx op : Nat} {c : Cmd} (h : s.runs r idx op c) :
    (s.run c).cmd? c.id = some { c with phase := .running } := by
  obtain ⟨-, -, hid, -, -⟩ := h
  exact Eng.setCmd_cmd?_same s.work (fun _ => rfl) hid

theorem State.runs.exec_collective {s : State} {r idx op : Nat} {c : Cmd} {i : Instr} (h : s.runs r idx op c)
    (hi : (i = .bcast r idx ∧ op = opBcast) ∨ (i = .reduce r idx ∧ op = opReduce)) {e : Eng}
    (he : (s.run c).startOp s.hbm (decide (op = opReduce)) c = e) : exec i s = .next (s.leaves (e.settle s.hbm)) := by
  obtain ⟨rfl, rfl⟩ | ⟨rfl, rfl⟩ := hi
  · rw [Machine.exec_bcast, h.1.onPower, h.runCmd, ← he]
    rfl
  · rw [Machine.exec_reduce, h.1.onPower, h.runCmd, ← he]
    rfl

theorem State.runs.exec_barrier {s : State} {r idx : Nat} {c : Cmd} (h : s.runs r idx opBarrier c) {e : Eng}
    (he : (s.run c).startBarrier s.hbm c = e) : exec (.barrier r idx) s = .next (s.leaves (e.settle s.hbm)) := by
  rw [Machine.exec_barrier, h.1.onPower, h.runCmd, he]

end Sys2Proof.Machine

open Sys2Proof Sys2Proof.Machine

/-- Settles O43: the checks of a collective and a barrier, the number they take, and what a release leaves. -/
theorem collectivesAndBarriersTakeTheirNumbers : Obligations.CollectivesAndBarriersTakeTheirNumbers := by
  unfold Obligations.CollectivesAndBarriersTakeTheirNumbers
  refine ⟨fun s r idx op c i g h hi hg => ?_, fun s r idx c g h hg => ?_, fun s g n t b c hon hb ht hc hopen => ?_⟩
  · replace hg : g = (s.run c).group c.d.group := hg
    subst hg
    refine ⟨fun st hst => h.exec_collective hi ?_, fun howner hst hepoch hroot hlen => h.exec_collective hi ?_,
      fun howner hst hepoch hroot hlen o e ho hfactor he => ⟨?_, ?_⟩⟩
    · obtain ⟨rfl, hst, howner⟩ | ⟨rfl, howner, hstale⟩ | ⟨howner, hst, hepoch, hbad⟩ := hst
      · exact Eng.startOp_refused (Eng.groupRefuses_other hst howner)
      · exact Eng.startOp_refused (Eng.groupRefuses_stale howner hstale)
      · have hok := Eng.groupRefuses_none howner hst hepoch
        obtain ⟨rfl, hroot⟩ | ⟨rfl, hroot, hlen, rfl, hdtype, hfactor⟩ := hbad
        · exact Eng.startOp_badRoot hok hroot
        · exact Eng.startOp_noFactor hok hroot hlen rfl hdtype hfactor
    · exact Eng.startOp_misaligned (Eng.groupRefuses_none howner hst hepoch) hroot hlen
    · subst he
      refine h.exec_collective hi (Eng.startOp_accepted (Eng.groupRefuses_none howner hst hepoch) hroot hlen ?_ ?_)
      · simp only [ho, decide_eq_true_eq]
        rfl
      · subst ho
        exact hfactor
    · subst he
      rw [Eng.setGroup_group_same, Eng.setCmd_group, Eng.setGroup_group_same]
  · replace hg : g = (s.run c).group c.d.group := hg
    subst hg
    refine ⟨fun st hst => h.exec_barrier (Eng.startBarrier_refused ?_), fun n hg howner hst hepoch hn hnew => ⟨_, rfl, h.exec_barrier ?_⟩⟩
    · obtain ⟨hg, hepoch, rfl⟩ | ⟨hg, ⟨rfl, hst, howner⟩ | ⟨rfl, howner, hstale⟩⟩ := hst
      · simp [Eng.barrierRefuses, hg, hepoch]
      · exact (if_neg hg).trans (Eng.groupRefuses_other hst howner)
      · exact (if_neg hg).trans (Eng.groupRefuses_stale howner hstale)
    · exact Eng.startBarrier_opens ((if_neg hg).trans (Eng.groupRefuses_none howner hst hepoch)) hg h.cmd?_run hn hnew
  · obtain ⟨htime, hclosed, x, hx, hdone, hstatus, hxt, hflags⟩ := Eng.barrierGo_spec s.work hb ht hc hopen
    exact ⟨_, x, (Machine.exec_barrierRelease g n s).trans (hon.onPower _), htime, hx, hdone, hstatus, hxt, hflags, hclosed⟩

end

section
/-! SUPPORT. The slot commands of Table 13-5 as they are written, and the end of an evicted polder (R298, R300 to R305). -/

namespace Sys2Proof.Machine

/-! ### A write of a slot's command register -/

theorem slotReg_pldCmd_plain : ∀ slot : Fin 16, accessOk (slotReg slot Reg.pldCmd) false = true ∧ slotReg slot Reg.pldCmd < 0x200000 ∧
    isWide (slotReg slot Reg.pldCmd) = false ∧ isWide (slotReg slot Reg.pldCmd - 4) = false ∧ isMgmtReg (slotReg slot Reg.pldCmd) = false ∧
    slotReg slot Reg.pldCmd / 0x10000 = 2 ∧ slotReg slot Reg.pldCmd % 0x10000 / 0x1000 = slot ∧
    slotReg slot Reg.pldCmd % 0x1000 = Reg.pldCmd := by decide

theorem Eng.writeAccess_pldCmd (e : Eng) (m : Mem) (mgmt : Bool) {slot op id : Nat} (hslot : slot < 16) (hop : op < 16) (hid : id < 256) :
    e.writeAccess m mgmt (slotReg slot Reg.pldCmd) false (op + id * 2 ^ 16) = e.slotCommand m slot op id := by
  obtain ⟨hok, hlow, hwide, hwide4, hmgmt, hblock, hof, hoff⟩ := slotReg_pldCmd_plain ⟨slot, hslot⟩
  dsimp only at hok hlow hwide hwide4 hmgmt hblock hof hoff
  have hv : (op + id * 2 ^ 16) % 2 ^ 32 = op + id * 2 ^ 16 := by omega
  have hop' : (op + id * 2 ^ 16) % 16 = op := by omega
  have hid' : field (op + id * 2 ^ 16) 16 8 = id := by
    unfold field
    omega
  have hdoor : ¬(0x200000 ≤ slotReg slot Reg.pldCmd ∧ slotReg slot Reg.pldCmd < 0x220000) := by omega
  unfold Eng.writeAccess
  rw [hok, if_neg hdoor, hv]
  simp only [Eng.write32, hwide, hwide4, Bool.and_false, Bool.not_true, Bool.not_false, Bool.false_eq_true, if_false, if_true, Eng.writeVal,
    hmgmt, hblock, hof, hoff, Eng.writeSlot, hop', hid']

/-- The write that gives a slot command, by the command. -/
theorem State.alert.slotWrite {s : State} (h : s.alert) {slot op id : Nat} (hslot : slot < 16) (hop : op < 16) (hid : id < 256) {e : Eng}
    (he : s.work.slotCommand s.hbm slot op id = e) : s.slotWrite slot op id = .next (s.leaves e) :=
  h.1.onPower_leaves (((h.mmioWrite _ _ _).trans (s.work.writeAccess_pldCmd s.hbm false hslot hop hid)).trans he)

/-! ### What a slot command does where it stands (Table 13-5) -/

section
variable {e : Eng} {m : Mem} {slot op id : Nat} (hop : op ≠ 0 ∧ op ≤ 6)
include hop

theorem pcNamed : (op = 0 || op > 6) = false := by
  obtain ⟨h0, h6⟩ := hop
  simp [h0, h6]

section
variable (hst : (e.pslot slot).st.target = (e.pslot slot).st)
include hst

theorem Eng.slotCommand_runs (happ : pcApplies op (e.pslot slot).st = true) : e.slotCommand m slot op id = e.runSlot m slot op id := by
  simp [Eng.slotCommand, pcNamed hop, hst, happ]

variable (happ : pcApplies op (e.pslot slot).st = false)
include happ

theorem Eng.slotCommand_refused (hpend : (e.pslot slot).pend = none ∨ pcEffect op ≠ (e.pslot slot).st) :
    e.slotCommand m slot op id = e.slotResult slot stBad := by
  have hno : ((e.pslot slot).pend.isSome && pcEffect op == (e.pslot slot).st) = false := by
    obtain h | h := hpend <;> simp [h]
  simp [Eng.slotCommand, pcNamed hop, hst, happ, hno]

theorem Eng.slotCommand_undoes (hpend : (e.pslot slot).pend ≠ none) (heff : pcEffect op = (e.pslot slot).st) :
    e.slotCommand m slot op id = e.setPslot slot (fun p => { p with pend := none }) := by
  have hyes : ((e.pslot slot).pend.isSome && pcEffect op == (e.pslot slot).st) = true := by
    simp [Option.isSome_iff_ne_none, hpend, heff]
  simp [Eng.slotCommand, pcNamed hop, hst, happ, hyes]

end

section
variable (hst : (e.pslot slot).st.target ≠ (e.pslot slot).st)
include hst

theorem Eng.slotCommand_latches (happ : pcApplies op (e.pslot slot).st.target = true) :
    e.slotCommand m slot op id = e.setPslot slot (fun p => { p with pend := some (op, id) }) := by
  simp [Eng.slotCommand, pcNamed hop, hst, happ]

theorem Eng.slotCommand_inTransition (happ : pcApplies op (e.pslot slot).st.target = false) : e.slotCommand m slot op id =
    e.setPslot slot (fun q => if pcEffect op = (e.pslot slot).st.target then { q with pend := none } else { q with result := stBad }) := by
  by_cases heff : pcEffect op = (e.pslot slot).st.target
  · simp [Eng.slotCommand, pcNamed hop, hst, happ, heff]
  · simp [Eng.slotCommand, pcNamed hop, hst, happ, heff, Eng.slotResult]

end

end

/-! ### CREATE and RESTORE of an EMPTY slot (R300, R301, R305) -/

section
variable {e : Eng} {m : Mem} {slot op id : Nat} {t : Template} (hop : op = pcCreate ∨ op = pcRestore)

include hop in
theorem Eng.runSlot_refused (h : e.appliedTemplate id = none ∨ e.idLive slot op id = true) :
    e.runSlot m slot op id = e.slotResult slot stBad := by
  unfold Eng.runSlot
  dsimp only
  rw [if_pos hop]
  split
  · rfl
  · next t ht =>
    rw [if_pos (h.resolve_left (by simp [ht]))]

include hop in
theorem Eng.runSlot_waits (ht : e.appliedTemplate id ≠ none) (hlive : e.idLive slot op id = false) (hwait : e.idWaits slot id = true) :
    e.runSlot m slot op id = e.setPslot slot (fun p => { p with pend := some (op, id) }) := by
  obtain ⟨t, ht⟩ := Option.ne_none_iff_exists'.1 ht
  simp [Eng.runSlot, hop, ht, hlive, hwait]

variable (ht : e.appliedTemplate id = some t) (hwait : e.idWaits slot id = false)
include ht hwait

theorem Eng.runSlot_restores (hlive : e.idLive slot pcRestore id = false) : ∃ save, e.runSlot m slot pcRestore id =
    (e.setPslot slot (fun p => { p with pend := none })).setPslot slot (fun p => { p with st := .restoring, polder := id, save := save }) := by
  have hne : pcRestore ≠ pcCreate := by decide
  simp only [Eng.runSlot, or_true, if_true, ht, hlive, hwait, Bool.false_eq_true, if_false, hne]
  exact ⟨_, rfl⟩

theorem Eng.runSlot_creates (hlive : e.idLive slot pcCreate id = false) :
    e.runSlot m slot pcCreate id = (e.setPslot slot (fun p => { p with pend := none })).createSlot m slot id t := by
  simp only [Eng.runSlot, true_or, if_true, ht, hlive, hwait, Bool.false_eq_true, if_false]

end

theorem Eng.setPslot_setPslot_same (e : Eng) {slot : Nat} (h : slot < e.pld.slots.length) (f g : PldSlot → PldSlot) :
    ((e.setPslot slot f).setPslot slot g).pslot slot = g (f (e.pslot slot)) := by
  have hlen : slot < (e.setPslot slot f).pld.slots.length := by simpa [Eng.setPslot, updAt] using h
  rw [Eng.setPslot_pslot_same _ hlen, Eng.setPslot_pslot_same _ h]

/-- The layer slots of a template start over at epoch 1. -/
def Eng.freshSlots (l : List Nat) (e : Eng) : Eng := l.foldl (fun (e : Eng) s => e.setLslot s (fun l => { l with epoch := 1, srcEpochs := [] })) e

theorem Eng.freshSlots_eq (l : List Nat) (e : Eng) : e.freshSlots l = { e with lslots := (e.freshSlots l).lslots } := by
  induction l generalizing e with
  | nil => rfl
  | cons s l ih => exact ih (e.setLslot s (fun l => { l with epoch := 1, srcEpochs := [] }))

theorem Eng.freshSlots_epoch_kept (l : List Nat) {e : Eng} {k : Nat} (h : (e.lslot k).epoch = 1) : ((e.freshSlots l).lslot k).epoch = 1 := by
  induction l generalizing e with
  | nil => exact h
  | cons s l ih =>
    refine ih (e := e.setLslot s (fun l => { l with epoch := 1, srcEpochs := [] })) ?_
    rw [Eng.setLslot_lslot]
    split
    · rfl
    · exact h

theorem Eng.freshSlots_epoch {l : List Nat} (e : Eng) {k : Nat} (hk : k ∈ l) : ((e.freshSlots l).lslot k).epoch = 1 := by
  induction l generalizing e with
  | nil => cases hk
  | cons s l ih =>
    obtain rfl | hk := List.mem_cons.1 hk
    · refine Eng.freshSlots_epoch_kept l (e := e.setLslot k (fun l => { l with epoch := 1, srcEpochs := [] })) ?_
      rw [Eng.setLslot_lslot, if_pos rfl]
    · exact ih (e.setLslot s (fun l => { l with epoch := 1, srcEpochs := [] })) hk

section
variable {e : Eng} {m : Mem} {slot id : Nat} {t : Template} (hplen : (e.pslot slot).stagePlen = 0)
include hplen

theorem Eng.createSlot_misplaced (hsave : (e.pslot slot).stageSave % 4096 ≠ 0 ∨ (e.pslot slot).stageSave = 0 ∨
    e.marked (e.pslot slot).stageSave 1 = false) : e.createSlot m slot id t = e.slotResult slot stAlign := by
  unfold Eng.createSlot
  dsimp only
  rw [if_pos hplen, if_pos]
  simpa [or_assoc] using hsave

/-- What CREATE puts in a slot: the staged values, and accounts that start over. -/
def PldSlot.created (id inc : Nat) (t : Template) (q : PldSlot) : PldSlot :=
  { st := .creating, polder := id, result := q.result, save := q.stageSave, stageSave := q.stageSave, stagePiece := q.stagePiece
    stagePlen := q.stagePlen, stageClient := q.stageClient, client := q.stageClient % 2 ^ 16, saveNeed := saveNeedOf t, incarnation := inc }

theorem Eng.createSlot_eq (halign : (e.pslot slot).stageSave % 4096 = 0) (hsave : (e.pslot slot).stageSave ≠ 0)
    (hmarked : e.marked (e.pslot slot).stageSave 1 = true) : ∃ (e' : Eng) (inc : Nat),
    e.createSlot m slot id t = (e'.setPslot slot (PldSlot.created id inc t)).freshSlots ((List.range t.slotCount).map (fun i => t.slotBase + i)) ∧
      e'.pld.slots = e.pld.slots ∧ e' = { e with pld := e'.pld } := by
  unfold Eng.createSlot
  dsimp only
  rw [if_pos hplen, if_neg (by simp [halign, hsave, hmarked])]
  exact ⟨_, _, rfl, rfl, rfl⟩

theorem Eng.createSlot_creates (hlt : slot < e.pld.slots.length) (halign : (e.pslot slot).stageSave % 4096 = 0)
    (hsave : (e.pslot slot).stageSave ≠ 0) (hmarked : e.marked (e.pslot slot).stageSave 1 = true) :
    ∃ (x : Eng) (inc : Nat), e.createSlot m slot id t = x ∧ x.pslot slot = (e.pslot slot).created id inc t ∧
      (∀ k, k ≠ slot → x.pslot k = e.pslot k) ∧ (∀ k, k < t.slotCount → (x.lslot (t.slotBase + k)).epoch = 1) ∧ x.cmds = e.cmds ∧
      x.rings = e.rings ∧ x.wlog = e.wlog ∧ x.spool = e.spool := by
  obtain ⟨e', inc, hcreate, hslots, he'⟩ := Eng.createSlot_eq (m := m) (id := id) (t := t) hplen halign hsave hmarked
  have hpslot : ∀ k, e'.pslot k = e.pslot k := fun k => by rw [Eng.pslot, hslots, Eng.pslot]
  refine ⟨_, inc, hcreate, ?_, fun k hk => ?_, fun k hk => Eng.freshSlots_epoch _ (List.mem_map.2 ⟨k, List.mem_range.2 hk, rfl⟩), ?_, ?_, ?_, ?_⟩
  · rw [Eng.freshSlots_eq, ← hpslot slot]
    exact Eng.setPslot_pslot_same e' (hslots ▸ hlt) _
  · rw [Eng.freshSlots_eq, ← hpslot k]
    exact Eng.setPslot_pslot_other e' hk _
  all_goals
    rw [Eng.freshSlots_eq, he']
    rfl

end

/-! ### An evicted polder is destroyed (R302) -/

/-- What the return of buffers leaves alone: the polders and hall time. -/
structure Eng.SamePolders (e e' : Eng) : Prop where
  pld : e'.pld = e.pld
  time : e'.time = e.time

theorem Eng.SamePolders.trans {e e' e'' : Eng} (h : e.SamePolders e') (h' : e'.SamePolders e'') : e.SamePolders e'' :=
  ⟨h'.pld.trans h.pld, h'.time.trans h.time⟩

theorem Eng.toTail_samePolders (e : Eng) (p n : Nat) : e.SamePolders (e.toTail p n) := by
  unfold Eng.toTail
  dsimp only
  split <;> exact ⟨rfl, rfl⟩

theorem Eng.freeBuf_samePolders (e : Eng) (n : Nat) : e.SamePolders (e.freeBuf n) := by
  have hset : ∀ f, e.SamePolders (e.setEntry n f) := fun f => ⟨rfl, rfl⟩
  unfold Eng.freeBuf
  dsimp only
  split
  · exact hset _
  · exact (hset _).trans (Eng.toTail_samePolders _ _ _)

theorem Eng.forceRelease_samePolders (e : Eng) (polder : Nat) : e.SamePolders (e.forceRelease polder) := by
  have hraise : ∀ (b : Bool) (e' : Eng) arg, e.SamePolders e' → e.SamePolders (if b then e'.raise 0x0590 arg (some polder) 0 else e') :=
    fun b e' arg h => by
      split
      · exact h.trans ⟨Eng.raise_pld .., Eng.raise_time ..⟩
      · exact h
  unfold Eng.forceRelease
  extract_lets mine e0
  refine hraise _ _ _ (List.foldlRecOn (motive := fun (acc : Eng × Bool) => e.SamePolders acc.1) mine _ ⟨rfl, rfl⟩ fun acc hacc n _ => ?_)
  dsimp only
  split
  · exact hacc.trans ⟨rfl, rfl⟩
  · exact Eng.SamePolders.trans (hacc.trans ⟨rfl, rfl⟩ : e.SamePolders (acc.1.setEntry n (fun b => { b with fromResv := false })))
      (Eng.freeBuf_samePolders _ _)

theorem Eng.destroyId_idle {e : Eng} {m : Mem} {id : Nat} (h : e.evicted? id = none ∨ e.slotOf id ≠ none) : e.destroyId m id = e := by
  have hnone : (e.evicted? id).filter (fun _ => (e.slotOf id).isNone) = none := by
    obtain h | h := h
    · rw [h]
      rfl
    · have hsome : (e.slotOf id).isNone = false := by simpa [Option.isSome_iff_ne_none] using h
      simp [hsome]
  simp only [Eng.destroyId, hnone]

/-- The final record of an evicted polder is written, and its ID is evicted no more. -/
theorem Eng.destroyId_ends {e : Eng} {m : Mem} {id : Nat} {v : Evicted} (hv : e.evicted? id = some v) (hslot : e.slotOf id = none) :
    ∃ e' : Eng, e.destroyId m id = e'.retryLatched m ∧
      (v.save, finalRecord v.acc id v.client e.time.ns (v.cmds.filter (fun c => !c.recorded)).length) ∈ e'.wlog ∧
      e'.pld.evicted = e.pld.evicted.filter (fun v => v.polder != id) := by
  have hsome : (e.evicted? id).filter (fun _ => (e.slotOf id).isNone) = some v := by simp [hv, hslot]
  have hfreed := e.forceRelease_samePolders id
  simp only [Eng.destroyId, hsome]
  refine ⟨_, rfl, ?_, ?_⟩
  · rw [Eng.raise_wlog, ← hfreed.time]
    exact List.mem_cons_self
  · rw [Eng.raise_pld, ← hfreed.pld]
    rfl

theorem exec_schDestroyId_alert {s : State} (h : s.alert) {id : Nat} (hid : id < 256) {e : Eng} (he : s.work.destroyId s.hbm id = e) :
    exec (.schDestroyId id) s = .next (s.leaves e) := by
  have hwrite : s.work.writeAccess s.hbm false Reg.schDestroyId false id = s.work.destroyId s.hbm (id % 2 ^ 32 % 256) := rfl
  rw [show id % 2 ^ 32 % 256 = id by omega] at hwrite
  exact (exec_schDestroyId id s).trans (h.1.onPower_leaves (((h.mmioWrite _ _ _).trans hwrite).trans he))

/-! ### The slot commands carried out -/

/-- The slot commands, with the command's number and the ID it carries. -/
def SlotInstr (i : Instr) (slot op id : Nat) : Prop :=
  (i = .create slot id ∧ op = pcCreate) ∨ (i = .restore slot id ∧ op = pcRestore) ∨ (id = 0 ∧ ((i = .destroy slot ∧ op = pcDestroy) ∨
    (i = .park slot ∧ op = pcPark) ∨ (i = .unpark slot ∧ op = pcUnpark) ∨ (i = .evict slot ∧ op = pcEvict)))

theorem SlotInstr.named {i : Instr} {slot op id : Nat} (h : SlotInstr i slot op id) : op ≠ 0 ∧ op ≤ 6 := by
  obtain ⟨-, rfl⟩ | ⟨-, rfl⟩ | ⟨-, ⟨-, rfl⟩ | ⟨-, rfl⟩ | ⟨-, rfl⟩ | ⟨-, rfl⟩⟩ := h <;> decide

theorem SlotInstr.exec_eq {i : Instr} {slot op id : Nat} (h : SlotInstr i slot op id) (s : State) : exec i s = s.slotWrite slot op id := by
  obtain ⟨rfl, rfl⟩ | ⟨rfl, rfl⟩ | ⟨rfl, ⟨rfl, rfl⟩ | ⟨rfl, rfl⟩ | ⟨rfl, rfl⟩ | ⟨rfl, rfl⟩⟩ := h <;> rfl

theorem SlotInstr.exec_alert {i : Instr} {s : State} {slot op id : Nat} (h : SlotInstr i slot op id) (hs : s.alert) (hslot : slot < 16)
    (hid : id < 256) {e : Eng} (he : s.work.slotCommand s.hbm slot op id = e) : exec i s = .next (s.leaves e) :=
  (h.exec_eq s).trans (hs.slotWrite hslot (Nat.lt_of_le_of_lt h.named.2 (by decide)) hid he)

/-- A slot command that applies in the state the slot stands in is carried out. -/
theorem SlotInstr.exec_applies {i : Instr} {s : State} {slot op id : Nat} (h : SlotInstr i slot op id) (hs : s.alert) (hslot : slot < 16)
    (hid : id < 256) (hst : (s.work.pslot slot).st.target = (s.work.pslot slot).st) (happ : pcApplies op (s.work.pslot slot).st = true)
    {e : Eng} (he : s.work.runSlot s.hbm slot op id = e) : exec i s = .next (s.leaves e) :=
  h.exec_alert hs hslot hid ((Eng.slotCommand_runs h.named hst happ).trans he)

end Sys2Proof.Machine

open Sys2Proof Sys2Proof.Machine

/-- Settles O46: which slot commands are carried out, latched or refused, and what CREATE and RESTORE make of a slot. -/
theorem slotCommandsAreTakenLatchedOrRefused : Obligations.SlotCommandsAreTakenLatchedOrRefused := by
  unfold Obligations.SlotCommandsAreTakenLatchedOrRefused
  refine ⟨fun s slot op id i p h hslot hid hp hi => ?_, fun s slot id p e h hslot hid hp hlen he => ?_,
    fun s id h hid => ⟨fun hidle => ?_, fun v hv hfree => ?_⟩⟩
  · replace hp : p = s.work.pslot slot := hp
    subst hp
    have hcmd : SlotInstr i slot op id := hi
    have hop := hcmd.named
    exact ⟨fun hst happ => ⟨fun hpend => hcmd.exec_alert h hslot hid (Eng.slotCommand_refused hop hst happ hpend),
        fun hpend heff => hcmd.exec_alert h hslot hid (Eng.slotCommand_undoes hop hst happ hpend heff)⟩,
      fun hst => ⟨fun happ => hcmd.exec_alert h hslot hid (Eng.slotCommand_latches hop hst happ),
        fun happ => hcmd.exec_alert h hslot hid (Eng.slotCommand_inTransition hop hst happ)⟩⟩
  · replace hp : p = s.work.pslot slot := hp
    subst hp
    have hpark : SlotInstr (.park slot) slot pcPark 0 := by simp [SlotInstr]
    have hunpark : SlotInstr (.unpark slot) slot pcUnpark 0 := by simp [SlotInstr]
    have hevict : SlotInstr (.evict slot) slot pcEvict 0 := by simp [SlotInstr]
    have hdestroy : SlotInstr (.destroy slot) slot pcDestroy 0 := by simp [SlotInstr]
    refine ⟨fun hst => ?_, fun hst => ⟨?_, fun hquiet => ?_, fun hquiet => ?_⟩, fun hst => ?_, fun hst op i hi => ?_⟩
    · exact hpark.exec_applies h hslot (by decide) (by rw [hst]; rfl) (by rw [hst]; rfl) rfl
    · exact hunpark.exec_applies h hslot (by decide) (by rw [hst]; rfl) (by rw [hst]; rfl) rfl
    · exact hevict.exec_applies h hslot (by decide) (by rw [hst]; rfl) (by rw [hst]; rfl) (if_pos hquiet)
    · exact hevict.exec_applies h hslot (by decide) (by rw [hst]; rfl) (by rw [hst]; rfl) (if_neg (by rw [hquiet]; decide))
    · refine hdestroy.exec_applies h hslot (by decide) ?_ ?_ rfl
      · obtain hst | hst | hst := hst <;> rw [hst] <;> rfl
      · obtain hst | hst | hst := hst <;> rw [hst] <;> rfl
    · have hcmd : SlotInstr i slot op id := hi.imp_right Or.inl
      have hnamed : op = pcCreate ∨ op = pcRestore := hi.imp And.right And.right
      have hlt : slot < s.work.pld.slots.length := Nat.lt_of_lt_of_eq hslot hlen.symm
      have happ : pcApplies op (s.work.pslot slot).st = true := by simp [pcApplies, hnamed, hst]
      have hruns := fun {e} => hcmd.exec_applies h hslot hid (by rw [hst]; rfl) happ (e := e)
      refine ⟨fun hbad => hruns (Eng.runSlot_refused hnamed hbad), fun ht hlive hwait => hruns (Eng.runSlot_waits hnamed ht hlive hwait),
        fun t ht hlive hwait => ⟨fun hrestore => ?_, fun hcreate hplen => ?_⟩⟩
      · subst hrestore
        obtain ⟨save, hrun⟩ := Eng.runSlot_restores (m := s.hbm) ht hwait hlive
        refine ⟨_, (hruns hrun).trans (congrArg _ (State.leaves_eq s _ h.1.2 rfl)), ?_, ?_, fun k hk => ?_⟩
        · rw [Eng.setPslot_setPslot_same _ hlt]
        · rw [Eng.setPslot_setPslot_same _ hlt]
        · exact (Eng.setPslot_pslot_other _ hk _).trans (Eng.setPslot_pslot_other _ hk _)
      · subst hcreate he
        have hpend : (s.work.setPslot slot (fun q => { q with pend := none })).pslot slot = { s.work.pslot slot with pend := none } :=
          Eng.setPslot_pslot_same _ hlt _
        have hplen' : ((s.work.setPslot slot (fun q => { q with pend := none })).pslot slot).stagePlen = 0 := by rw [hpend]; exact hplen
        have hcreates := Eng.runSlot_creates (m := s.hbm) ht hwait hlive
        refine ⟨fun hsave => ?_, fun halign hsave hmarked => ?_⟩
        · exact hruns (hcreates.trans (Eng.createSlot_misplaced hplen' (by rw [hpend]; exact hsave)))
        · obtain ⟨x, inc, hcreate, hslot', hother, hepoch, hcmds, hrings, hwlog, hspool⟩ := Eng.createSlot_creates (m := s.hbm) (id := id)
            (t := t) hplen' (by simpa [Eng.setPslot, updAt] using hlt) (by rw [hpend]; exact halign) (by rw [hpend]; exact hsave)
            (by rw [hpend]; exact hmarked)
          rw [hpend] at hslot'
          refine ⟨_, (hruns (hcreates.trans hcreate)).trans (congrArg _ (State.leaves_eq s x ((congrArg _ hspool).trans h.1.2) hwlog)), ?_⟩
          dsimp only
          rw [hslot']
          exact ⟨rfl, rfl, rfl, rfl, rfl, rfl, hepoch, fun k hk => (hother k hk).trans (Eng.setPslot_pslot_other s.work hk _), hcmds, hrings, rfl⟩
  · rw [exec_schDestroyId_alert h hid (Eng.destroyId_idle hidle), State.leaves_eq s s.work h.1.2 rfl]
  · obtain ⟨e, he, hrec, hevicted⟩ := Eng.destroyId_ends (e := s.work) (m := s.hbm) hv hfree
    exact ⟨e, _, exec_schDestroyId_alert h hid he, rfl, hrec, hevicted⟩

end

section
/-! SUPPORT. Consent, Tide windows and SLOWDOWN (R312, R313, R315, R316, R319, R325). -/

namespace Sys2Proof.Machine

/-! ### Consent (R316, R325) -/

theorem slotReg_pldConsent_place : ∀ slot : Fin 16, isWide (slotReg slot Reg.pldConsent) = true ∧
    isWide (slotReg slot Reg.pldConsent + 4) = false ∧ (slotReg slot Reg.pldConsent % 8 = 0 ∧ slotReg slot Reg.pldConsent + 4 < 0x200000) ∧
    isMgmtReg (slotReg slot Reg.pldConsent) = false ∧ slotReg slot Reg.pldConsent / 0x10000 = 2 ∧
    slotReg slot Reg.pldConsent % 0x10000 / 0x1000 = slot ∧ slotReg slot Reg.pldConsent % 0x1000 = Reg.pldConsent := by decide

theorem Eng.writeAccess_pldConsent (e : Eng) (m : Mem) (mgmt : Bool) {slot off v : Nat} {wide : Bool} (hslot : slot < 16)
    (hv : halfOk off wide v = true) (hst : (e.pslot slot).st ≠ .empty) :
    e.writeAccess m mgmt (slotReg slot Reg.pldConsent + off) wide v = e.takeConsent slot wide v := by
  obtain ⟨hwide, hwide4, hplace, hmgmt, hblock, hof, hoff⟩ := slotReg_pldConsent_place ⟨slot, hslot⟩
  dsimp only at hwide hwide4 hplace hmgmt hblock hof hoff
  have hneq : Reg.pldConsent ≠ Reg.pldCmd ∧ Reg.pldConsent ≠ Reg.pldStageSave ∧ Reg.pldConsent ≠ Reg.pldStagePiece ∧
    Reg.pldConsent ≠ Reg.pldStagePlen ∧ Reg.pldConsent ≠ Reg.pldStageClient := by decide
  obtain ⟨hcmd, hsave, hpiece, hplen, hclient⟩ := hneq
  rw [e.writeAccess_half m mgmt hv hwide hwide4 hplace]
  simp [Eng.writeVal, hmgmt, hblock, hof, hoff, Eng.writeSlot, hcmd, hsave, hpiece, hplen, hclient, hst]

theorem exec_consent_alert {s : State} (h : s.alert) {slot off v : Nat} {wide : Bool} (hslot : slot < 16) (hv : halfOk off wide v = true)
    (hst : (s.eng.pslot slot).st ≠ .empty) {e : Eng} (he : s.work.takeConsent slot wide v = e) :
    exec (.consent slot off wide v) s = .next (s.leaves e) :=
  (exec_consent slot off wide v s).trans (h.1.onPower_leaves
    (((h.mmioWrite _ _ _).trans (s.work.writeAccess_pldConsent s.hbm false hslot hv hst)).trans he))

section
variable {e : Eng} {slot v : Nat} {wide : Bool} (hst : (e.pslot slot).st ≠ .empty)
include hst

theorem Eng.takeConsent_unnamed (h : wide = false ∨ (e.lslot (field v 32 8)).steps.find? (fun i =>
    i.awaiting && i.step == field v 0 32 && i.polder == (e.pslot slot).polder) = none) : e.takeConsent slot wide v = e.consentIgnored slot := by
  cases wide with
  | false => simp [Eng.takeConsent, hst]
  | true =>
    have hnone := h.resolve_left (by decide)
    simp [Eng.takeConsent, hst, hnone]

variable {i : StepInfo} (hi : (e.lslot (field v 32 8)).steps.find? (fun i =>
    i.awaiting && i.step == field v 0 32 && i.polder == (e.pslot slot).polder) = some i)
include hi

theorem Eng.takeConsent_late (h : i.deadline < e.time.ns ∨ field v 32 8 ∉ e.polderSlots (e.pslot slot).polder) :
    e.takeConsent slot true v = e.consentIgnored slot := by
  have hlate : (decide (e.now > i.deadline) || !(e.polderSlots (e.pslot slot).polder).contains (field v 32 8)) = true := by
    simpa [Eng.now] using h
  simp only [Eng.takeConsent, hi, hlate, Bool.not_true, Bool.false_eq_true, if_false, if_true, beq_eq_false_iff_ne.2 hst]

theorem Eng.takeConsent_inTime (htime : e.time.ns ≤ i.deadline) (hslot : field v 32 8 ∈ e.polderSlots (e.pslot slot).polder) :
    e.takeConsent slot true v = e.setStep (field v 32 8) i.step (fun i => { i with consented := true, edit := bit v 40 }) := by
  have hok : (decide (e.now > i.deadline) || !(e.polderSlots (e.pslot slot).polder).contains (field v 32 8)) = false := by
    simpa [Eng.now] using And.intro htime hslot
  simp only [Eng.takeConsent, hi, hok, Bool.not_true, Bool.false_eq_true, if_false, beq_eq_false_iff_ne.2 hst]

end

/-- A step whose consent is late: told, and counted in the slot of its polder. -/
theorem Eng.consentLate_tells {e : Eng} {slot k : Nat} {i : StepInfo}
    (hi : (e.lslot slot).steps.find? (fun i => i.awaiting && i.deadline != noDeadline) = some i) (hk : e.slotOf i.polder = some k) :
    e.consentLate slot = ((((e.reach i.deadline).setStep slot i.step (fun i => { i with timedOut := true })).setPslot k
      (fun p => { p with consentErr := setField p.consentErr 0 16 (satAdd 16 (field p.consentErr 0 16) 1) })).raise 0x0558
        (arg5 0 i.polder k) (some i.polder) 0) := by
  have hk' : ((e.reach i.deadline).setStep slot i.step (fun i => { i with timedOut := true })).slotOf i.polder = some k := hk
  simp only [Eng.consentLate, hi, hk']

/-! ### Tide windows (R312, R313) -/

theorem Eng.windowStart_idle {e : Eng} {m : Mem} (h : e.pld.window.isSome = true ∨ e.tidePeriod = 0) : e.windowStart m = e := by
  unfold Eng.windowStart
  rw [if_pos]
  simpa using h

theorem Eng.windowStart_opens {e : Eng} {m : Mem} {t : TideEntry} (hwin : e.pld.window = none) (hperiod : e.tidePeriod ≠ 0)
    (ht : e.tideActive = some t) : e.windowStart m = ({ e with pld := { e.pld with window := some t.polder } } : Eng).settle m := by
  unfold Eng.windowStart
  rw [if_neg (by simp [hwin, hperiod])]
  simp only [ht, Option.isSome_some, if_true]

/-- When a window ends: not before the end of its entry, where one is active. -/
def Eng.windowOver (e : Eng) : Eng := match e.tideActive with
  | some t => e.reach (e.nextAt (t.start + t.len))
  | none => e

theorem Eng.windowOver_pld (e : Eng) : e.windowOver.pld = e.pld := by
  unfold Eng.windowOver
  split <;> rfl

theorem Eng.windowEnd_open {e : Eng} {m : Mem} {ns x : Nat} (hx : e.pld.window = some x) {e1 : Eng}
    (he1 : e1 = { e.windowOver with pld := { e.pld with window := none } }) :
    e.windowEnd m ns = (if ns = 0 then e1 else (e1.gauge gsTideOverrun 0 (some x) ns).raise 0x055A
      (arg5 0 x ((e.slotOf x).getD 0)) (some x) 0).settle m := by
  have hslot : e1.slotOf x = e.slotOf x := by rw [he1, Eng.slotOf, Eng.slotOf]
  have hclosed : ({ e.windowOver with pld := { e.windowOver.pld with window := none } } : Eng) = e1 := by rw [he1, e.windowOver_pld]
  rw [← hslot, ← hclosed]
  simp only [Eng.windowEnd, hx]
  rfl

/-! ### SLOWDOWN (R319) -/

theorem Eng.slowdowns_pslot (e : Eng) {k : Nat} (h : (e.pslot k).st ≠ .empty) :
    e.slowdowns.pslot k = { e.pslot k with acc := (e.pslot k).acc.slowStep } := by
  unfold Eng.pslot at h ⊢
  simp only [Eng.slowdowns, Eng.reach, List.getD_eq_getElem?_getD, List.getElem?_map] at h ⊢
  cases hk : e.pld.slots[k]? with
  | none =>
    rw [hk] at h
    exact absurd rfl h
  | some p =>
    rw [hk] at h
    exact if_neg (by simpa using h)

end Sys2Proof.Machine

open Sys2Proof Sys2Proof.Machine

/-- Settles O49: consent in time and out of it, the opening and the end of a Tide window, and the millisecond's SLOWDOWN. -/
theorem consentTideAndSlowdownRunOnTime : Obligations.ConsentTideAndSlowdownRunOnTime := by
  unfold Obligations.ConsentTideAndSlowdownRunOnTime
  refine ⟨fun s slot off v wide p ls h hslot hp hst hv hls => ?_, fun s slot k i h hi hk => ?_, fun s h => ⟨fun hidle => ?_,
    fun t hwin hperiod ht => ?_⟩, fun s ns x h hx => ?_, fun s h => ?_⟩
  · subst hp hls
    exact ⟨fun hnone => exec_consent_alert h hslot hv hst (Eng.takeConsent_unnamed hst hnone), fun i hwide hi => by
      subst hwide
      exact ⟨fun hlate => exec_consent_alert h hslot hv hst (Eng.takeConsent_late hst hi hlate),
        fun htime hls => exec_consent_alert h hslot hv hst (Eng.takeConsent_inTime (e := s.work) hst hi htime hls)⟩⟩
  · exact (exec_consentTimeout slot s).trans (h.onPower_leaves (Eng.consentLate_tells hi hk))
  · exact (exec_tideWindowStart s).trans (h.onPower_eng (Eng.windowStart_idle hidle) rfl rfl)
  · exact (exec_tideWindowStart s).trans (h.onPower_leaves (Eng.windowStart_opens hwin hperiod ht))
  · exact ⟨_, _, rfl, rfl, (exec_tideWindowEnd ns s).trans (h.onPower_leaves (Eng.windowEnd_open (e := s.work) hx rfl))⟩
  · refine ⟨_, (exec_slowdownUpdate s).trans (h.onPower_eng rfl rfl rfl), rfl, fun k a da ds ha hda hds hst => ?_, rfl⟩
    subst ha hda hds
    exact Eng.slowdowns_pslot s.work hst

end

section
/-! SUPPORT. A period that closes while the handshake of the one before it is still open: Tape counts that handshake as unanswered and
writes no mirror (R401, R403, R409). -/

namespace Sys2Proof.Machine

/-- A powered engine and a running Tape in the first period of a minute, with a handshake open. -/
def openHandshakeState : State where
  eng := { boot := { powered := true } }
  tape := { running := true, waiting := true, periods := 1 }

/-- The event of the unanswered handshake is still to be posted after the period has closed. -/
theorem openHandshakeState_close : openHandshakeState.tape.close.events = [0x0806] := by decide +kernel

/-- A write of the mirror leaves no event to be posted. -/
theorem mirrorWrite_events {t : Tape} {e : Eng} (ht : t.running = true) (hpower : e.boot.powered = true)
    (hrec : e.flt.recovery ≠ some .compute) : (mirrorWrite t e).1.events = [] := by
  unfold mirrorWrite
  rw [if_pos (by simp [ht, hpower, hrec])]

end Sys2Proof.Machine

open Sys2Proof Sys2Proof.Machine

/-- Refutes O58, in its clause on a PERIOD_CLOSE that finds a handshake open: the mirror is written after a handshake has ended and not
by PERIOD_CLOSE, so TAPE_ACTIVITY_UNREAD waits for the next write where the statement has it posted at once. -/
theorem not_tapeMetersAndApportions : ¬ Obligations.TapeMetersAndApportions := by
  unfold Obligations.TapeMetersAndApportions
  intro h
  obtain ⟨-, -, hopen, -⟩ := h
  have hclose := (exec_periodClose openHandshakeState).symm.trans (hopen openHandshakeState _ rfl rfl rfl rfl)
  have htape : openHandshakeState.tape.close = _ := congrArg State.tape (Host.Outcome.next.inj hclose)
  have hevents := congrArg Tape.events htape
  rw [openHandshakeState_close, mirrorWrite_events (by decide +kernel) rfl (by decide)] at hevents
  cases hevents

end

section
/-! SUPPORT. Tape's records, its power-fail warning, its seal and its sealed port (R404 to R408, Table 18-3, Table 18-4). -/

namespace Sys2Proof.Machine

/-! ### Bytes of a record -/

theorem length_leBytes (n v : Nat) : (leBytes n v).length = n := by
  induction n generalizing v with
  | zero => rfl
  | succ n ih => simp [leBytes, ih]

theorem length_fitTo (n : Nat) (l : List Byte) : (fitTo n l).length = n := by
  simp only [fitTo, zeros, List.length_append, List.length_take, List.length_replicate]
  omega

theorem take_fitTo {k n : Nat} (h : k ≤ n) (l : List Byte) : (fitTo n l).take k = fitTo k l := by
  simp only [fitTo, zeros, List.take_append, List.take_take, List.take_replicate, List.length_take, Nat.min_eq_left h]
  congr 2
  omega

theorem fitTo_of_length {n : Nat} {l : List Byte} (h : l.length = n) : fitTo n l = l := by
  simp [fitTo, zeros, h]

theorem Tape.length_header (t : Tape) (ty n : Nat) (c : Bool) : (t.header ty n c).length = 64 := by
  simp [Tape.header, length_leBytes, length_fitTo]

/-! ### A record (R404) -/

/-- The 384 bytes of a record. -/
def Tape.recordBytes (t : Tape) (ty n : Nat) (c : Bool) (body : List Byte) : List Byte :=
  let signed := t.header ty n c ++ fitTo 256 body
  signed ++ (if t.keyOk then fitTo 64 (edSign t.seed signed) else zeros 64)

theorem Tape.recordBytes_take (t : Tape) (ty n : Nat) (c : Bool) (body : List Byte) :
    (t.recordBytes ty n c body).take 320 = t.header ty n c ++ fitTo 256 body := by
  rw [Tape.recordBytes]
  exact List.take_left' (by simp [Tape.length_header, length_fitTo])

theorem Tape.recordBytes_drop (t : Tape) (ty n : Nat) (c : Bool) (body : List Byte) :
    (t.recordBytes ty n c body).drop 320 =
      if t.keyOk then fitTo 64 (edSign t.seed ((t.recordBytes ty n c body).take 320)) else zeros 64 := by
  rw [Tape.recordBytes_take]
  exact List.drop_left' (by simp [Tape.length_header, length_fitTo])

theorem Tape.length_recordBytes (t : Tape) (ty n : Nat) (c : Bool) (body : List Byte) : (t.recordBytes ty n c body).length = 384 := by
  rw [← List.take_append_drop 320 (t.recordBytes ty n c body), Tape.recordBytes_take, Tape.recordBytes_drop, List.length_append]
  split <;> simp [Tape.length_header, length_fitTo, zeros]

/-- The first byte of a record is its type. -/
theorem Tape.recordBytes_type (t : Tape) (ty n : Nat) (c : Bool) (body : List Byte) :
    (t.recordBytes ty n c body).head? = some (BitVec.ofNat 8 ty) := rfl

/-- The body of a record stands from byte 64 on. -/
theorem Tape.recordBytes_body (t : Tape) (ty n : Nat) (c : Bool) (body : List Byte) :
    ((t.recordBytes ty n c body).drop 64).take 32 = fitTo 32 body := by
  have hbody : (t.recordBytes ty n c body).drop 64 = fitTo 256 body ++ (t.recordBytes ty n c body).drop 320 := by
    rw [← List.take_append_drop 320 (t.recordBytes ty n c body), Tape.recordBytes_take, List.append_assoc,
      List.drop_left' (t.length_header ty n c), ← List.append_assoc, List.drop_left' (by simp [Tape.length_header, length_fitTo])]
  rw [hbody, List.take_append_of_le_length (by simp [length_fitTo]), take_fitTo (by decide)]

/-- A record: the log with it in front, the next SEQ, and the ring's first turn told once. -/
theorem Tape.record_eq (t : Tape) (ty n : Nat) (c : Bool) (body : List Byte) :
    t.record ty n c body = { t with
      log := ((t.seq, t.recordBytes ty n c body) :: t.log).take 10922, seq := t.seq + 1
      wrapped := t.wrapped || decide (10922 ≤ t.log.length)
      events := t.events ++ (if !t.wrapped && decide (10922 ≤ t.log.length) then [0x0805] else []) } := by
  unfold Tape.record
  dsimp only
  by_cases hfull : 10922 ≤ t.log.length
  · rw [if_pos (by rw [List.length_cons]; omega)]
    cases t.wrapped <;> simp [hfull, Tape.raise, Tape.recordBytes]
  · rw [if_neg (by rw [List.length_cons]; omega)]
    cases t.wrapped <;> simp [hfull, Tape.recordBytes]

theorem Tape.record_log_head (t : Tape) (ty n : Nat) (c : Bool) (body : List Byte) :
    (t.record ty n c body).log.head? = some (t.seq, t.recordBytes ty n c body) := by
  rw [Tape.record_eq]
  rfl

/-! ### What a command of Tape does to the rest of the state -/

/-- With no write left behind, the memory and the engine are as they stand. -/
theorem State.written_nothing (s : State) {e : Eng} (h : e.wlog = []) (t : Tape) :
    ({ s with hbm := e.view s.hbm, eng := { e with wlog := [] }, tape := t } : State) = { s with eng := e, tape := t } := by
  have hview : e.view s.hbm = s.hbm := by simp only [Eng.view, h, List.foldr_nil]
  have heng : ({ e with wlog := [] } : Eng) = e := by rw [← h]
  rw [hview, heng]

theorem State.tapeApply_silent (s : State) (f : Tape → Eng → Tape) :
    s.tapeApply false f = .next { s with eng := s.work, tape := f s.tape s.eng } :=
  congrArg Host.Outcome.next (s.written_nothing (e := s.work) rfl _)

theorem State.tapeApply_mirrored (s : State) (f : Tape → Eng → Tape) {t : Tape} (ht : f s.tape s.eng = t) : s.tapeApply true f =
    .next { s with eng := (mirrorWrite t s.work).2, tape := (mirrorWrite t s.work).1 } := by
  rw [← ht]
  exact congrArg Host.Outcome.next (s.written_nothing (mirrorWrite_wlog _ _) _)

/-! ### The power-fail warning (R406) -/

/-- Tape's state as the power-fail warning saves it. -/
def Tape.saved (t : Tape) : Tape :=
  let l := if t.periodAj + t.carry ≥ 10 ^ 15 ∨ t.currentMj > 0 then (t.currentMj + (t.periodAj + t.carry) / 10 ^ 15) :: t.pendings else t.pendings
  { t with
    powerFail := true, carry := (t.periodAj + t.carry) % 10 ^ 15, currentMj := 0, pendings := l, periodAj := 0
    nv := ⟨t.acc, t.rev, (t.periodAj + t.carry) % 10 ^ 15, l⟩ }

theorem Tape.powerFailing_running {t : Tape} (hrun : t.running = true) (hpf : t.powerFail = false) :
    t.powerFailing = (t.saved.record 3 0 false []).raise 0x0807 := by
  unfold Tape.powerFailing
  rw [if_neg (by simp [hrun, hpf])]
  rfl

/-- Nothing of the energy still to be shared out is lost to the warning. -/
theorem Tape.saved_pendings_sum (t : Tape) :
    t.saved.nv.pendings.sum = t.pendings.sum + t.currentMj + (t.periodAj + t.carry) / 10 ^ 15 := by
  unfold Tape.saved
  dsimp only
  split
  · rw [List.sum_cons]
    omega
  · omega

/-! ### The sealed port (R407, R408) -/

theorem State.port_unpowered {s : State} (hrun : s.tape.running = false) (f : Tape → Tape) :
    s.tapeApply false (fun t _ => t.port f) = .next { s with eng := s.work, tape := s.tape.reply .nack } := by
  rw [State.tapeApply_silent, Tape.port, hrun]
  rfl

theorem State.port_running {s : State} (hrun : s.tape.running = true) {f : Tape → Tape} {t : Tape} (ht : f s.tape = t) :
    s.tapeApply false (fun t _ => t.port f) = .next { s with eng := s.work, tape := t } := by
  rw [State.tapeApply_silent, Tape.port, hrun, ← ht]
  rfl

theorem State.port_mirrored {s : State} (hrun : s.tape.running = true) {f : Tape → Tape} {t : Tape} (ht : f s.tape = t) :
    s.tapeApply true (fun t _ => t.port f) = .next { s with eng := (mirrorWrite t s.work).2, tape := (mirrorWrite t s.work).1 } :=
  s.tapeApply_mirrored _ ((if_pos hrun).trans ht)

/-- Tape as the seal starts it over, before its record is written. -/
def Tape.startedOver (t : Tape) : Tape := { t with sealed := true, legal := 0, reverse := 0, totals := [], seq := 0, sealSeq := 0, frames := 0 }

theorem Tape.sealNow_eq (t : Tape) : t.sealNow = t.startedOver.record 2 0 false (sha256 t.constants) := rfl

theorem exec_seal_open {s : State} (hrun : s.tape.running = true) (hsealed : s.tape.sealed = false) {t : Tape}
    (ht : s.tape.sealNow.reply .ack = t) :
    exec .seal s = .next { s with eng := (mirrorWrite t s.work).2, tape := (mirrorWrite t s.work).1 } := by
  rw [exec_seal, hrun, hsealed]
  exact State.port_mirrored hrun ((if_neg (by simp [hsealed])).trans ht)

/-- Tape with the record of a challenge. -/
def Tape.challenged (nonce : List Byte) (t : Tape) : Tape :=
  let t := t.record 4 0 false (fitTo 32 nonce)
  { t with lastChallenge := t.recordOf (t.seq - 1) }

theorem exec_challenge_signed {s : State} (hrun : s.tape.running = true) (hpf : s.tape.powerFail = false) {n : List Byte} {t : Tape}
    (ht : (s.tape.challenged n).reply .ack = t) :
    exec (.challenge n) s = .next { s with eng := (mirrorWrite t s.work).2, tape := (mirrorWrite t s.work).1 } := by
  rw [exec_challenge, hrun, hpf]
  exact State.port_mirrored hrun ((if_neg (by simp [hpf])).trans ht)

/-- The newest record is found under its own number. -/
theorem Tape.recordOf_newest (t : Tape) (ty n : Nat) (c : Bool) (body : List Byte) :
    (t.record ty n c body).recordOf ((t.record ty n c body).seq - 1) = t.recordBytes ty n c body := by
  rw [Tape.record_eq]
  simp [Tape.recordOf]

end Sys2Proof.Machine

open Sys2Proof Sys2Proof.Machine

/-- Settles O59: the bytes of a record, what Tape's resets and its power-fail warning keep, the seal, and the port's answers. -/
theorem tapeRecordsSealsAndAnswers : Obligations.TapeRecordsSealsAndAnswers := by
  unfold Obligations.TapeRecordsSealsAndAnswers
  refine ⟨fun t ty n c body hlog => ?_, fun s ok => ?_, fun s hrun hpf => ?_, fun s x hx => ⟨fun hoff i hi => ?_, fun hoff q n cl a b c d => ?_,
    fun hrun => ?_⟩, fun s hrun hsealed => ?_, fun s n hrun hpf hn => ?_⟩
  · refine ⟨_, t.length_recordBytes ty n c body, t.recordBytes_take ty n c body, t.recordBytes_drop ty n c body, ?_⟩
    rw [Tape.record_eq]
    have hfull : 10922 ≤ t.log.length ↔ t.log.length = 10922 := ⟨Nat.le_antisymm hlog, fun h => h.ge⟩
    exact ⟨rfl, rfl, congrArg (t.wrapped || ·) (decide_eq_decide.2 hfull)⟩
  · refine ⟨_, (exec_tapePorstN ok s).trans (s.tapeApply_silent _), ?_⟩
    cases ok <;> cases hsealed : s.tape.sealed <;> simp [Tape.powerOn, Tape.raise, hsealed]
  · refine ⟨_, _, rfl, (exec_tapePfwN s).trans (s.tapeApply_mirrored _ (Tape.powerFailing_running hrun hpf)), ?_⟩
    have hsum := s.tape.saved_pendings_sum
    have hhead := s.tape.saved.record_log_head 3 0 false []
    rw [Tape.record_eq] at hhead ⊢
    exact ⟨rfl, rfl, rfl, rfl, hsum, rfl, ⟨_, hhead, s.tape.saved.recordBytes_type 3 0 false []⟩, rfl, by simp [Tape.raise]⟩
  · obtain rfl : x = fun r => s.tape.reply r := funext hx
    simp only [List.mem_cons, List.not_mem_nil, or_false] at hi
    obtain rfl | rfl | rfl | rfl := hi
    · exact (exec_getIdentity s).trans (State.port_unpowered hoff _)
    · exact (exec_getStatus s).trans (State.port_unpowered hoff _)
    · exact (exec_readChallenge s).trans (State.port_unpowered hoff _)
    · rw [exec_seal, hoff]
      exact State.port_unpowered hoff _
  · obtain rfl : x = fun r => s.tape.reply r := funext hx
    refine ⟨(exec_readRecord q s).trans (State.port_unpowered hoff _), ?_, (exec_getClient cl s).trans (State.port_unpowered hoff _),
      (exec_calibrate a b c d s).trans (State.port_unpowered hoff _)⟩
    rw [exec_challenge, hoff]
    exact State.port_unpowered hoff _
  · obtain rfl : x = fun r => s.tape.reply r := funext hx
    refine ⟨(exec_getIdentity s).trans (State.port_running hrun rfl), (exec_getStatus s).trans (State.port_running hrun rfl),
      fun q b hb => (exec_readRecord q s).trans (State.port_running hrun ?_), fun q hq => (exec_readRecord q s).trans (State.port_running hrun ?_),
      fun c hc => (exec_getClient c s).trans (State.port_running hrun ?_), (exec_readChallenge s).trans (State.port_running hrun ?_),
      fun hsealed => ⟨?_, fun a b c d => (exec_calibrate a b c d s).trans (State.port_running hrun ?_)⟩,
      fun hsealed a b c d => ⟨_, rfl, (exec_calibrate a b c d s).trans (State.port_running hrun ?_)⟩, fun hpf n => ?_⟩
    · simp [Tape.recordOf, hb]
    · simp [Tape.recordOf, hq]
    · rw [Nat.mod_eq_of_lt hc]
    · simp [List.isEmpty_iff]
    · rw [exec_seal, hrun, hsealed]
      exact State.port_running hrun (if_pos hsealed)
    · exact if_pos hsealed
    · exact if_neg (by simp [hsealed])
    · rw [exec_challenge, hrun, hpf]
      exact State.port_running hrun (if_pos hpf)
  · refine ⟨_, _, s.tape.startedOver.recordBytes 2 0 false (sha256 s.tape.constants), rfl, exec_seal_open hrun hsealed rfl, ?_⟩
    rw [Tape.sealNow_eq, Tape.record_eq]
    exact ⟨rfl, rfl, rfl, rfl, rfl, rfl, rfl, rfl, Tape.recordBytes_type _ 2 _ _ _, Tape.recordBytes_body _ _ _ _ _, rfl, rfl, rfl, rfl, rfl⟩
  · refine ⟨_, _, s.tape.recordBytes 4 0 false (fitTo 32 n), rfl, exec_challenge_signed hrun hpf rfl, ?_⟩
    have hnewest := s.tape.recordOf_newest 4 0 false (fitTo 32 n)
    unfold Tape.challenged
    rw [Tape.record_eq] at hnewest ⊢
    have hnonce := (s.tape.recordBytes_body 4 0 false (fitTo 32 n)).trans (fitTo_of_length (length_fitTo 32 n))
    exact ⟨rfl, rfl, Tape.recordBytes_type _ 4 _ _ _, hnonce.trans (fitTo_of_length hn), hnewest, rfl, rfl⟩

end

section
/-! SUPPORT. A compute reset: what the buffers that host roles give back leave alone, what the reset clears and keeps, and how it ends
(R354 to R358, R376, R395, Table 15-3, Table 15-4). -/

namespace Sys2Proof.Machine

/-! ### Buffers given back by host roles that start over (R256, R356) -/

/-- A write that stays within the buffer table, or writes nothing. -/
def Eng.inTable (e : Eng) (w : Nat × List Byte) : Prop :=
  w.2 = [] ∨ (e.reg Reg.bobTable ≤ w.1 ∧ w.1 + w.2.length ≤ e.reg Reg.bobTable + 8 * e.bufTotal)

/-- What giving buffers back can do: the buffer records, the table's entries in HBM, the count of double frees, and the host roles. -/
structure Eng.GivesBack (e e' : Eng) : Prop where
  rest : e' = { e with bob := e'.bob, regs := e'.regs, wlog := e'.wlog, roles := e'.roles }
  regs : ∀ o, o ≠ Reg.bobDf → e'.reg o = e.reg o
  wlog : ∃ l, e'.wlog = l ++ e.wlog ∧ ∀ w ∈ l, e.inTable w

theorem Eng.GivesBack.refl (e : Eng) : e.GivesBack e := ⟨rfl, fun _ _ => rfl, [], rfl, fun _ h => nomatch h⟩

theorem Eng.bufTotal_of_regs {e e' : Eng} (h : ∀ o, o ≠ Reg.bobDf → e'.reg o = e.reg o) : e'.bufTotal = e.bufTotal := by
  refine Eng.bufTotal_congr (funext fun p => ?_)
  have hne : Reg.bobPoolCount p ≠ Reg.bobDf := by
    unfold Reg.bobPoolCount Reg.bobDf
    omega
  rw [Eng.poolCount, Eng.poolCount, h _ hne]

theorem Eng.inTable_congr {e e' : Eng} (h : ∀ o, o ≠ Reg.bobDf → e'.reg o = e.reg o) (w : Nat × List Byte) : e'.inTable w ↔ e.inTable w := by
  rw [Eng.inTable, Eng.inTable, Eng.bufTotal_of_regs h, h Reg.bobTable (by decide)]

theorem Eng.GivesBack.trans {e e' e'' : Eng} (h : e.GivesBack e') (h' : e'.GivesBack e'') : e.GivesBack e'' := by
  obtain ⟨l, hl, hin⟩ := h.wlog
  obtain ⟨l', hl', hin'⟩ := h'.wlog
  refine ⟨?_, fun o ho => (h'.regs o ho).trans (h.regs o ho), l' ++ l, by rw [hl', hl, List.append_assoc], fun w hw => ?_⟩
  · refine h'.rest.trans ?_
    rw [h.rest]
  · obtain hw | hw := List.mem_append.1 hw
    · exact (Eng.inTable_congr h.regs w).1 (hin' w hw)
    · exact hin w hw

theorem Eng.GivesBack.foldl {α : Type} {f : Eng → α → Eng} (hf : ∀ (e : Eng) x, e.GivesBack (f e x)) (l : List α) (e : Eng) :
    e.GivesBack (l.foldl f e) :=
  List.foldlRecOn l f (.refl e) (fun e' h x _ => h.trans (hf e' x))

/-- A change of the buffer records alone. -/
theorem Eng.GivesBack.of_bob {e : Eng} {b : Bob} : e.GivesBack { e with bob := b } := ⟨rfl, fun _ _ => rfl, [], rfl, fun _ h => nomatch h⟩

/-- The entries of a line that the table has are no more than those from the line's first entry to the table's end. -/
theorem length_lineIndices_le (n total : Nat) :
    (((List.range 8).map (fun i => n / 8 * 8 + i)).filter (· < total)).length ≤ total - n / 8 * 8 := by
  have hnodup : (((List.range 8).map (fun i => n / 8 * 8 + i)).filter (· < total)).Nodup :=
    (List.nodup_range.map (fun _ _ h => Nat.add_left_cancel h)).filter _
  have hsub : ((List.range 8).map (fun i => n / 8 * 8 + i)).filter (· < total) ⊆ List.range' (n / 8 * 8) (total - n / 8 * 8) := by
    intro x hx
    simp only [List.mem_filter, List.mem_map, List.mem_range, decide_eq_true_eq] at hx
    obtain ⟨⟨i, -, rfl⟩, hlt⟩ := hx
    exact List.mem_range'_1.2 (by omega)
  exact ((hnodup.subperm hsub).length_le).trans_eq List.length_range'

theorem length_flatMap_words (l : List Nat) (f : Nat → Nat) : (l.flatMap (fun i => leBytes 8 (f i))).length = 8 * l.length := by
  induction l with
  | nil => rfl
  | cons i l ih =>
    rw [List.flatMap_cons, List.length_append, ih, length_leBytes, List.length_cons]
    omega

theorem Eng.lineBack_givesBack (e : Eng) (n : Nat) : e.GivesBack (e.lineBack n) := by
  refine ⟨rfl, fun _ _ => rfl, [(_, _)], rfl, fun w hw => ?_⟩
  obtain rfl := List.mem_singleton.1 hw
  have hle := length_lineIndices_le n e.bufTotal
  by_cases hnone : n / 8 * 8 < e.bufTotal
  · refine .inr ⟨Nat.le_add_right _ _, ?_⟩
    rw [length_flatMap_words]
    omega
  · refine .inl (List.eq_nil_of_length_eq_zero ?_)
    rw [length_flatMap_words]
    omega

theorem Eng.setEntry_givesBack (e : Eng) (n : Nat) (f : BEntry → BEntry) : e.GivesBack (e.setEntry n f) :=
  Eng.GivesBack.of_bob.trans (Eng.lineBack_givesBack _ n)

theorem Eng.toTail_givesBack (e : Eng) (p n : Nat) : e.GivesBack (e.toTail p n) := by
  have hline : ∀ b : Bob, e.GivesBack (({ e with bob := b } : Eng).lineBack n) := fun b =>
    Eng.GivesBack.of_bob.trans (Eng.lineBack_givesBack _ n)
  unfold Eng.toTail
  dsimp only
  split
  · exact (hline _).trans (Eng.lineBack_givesBack _ _)
  · exact hline _

theorem Eng.freeBuf_givesBack (e : Eng) (n : Nat) : e.GivesBack (e.freeBuf n) := by
  unfold Eng.freeBuf
  dsimp only
  split
  · exact e.setEntry_givesBack _ _
  · exact (e.setEntry_givesBack _ _).trans (Eng.toTail_givesBack _ _ _)

theorem Eng.engDec_givesBack (e : Eng) (b : Buf) : e.GivesBack (e.engDec b) := by
  unfold Eng.engDec
  dsimp only
  split
  · exact ⟨rfl, fun o ho => Eng.setReg_reg_other _ _ _ _ ho, [], rfl, fun _ h => nomatch h⟩
  · split
    · exact .refl e
    · split
      · exact (e.setEntry_givesBack _ _).trans (Eng.freeBuf_givesBack _ _)
      · exact e.setEntry_givesBack _ _

theorem Eng.unready_givesBack (e : Eng) (r : HostRole) : e.GivesBack (e.unready r) :=
  (Eng.GivesBack.foldl Eng.engDec_givesBack _ e).trans ⟨rfl, fun _ _ => rfl, [], rfl, fun _ h => nomatch h⟩

/-- The host roles that have not told READY start over. -/
def Eng.unreadyAll (e : Eng) : Eng := (e.roles.filter (fun r => !r.ready)).foldl (fun (e : Eng) r => e.unready r) e

theorem Eng.unreadyAll_givesBack (e : Eng) : e.GivesBack e.unreadyAll := .foldl Eng.unready_givesBack _ e

theorem Eng.unreadyAll_of_ready {e : Eng} (h : ∀ r ∈ e.roles, r.ready = true) : e.unreadyAll = e := by
  have hnone : e.roles.filter (fun r => !r.ready) = [] := List.filter_eq_nil_iff.2 (fun r hr => by simp [h r hr])
  rw [Eng.unreadyAll, hnone, List.foldl_nil]

/-! ### The writes of the table's entries as HBM shows them -/

theorem Mem.byte_write_nil (m : Mem) (a x : Nat) : Mem.byte (Mem.write m a []) x = Mem.byte m x := by
  simp [Mem.write, Mem.byte_writeAt]

/-- Writes within the table leave every byte outside it alone. -/
theorem Eng.byte_view_of_inTable {e e0 : Eng} (m : Mem) (hw : ∀ w ∈ e.wlog, e0.inTable w)
    (htop : e0.reg Reg.bobTable + 8 * e0.bufTotal ≤ memTop) {a : Nat}
    (ha : a < e0.reg Reg.bobTable ∨ e0.reg Reg.bobTable + 8 * e0.bufTotal ≤ a) : Mem.byte (e.view m) a = Mem.byte m a := by
  unfold Eng.view
  generalize e.wlog = l at hw
  induction l with
  | nil => rfl
  | cons w l ih =>
    rw [List.foldr_cons, ← ih (fun x hx => hw x (List.mem_cons_of_mem w hx))]
    by_cases hempty : w.2 = []
    · rw [hempty, Mem.byte_write_nil]
    · obtain ⟨hlow, hhigh⟩ := (hw w List.mem_cons_self).resolve_left hempty
      rw [Mem.byte_write _ _ _ _ (hhigh.trans htop) hempty, if_neg (by omega)]

/-! ### What looking at the ready conditions leaves alone -/

theorem Eng.raiseRec_pwr_of_active {e : Eng} (h : e.pwr.cur = 0) (code arg : Nat) (polder : Option Nat) (tag : Nat) :
    (e.raiseRec code arg polder tag).2.pwr = e.pwr := by
  unfold Eng.raiseRec
  dsimp only
  repeat' split
  · rfl
  · rfl
  · rfl
  · next hcur _ => simp [Eng.bump32, Eng.setReg, h] at hcur
  · next hcur _ _ => simp [Eng.bump32, Eng.setReg, h] at hcur
  · next hcur _ _ => simp [Eng.bump32, Eng.setReg, h] at hcur
  · rw [Eng.evtPush_eq]
    rfl

/-- An engine that rests in no power state is not woken by an event. -/
theorem Eng.raise_pwr_of_active {e : Eng} (h : e.pwr.cur = 0) (code arg : Nat) (polder : Option Nat) (tag : Nat) :
    (e.raise code arg polder tag).pwr = e.pwr := by
  have hrec := Eng.raiseRec_pwr_of_active h code arg polder tag
  unfold Eng.raise
  generalize e.raiseRec code arg polder tag = r at hrec ⊢
  obtain ⟨lost, e1⟩ := r
  dsimp only at hrec ⊢
  split
  · exact (Eng.raiseRec_pwr_of_active (e := { e1 with evt.lossNs := some e1.now }) (by rw [hrec, h]) _ _ _ _).trans hrec
  · exact hrec

theorem Eng.fltEvent_pwr_of_active {e : Eng} (h : e.pwr.cur = 0) (code : Nat) (bay dike quarter pos : Option Nat) :
    (e.fltEvent code bay dike quarter pos).pwr = e.pwr :=
  Eng.raise_pwr_of_active (e := e.setReg _ _) h _ _ _ _

theorem Eng.setReplace_pwr_of_active {e : Eng} (h : e.pwr.cur = 0) : e.setReplace.pwr = e.pwr := by
  unfold Eng.setReplace
  split
  · rfl
  · split
    · rfl
    · exact Eng.raise_pwr_of_active (e := (e.setReg Reg.engReplace e.replaceWord).post (.replace e.replaceWord)) h _ _ _ _

theorem Eng.updateReady_pwr_of_active {e : Eng} (h : e.pwr.cur = 0) : e.updateReady.pwr = e.pwr := by
  unfold Eng.updateReady
  dsimp only
  split
  · have hraise := Eng.raise_pwr_of_active (e := { e with boot := { e.boot with
      ready := true, everReady := true, bootNs := if !e.boot.everReady then (e.now - e.boot.porNs) % 2 ^ 32 else e.boot.bootNs } }) h
      0x0905 (arg9 e.pwr.cur 0) none 0
    exact (Eng.setReplace_pwr_of_active ((congrArg Pwr.cur hraise).trans h)).trans hraise
  · split
    · exact Eng.raise_pwr_of_active (e := { e with boot.ready := false }) h _ _ _ _
    · rfl

/-- A message of the engine stays among those posted. -/
theorem Eng.mem_posts_setReplace {e : Eng} {p : Post} (h : p ∈ e.posts) : p ∈ e.setReplace.posts := by
  unfold Eng.setReplace
  split
  · exact h
  · split
    · exact h
    · rw [Eng.raise_posts]
      exact List.mem_append_left _ h

theorem Eng.mem_posts_updateReady {e : Eng} {p : Post} (h : p ∈ e.posts) : p ∈ e.updateReady.posts := by
  unfold Eng.updateReady
  dsimp only
  split
  · refine Eng.mem_posts_setReplace ?_
    rw [Eng.raise_posts]
    exact h
  · split
    · rw [Eng.raise_posts]
      exact h
    · exact h

/-- The registers that events, and looking at the ready conditions, write. -/
def eventRegs : List Nat := [Reg.evtLost, Reg.evtLast, Reg.evtCnt 5, Reg.evtCnt 6, Reg.evtCnt 9, Reg.engReplace, Reg.fltLast]

theorem Eng.raise_reg_of_fault (e : Eng) {code : Nat} (hcode : code / 256 = 6 ∨ code / 256 = 9) (arg : Nat) (polder : Option Nat) (tag : Nat)
    {o : Nat} (ho : o ∉ eventRegs) : (e.raise code arg polder tag).reg o = e.reg o := by
  refine Eng.raise_reg_other _ _ _ _ _ (mt (fun hmem => ?_) ho)
  obtain h | h := hcode <;> (rw [h] at hmem; simp only [eventRegs, List.mem_cons] at hmem ⊢; tauto)

theorem Eng.fltEvent_reg_other (e : Eng) {code : Nat} (hcode : code / 256 = 6) (bay dike quarter pos : Option Nat) {o : Nat}
    (ho : o ∉ eventRegs) : (e.fltEvent code bay dike quarter pos).reg o = e.reg o :=
  (Eng.raise_reg_of_fault _ (.inl hcode) _ _ _ ho).trans (Eng.setReg_reg_other _ _ _ _ (fun h => ho (by rw [h]; decide)))

theorem Eng.setReplace_reg_other (e : Eng) {o : Nat} (ho : o ∉ eventRegs) : e.setReplace.reg o = e.reg o := by
  have hset : ∀ v, (e.setReg Reg.engReplace v).reg o = e.reg o := fun v => Eng.setReg_reg_other _ _ _ _ (fun h => ho (by rw [h]; decide))
  unfold Eng.setReplace
  split
  · rfl
  · split
    · exact hset _
    · exact (Eng.raise_reg_of_fault _ (.inl rfl) _ _ _ ho).trans (hset _)

theorem Eng.updateReady_reg_other (e : Eng) {o : Nat} (ho : o ∉ eventRegs) : e.updateReady.reg o = e.reg o := by
  unfold Eng.updateReady
  dsimp only
  split
  · exact (Eng.setReplace_reg_other _ ho).trans (Eng.raise_reg_of_fault _ (.inr rfl) _ _ _ ho)
  · split
    · exact Eng.raise_reg_of_fault _ (.inr rfl) _ _ _ ho
    · rfl

/-! ### A compute reset starts (R354 to R356) -/

/-- The engine is cleared as its host roles have left it. -/
theorem Eng.clearCompute_kept (e : Eng) : e.clearCompute.cmds = e.cmds ∧ e.clearCompute.rings = e.rings ∧ e.clearCompute.pld = e.pld ∧
    e.clearCompute.flt = e.flt ∧ e.clearCompute.loader.kept = e.loader.kept ∧ e.clearCompute.wlog = e.unreadyAll.wlog ∧
    e.clearCompute.gauges.map (fun kg => (kg.1, kg.2.bind)) = e.gauges.map (fun kg => (kg.1, kg.2.bind)) := by
  have hrest := e.unreadyAll_givesBack.rest
  have hcmds := congrArg Eng.cmds hrest
  have hrings := congrArg Eng.rings hrest
  have hpld := congrArg Eng.pld hrest
  have hflt := congrArg Eng.flt hrest
  have hkept := congrArg (fun e => e.loader.kept) hrest
  have hgauges := congrArg (fun e => e.gauges.map (fun kg => (kg.1, kg.2.bind))) hrest
  refine ⟨hcmds, hrings, hpld, hflt, hkept, rfl, Eq.trans ?_ hgauges⟩
  simp only [Eng.clearCompute, Eng.unreadyAll, List.map_map, Function.comp_def]

theorem Eng.clearCompute_reg_kept (e : Eng) {o : Nat} (h : surviveReg o = true) : e.clearCompute.reg o = e.reg o :=
  (e.clearCompute_reg h).trans (e.unreadyAll_givesBack.regs o (fun hdf => by rw [hdf] at h; exact absurd h (by decide)))

/-- The engine with its compute reset under way, before the event tells of it. -/
def Eng.resetBegun (e : Eng) : Eng :=
  let back := (e.flt.recovery.bind Recovery.record).toList
  let e := e.clearCompute
  let e := { e with flt.queue := back ++ e.flt.queue.filter (fun (r : FaultRec) => r != FaultRec.compute), flt.recovery := some .compute, flt.baysReset := []
                    flt.dikesReset := [] }
  let e := e.setReg Reg.engFunc (if e.is3S then 0x37 else 0x3F)
  ((e.bump Reg.fltCount 24 8 1).bump32 Reg.gauResets 1).post .holdRequest

theorem Eng.startCompute_eq (e : Eng) : e.startCompute = (e.resetBegun.fltEvent 0x0608 none none none none).updateReady := rfl

theorem Eng.startCompute_pwr (e : Eng) : e.startCompute.pwr = { accesses := e.unreadyAll.pwr.accesses } := by
  have hpwr : e.resetBegun.pwr = { accesses := e.unreadyAll.pwr.accesses } := rfl
  have hcur : e.resetBegun.pwr.cur = 0 := rfl
  have htold := Eng.fltEvent_pwr_of_active hcur 0x0608 none none none none
  rw [Eng.startCompute_eq, Eng.updateReady_pwr_of_active (by rw [htold, hcur]), htold, hpwr]

/-- What a compute reset clears. -/
theorem Eng.startCompute_clears (e : Eng) : e.startCompute.tt = [] ∧ e.startCompute.tacks = [] ∧ e.startCompute.bank0 = none ∧
    e.startCompute.bank1 = none ∧ e.startCompute.loader.st = .empty ∧ e.startCompute.diag = none ∧ e.startCompute.spool.corrupt = false := by
  simp only [Eng.startCompute_eq, Eng.updateReady_tt, Eng.updateReady_tacks, Eng.updateReady_bank0, Eng.updateReady_bank1,
    Eng.updateReady_loader, Eng.updateReady_diag, Eng.updateReady_spool, Eng.fltEvent_tt, Eng.fltEvent_tacks, Eng.fltEvent_bank0,
    Eng.fltEvent_bank1, Eng.fltEvent_loader, Eng.fltEvent_diag, Eng.fltEvent_spool]
  exact ⟨rfl, rfl, rfl, rfl, rfl, rfl, rfl⟩

/-- What a compute reset keeps. -/
theorem Eng.startCompute_keeps (e : Eng) : e.startCompute.cmds = e.cmds ∧ e.startCompute.rings = e.rings ∧ e.startCompute.pld = e.pld ∧
    e.startCompute.flt.lost = e.flt.lost ∧ e.startCompute.loader.kept = e.loader.kept ∧ e.startCompute.wlog = e.unreadyAll.wlog ∧
    e.startCompute.gauges.map (fun kg => (kg.1, kg.2.bind)) = e.gauges.map (fun kg => (kg.1, kg.2.bind)) := by
  obtain ⟨hcmds, hrings, hpld, hflt, hkept, hwlog, hgauges⟩ := e.clearCompute_kept
  simp only [Eng.startCompute_eq, Eng.updateReady_cmds, Eng.updateReady_rings, Eng.updateReady_pld, Eng.updateReady_flt, Eng.updateReady_loader,
    Eng.updateReady_wlog, Eng.updateReady_gauges, Eng.fltEvent_cmds, Eng.fltEvent_rings, Eng.fltEvent_pld, Eng.fltEvent_flt, Eng.fltEvent_loader,
    Eng.fltEvent_wlog, Eng.fltEvent_gauges]
  have hlost := congrArg Flt.lost hflt
  exact ⟨hcmds, hrings, hpld, hlost, hkept, hwlog, hgauges⟩

/-- The recovery under way is the compute reset, and the one that it cut short waits again before the others. -/
theorem Eng.startCompute_recovery (e : Eng) : e.startCompute.flt.recovery = some .compute ∧ e.startCompute.flt.queue =
    (e.flt.recovery.bind Recovery.record).toList ++ e.flt.queue.filter (fun r => r != .compute) := by
  obtain ⟨-, -, -, hflt, -⟩ := e.clearCompute_kept
  simp only [Eng.startCompute_eq, Eng.updateReady_flt, Eng.fltEvent_flt]
  have hqueue := congrArg (fun f : Flt => (e.flt.recovery.bind Recovery.record).toList ++ f.queue.filter (fun r => r != .compute)) hflt
  exact ⟨rfl, hqueue⟩

theorem Eng.startCompute_posts (e : Eng) : Post.holdRequest ∈ e.startCompute.posts := by
  rw [Eng.startCompute_eq]
  refine Eng.mem_posts_updateReady ?_
  rw [Eng.fltEvent_posts]
  exact List.mem_append_right _ List.mem_cons_self

theorem Eng.bump32_reg_other (e : Eng) {off o : Nat} (k : Nat) (h : o ≠ off) : (e.bump32 off k).reg o = e.reg o :=
  Eng.setReg_reg_other _ _ _ _ h

/-- The registers that survive keep their values, but for those that the reset itself counts or tells in. -/
theorem Eng.startCompute_reg (e : Eng) {o : Nat} (h : surviveReg o = true) (ho : o ∉ eventRegs)
    (hown : o ∉ [Reg.engFunc, Reg.fltCount, Reg.gauResets]) : e.startCompute.reg o = e.reg o := by
  simp only [List.mem_cons, List.not_mem_nil, or_false, not_or] at hown
  obtain ⟨hfunc, hcount, hresets⟩ := hown
  have hbegun : e.resetBegun.reg o = e.clearCompute.reg o := by
    obtain ⟨e1, v, hbegun, hregs⟩ : ∃ (e1 : Eng) (v : Nat), e.resetBegun = (((e1.setReg Reg.engFunc v).bump Reg.fltCount 24 8 1).bump32
      Reg.gauResets 1).post .holdRequest ∧ e1.regs = e.clearCompute.regs := ⟨_, _, rfl, rfl⟩
    have hpost : ∀ (e : Eng) (p : Post), (e.post p).reg o = e.reg o := fun _ _ => rfl
    have hkept : e1.reg o = e.clearCompute.reg o := by rw [Eng.reg, hregs, Eng.reg]
    rw [hbegun, hpost, Eng.bump32_reg_other _ _ hresets, Eng.bump_reg_other _ _ _ _ hcount, Eng.setReg_reg_other _ _ _ _ hfunc, hkept]
  rw [Eng.startCompute_eq, Eng.updateReady_reg_other _ ho, Eng.fltEvent_reg_other _ rfl _ _ _ _ ho, hbegun, e.clearCompute_reg_kept h]

theorem mapRegs_survive : ∀ q < 4, (surviveReg (Reg.fltQmapLo q) = true ∧ Reg.fltQmapLo q ∉ eventRegs ∧
    Reg.fltQmapLo q ∉ [Reg.engFunc, Reg.fltCount, Reg.gauResets]) ∧ surviveReg (Reg.fltFailed q) = true ∧ Reg.fltFailed q ∉ eventRegs ∧
    Reg.fltFailed q ∉ [Reg.engFunc, Reg.fltCount, Reg.gauResets] := by decide

theorem Eng.addFault_compute_starts {e : Eng} (h : e.flt.recovery ≠ some .compute) : e.addFault .compute = e.startCompute := by
  simp [Eng.addFault, h]

theorem Eng.addFault_compute_fails {e : Eng} (h : e.flt.recovery = some .compute) : e.addFault .compute = e.computeFails := by
  simp [Eng.addFault, h]

/-- What leaves with a compute reset that starts. -/
theorem State.leaves_startCompute (s : State) :
    s.leaves s.work.startCompute = { s with hbm := s.work.startCompute.view s.hbm, eng := { s.work.startCompute with wlog := [] } } := by
  obtain ⟨-, -, -, -, -, -, hclean⟩ := s.work.startCompute_clears
  exact s.leaves_clean _ hclean

theorem State.hbm_startCompute_of_ready (s : State) (h : ∀ r ∈ s.eng.roles, r.ready = true) : s.work.startCompute.view s.hbm = s.hbm := by
  obtain ⟨-, -, -, -, -, hwlog, -⟩ := s.work.startCompute_keeps
  rw [Eng.unreadyAll_of_ready (e := s.work) h] at hwlog
  rw [Eng.view, hwlog]
  rfl

theorem State.hbm_startCompute_outside (s : State) (htop : s.eng.reg Reg.bobTable + 8 * s.eng.bufTotal ≤ memTop) {a : Nat}
    (ha : a < s.eng.reg Reg.bobTable ∨ s.eng.reg Reg.bobTable + 8 * s.eng.bufTotal ≤ a) :
    Mem.byte (s.work.startCompute.view s.hbm) a = Mem.byte s.hbm a := by
  obtain ⟨-, -, -, -, -, hwlog, -⟩ := s.work.startCompute_keeps
  obtain ⟨l, hl, hin⟩ := s.work.unreadyAll_givesBack.wlog
  have hall : s.work.startCompute.wlog = l := by rw [hwlog, hl, State.work, List.append_nil]
  exact Eng.byte_view_of_inTable (e0 := s.work) s.hbm (by rw [hall]; exact hin) htop ha

/-! ### A compute reset ends (R357, R358) -/

theorem Eng.computeFails_spec (e : Eng) : e.computeFails.flt.failed = true ∧ e.computeFails.flt.recovery = none ∧
    Post.computeFailed ∈ e.computeFails.posts ∧ e.computeFails.wlog = e.wlog ∧ e.computeFails.cmds = e.cmds ∧
    e.computeFails.spool = e.spool := by
  unfold Eng.computeFails
  simp only [Eng.updateReady_flt, Eng.updateReady_wlog, Eng.updateReady_cmds, Eng.updateReady_spool, Eng.post_flt, Eng.post_wlog, Eng.post_cmds,
    Eng.post_spool, Eng.fltEvent_flt, Eng.fltEvent_wlog, Eng.fltEvent_cmds, Eng.fltEvent_spool, true_and, and_true]
  exact Eng.mem_posts_updateReady (List.mem_append_right _ List.mem_cons_self)

theorem Eng.computeEnds_idle {e : Eng} {m : Mem} {ok : Bool} (h : e.flt.recovery ≠ some .compute) : e.computeEnds m ok = e := if_pos h

theorem Eng.computeEnds_failed {e : Eng} {m : Mem} (h : e.flt.recovery = some .compute) : e.computeEnds m false = e.computeFails :=
  (if_neg (not_not.2 h)).trans (if_pos rfl)

/-- What follows the end of a compute reset: the accesses that waited, the conditions looked at again, the next recovery. -/
def Eng.afterReset (m : Mem) (e : Eng) : Eng := (((e.serveAccesses m).updateReplace).updateReady).nextRecovery

/-- The end is told, after the records of events that were held. -/
def Eng.resetOver (e : Eng) : Eng := (Eng.writeResetHeld { e with flt := { e.flt with recovery := none } }).fltEvent 0x0609 none none none none

theorem Eng.computeEnds_without {e : Eng} {m : Mem} (h : e.flt.recovery = some .compute) (hkept : e.keptCopy = false) :
    e.computeEnds m true = ({ e with loader := { e.loader with st := .empty, reloadNeeded := true }, pat := none } : Eng).resetOver.afterReset m := by
  unfold Eng.computeEnds
  rw [if_neg (not_not.2 h)]
  simp only [hkept, Bool.not_true, Bool.false_eq_true, if_false]
  rfl

theorem Eng.computeEnds_kept {e e0 : Eng} {m : Mem} {kept : Bool} (h : e.flt.recovery = some .compute) (hkept : e.keptCopy = true)
    (hre : e.reapplyKept m = (kept, e0)) : e.computeEnds m true = (if kept then e0.resetOver.recoverWork m else e0.resetOver).afterReset m := by
  unfold Eng.computeEnds
  rw [if_neg (not_not.2 h)]
  simp only [hkept, hre, Bool.not_true, Bool.false_eq_true, if_false, if_true]
  rfl

/-! ### The end without a kept copy (R358) -/

theorem Eng.wake_accesses (e : Eng) : e.wake.pwr.accesses = e.pwr.accesses := by
  unfold Eng.wake
  repeat' split
  all_goals rfl

theorem Eng.raiseRec_accesses (e : Eng) (code arg : Nat) (polder : Option Nat) (tag : Nat) :
    (e.raiseRec code arg polder tag).2.pwr.accesses = e.pwr.accesses := by
  unfold Eng.raiseRec
  dsimp only
  repeat' split
  · rfl
  · rfl
  · rfl
  · rfl
  · exact Eng.wake_accesses _
  · rfl
  · rw [Eng.evtPush_eq]
    rfl

theorem Eng.raise_accesses (e : Eng) (code arg : Nat) (polder : Option Nat) (tag : Nat) :
    (e.raise code arg polder tag).pwr.accesses = e.pwr.accesses := by
  have hrec := e.raiseRec_accesses code arg polder tag
  unfold Eng.raise
  generalize e.raiseRec code arg polder tag = r at hrec ⊢
  obtain ⟨lost, e1⟩ := r
  dsimp only at hrec ⊢
  split
  · exact (Eng.raiseRec_accesses { e1 with evt.lossNs := some e1.now } _ _ _ _).trans hrec
  · exact hrec

/-- Records of events that were held change registers, the queue of records and the event ring. -/
theorem Eng.pushAll_eq (l : List (List Byte)) (e : Eng) : l.foldl (fun (e : Eng) r => (e.evtPush r).2) e =
    { e with regs := (l.foldl (fun (e : Eng) r => (e.evtPush r).2) e).regs, wq := (l.foldl (fun (e : Eng) r => (e.evtPush r).2) e).wq
             evt := (l.foldl (fun (e : Eng) r => (e.evtPush r).2) e).evt } := by
  induction l generalizing e with
  | nil => rfl
  | cons r l ih =>
    rw [List.foldl_cons, ih, Eng.evtPush_eq]

theorem Eng.writeResetHeld_eq (e : Eng) : e.writeResetHeld =
    { e with regs := e.writeResetHeld.regs, wq := e.writeResetHeld.wq, evt := e.writeResetHeld.evt } :=
  Eng.pushAll_eq e.evt.resetHeld { e with evt.resetHeld := [] }

theorem Eng.resetOver_keeps (e : Eng) : e.resetOver.flt = { e.flt with recovery := none } ∧ e.resetOver.pwr.accesses = e.pwr.accesses ∧
    e.resetOver.loader = e.loader ∧ e.resetOver.pat = e.pat ∧ e.resetOver.wlog = e.wlog ∧ e.resetOver.rings = e.rings ∧
    e.resetOver.cmds = e.cmds ∧ e.resetOver.spool = e.spool := by
  have haccesses : e.resetOver.pwr.accesses = (Eng.writeResetHeld { e with flt := { e.flt with recovery := none } }).pwr.accesses :=
    Eng.raise_accesses _ _ _ _ _
  rw [haccesses]
  unfold Eng.resetOver
  simp only [Eng.fltEvent_flt, Eng.fltEvent_loader, Eng.fltEvent_pat, Eng.fltEvent_wlog, Eng.fltEvent_rings, Eng.fltEvent_cmds, Eng.fltEvent_spool]
  rw [Eng.writeResetHeld_eq]
  exact ⟨rfl, rfl, rfl, rfl, rfl, rfl, rfl, rfl⟩

theorem Eng.serveAccesses_none {e : Eng} (m : Mem) (h : e.pwr.accesses = []) : e.serveAccesses m = e := by
  have hsame : ({ e with pwr := { e.pwr with accesses := [] } } : Eng) = e := by rw [← h]
  unfold Eng.serveAccesses
  split
  · rw [h, List.foldl_nil, hsame]
  · rfl

/-- Where nothing waits, the end of a compute reset only looks at the conditions again. -/
theorem Eng.afterReset_idle {e : Eng} (m : Mem) (haccesses : e.pwr.accesses = []) (hq : e.flt.queue = []) :
    e.afterReset m = e.updateReplace.updateReady := by
  rw [Eng.afterReset, e.serveAccesses_none m haccesses, Eng.nextRecovery_idle]
  rw [Eng.updateReady_flt, Eng.updateReplace_flt, hq]

theorem Eng.updateReady_notReady {e : Eng} (h : e.readyNow = false) : e.updateReady.boot.ready = false := by
  unfold Eng.updateReady
  rw [if_neg (by simp [h])]
  split
  · rw [Eng.raise_boot]
  · next hready => simpa [h] using hready

theorem Eng.markDegraded_cmds (e : Eng) :
    e.markDegraded.cmds.map (fun c => { c with degraded := false }) = e.cmds.map (fun c => { c with degraded := false }) := by
  unfold Eng.markDegraded
  split
  · simp only [List.map_map]
    refine List.map_congr_left (fun c _ => ?_)
    simp only [Function.comp_apply]
    split <;> rfl
  · rfl

/-- A compute reset that ends with no kept copy and nothing waiting leaves the engine without a Pattern. -/
theorem Eng.computeEnds_without_idle {e : Eng} (m : Mem) (h : e.flt.recovery = some .compute) (hkept : e.keptCopy = false)
    (hq : e.flt.queue = []) (haccesses : e.pwr.accesses = []) : ∃ x : Eng, e.computeEnds m true = x ∧ x.flt.recovery = none ∧
      x.loader.st = .empty ∧ x.loader.reloadNeeded = true ∧ x.pat = none ∧ x.boot.ready = false ∧ x.wlog = e.wlog ∧ x.spool = e.spool ∧
      x.rings = e.rings ∧ x.cmds.map (fun c => { c with degraded := false }) = e.cmds.map (fun c => { c with degraded := false }) := by
  obtain ⟨hflt, hpwr, hloader, hpat, hwlog, hrings, hcmds, hspool⟩ := Eng.resetOver_keeps
    { e with loader := { e.loader with st := .empty, reloadNeeded := true }, pat := none }
  have hwithout := Eng.computeEnds_without (m := m) h hkept
  generalize Eng.resetOver { e with loader := { e.loader with st := .empty, reloadNeeded := true }, pat := none } = e1 at *
  have hnotReady : e1.updateReplace.readyNow = false := by simp [Eng.readyNow, hloader]
  refine ⟨_, hwithout.trans (Eng.afterReset_idle m (hpwr.trans haccesses) ((congrArg Flt.queue hflt).trans hq)), ?_, ?_, ?_, ?_,
    Eng.updateReady_notReady hnotReady, ?_, ?_, ?_, ?_⟩
  · simp [hflt]
  · simp [hloader]
  · simp [hloader]
  · simp [hpat]
  · simp [hwlog]
  · simp [hspool]
  · simp [hrings]
  · simp only [Eng.updateReady_cmds, Eng.updateReplace_cmds, Eng.markDegraded_cmds, hcmds]

/-! ### The kept copy is verified again (R357) -/

theorem Eng.reapplyKept_ok {e : Eng} {m : Mem} {p : Pattern} {bays : List Nat}
    (h : e.verifyKept (e.rd m (e.reg Reg.patKeep) e.loader.keptLen) e.loader.keptMissing = .ok p bays) :
    (e.reapplyKept m).1 = true ∧ (e.reapplyKept m).2.loader.st = .applied := by
  simp only [Eng.reapplyKept, h, Eng.raise_loader, and_self]

theorem Eng.reapplyKept_err {e : Eng} {m : Mem} {code sec : Nat}
    (h : e.verifyKept (e.rd m (e.reg Reg.patKeep) e.loader.keptLen) e.loader.keptMissing = .err code sec) :
    (e.reapplyKept m).1 = false ∧ (e.reapplyKept m).2.loader.st = .rejected ∧ (e.reapplyKept m).2.loader.err = code := by
  simp only [Eng.reapplyKept, h, Eng.keptFails, Eng.updateReady_loader, Eng.raise_loader, and_self]

/-! ### COMPUTE_RESET_REQUEST (R376) -/

theorem Eng.requestReset_waits {e : Eng} (hwake : e.wake = e) (hrec : e.flt.recovery ≠ none) (hcompute : e.flt.recovery ≠ some .compute)
    (hnot : FaultRec.compute ∉ e.flt.queue) (hlen : e.flt.queue.length < 64) :
    e.requestReset .compute = e.withQueue (e.flt.queue ++ [.compute]) := by
  have hbusy : ∀ q, (e.withQueue q).nextRecovery = e.withQueue q :=
    fun q => if_pos (by simp [Eng.withQueue, Option.isSome_iff_ne_none, hrec])
  have hno : ¬((FaultRec.compute = .compute && (e.flt.recovery = some .compute || e.flt.queue.contains .compute)) = true) := by
    simp [hcompute, hnot]
  unfold Eng.requestReset
  dsimp only
  rw [hwake, if_neg hno, if_neg (Nat.not_le.2 hlen)]
  exact hbusy _

theorem exec_computeResetRequest_alert {s : State} (h : s.alert) :
    exec .computeResetRequest s = .next (s.leaves (s.work.requestReset .compute)) := by
  have hwrite : s.work.writeAccess s.hbm false Reg.engReset false 1 = s.work.wake.requestReset .compute := rfl
  rw [exec_computeResetRequest, s.onPower_eq _ h.1.1, h.mmioWrite, hwrite, h.wake]

end Sys2Proof.Machine

open Sys2Proof Sys2Proof.Machine

/-- Settles O53: what a compute reset clears and keeps, and the ends it can come to. -/
theorem computeResetKeepsItsRecords : Obligations.ComputeResetKeepsItsRecords := by
  unfold Obligations.ComputeResetKeepsItsRecords
  refine ⟨fun s h hrec => ?_, fun s h hrec i hi => ?_, fun s ok h => ⟨fun hrec => ?_, fun hrec hkept => ?_, fun e0 e1 kept hrec hkept hre he1 => ?_⟩,
    fun s h hrec hq haccesses hkept => ?_, fun e m => ?_, fun s h => ⟨fun hrec hq => ⟨?_, ?_⟩, fun hrec hnot hlen => ?_⟩⟩
  · obtain ⟨htt, htacks, hbank0, hbank1, hloader, hdiag, hclean⟩ := s.work.startCompute_clears
    obtain ⟨hcmds, hrings, hpld, hlost, hkept, hwlog, hgauges⟩ := s.work.startCompute_keeps
    obtain ⟨hrecovery, hqueue⟩ := s.work.startCompute_recovery
    have hcur := congrArg Pwr.cur s.work.startCompute_pwr
    refine ⟨_, (exec_computeReset s).trans (h.onPower_leaves (Eng.addFault_compute_starts hrec)), rfl, ?_⟩
    rw [s.leaves_startCompute]
    refine ⟨hrecovery, hqueue, htt, htacks, hbank0, hbank1, hloader, hdiag, hcur, s.work.startCompute_posts, s.hbm_startCompute_of_ready,
      fun htop a ha => s.hbm_startCompute_outside htop ha, rfl, hcmds, hrings, hpld, hlost, hkept, hgauges, fun q hq => ?_, ?_, ?_⟩
    · obtain ⟨⟨hlo, hlo', hlo''⟩, hfailed, hfailed', hfailed''⟩ := mapRegs_survive q hq
      exact ⟨s.work.startCompute_reg hlo hlo' hlo'', s.work.startCompute_reg hfailed hfailed' hfailed''⟩
    · exact s.work.startCompute_reg (by decide) (by decide) (by decide)
    · exact s.work.startCompute_reg (by decide) (by decide) (by decide)
  · have hexec : exec i s = .next (s.leaves s.work.computeFails) := by
      obtain rfl | rfl := hi
      · exact (exec_computeReset s).trans (h.onPower_leaves (Eng.addFault_compute_fails hrec))
      · exact (exec_computeResetDone false s).trans (h.onPower_leaves (Eng.computeEnds_failed hrec))
    obtain ⟨hfailed, hnone, hpost, hwlog, hcmds, hspool⟩ := s.work.computeFails_spec
    rw [s.leaves_eq _ ((congrArg _ hspool).trans h.2) hwlog] at hexec
    exact ⟨_, hexec, hfailed, hnone, hpost, rfl, hcmds⟩
  · exact (exec_computeResetDone ok s).trans (h.onPower_eng (Eng.computeEnds_idle hrec) rfl rfl)
  · exact ⟨_, _, rfl, rfl, (exec_computeResetDone true s).trans (h.onPower_leaves (Eng.computeEnds_without hrec hkept))⟩
  · subst he1
    exact (exec_computeResetDone true s).trans (h.onPower_leaves (Eng.computeEnds_kept hrec hkept hre.symm))
  · obtain ⟨x, hx, hrecovery, hloader, hreload, hpat, hready, hwlog, hspool, hrings, hcmds⟩ :=
      Eng.computeEnds_without_idle (e := s.work) s.hbm hrec hkept hq haccesses
    have hexec := (exec_computeResetDone true s).trans (h.onPower_leaves hx)
    rw [s.leaves_eq x ((congrArg _ hspool).trans h.2) hwlog] at hexec
    exact ⟨_, hexec, hrecovery, hloader, hreload, hpat, hready, rfl, hrings, hcmds⟩
  · split
    · next p bays hok => exact Eng.reapplyKept_ok hok
    · next code sec herr => exact Eng.reapplyKept_err herr
  · obtain ⟨-, hcur, htrans, -⟩ := id h
    have hsame : ({ s.work with flt := { s.work.flt with queue := [] } } : Eng) = s.work := by
      rw [← show s.work.flt.queue = [] from hq]
    rw [exec_computeResetRequest_alert h, s.work.requestReset_compute hrec htrans hcur hq, hsame]
  · rw [s.leaves_startCompute]
    exact s.work.startCompute_recovery.1
  · obtain ⟨⟨-, hclean⟩, -, -, hcompute⟩ := id h
    rw [exec_computeResetRequest_alert h, Eng.requestReset_waits h.wake hrec hcompute hnot hlen, s.leaves_eq (s.work.withQueue _) hclean rfl]
    rfl

end

section
/-! SUPPORT. Work that leaves the record of faults and notices alone: what is sent, buffers given back, commands that end, a host role that
loses a chip, and a source that takes over. -/

namespace Sys2Proof.Machine

/-! ### Folds and choices -/

@[simp] theorem Eng.ite_flt (c : Prop) [Decidable c] (a b : Eng) : (if c then a else b).flt = if c then a.flt else b.flt :=
  apply_ite Eng.flt c a b

/-- What no step of a fold changes, the fold does not change. -/
theorem Eng.foldl_flt {α : Type} {f : Eng → α → Eng} (hf : ∀ (e : Eng) x, (f e x).flt = e.flt) (l : List α) (e : Eng) :
    (l.foldl f e).flt = e.flt :=
  List.foldlRecOn (motive := fun e' => e'.flt = e.flt) l f rfl (fun e' h x _ => (hf e' x).trans h)

/-- The same where the fold keeps a value beside the engine. -/
theorem Eng.foldl_flt_of {α β : Type} {f : β → α → β} (p : β → Eng) (hf : ∀ b x, (p (f b x)).flt = (p b).flt) (l : List α) (b : β) :
    (p (l.foldl f b)).flt = (p b).flt :=
  List.foldlRecOn (motive := fun b' => (p b').flt = (p b).flt) l f rfl (fun b' h x _ => (hf b' x).trans h)

variable (e : Eng)

/-! ### Sending (R179, R196, R198) -/

@[simp] theorem Eng.ttMark_flt : e.ttMark.flt = e.flt := by
  unfold Eng.ttMark
  dsimp only
  split <;> rfl

@[simp] theorem Eng.setQueue_flt (q : Nat) (f : SQueue → SQueue) : (e.setQueue q f).flt = e.flt := rfl

@[simp] theorem Eng.putPkt_flt (q words written : Nat) (item : SItem) (rd : SpoolRead) : (e.putPkt q words written item rd).flt = e.flt := rfl

@[simp] theorem Eng.handOver_flt (q id : Nat) (item : SItem) : (e.handOver q id item).flt = e.flt := by
  unfold Eng.handOver
  split
  · simp
  · rfl

@[simp] theorem Eng.gauge_flt (src inst : Nat) (polder : Option Nat) (x : Nat) : (e.gauge src inst polder x).flt = e.flt := rfl

@[simp] theorem Eng.askOver_flt (q : Nat) : (e.askOver q).flt = e.flt := by
  unfold Eng.askOver
  split <;> rfl

@[simp] theorem Eng.noteAsk_flt (q : Nat) : (e.noteAsk q).flt = e.flt := rfl

@[simp] theorem Eng.setPkt_flt (q i : Nat) (f : SPkt → SPkt) : (e.setPkt q i f).flt = e.flt := rfl

theorem Eng.takeCell_flt {e e' : Eng} {q : Nat} {c : QueueCfg} (h : e.takeCell q c = some e') : e'.flt = e.flt := by
  unfold Eng.takeCell at h
  repeat' split at h
  all_goals cases h
  rfl

@[simp] theorem Eng.writeOn_flt (q : Nat) (c : QueueCfg) (n : Nat) : (e.writeOn q c n).flt = e.flt := by
  induction n generalizing e with
  | zero => rfl
  | succ n ih =>
    unfold Eng.writeOn
    split
    · next e' h => exact (ih _).trans ((e'.setQueue_flt _ _).trans (Eng.takeCell_flt h))
    · rfl

@[simp] theorem Eng.fillOut_flt (q : Nat) : (e.fillOut q).flt = e.flt := by
  unfold Eng.fillOut
  dsimp only
  repeat' split
  all_goals simp

@[simp] theorem Eng.pushOut_flt (q words : Nat) (item : SItem) : (e.pushOut q words item).flt = e.flt := Eng.fillOut_flt _ q

@[simp] theorem Eng.assemble_flt (polder : Nat) (h : ChunkHdr) (port : Option Nat) (vc bytes : Nat) (m : TxMsg) :
    (e.assemble polder h port vc bytes m).flt = e.flt := by
  unfold Eng.assemble
  split
  · exact e.pushOut_flt _ _ _
  · rfl

@[simp] theorem Eng.account_flt (polder : Nat) (f : Acc → Acc) : (e.account polder f).flt = e.flt := by
  unfold Eng.account
  split <;> rfl

@[simp] theorem Eng.accLink_flt (polder chip n : Nat) : (e.accLink polder chip n).flt = e.flt := by
  unfold Eng.accLink
  split <;> exact e.account_flt _ _

@[simp] theorem Eng.emit_flt (o : OutMsg) (id : Nat) (payload : List Byte) (kept : Option Nat) : (e.emit o id payload kept).1.flt = e.flt := by
  unfold Eng.emit
  extract_lets h port pinned polder linked vc
  clear_value port
  have hpinned : pinned.flt = e.flt := by
    dsimp only [pinned]
    split
    · simp
    · rfl
  have hlinked : linked.flt = e.flt := by
    dsimp only [linked]
    split
    · exact hpinned
    · exact (Eng.accLink_flt _ _ _ _).trans hpinned
  clear_value linked
  have htold : (match port with
      | some p => linked.bump64 (Reg.slcTxChunks p) 1
      | none => linked).flt = linked.flt := by
    split <;> rfl
  split
  · exact (Eng.assemble_flt _ _ _ _ _ _ _).trans hlinked
  · exact (Eng.assemble_flt _ _ _ _ _ _ _).trans (htold.trans hlinked)

@[simp] theorem Eng.sendAs_flt (o : OutMsg) (payload : List Byte) (kept : Option Nat) : (e.sendAs o payload kept).flt = e.flt := by
  unfold Eng.sendAs
  dsimp only
  rw [Eng.ttMark_flt]
  exact Eng.emit_flt _ _ _ _ _

@[simp] theorem Eng.sendOn_flt (o : OutMsg) (payload : List Byte) : (e.sendOn o payload).flt = e.flt := by
  unfold Eng.sendOn
  simp

@[simp] theorem Eng.sendNew_flt (o : OutMsg) (payload : List Byte) : (e.sendNew o payload).flt = e.flt := by
  unfold Eng.sendNew
  simp

@[simp] theorem Eng.pump_flt (m : Mem) : (e.pump m).flt = e.flt := by
  have hsent : (e.outq.foldl (fun (e : Eng) o => e.sendOn o (e.payload m o)) { e with outq := [] }).flt = e.flt :=
    Eng.foldl_flt (fun e o => e.sendOn_flt o _) _ _
  unfold Eng.pump
  dsimp only
  split
  · simp [hsent]
  · simp [hsent]

/-! ### Buffers given back (R107, R108) -/

@[simp] theorem Eng.setEntry_flt (n : Nat) (f : BEntry → BEntry) : (e.setEntry n f).flt = e.flt := rfl

@[simp] theorem Eng.toTail_flt (p n : Nat) : (e.toTail p n).flt = e.flt := by
  unfold Eng.toTail
  dsimp only
  split <;> rfl

@[simp] theorem Eng.freeBuf_flt (n : Nat) : (e.freeBuf n).flt = e.flt := by simp [Eng.freeBuf]

@[simp] theorem Eng.engDec_flt (b : Buf) : (e.engDec b).flt = e.flt := by simp [Eng.engDec]

@[simp] theorem Eng.engDecAll_flt (l : List Buf) : (e.engDecAll l).flt = e.flt := Eng.foldl_flt Eng.engDec_flt l e

@[simp] theorem Eng.freeWhole_flt (b : Buf) : (e.freeWhole b).flt = e.flt := by simp [Eng.freeWhole]

/-! ### Commands that end (R66, R83, R87) -/

@[simp] theorem Eng.setWork_flt (cmd : Nat) (f : RouteWork → RouteWork) : (e.setWork cmd f).flt = e.flt := rfl

@[simp] theorem Eng.releaseArea_flt (cmd : Nat) (bwd : Bool) : (e.releaseArea cmd bwd).flt = e.flt := by
  unfold Eng.releaseArea
  split <;> simp

@[simp] theorem Eng.releaseSaved_flt (cmd : Nat) : (e.releaseSaved cmd).flt = e.flt := by
  unfold Eng.releaseSaved
  split <;> simp

@[simp] theorem Eng.combineEnds_flt (c : Cmd) : (e.combineEnds c).flt = e.flt := by
  unfold Eng.combineEnds
  split <;> simp

@[simp] theorem Eng.free_flt : e.free.2.flt = e.flt := rfl

@[simp] theorem Eng.accTime_flt (polder : Nat) : (e.accTime polder).flt = e.flt := by simp [Eng.accTime]

@[simp] theorem Eng.pushRecord_flt (id : Nat) : (e.pushRecord id).flt = e.flt := by
  unfold Eng.pushRecord
  split <;> simp

@[simp] theorem Eng.setRing_flt (r : Nat) (f : Ring → Ring) : (e.setRing r f).flt = e.flt := rfl

@[simp] theorem Eng.markStall_flt (r : Nat) : (e.markStall r).flt = e.flt := by simp [Eng.markStall]

/-- Serving one command that waits for a record. -/
def Eng.serveSlot (r : Nat) (e : Eng) (c : Cmd) : Eng := if e.cplFree r > 0 then e.pushRecord c.id else e

theorem Eng.serveSlot_flt (r : Nat) (c : Cmd) : (Eng.serveSlot r e c).flt = e.flt := by simp [Eng.serveSlot]

@[simp] theorem Eng.serveSlots_flt (r : Nat) : (e.serveSlots r).flt = e.flt := by
  have hserve : e.serveSlots r = (e.cmds.filter (fun c => c.ring == r && c.done && !c.slotHeld && !c.recorded)).foldl (Eng.serveSlot r) e := rfl
  rw [hserve, Eng.foldl_flt (fun e c => e.serveSlot_flt r c)]

@[simp] theorem Eng.closeAccounts_flt (c : Cmd) : (e.closeAccounts c).flt = e.flt := by
  unfold Eng.closeAccounts
  extract_lets freed booked
  have hfreed : freed.flt = e.flt := by
    dsimp only [freed]
    split <;> rfl
  have hbooked : booked.flt = freed.flt := by
    dsimp only [booked]
    split <;> simp
  simp [hbooked, hfreed]

@[simp] theorem Eng.bookEnd_flt (id status : Nat) (c : Cmd) : (e.bookEnd id status c).flt = e.flt := by simp [Eng.bookEnd]

@[simp] theorem Eng.completeOne_flt (id status : Nat) : (e.completeOne id status).flt = e.flt := by
  cases hc : e.cmd? id with
  | none => simp [Eng.completeOne, hc]
  | some c =>
    cases hdone : c.done with
    | true => rw [e.completeOne_of_done status hc hdone]
    | false => simp [e.completeOne_books status hc hdone]

@[simp] theorem Eng.settleFences_flt : e.settleFences.flt = e.flt := by
  refine Eng.foldl_flt (fun e id => ?_) _ e
  split <;> simp

@[simp] theorem Eng.markBlocked_flt : e.markBlocked.flt = e.flt := rfl

@[simp] theorem Eng.complete_flt (id status : Nat) : (e.complete id status).flt = e.flt := by simp [Eng.complete]

/-! ### Accounts and stores -/

@[simp] theorem Eng.accHbm_flt (polder n : Nat) : (e.accHbm polder n).flt = e.flt := e.account_flt _ _

@[simp] theorem Eng.storeFor_flt (polder a : Nat) (bs : List Byte) : (e.storeFor polder a bs).flt = e.flt := by simp [Eng.storeFor]

@[simp] theorem Eng.accWeights_flt (polder : Nat) : (e.accWeights polder).flt = e.flt := by simp [Eng.accWeights]

@[simp] theorem Eng.setRole_flt (slot step : Nat) (f : HostRole → HostRole) : (e.setRole slot step f).flt = e.flt := rfl

@[simp] theorem Eng.setStep_flt (slot step : Nat) (f : StepInfo → StepInfo) : (e.setStep slot step f).flt = e.flt := rfl

@[simp] theorem Eng.expert_flt (slot j : Nat) (f : ExpCnt → ExpCnt) : (e.expert slot j f).flt = e.flt := rfl

@[simp] theorem Eng.srcCount_flt (slot : Nat) (f : SrcCnt → SrcCnt) : (e.srcCount slot f).flt = e.flt := rfl

/-! ### Groups that break (R293, R336) -/

@[simp] theorem Eng.dropChunks_flt (cmd : Nat) : (e.dropChunks cmd).flt = e.flt := rfl

@[simp] theorem Eng.spoil_flt (o : CollOp) : (e.spoil o).flt = e.flt :=
  Eng.foldl_flt (f := fun (e : Eng) (w : Nat × Nat) => e.scribble w.1 w.2) (fun _ _ => rfl) o.written e

@[simp] theorem Eng.endOps_flt (g st : Nat) : (e.endOps g st).flt = e.flt := by
  simp only [Eng.endOps, Eng.setGroup_flt]
  exact Eng.foldl_flt (fun e o => by simp) _ e

@[simp] theorem Eng.cancelBarriers_flt (g : Nat) : (e.cancelBarriers g).flt = e.flt := by
  simp only [Eng.cancelBarriers, Eng.setGroup_flt]
  exact Eng.foldl_flt (fun e b => by simp) _ e

@[simp] theorem Eng.collSend_flt (cmd : Nat) (h : ChunkHdr) (payload : List Byte) : (e.collSend cmd h payload).flt = e.flt :=
  e.sendNew_flt _ _

@[simp] theorem Eng.sendAborts_flt (g except : Nat) : (e.sendAborts g except).flt = e.flt :=
  Eng.foldl_flt (fun e _ => Eng.foldl_flt (fun e _ => e.collSend_flt _ _ _) _ e) _ e

@[simp] theorem Eng.breakGroup_flt (g : Nat) (event : Option Nat) (except : Nat) : (e.breakGroup g event except).flt = e.flt := by
  unfold Eng.breakGroup
  extract_lets x counted stopped formed broken
  have hstopped : stopped.flt = e.flt := by simp [stopped, counted]
  have hformed : formed.flt = stopped.flt := by
    dsimp only [formed]
    split <;> simp
  split <;> simp [broken, hformed, hstopped]

/-! ### Buffers taken (R107) -/

@[simp] theorem Eng.holdBuf_flt (polder n refs eng : Nat) (resv : Bool) : (e.holdBuf polder n refs eng resv).flt = e.flt := rfl

theorem Eng.popBuf_flt {e e' : Eng} {p n : Nat} (h : e.popBuf p = some (n, e')) : e'.flt = e.flt := by
  unfold Eng.popBuf at h
  dsimp only at h
  repeat' split at h
  all_goals cases h
  all_goals rfl

@[simp] theorem Eng.takeFree_flt (polder p refs eng k : Nat) : (e.takeFree polder p refs eng k).2.flt = e.flt := by
  induction k generalizing e with
  | zero => rfl
  | succ k ih =>
    unfold Eng.takeFree
    split
    · rfl
    · next n e' hpop => exact (ih _).trans ((e'.holdBuf_flt _ _ _ _ _).trans (Eng.popBuf_flt hpop))

@[simp] theorem Eng.takeResv_flt (polder p refs eng k : Nat) : (e.takeResv polder p refs eng k).2.flt = e.flt :=
  Eng.foldl_flt_of (f := fun (acc : List Buf × Eng) n => (acc.1 ++ [(acc.2.holdBuf polder n refs eng true).bufOf n],
    acc.2.holdBuf polder n refs eng true)) Prod.snd (fun _ _ => rfl) _ ([], e)

theorem Eng.bobTake_flt {e e' : Eng} {polder p k refs eng : Nat} {resv : Bool} {ahead : List Nat} {l : List Buf}
    (h : e.bobTake polder resv ahead p k refs eng = .got l e') : e'.flt = e.flt := by
  unfold Eng.bobTake at h
  dsimp only at h
  split at h
  · injection h with _ he
    rw [← he, Eng.takeResv_flt]
  · split at h
    · injection h with _ he
      rw [← he, Eng.takeFree_flt]
      split <;> rfl
    · nomatch h

theorem Eng.bobTakeList_flt {polder : Nat} {resv : Bool} {ahead : List Nat} (asked : List (Nat × Nat × Nat × Nat)) {e e' : Eng} {l : List Buf}
    (h : e.bobTakeList polder resv ahead asked = .got l e') : e'.flt = e.flt := by
  induction asked generalizing e l e' with
  | nil =>
    injection h with _ he
    rw [← he]
  | cons a asked ih =>
    obtain ⟨p, k, refs, eng⟩ := a
    unfold Eng.bobTakeList at h
    split at h
    · next e1 htake =>
      split at h
      · next hrest =>
        injection h with _ he
        rw [← he, ih hrest, Eng.bobTake_flt htake]
      · next hno => exact absurd h (hno _ _)
    · next hno => exact absurd h (hno _ _)

theorem Eng.bobTakeAll_flt {e e' : Eng} {who : Option BWho} {polder : Nat} {resv : Bool} {asked : List (Nat × Nat × Nat × Nat)} {l : List Buf}
    (h : e.bobTakeAll who polder resv asked = .got l e') : e'.flt = e.flt := by
  unfold Eng.bobTakeAll at h
  split at h
  · nomatch h
  · split at h
    · nomatch h
    · exact Eng.bobTakeList_flt asked h

@[simp] theorem Eng.bobQuotaEvent_flt (polder slot : Nat) (pool tag : Nat) : (e.bobQuotaEvent polder slot pool tag).flt = e.flt := by
  simp [Eng.bobQuotaEvent]

@[simp] theorem Eng.endWait_flt (who : BWho) : (e.endWait who).flt = e.flt := rfl

@[simp] theorem Eng.noteWait_flt (w : BWait) : (e.noteWait w).flt = e.flt := by simp [Eng.noteWait]

@[simp] theorem Eng.takeTable_flt (h : HostRole) (bwd : Bool) (n : Nat) : (e.takeTable h bwd n).2.flt = e.flt := by
  unfold Eng.takeTable
  dsimp only
  split
  · next l e' hgot => exact (e'.endWait_flt _).trans (Eng.bobTakeAll_flt hgot)
  · exact e.noteWait_flt _
  · simp

/-! ### Frames, chunks and bids of a source (R131, R138, R158) -/

@[simp] theorem Eng.sendFrame_flt (cmd polder : Nat) (f : FitHdr) (records : List Byte) : (e.sendFrame cmd polder f records).flt = e.flt :=
  e.sendNew_flt _ _

@[simp] theorem Eng.sendEnds_flt (w : RouteWork) (round : Nat) (last cancelled : Bool) : (e.sendEnds w round last cancelled).flt = e.flt :=
  Eng.foldl_flt (fun e _ => e.sendFrame_flt _ _ _ _) _ e

@[simp] theorem Eng.sendBids_flt (w : RouteWork) (round : Nat) (bids : List SrcBid) : (e.sendBids w round bids).flt = e.flt :=
  Eng.foldl_flt (fun e _ => Eng.foldl_flt (fun e _ => e.sendFrame_flt _ _ _ _) _ e) _ e

@[simp] theorem Eng.sendGrants_flt (polder slot step src round epoch : Nat) (l : List GrantRec) :
    (e.sendGrants polder slot step src round epoch l).flt = e.flt :=
  Eng.foldl_flt (fun e _ => e.sendFrame_flt _ _ _ _) _ e

@[simp] theorem Eng.sendClaims_flt (w : RouteWork) (x dst : Nat) : (e.sendClaims w x dst).flt = e.flt :=
  (Eng.sendFrame_flt _ _ _ _ _).trans (Eng.foldl_flt (fun e _ => Eng.foldl_flt (fun e _ => e.sendFrame_flt _ _ _ _) _ e) _ e)

@[simp] theorem Eng.sendVoid_flt (w : RouteWork) (dst : Nat) (tags : List Nat) : (e.sendVoid w dst tags).flt = e.flt := e.sendNew_flt _ _

@[simp] theorem Eng.addJobs_flt (cmd : Nat) (l : List Job) : (e.addJobs cmd l).flt = e.flt := rfl

@[simp] theorem Eng.resendPleat_flt (m : Mem) (w : RouteWork) (x d : Nat) (bwd : Bool) : (e.resendPleat m w x d bwd).flt = e.flt := by
  unfold Eng.resendPleat
  split
  · rfl
  · extract_lets c code cmd len h jobs
    split
    · rfl
    · refine Eng.foldl_flt (fun e j => ?_) jobs e
      cases j with
      | chunk h s _ => exact e.sendNew_flt _ _
      | copy _ _ _ => rfl

@[simp] theorem Eng.dropToward_flt (cmd x : Nat) : (e.dropToward cmd x).flt = e.flt := rfl

@[simp] theorem Eng.stepTakeover_flt (m : Mem) (w : RouteWork) (x d : Nat) : (e.stepTakeover m w x d).flt = e.flt := by
  simp [Eng.stepTakeover]

@[simp] theorem Eng.addBids_flt (cmd : Nat) (bids : List SrcBid) : (e.addBids cmd bids).flt = e.flt := by simp [Eng.addBids]

/-! ### Pairs that drop (R145, R148) -/

@[simp] theorem Eng.voidPromise_flt : e.voidPromise.flt = e.flt := by simp [Eng.voidPromise]

@[simp] theorem Eng.writeBit_flt (cmd : Nat) (bwd : Bool) (i : Nat) : (e.writeBit cmd bwd i).flt = e.flt := by
  unfold Eng.writeBit
  repeat' split
  all_goals simp

@[simp] theorem Eng.writeAcc_flt (cmd : Nat) (bwd : Bool) (t : Nat) (s : List F32) : (e.writeAcc cmd bwd t s).flt = e.flt := by
  unfold Eng.writeAcc
  repeat' split
  all_goals simp

@[simp] theorem Eng.dropPair_flt (cmd : Nat) (bwd : Bool) (i : Nat) : (e.dropPair cmd bwd i).flt = e.flt := by simp [Eng.dropPair]

@[simp] theorem Eng.raiseHalf_flt (cmd : Nat) (bwd : Bool) (code arg : Nat) : (e.raiseHalf cmd bwd code arg).flt = e.flt := by
  unfold Eng.raiseHalf
  split <;> simp

@[simp] theorem Eng.raiseWork_flt (cmd code n : Nat) : (e.raiseWork cmd code n).flt = e.flt := by
  unfold Eng.raiseWork
  split <;> simp

@[simp] theorem Eng.noteRows_flt (w : RouteWork) (c : Cmd) (toks : List RouterBwd) : (e.noteRows w c toks).flt = e.flt := by
  simp [Eng.noteRows]

/-! ### A source that closes (R133, R137) -/

@[simp] theorem Eng.closeSource_flt (cmd : Nat) : (e.closeSource cmd).flt = e.flt := by
  unfold Eng.closeSource
  split <;> simp

@[simp] theorem Eng.advanceSource_flt (cmd fuel : Nat) : (e.advanceSource cmd fuel).flt = e.flt := by
  induction fuel generalizing e with
  | zero => rfl
  | succ fuel ih =>
    unfold Eng.advanceSource
    split
    · rfl
    · split
      · rfl
      · extract_lets waited next r bid told
        have htold : told.flt = e.flt := by simp [told, bid, waited]
        clear_value told
        split
        · simp [waited]
        · split
          · exact htold
          · simp [ih, htold]

@[simp] theorem Eng.markTaken_flt (w : RouteWork) (x : Nat) : (e.markTaken w x).flt = e.flt := by simp [Eng.markTaken]

@[simp] theorem Eng.forgetChip_flt (x : Nat) : (e.forgetChip x).flt = e.flt := rfl

/-! ### Combines that end (R159, R163) -/

@[simp] theorem Eng.settleCombine_flt (cmd : Nat) : (e.settleCombine cmd).flt = e.flt := by
  unfold Eng.settleCombine
  split
  · rfl
  · next w _ =>
    split
    · rfl
    · next c _ =>
      split
      · rfl
      · extract_lets cfg ready dropped
        split
        · next e1 dig hsum =>
          have hstored : e1.flt = e.flt := by
            have hfold := Eng.foldl_flt_of (f := fun (acc : Eng × W64) t =>
              (acc.1.storeFor w.polder (c.d.a + t * cfg.rowBytes) (packRow cfg.rowFmt (acc.1.tokenSum w false t)),
                acc.2 + digestRow t (packRow cfg.rowFmt (acc.1.tokenSum w false t)))) Prod.fst (fun b t => Eng.storeFor_flt _ _ _ _) ready (e, c.res.digest)
            exact (congrArg (fun p => p.1.flt) hsum).symm.trans hfold
          extract_lets dug done booked counted tailed
          have hbooked : booked.flt = e.flt := by simp [booked, done, dug, hstored]
          clear_value booked
          have htailed : tailed.flt = e.flt := by
            dsimp only [tailed]
            split <;> simp [counted, hbooked]
          split
          · exact hbooked
          · simp [htailed]

@[simp] theorem Eng.settleCombineBwd_flt (m : Mem) (cmd : Nat) : (e.settleCombineBwd m cmd).flt = e.flt := by
  unfold Eng.settleCombineBwd
  split
  · rfl
  · next w _ =>
    split
    · rfl
    · next c _ =>
      split
      · rfl
      · extract_lets cfg x rd back toks noted
        split
        · next e1 dig hsum =>
          have hstored : e1.flt = e.flt := by
            have hfold := Eng.foldl_flt_of (f := fun (acc : Eng × W64) (p : RouterBwd × Nat) =>
              let sum := acc.1.tokenSum w true p.2
              let e := if acc.1.exactOrder w true then acc.1.writeAcc cmd true p.2 sum else acc.1
              let row := if w.bwdArea.badTokens.contains p.2 then packRow cfg.rowFmt (List.replicate cfg.d fZero)
                else packRow cfg.rowFmt ((sum.zip p.1.r).map (fun q => fadd q.1 q.2))
              (e.storeFor w.polder (c.d.a + p.2 * cfg.rowBytes) row, acc.2 + digestRow p.2 row)) Prod.fst
              (fun b p => by simp) toks.zipIdx (noted, 0)
            exact ((congrArg (fun p => p.1.flt) hsum).symm.trans hfold).trans (e.noteRows_flt w c toks)
          simp [hstored]

@[simp] theorem Eng.sourceDrops_flt (m : Mem) (w : RouteWork) (x : Nat) : (e.sourceDrops m w x).flt = e.flt := by
  simp only [Eng.sourceDrops, Eng.settleCombineBwd_flt, Eng.settleCombine_flt, Eng.advanceSource_flt]
  rw [Eng.foldl_flt (fun e i => e.dropPair_flt w.cmd true i), Eng.foldl_flt (fun e i => e.dropPair_flt w.cmd false i), Eng.setWork_flt]

/-! ### A host role that loses a chip (R127, R131, R363) -/

@[simp] theorem Eng.writeShape_flt (polder addr : Nat) (r : List Byte) : (e.writeShape polder addr r).flt = e.flt := by simp [Eng.writeShape]

@[simp] theorem Eng.checkReady_flt (slot step : Nat) : (e.checkReady slot step).flt = e.flt := by
  unfold Eng.checkReady
  split
  · rfl
  · next h _ =>
    split
    · extract_lets c t
      have htaken := e.takeTable_flt h false t.length
      split
      · next e1 htake => exact (congrArg (fun p => p.2.flt) htake).symm.trans htaken
      · next b e1 htake =>
        have hheld : e1.flt = e.flt := (congrArg (fun p => p.2.flt) htake).symm.trans htaken
        simp only [Eng.setRole_flt, Eng.writeShape_flt, Eng.storeFor_flt]
        exact (Eng.foldl_flt (fun e je => Eng.foldl_flt (fun e l => e.storeFor_flt _ _ _) _ e) _ e1).trans hheld
    · rfl

@[simp] theorem Eng.answerAll_flt (slot step : Nat) (bids : List HeldBid) : (e.answerAll slot step bids).flt = e.flt := by
  unfold Eng.answerAll
  split
  · rfl
  · extract_lets start
    split
    extract_lets timed counted
    have hcounted : counted.flt = e.flt := by simp [counted, timed]
    exact (Eng.foldl_flt (fun e k => e.sendGrants_flt _ _ _ _ _ _ _) _ counted).trans hcounted

@[simp] theorem Eng.closeFitting_flt (slot step : Nat) : (e.closeFitting slot step).flt = e.flt := by
  unfold Eng.closeFitting
  split
  · rfl
  · next h _ =>
    extract_lets rr keep gone freed ex closed counted once
    have hfreed : freed.flt = e.flt := Eng.foldl_flt Eng.freeWhole_flt gone e
    have hcounted : counted.flt = e.flt := (Eng.foldl_flt (fun e je => e.expert_flt _ _ _) h.experts closed).trans hfreed
    have honce : ∀ (code n : Nat) (e : Eng), (once code n e).flt = e.flt := fun code n e => by simp [once]
    clear_value once counted
    simp [honce, hcounted]

@[simp] theorem Eng.closeRounds_flt (slot step fuel : Nat) : (e.closeRounds slot step fuel).flt = e.flt := by
  induction fuel generalizing e with
  | zero => rfl
  | succ fuel ih =>
    unfold Eng.closeRounds
    split
    · rfl
    · simp [ih]

@[simp] theorem Eng.voidPlaces_flt (slot step : Nat) (f : Place → Bool) : (e.voidPlaces slot step f).flt = e.flt := by
  unfold Eng.voidPlaces
  split
  · rfl
  · next h _ =>
    extract_lets c rr hit zero voided counted
    have hzero : ∀ (a : Option Nat) (e : Eng), (zero a e).flt = e.flt := fun a e => by
      dsimp only [zero]
      split <;> simp
    have hvoided : voided.flt = e.flt := by
      refine Eng.foldl_flt (fun e p => ?_) hit e
      extract_lets fwd bwd place marked
      have hmarked : marked.flt = bwd.flt := by
        dsimp only [marked]
        split
        · split <;> simp
        · rfl
      simp [hmarked, bwd, fwd, hzero]
    have hcounted : counted.flt = e.flt := by simp [counted, hvoided]
    simp [hcounted]

@[simp] theorem Eng.hostLoses_flt (x : Nat) : (e.hostLoses x).flt = e.flt := Eng.foldl_flt (fun e k => by simp) _ e

/-! ### A chip becomes lost (R363, R364) -/

/-- A role that is to be taken over waits for its claims; no chip is lost by that. -/
theorem Eng.openTakeover_lost (x slot step : Nat) (detm : Bool) : (e.openTakeover x slot step detm).flt.lost = e.flt.lost := by
  unfold Eng.openTakeover
  split <;> rfl

/-- The roles of a logical slot that wait for the claims of a lost chip's mirrored sources. -/
def Eng.openTakeovers (x : Nat) (e : Eng) (slot : Nat) : Eng :=
  (e.roles.filter (fun r => r.slot == slot && r.experts.isEmpty)).foldl (fun (e : Eng) r => e.openTakeover x slot r.step r.detm) e

theorem Eng.openTakeovers_lost (x slot : Nat) : (Eng.openTakeovers x e slot).flt.lost = e.flt.lost :=
  List.foldlRecOn (motive := fun (e' : Eng) => e'.flt.lost = e.flt.lost) _ _ rfl
    (fun e' h r _ => (e'.openTakeover_lost x slot r.step r.detm).trans h)

theorem Eng.takeOver_lost (x : Nat) (slots : List Nat) : (slots.foldl (Eng.openTakeovers x) e).flt.lost = e.flt.lost :=
  List.foldlRecOn (motive := fun (e' : Eng) => e'.flt.lost = e.flt.lost) _ _ rfl (fun e' h s _ => (e'.openTakeovers_lost x s).trans h)

/-- A source's work toward a lost chip goes to its substitute, or drops. -/
def Eng.moveWork (m : Mem) (x : Nat) (e : Eng) (w : RouteWork) : Eng := match e.substitute w.slot x with
  | some d => (e.markTaken w x).stepTakeover m w x d
  | none => e.sourceDrops m w x

theorem Eng.moveWork_flt (m : Mem) (x : Nat) (w : RouteWork) : (Eng.moveWork m x e w).flt = e.flt := by
  unfold Eng.moveWork
  split <;> simp

/-- The works of a logical slot drop what is on its way to the chip that stood in for another. -/
def Eng.standInDrops (m : Mem) (e : Eng) (sy : Nat × Nat) : Eng :=
  (e.works.filter (fun w => w.slot == sy.1)).foldl (fun (e : Eng) w => e.sourceDrops m w sy.2) e

theorem Eng.standInDrops_flt (m : Mem) (sy : Nat × Nat) : (Eng.standInDrops m e sy).flt = e.flt :=
  Eng.foldl_flt (fun e w => e.sourceDrops_flt m w sy.2) _ e

/-- The list of lost chips with one more: in the first place that stands free, else at the end. -/
def lostWith (lost : List (Option Nat)) (x : Nat) : List (Option Nat) := match lost.findIdx? (· == none) with
  | some i => lost.set i (some x)
  | none => lost ++ [some x]

theorem mem_lostWith (lost : List (Option Nat)) (x : Nat) : some x ∈ lostWith lost x := by
  unfold lostWith
  split
  · next i hi =>
    obtain ⟨hlt, -⟩ := List.findIdx?_eq_some_iff_getElem.1 hi
    exact List.mem_set hlt _
  · simp

theorem Eng.applyLost_lost (m : Mem) (x : Nat) : (e.applyLost m x).flt.lost = lostWith e.flt.lost x := by
  unfold Eng.applyLost
  extract_lets stood lost flt listed told hosts broken cancelled slots mine asked opened short
  have hcancelled : cancelled.flt.lost = lost := by
    have hbroken : broken.flt = hosts.flt := Eng.foldl_flt (fun e g => e.breakGroup_flt g _ _) _ hosts
    simp [cancelled, hbroken, hosts, told, listed]
  have hasked : asked.flt = cancelled.flt := by simp [asked]
  have hopened : opened.flt.lost = asked.flt.lost := by
    have hfold : opened = mine.foldl (Eng.openTakeovers x) asked := rfl
    rw [hfold, Eng.takeOver_lost]
  have hshort : short.flt = opened.flt := by simp [short]
  change (stood.foldl (Eng.standInDrops m) ((short.works.filter (fun w => slots.contains w.slot)).foldl (Eng.moveWork m x) short)).flt.lost = lost
  rw [Eng.foldl_flt (fun e sy => e.standInDrops_flt m sy), Eng.foldl_flt (fun e w => e.moveWork_flt m x w), hshort, hopened, hasked, hcancelled]

theorem Eng.applyLost_isLost (m : Mem) (x : Nat) : (e.applyLost m x).isLost x = true := by
  rw [Eng.isLost, List.contains_iff_mem, Eng.applyLost_lost]
  exact mem_lostWith _ x

end Sys2Proof.Machine
end

section
/-! SUPPORT. Notices and probes (R359 to R363): what each row does, in the order of the notices' sequence numbers. -/

namespace Sys2Proof.Machine

/-! ### Sequence numbers (R362) -/

/-- The engine that a newer notice acts on: awake, with the notice's number as the last. -/
def Eng.noticed (n : Nat) (e : Eng) : Eng := { e.wake with flt := { e.flt with nseq := n % 2 ^ 16, nseqAny := true } }

theorem Eng.notice_newer {e : Eng} {n : Nat} (hp : e.boot.powered = true) (hn : e.wake.newer n = true) (f : Eng → Eng) :
    e.notice n f = f (e.noticed n) := by
  simp [Eng.notice, hp, hn, Eng.noticed]

theorem Eng.notice_older {e : Eng} {n : Nat} (hp : e.boot.powered = true) (hn : e.wake.newer n = false) (f : Eng → Eng) :
    e.notice n f = e.wake := by
  simp [Eng.notice, hp, hn]

theorem Eng.noticed_chip (n : Nat) (e : Eng) : (e.noticed n).chip = e.chip := congrArg (fun b => b.chipId.getD 0) e.wake_boot
theorem Eng.noticed_cmds (n : Nat) (e : Eng) : (e.noticed n).cmds = e.cmds := e.wake_cmds
theorem Eng.noticed_wlog (n : Nat) (e : Eng) : (e.noticed n).wlog = e.wlog := e.wake_wlog
theorem Eng.noticed_spool (n : Nat) (e : Eng) : (e.noticed n).spool = e.spool := e.wake_spool
theorem Eng.noticed_tx (n : Nat) (e : Eng) : (e.noticed n).tx = e.tx := e.wake_tx
theorem Eng.noticed_slotCfg (n : Nat) (e : Eng) : (e.noticed n).slotCfg = e.slotCfg := e.wake_slotCfg

/-! ### HOLD and SUSPECT (R359 to R361) -/

/-- A hold toward a chip: its record as it becomes, and its transfer-table entries released. -/
def Eng.heldBy (x : Nat) (h : HoldRec) (e : Eng) : Eng :=
  ({ e.toldHold x with flt.holds := KV.put (e.toldHold x).flt.holds x h } : Eng).releaseEntries x

theorem Eng.toldHold_eq (x : Nat) (e : Eng) : e.toldHold x = { e with
    regs := (e.toldHold x).regs, wq := (e.toldHold x).wq, evt := (e.toldHold x).evt, pwr := (e.toldHold x).pwr } := by
  unfold Eng.toldHold
  split
  · rfl
  · exact Eng.raise_eq e _ _ _ _

theorem Eng.heldBy_eq (x : Nat) (h : HoldRec) (e : Eng) : e.heldBy x h = { e with
    regs := (e.toldHold x).regs, wq := (e.toldHold x).wq, evt := (e.toldHold x).evt, pwr := (e.toldHold x).pwr
    flt.holds := KV.put e.flt.holds x h, tt := (e.heldBy x h).tt, outq := (e.heldBy x h).outq } := by
  unfold Eng.heldBy Eng.releaseEntries
  rw [e.toldHold_eq x]

theorem Eng.heldBy_tt (x : Nat) (h : HoldRec) (e : Eng) : ∀ kt ∈ (e.heldBy x h).tt, kt.2.hdr.dst ≠ x := by
  simp [Eng.heldBy, Eng.releaseEntries]

theorem Eng.heldBy_holding (x : Nat) (h : HoldRec) (e : Eng) (hh : (h.noticed || h.suspected) = true) : (e.heldBy x h).holding x = true := by
  rw [Eng.heldBy_eq, Eng.holding, KV.find_put, if_pos rfl]
  exact hh

theorem Eng.heldBy_bestPort (x : Nat) (h : HoldRec) (e : Eng) : (e.heldBy x h).bestPort x = e.bestPort x := by
  rw [Eng.heldBy_eq]
  rfl

theorem Eng.applyHold_of_away {x : Nat} {e : Eng} (h : e.isLost x = true ∨ x = e.chip) : e.applyHold x = e := by
  simp [Eng.applyHold, h]

theorem Eng.applyHold_of_peer {x : Nat} {e : Eng} (hl : e.isLost x = false) (hc : x ≠ e.chip) :
    e.applyHold x = e.heldBy x { KV.get {} e.flt.holds x with noticed := true } := by
  simp only [Eng.applyHold, hl, hc, Eng.heldBy]
  rfl

theorem Eng.suspectChip_of_away {x : Nat} {e : Eng} (h : e.isLost x = true ∨ x = e.chip) : e.suspectChip x = e := by
  rcases h with h | h <;> simp [Eng.suspectChip, h]

theorem Eng.suspected_of_not_holding {x : Nat} {e : Eng} (h : e.holding x = false) : (KV.get {} e.flt.holds x).suspected = false := by
  unfold Eng.holding at h
  unfold KV.get
  cases hf : KV.find e.flt.holds x with
  | none => rfl
  | some r =>
    simp only [hf, Bool.or_eq_false_iff] at h
    exact h.2

/-- What a chip is suspected by: one probe sent, none answered. -/
def HoldRec.suspectedAt (h : HoldRec) (now : Nat) : HoldRec := { h with suspected := true, probes := 1, since := now, reported := false }

theorem Eng.suspectChip_of_peer {x : Nat} {e : Eng} (hl : e.isLost x = false) (hc : x ≠ e.chip) (hh : e.holding x = false) :
    e.suspectChip x = (e.heldBy x ((KV.get {} e.flt.holds x).suspectedAt (e.toldHold x).now)).sendProbe x := by
  have hopen : ¬ ((KV.get {} e.flt.holds x).suspected || x = e.chip || e.isLost x) := by
    simp [Eng.suspected_of_not_holding hh, hl, hc]
  exact if_neg hopen

theorem Eng.transmit_eq (port : Option Nat) (vc bytes : Nat) (t : TxMsg) (e : Eng) : e.transmit port vc bytes t =
    { e with ports := (e.transmit port vc bytes t).ports, tx := e.tx ++ [⟨port, vc, t⟩] } := by
  cases port <;> rfl

/-! ### LOST and CLEAR (R362, R363) -/

theorem Eng.noticeLost_of_away {m : Mem} {x : Nat} {e : Eng} (h : e.isLost x = true ∨ x = e.chip) : e.noticeLost m x = e :=
  if_pos (by simpa [or_comm] using h)

theorem Eng.noticeLost_of_peer {m : Mem} {x : Nat} {e : Eng} (hl : e.isLost x = false) (hc : x ≠ e.chip) : e.noticeLost m x =
    if e.flt.recovery = some .compute then { e with flt.latchedLost := e.flt.latchedLost ++ [x] }
    else if e.flt.lost.length ≥ 256 && !e.flt.lost.contains none then e.addFault .compute
    else (e.applyLost m x).settle m :=
  if_neg (by simp [hl, hc])

section
variable {m : Mem} {x : Nat} {e : Eng} (hl : e.isLost x = false) (hc : x ≠ e.chip)
include hl hc

theorem Eng.noticeLost_latched (hr : e.flt.recovery = some .compute) :
    e.noticeLost m x = { e with flt.latchedLost := e.flt.latchedLost ++ [x] } := by
  rw [Eng.noticeLost_of_peer hl hc, if_pos hr]

theorem Eng.noticeLost_full (hr : e.flt.recovery ≠ some .compute) (hfull : 256 ≤ e.flt.lost.length) (hnone : none ∉ e.flt.lost) :
    e.noticeLost m x = e.addFault .compute := by
  rw [Eng.noticeLost_of_peer hl hc, if_neg hr, if_pos (by simpa using ⟨hfull, hnone⟩)]

theorem Eng.noticeLost_applied (hr : e.flt.recovery ≠ some .compute) (hroom : e.flt.lost.length < 256 ∨ none ∈ e.flt.lost) :
    e.noticeLost m x = (e.applyLost m x).settle m := by
  have hnot : ¬ (decide (e.flt.lost.length ≥ 256) && !e.flt.lost.contains none) = true := by
    rcases hroom with hfew | hfree
    · simp [Nat.not_le.2 hfew]
    · simp [hfree]
  rw [Eng.noticeLost_of_peer hl hc, if_neg hr, if_neg hnot]

end

theorem Eng.applyClear_of_present {x : Nat} {e : Eng} (hl : e.isLost x = false) : e.applyClear x = e := if_neg (by simp [hl])

/-- The engine after a CLEAR: the entry is free, each slot's lookups still find the chip (log 18). -/
def Eng.cleared (x : Nat) (e : Eng) : Eng := { e with
  flt.lost := e.flt.lost.map (fun l => if l == some x then none else l)
  flt.lostClear := e.flt.lostClear ++ e.slotCfg.map (fun kc => kc.1 * 2 ^ 17 + x) }

theorem Eng.applyClear_of_lost {x : Nat} {e : Eng} (hl : e.isLost x = true) : e.applyClear x = e.cleared x := if_pos hl

theorem Eng.cleared_isLost_same (x : Nat) (e : Eng) : (e.cleared x).isLost x = false := by
  simp only [Eng.cleared, Eng.isLost, List.contains_eq_mem, decide_eq_false_iff_not, List.mem_map, not_exists, not_and]
  intro l _
  split
  · simp
  · simp_all

theorem Eng.cleared_isLost_other {x y : Nat} (e : Eng) (hy : y ≠ x) : (e.cleared x).isLost y = e.isLost y := by
  simp only [Eng.cleared, Eng.isLost, List.contains_eq_mem, decide_eq_decide, List.mem_map]
  constructor
  · rintro ⟨l, hl, hly⟩
    split at hly
    · nomatch hly
    · exact hly ▸ hl
  · exact fun hl => ⟨some y, hl, by simp [hy]⟩

theorem Eng.cleared_lostFor {x k : Nat} {c : SlotCfg} {e : Eng} (hk : (k, c) ∈ e.slotCfg) : (e.cleared x).lostFor k x = true := by
  simp only [Eng.lostFor, Eng.cleared, Bool.or_eq_true, List.contains_iff_mem, List.mem_append, List.mem_map]
  exact .inr (.inr ⟨(k, c), hk, rfl⟩)

/-! ### The end of a hold (R359) -/

theorem KV.find_del_same {α : Type} (l : KV α) (k : Nat) : KV.find (KV.del l k) k = none := by
  rw [KV.del, KV.find_filter (fun a => a != k)]
  simp

theorem Eng.endHold_without {m : Mem} {x : Nat} {e : Eng} (h : KV.find e.flt.holds x = none) : e.endHold m x = e := by
  simp [Eng.endHold, h]

/-- A hold that no notice asked for ends for good. -/
theorem Eng.endHold_holds {m : Mem} {x : Nat} {e : Eng} {h : HoldRec} (hf : KV.find e.flt.holds x = some h) (hn : h.noticed = false) :
    KV.find (e.endHold m x).flt.holds x = none := by
  simp only [Eng.endHold, hf, hn, Bool.false_eq_true, if_false, Eng.pump_flt, Eng.raise_flt]
  exact KV.find_del_same _ _

/-! ### Probes (R360; log 44) -/

theorem Eng.probeAnswered_unsuspected {m : Mem} {x : Nat} {e : Eng} {h : HoldRec} (hf : KV.find e.flt.holds x = some h)
    (hs : h.suspected = false) : e.probeAnswered m x = e := by
  simp [Eng.probeAnswered, hf, hs]

theorem Eng.probeAnswered_suspected {m : Mem} {x : Nat} {e : Eng} {h : HoldRec} (hf : KV.find e.flt.holds x = some h)
    (hs : h.suspected = true) : e.probeAnswered m x =
      if h.noticed then { e with flt.holds := KV.put e.flt.holds x { h with suspected := false, probes := 0, reported := false } }
      else (e.endHold m x).settle m := by
  simp [Eng.probeAnswered, hf, hs]

theorem Eng.probeLate_over {x : Nat} {e : Eng} {h : HoldRec} (hf : KV.find e.flt.holds x = some h)
    (ho : h.suspected = false ∨ h.reported = true) : e.probeLate x = e := by
  rcases ho with ho | ho <;> simp [Eng.probeLate, hf, ho]

/-- The next probe is sent a millisecond after the last. -/
theorem Eng.probeLate_again {x : Nat} {e : Eng} {h : HoldRec} (hf : KV.find e.flt.holds x = some h) (hs : h.suspected = true)
    (hr : h.reported = false) (hp : h.probes < 3) : e.probeLate x =
      ({ e.reach (h.since + h.probes * 1000000) with flt.holds := KV.put e.flt.holds x { h with probes := h.probes + 1 } } : Eng).sendProbe x := by
  simp [Eng.probeLate, hf, hs, hr, hp]

/-- After the third probe the peer is reported. -/
theorem Eng.probeLate_reports {x : Nat} {e : Eng} {h : HoldRec} (hf : KV.find e.flt.holds x = some h) (hs : h.suspected = true)
    (hr : h.reported = false) (hp : 3 ≤ h.probes) : e.probeLate x =
      (({ e.reach (h.since + h.probes * 1000000) with flt.holds := KV.put e.flt.holds x { h with reported := true } } : Eng).raise
        0x0112 (arg1 none x) none 0).post (.peerReport x) := by
  simp [Eng.probeLate, hf, hs, hr, Nat.not_lt.2 hp]

/-! ### The rows on a working engine -/

theorem State.on.notice_older {s : State} (h : s.on) {n : Nat} (hn : s.work.wake.newer n = false) (f : Mem → Eng → Eng) :
    s.onPower (fun m e => e.notice n (f m)) = .next (s.leaves s.work.wake) :=
  h.onPower_leaves (Eng.notice_older (e := s.work) h.1 hn (f s.hbm))

theorem State.on.notice_newer {s : State} (h : s.on) {n : Nat} (hn : s.work.wake.newer n = true) {f : Mem → Eng → Eng} {e : Eng}
    (hf : f s.hbm (s.work.noticed n) = e) : s.onPower (fun m e => e.notice n (f m)) = .next (s.leaves e) :=
  h.onPower_leaves ((Eng.notice_newer (e := s.work) h.1 hn (f s.hbm)).trans hf)

/-- The same where nothing is written to HBM. -/
theorem State.on.notice_newer_eng {s : State} (h : s.on) {n : Nat} (hn : s.work.wake.newer n = true) {f : Mem → Eng → Eng} {e : Eng}
    (hf : f s.hbm (s.work.noticed n) = e) (hspool : e.spool = s.eng.spool) (hwlog : e.wlog = []) :
    s.onPower (fun m e => e.notice n (f m)) = .next { s with eng := e } :=
  h.onPower_eng ((Eng.notice_newer (e := s.work) h.1 hn (f s.hbm)).trans hf) hspool hwlog

theorem State.on.hold_acts {s : State} (h : s.on) {n x : Nat} (hn : s.work.wake.newer n = true) :
    exec (.hold n x) s = .next (s.leaves ((s.work.noticed n).applyHold x)) :=
  h.notice_newer hn (f := fun _ e => e.applyHold x) rfl

theorem State.on.suspect_acts {s : State} (h : s.on) {n x : Nat} (hn : s.work.wake.newer n = true) :
    exec (.suspect n x) s = .next (s.leaves ((s.work.noticed n).suspectChip x)) :=
  h.notice_newer hn (f := fun _ e => e.suspectChip x) rfl

theorem State.on.lost_acts {s : State} (h : s.on) {n x : Nat} (hn : s.work.wake.newer n = true) :
    exec (.lost n x) s = .next (s.leaves ((s.work.noticed n).noticeLost s.hbm x)) :=
  h.notice_newer hn (f := fun m e => e.noticeLost m x) rfl

theorem State.on.resume_acts {s : State} (h : s.on) {n x : Nat} (hn : s.work.wake.newer n = true) :
    exec (.resume n x) s = .next (s.leaves (((s.work.noticed n).endHold s.hbm x).settle s.hbm)) :=
  h.notice_newer hn (f := fun m e => (e.endHold m x).settle m) rfl

theorem State.on.clear_acts {s : State} (h : s.on) {n x : Nat} (hn : s.work.wake.newer n = true) :
    exec (.clearNotice n x) s = .next (s.leaves ((s.work.noticed n).applyClear x)) :=
  h.notice_newer hn (f := fun _ e => e.applyClear x) rfl

theorem State.on.hold_peer {s : State} (h : s.on) {n x : Nat} (hn : s.work.wake.newer n = true) (hl : s.eng.isLost x = false)
    (hc : x ≠ s.eng.chip) : ∃ t, exec (.hold n x) s = .next t ∧ t.eng.holding x = true ∧ (∀ kt ∈ t.eng.tt, kt.2.hdr.dst ≠ x) ∧
      t.eng.cmds = s.eng.cmds ∧ t.hbm = s.hbm := by
  have hc' : x ≠ (s.work.noticed n).chip := hc.trans_eq (s.work.noticed_chip n).symm
  refine ⟨_, (exec_hold n x s).trans (h.notice_newer_eng hn (Eng.applyHold_of_peer hl hc') ?_ ?_),
    Eng.heldBy_holding _ _ _ rfl, Eng.heldBy_tt _ _ _, ?_, rfl⟩ <;> rw [Eng.heldBy_eq]
  · exact s.work.noticed_spool n
  · exact s.work.noticed_wlog n
  · exact s.work.noticed_cmds n

theorem State.on.suspect_peer {s : State} (h : s.on) {n x : Nat} (hn : s.work.wake.newer n = true) (hl : s.eng.isLost x = false)
    (hc : x ≠ s.eng.chip) (hh : s.eng.holding x = false) : ∃ t, exec (.suspect n x) s = .next t ∧ t.eng.holding x = true ∧
      (∀ kt ∈ t.eng.tt, kt.2.hdr.dst ≠ x) ∧ t.eng.tx = s.eng.tx ++ [⟨(s.work.noticed n).bestPort x, 7, .probe x⟩] ∧
      t.eng.cmds = s.eng.cmds ∧ t.hbm = s.hbm := by
  have hc' : x ≠ (s.work.noticed n).chip := hc.trans_eq (s.work.noticed_chip n).symm
  obtain ⟨r, hr, hr'⟩ : ∃ r : HoldRec, (r.noticed || r.suspected) = true ∧
      (s.work.noticed n).suspectChip x = ((s.work.noticed n).heldBy x r).sendProbe x :=
    ⟨_, Bool.or_true _, Eng.suspectChip_of_peer hl hc' hh⟩
  have hholding := Eng.heldBy_holding x r (s.work.noticed n) hr
  have htt := Eng.heldBy_tt x r (s.work.noticed n)
  rw [Eng.sendProbe, Eng.heldBy_bestPort, Eng.transmit_eq] at hr'
  refine ⟨_, (exec_suspect n x s).trans (h.notice_newer_eng hn hr' ?_ ?_), hholding, htt, ?_, ?_, rfl⟩
  all_goals dsimp only; rw [Eng.heldBy_eq]
  · exact s.work.noticed_spool n
  · exact s.work.noticed_wlog n
  · exact congrArg (· ++ _) (s.work.noticed_tx n)
  · exact s.work.noticed_cmds n

theorem State.on.clear_lost {s : State} (h : s.on) {n x : Nat} (hn : s.work.wake.newer n = true) (hl : s.eng.isLost x = true) :
    ∃ t, exec (.clearNotice n x) s = .next t ∧ t.eng.isLost x = false ∧ (∀ y, y ≠ x → t.eng.isLost y = s.eng.isLost y) ∧
      t.eng.flt.lost.length = s.eng.flt.lost.length ∧ (∀ k c, (k, c) ∈ s.eng.slotCfg → t.eng.lostFor k x = true) ∧
      t.eng.cmds = s.eng.cmds ∧ t.hbm = s.hbm :=
  ⟨_, (exec_clearNotice n x s).trans (h.notice_newer_eng hn (Eng.applyClear_of_lost hl) (s.work.noticed_spool n) (s.work.noticed_wlog n)),
    Eng.cleared_isLost_same x _, fun _ hy => Eng.cleared_isLost_other _ hy, List.length_map _,
    fun _ _ hk => Eng.cleared_lostFor (by rw [s.work.noticed_slotCfg n]; exact hk), s.work.noticed_cmds n, rfl⟩

theorem State.on.notice_away {s : State} (h : s.on) {n x : Nat} (hn : s.work.wake.newer n = true)
    (haway : s.eng.isLost x = true ∨ x = s.eng.chip) : exec (.hold n x) s = .next (s.leaves (s.work.noticed n)) ∧
      exec (.suspect n x) s = .next (s.leaves (s.work.noticed n)) ∧ exec (.lost n x) s = .next (s.leaves (s.work.noticed n)) := by
  replace haway : (s.work.noticed n).isLost x = true ∨ x = (s.work.noticed n).chip := (s.work.noticed_chip n).symm ▸ haway
  rw [h.hold_acts hn, h.suspect_acts hn, h.lost_acts hn, Eng.applyHold_of_away haway, Eng.suspectChip_of_away haway,
    Eng.noticeLost_of_away haway]
  exact ⟨rfl, rfl, rfl⟩

theorem State.on.lost_latched {s : State} (h : s.on) {n x : Nat} (hn : s.work.wake.newer n = true) (hl : s.eng.isLost x = false)
    (hc : x ≠ s.eng.chip) (hr : s.eng.flt.recovery = some .compute) : exec (.lost n x) s = .next (s.leaves
      { s.work.noticed n with flt := { (s.work.noticed n).flt with latchedLost := (s.work.noticed n).flt.latchedLost ++ [x] } }) := by
  rw [h.lost_acts hn, Eng.noticeLost_latched (e := s.work.noticed n) hl (hc.trans_eq (s.work.noticed_chip n).symm) hr]

theorem State.on.lost_full {s : State} (h : s.on) {n x : Nat} (hn : s.work.wake.newer n = true) (hl : s.eng.isLost x = false)
    (hc : x ≠ s.eng.chip) (hr : s.eng.flt.recovery ≠ some .compute) (hfull : 256 ≤ s.eng.flt.lost.length)
    (hnone : none ∉ s.eng.flt.lost) : exec (.lost n x) s = .next (s.leaves ((s.work.noticed n).addFault .compute)) := by
  rw [h.lost_acts hn, Eng.noticeLost_full (e := s.work.noticed n) hl (hc.trans_eq (s.work.noticed_chip n).symm) hr hfull hnone]

theorem State.on.lost_applied {s : State} (h : s.on) {n x : Nat} (hn : s.work.wake.newer n = true) (hl : s.eng.isLost x = false)
    (hc : x ≠ s.eng.chip) (hr : s.eng.flt.recovery ≠ some .compute) (hroom : s.eng.flt.lost.length < 256 ∨ none ∈ s.eng.flt.lost) :
    exec (.lost n x) s = .next (s.leaves (((s.work.noticed n).applyLost s.hbm x).settle s.hbm)) := by
  rw [h.lost_acts hn, Eng.noticeLost_applied (e := s.work.noticed n) hl (hc.trans_eq (s.work.noticed_chip n).symm) hr hroom]

theorem State.on.resume_without {s : State} (h : s.on) {n x : Nat} (hn : s.work.wake.newer n = true)
    (hnone : KV.find s.eng.flt.holds x = none) : exec (.resume n x) s = .next (s.leaves ((s.work.noticed n).settle s.hbm)) := by
  rw [h.resume_acts hn, Eng.endHold_without (e := s.work.noticed n) hnone]

theorem State.on.clear_present {s : State} (h : s.on) {n x : Nat} (hn : s.work.wake.newer n = true) (hl : s.eng.isLost x = false) :
    exec (.clearNotice n x) s = .next (s.leaves (s.work.noticed n)) := by
  rw [h.clear_acts hn, Eng.applyClear_of_present (e := s.work.noticed n) hl]

end Sys2Proof.Machine

open Sys2Proof Sys2Proof.Machine

/-- Settles O54: an old notice wakes only; then each notice toward a peer and toward another chip, the probe, its answer and its timeout. -/
theorem noticesActInTheirOrder : Obligations.NoticesActInTheirOrder := by
  unfold Obligations.NoticesActInTheirOrder
  refine ⟨fun s i n x h hi hn => ?_, fun s n x e h hn he => ?_, fun s x h => ⟨fun hcompute => ?_, fun hcompute => ?_⟩,
    fun s x r h hr => ?_⟩
  · rcases hi with rfl | rfl | rfl | rfl | rfl
    · exact h.notice_older hn (fun _ e => e.applyHold x)
    · exact h.notice_older hn (fun m e => (e.endHold m x).settle m)
    · exact h.notice_older hn (fun m e => e.noticeLost m x)
    · exact h.notice_older hn (fun _ e => e.applyClear x)
    · exact h.notice_older hn (fun _ e => e.suspectChip x)
  · obtain rfl : e = s.work.noticed n := he
    refine ⟨h.notice_away hn, fun hl hc => ⟨h.hold_peer hn hl hc, h.suspect_peer hn hl hc, h.lost_latched hn hl hc,
      fun hcompute => ⟨h.lost_full hn hl hc hcompute, fun hroom => ⟨h.lost_applied hn hl hc hcompute hroom, Eng.applyLost_isLost _ s.hbm x⟩⟩⟩,
      h.resume_without hn, fun r hr => ⟨h.resume_acts hn, Eng.endHold_holds hr⟩, h.clear_present hn, h.clear_lost hn⟩
  · exact (exec_probe x s).trans (h.onPower_eng (if_pos hcompute) rfl rfl)
  · exact (exec_probe x s).trans (h.onPower_leaves (if_neg hcompute))
  · replace hr : KV.find s.work.flt.holds x = some r := hr
    refine ⟨fun hs => ⟨?_, ?_⟩, fun hs => ⟨fun hnoticed => ?_, fun hnoticed => ⟨?_, Eng.endHold_holds hr hnoticed⟩, fun hreported => ?_,
      fun hreported => ⟨_, rfl, fun hp => ?_, fun hp => ?_⟩⟩⟩
    · exact (exec_probeAnswer x s).trans (h.onPower_eng (Eng.probeAnswered_unsuspected hr hs) rfl rfl)
    · exact (exec_probeTimeout x s).trans (h.onPower_eng (Eng.probeLate_over hr (.inl hs)) rfl rfl)
    · exact (exec_probeAnswer x s).trans (h.onPower_eng ((Eng.probeAnswered_suspected hr hs).trans (if_pos hnoticed)) rfl rfl)
    · exact (exec_probeAnswer x s).trans (h.onPower_leaves ((Eng.probeAnswered_suspected hr hs).trans (if_neg (by simp [hnoticed]))))
    · exact (exec_probeTimeout x s).trans (h.onPower_eng (Eng.probeLate_over hr (.inr hreported)) rfl rfl)
    · exact (exec_probeTimeout x s).trans (h.onPower_leaves (Eng.probeLate_again hr hs hreported hp))
    · exact (exec_probeTimeout x s).trans (h.onPower_leaves (Eng.probeLate_reports hr hs hreported hp))

end

section
/-! SUPPORT. Doorbells: which action of Table 3-2 a write of a doorbell slot gets (R69, R70). -/

namespace Sys2Proof.Machine

/-! ### The order of Table 3-2 (R70) -/

theorem Eng.doorbell_patternLoad {e : Eng} (q v : Nat) (hp : e.boot.powered = true) (hst : e.loader.st ≠ .applied) :
    e.doorbell q 0 true v = e.bump32 Reg.patDroppedDb 1 := by
  simp [Eng.doorbell, Eng.patternLoad, hp, hst]

section
variable {e : Eng} {q v r tail : Nat} {g : Ring} (hp : e.boot.powered = true) (hst : e.loader.st = .applied) (hr : r = field v 32 10)
  (hg : g = e.ring r)
include hp hst hr hg

/-- Actions 2 and 3: a ring that is not attached to the queue, or takes no commands. -/
theorem Eng.doorbell_rejected (hbad : (g.st = .detached ∨ g.win.queue ≠ q) ∨ g.st = .stopped ∨ g.st = .draining) :
    e.doorbell q 0 true v = e.rejectDoorbell r := by
  subst hr hg
  rcases hbad with (h | h) | h | h <;> simp [Eng.doorbell, Eng.patternLoad, hp, hst, h]

/-- An attached ring goes by its indices alone. -/
theorem Eng.doorbell_attached (htail : tail = field v 0 32) (hq : g.win.queue = q) (hatt : g.st = .attached) :
    e.doorbell q 0 true v =
      if toSigned 32 (idxSub tail g.tail) ≤ 0 then e.raise 0x0511 (arg5 r g.owner ((e.slotOf g.owner).getD 0)) (some g.owner) 0
      else if 2 ^ g.win.ringLog < idxSub tail g.head then
        (e.setRing r (fun x => { x with st := .stopped })).raise 0x0512 (arg5 r g.owner ((e.slotOf g.owner).getD 0)) (some g.owner) 0
      else (e.setRing r (fun x => { x with tail := tail })).wake := by
  subst hr hg htail
  simp [Eng.doorbell, Eng.patternLoad, hp, hst, hq, hatt]

end

theorem Eng.doorbell_narrow (e : Eng) (q v : Nat) {off : Nat} {wide : Bool} (hp : e.boot.powered = true) (h : wide = false ∨ off ≠ 0) :
    e.doorbell q off wide v = e.rejectDoorbell 0 := by
  rcases h with h | h <;> simp [Eng.doorbell, hp, h]

theorem State.on.exec_doorbell {s : State} (h : s.on) {q off v : Nat} {wide : Bool} {e : Eng} (he : s.work.doorbell q off wide v = e) :
    exec (.doorbell q off wide v) s = .next (s.leaves e) :=
  (Machine.exec_doorbell q off wide v s).trans (h.onPower_leaves he)

end Sys2Proof.Machine

open Sys2Proof Sys2Proof.Machine

/-- Settles O17: one action for each row of Table 3-2, in its order. -/
theorem doorbellsAreCheckedInOrder : Obligations.DoorbellsAreCheckedInOrder := by
  unfold Obligations.DoorbellsAreCheckedInOrder
  intro s q v r tail g hon hr htail hg
  have hp : s.work.boot.powered = true := hon.1
  replace hg : g = s.work.ring r := hg
  refine ⟨fun hst => hon.exec_doorbell (Eng.doorbell_patternLoad q v hp hst), fun hst => ?_⟩
  have hrejected := fun hbad => hon.exec_doorbell (Eng.doorbell_rejected (q := q) hp hst hr hg hbad)
  refine ⟨fun hbad => hrejected (.inl hbad), fun hq => ⟨fun hbad => hrejected (.inr hbad), fun hatt => ?_⟩⟩
  have hattached := Eng.doorbell_attached hp hst hr hg htail hq hatt
  refine ⟨fun hold => hon.exec_doorbell (hattached.trans (if_pos hold)), fun hnew => ⟨fun hover => ?_, fun hfits => ?_⟩⟩
  · exact hon.exec_doorbell ((hattached.trans (if_neg (Int.not_le.2 hnew))).trans (if_pos hover))
  · exact hon.exec_doorbell ((hattached.trans (if_neg (Int.not_le.2 hnew))).trans (if_neg (Nat.not_lt.2 hfits)))

end

section
/-! SUPPORT. Writes of a slot's ring window that act on a ring, and of the two head registers (R65, R72 to R74, R434). -/

namespace Sys2Proof.Machine

/-! ### Rings by their number -/

theorem Eng.setRing_ring (e : Eng) (r k : Nat) (f : Ring → Ring) : (e.setRing r f).ring k = if k = r then f (e.ring r) else e.ring k := by
  simp only [Eng.setRing, Eng.ring, KV.upd]
  rw [KV.get, KV.find_put]
  split <;> rfl

theorem Eng.setRing_ring_same (e : Eng) (r : Nat) (f : Ring → Ring) : (e.setRing r f).ring r = f (e.ring r) := by
  rw [Eng.setRing_ring, if_pos rfl]

theorem Eng.setRing_ring_other (e : Eng) {r k : Nat} (h : k ≠ r) (f : Ring → Ring) : (e.setRing r f).ring k = e.ring k := by
  rw [Eng.setRing_ring, if_neg h]

/-! ### A write of a window's command or head register -/

/-- Registers of a slot's ring window whose write acts on the ring. -/
def windowActs : List Nat := [Reg.pldRingCmd, Reg.pldCplHead]

theorem windowActs_place : ∀ off ∈ windowActs, ∀ slot : Fin 16, accessOk (slotReg slot off) false = true ∧ slotReg slot off < 0x200000 ∧
    isWide (slotReg slot off) = false ∧ isWide (slotReg slot off - 4) = false ∧ isMgmtReg (slotReg slot off) = false ∧
    slotReg slot off / 0x10000 = 2 ∧ slotReg slot off % 0x10000 / 0x1000 = slot ∧ slotReg slot off % 0x1000 = off ∧
    off ∉ [Reg.pldCmd, Reg.pldStageSave, Reg.pldStagePiece, Reg.pldStagePlen, Reg.pldStageClient, Reg.pldConsent, Reg.pldConsentErr] := by
  decide

theorem Eng.writeAccess_window (e : Eng) (m : Mem) (mgmt : Bool) {slot off v : Nat} (hoff : off ∈ windowActs) (hslot : slot < 16)
    (hst : (e.pslot slot).st ≠ .empty) (hv : v < 2 ^ 32) :
    e.writeAccess m mgmt (slotReg slot off) false v = e.writeWindow m slot off 0 false v := by
  obtain ⟨hok, hlow, hwide, hwide4, hmgmt, hblock, hof, hreg, hother⟩ := windowActs_place off hoff ⟨slot, hslot⟩
  dsimp only at hok hlow hwide hwide4 hmgmt hblock hof hreg
  simp only [List.mem_cons, List.not_mem_nil, or_false, not_or] at hother
  obtain ⟨h1, h2, h3, h4, h5, h6, h7⟩ := hother
  have hdoor : ¬(0x200000 ≤ slotReg slot off ∧ slotReg slot off < 0x220000) := by omega
  have hst' : ((e.pslot slot).st == .empty) = false := by simpa using hst
  unfold Eng.writeAccess
  rw [hok, if_neg hdoor, Nat.mod_eq_of_lt hv]
  simp only [Eng.write32, hwide, hwide4, Bool.and_false, Bool.not_true, Bool.not_false, Bool.false_eq_true, if_false, if_true, Eng.writeVal,
    hmgmt, hblock, hof, hreg, Eng.writeSlot, h1, h2, h3, h4, h5, h6, h7, hst']

theorem Eng.writeWindow_cplHead (e : Eng) (m : Mem) (slot v : Nat) :
    e.writeWindow m slot Reg.pldCplHead 0 false v = e.writeCplHead m slot v := rfl

theorem Eng.writeWindow_ringCmd (e : Eng) (m : Mem) (slot v : Nat) :
    e.writeWindow m slot Reg.pldRingCmd 0 false v = (e.ringCmd slot v).settle m := rfl

/-- The ring that a window addresses is the one its slot selects, and the slot is not EMPTY. -/
theorem Eng.windowRing_some {e : Eng} {slot r : Nat} (h : e.windowRing slot = some r) :
    (e.pslot slot).st ≠ .empty ∧ r = (e.pslot slot).ringSel := by
  unfold Eng.windowRing at h
  dsimp only at h
  split at h
  next hc =>
    simp only [Bool.and_eq_true, bne_iff_ne] at hc
    exact ⟨hc.1.1, (Option.some.inj h).symm⟩
  next => cases h

/-- On an alert engine a write of a register of a slot that is not EMPTY reaches the slot's window at once. -/
theorem State.alert.windowWrite {s : State} (h : s.alert) {slot off v : Nat} (hoff : off ∈ windowActs) (hslot : slot < 16)
    (hst : (s.eng.pslot slot).st ≠ .empty) (hv : v < 2 ^ 32) :
    s.onPower (fun m e => e.mmioWrite m (slotReg slot off) false v) = .next (s.leaves (s.work.writeWindow s.hbm slot off 0 false v)) :=
  h.1.onPower_leaves ((h.mmioWrite _ _ _).trans (s.work.writeAccess_window s.hbm false hoff hslot hst hv))

/-! ### The completion head (R65, R66) -/

theorem Eng.pushRecord_rings (e : Eng) (id : Nat) : (e.pushRecord id).rings = e.rings := by
  unfold Eng.pushRecord
  split <;> rfl

/-- What no step of a fold changes, the fold does not change. -/
theorem Eng.foldl_rings {α : Type} {f : Eng → α → Eng} (hf : ∀ (e : Eng) x, (f e x).rings = e.rings) (l : List α) (e : Eng) :
    (l.foldl f e).rings = e.rings :=
  List.foldlRecOn (motive := fun e' => e'.rings = e.rings) l f rfl (fun e' h x _ => (hf e' x).trans h)

theorem Eng.serveSlots_rings (e : Eng) (r : Nat) : (e.serveSlots r).rings = e.rings := by
  have hserve : e.serveSlots r = (e.cmds.filter (fun c => c.ring == r && c.done && !c.slotHeld && !c.recorded)).foldl (Eng.serveSlot r) e := rfl
  rw [hserve, Eng.foldl_rings]
  intro e c
  unfold Eng.serveSlot
  split
  · exact e.pushRecord_rings c.id
  · rfl

/-- A ring that has waited for a completion slot since `t`. -/
def Ring.waitingSince (t : Option Nat) (g : Ring) : Ring := { g with stallAt := t }

@[simp] theorem Ring.waitingSince_chead (t : Option Nat) (g : Ring) : (g.waitingSince t).chead = g.chead := rfl

/-- Noting a stall changes nothing of a ring but since when it waits. -/
theorem Eng.markStall_ring (e : Eng) (r k : Nat) : ∃ t, (e.markStall r).ring k = (e.ring k).waitingSince t := by
  unfold Eng.markStall
  extract_lets g waits t
  split
  · exact ⟨(e.ring k).stallAt, rfl⟩
  · rw [Eng.setRing_ring]
    split
    next hk =>
      rw [hk]
      exact ⟨t, rfl⟩
    next => exact ⟨(e.ring k).stallAt, rfl⟩

theorem Eng.advanceChead_chead (e : Eng) (r v : Nat) : ((e.advanceChead r v).ring r).chead = v := by
  unfold Eng.advanceChead
  extract_lets headed marked
  have hserved : ((headed.serveSlots r).ring r).chead = v := by
    rw [Eng.ring, Eng.serveSlots_rings, ← Eng.ring]
    dsimp only [headed]
    rw [Eng.setRing_ring_same]
  have hmarked : (marked.ring r).chead = v := by
    obtain ⟨t, ht⟩ := (headed.serveSlots r).markStall_ring r r
    dsimp only [marked]
    rw [ht, Ring.waitingSince_chead, hserved]
  simp only [Eng.setRing_ring_same, hmarked]

/-- A head from the old one up to the tail is accepted. -/
theorem Eng.writeCplHead_accepted (e : Eng) (m : Mem) {slot r v : Nat} (hw : e.windowRing slot = some r)
    (h : 0 ≤ toSigned 32 (idxSub v (e.ring r).chead) ∧
      toSigned 32 (idxSub v (e.ring r).chead) ≤ toSigned 32 (idxSub (e.ring r).ctail (e.ring r).chead)) :
    e.writeCplHead m slot v = (e.advanceChead r v).settle m := by
  simp only [Eng.writeCplHead, hw, if_pos h]

theorem Eng.writeCplHead_rejected (e : Eng) (m : Mem) {slot r v : Nat} (hw : e.windowRing slot = some r)
    (h : ¬ (0 ≤ toSigned 32 (idxSub v (e.ring r).chead) ∧
      toSigned 32 (idxSub v (e.ring r).chead) ≤ toSigned 32 (idxSub (e.ring r).ctail (e.ring r).chead))) :
    e.writeCplHead m slot v = e.raise 0x0517 (arg5 r (e.ring r).owner slot) (some (e.ring r).owner) 0 := by
  simp only [Eng.writeCplHead, hw, if_neg h]

theorem State.window.exec_cplHead {s : State} {slot r v : Nat} (h : s.window slot r) (hv : v < 2 ^ 32) :
    exec (.cplHead slot v) s = .next (s.leaves (s.work.writeCplHead s.hbm slot v)) := by
  obtain ⟨halert, hslot, hring⟩ := h
  have hoff : Reg.pldCplHead ∈ windowActs := by decide
  rw [Machine.exec_cplHead, halert.windowWrite hoff hslot (Eng.windowRing_some hring).1 hv, Eng.writeWindow_cplHead]

/-! ### The event head (R434) -/

theorem Eng.writeVal_evtHead (e : Eng) (m : Mem) (mgmt : Bool) (v : Nat) :
    e.writeVal m mgmt Reg.evtHead 0 false v = e.writeEvtHead (v % 2 ^ 32) := by
  unfold Eng.writeVal
  extract_lets counters layer
  repeat rw [if_neg (by decide)]
  exact if_pos rfl

theorem Eng.writeAccess_evtHead (e : Eng) (m : Mem) (mgmt : Bool) {v : Nat} (hv : v < 2 ^ 32) :
    e.writeAccess m mgmt Reg.evtHead false v = e.writeEvtHead v := by
  have hok : accessOk Reg.evtHead false = true := by decide
  have hdoor : ¬ (0x200000 ≤ Reg.evtHead ∧ Reg.evtHead < 0x220000) := by decide
  have hwide : isWide Reg.evtHead = false ∧ isWide (Reg.evtHead - 4) = false := by decide
  simp only [Eng.writeAccess, hok, if_neg hdoor, Eng.write32, hwide, Bool.and_false, Bool.not_true, Bool.not_false, Bool.false_eq_true,
    if_false, if_true, Eng.writeVal_evtHead, Nat.mod_eq_of_lt hv]

theorem State.alert.exec_evtHead {s : State} (h : s.alert) {v : Nat} (hv : v < 2 ^ 32) :
    exec (.evtHead v) s = .next (s.leaves (s.work.writeEvtHead v)) :=
  (Machine.exec_evtHead v s).trans (h.1.onPower_leaves ((h.mmioWrite _ _ _).trans (s.work.writeAccess_evtHead s.hbm false hv)))

end Sys2Proof.Machine

open Sys2Proof Sys2Proof.Machine

/-- Settles O18: both registers accept by one rule, and tell of what they do not accept. -/
theorem headWritesAcceptOnlyWhatWasWritten : Obligations.HeadWritesAcceptOnlyWhatWasWritten := by
  unfold Obligations.HeadWritesAcceptOnlyWhatWasWritten
  refine ⟨fun s slot r v h hv => ⟨fun hok => ?_, fun hbad => ?_⟩, fun s v h hv => ⟨fun hok => ?_, fun hbad => ?_⟩⟩
  · refine ⟨_, rfl, Eng.advanceChead_chead _ r v, (h.exec_cplHead hv).trans ?_⟩
    rw [s.work.writeCplHead_accepted s.hbm h.2.2 hok]
  · rw [h.exec_cplHead hv, s.work.writeCplHead_rejected s.hbm h.2.2 hbad]
    rfl
  · refine ⟨_, rfl, Eng.setReg_reg_same _ _ _, (h.exec_evtHead hv).trans ?_⟩
    rw [show s.work.writeEvtHead v = _ from if_pos hok]
    rfl
  · rw [h.exec_evtHead hv, show s.work.writeEvtHead v = _ from if_neg hbad]

end

section
/-! SUPPORT. The start of a held command: its WAIT word, what it takes where it may start, and what it notes where it may not
(R80 to R84). -/

namespace Sys2Proof.Machine

/-! ### Changes of one command -/

theorem updFirst_congr {α : Type} {p : α → Bool} {f f' : α → α} {l : List α} {x : α} (hx : l.find? p = some x) (h : f x = f' x) :
    updFirst p f l = updFirst p f' l := by
  induction l with
  | nil => rfl
  | cons y l ih =>
    rw [List.find?_cons] at hx
    unfold updFirst
    split at hx
    next hy =>
      cases hx
      simp only [hy, if_true, h]
    next hy => simp only [hy, Bool.false_eq_true, if_false, ih hx]

/-- What a change makes of the command it finds is all that it does. -/
theorem Eng.setCmd_congr (e : Eng) {id : Nat} {c : Cmd} {f f' : Cmd → Cmd} (hc : e.cmd? id = some c) (h : f c = f' c) :
    e.setCmd id f = e.setCmd id f' := by
  unfold Eng.setCmd
  rw [updFirst_congr hc h]

/-- A command that takes all of another but its identity. -/
def Cmd.become (x y : Cmd) : Cmd := { x with id := y.id }

/-- A command put in the place of another of its identity is found there. -/
theorem Eng.setCmd_cmd?_replace (e : Eng) {id : Nat} {c x : Cmd} (hc : e.cmd? id = some c) (hid : x.id = c.id) :
    (e.setCmd id (fun _ => x)).cmd? id = some x := by
  have hsame : x.become c = x := by rw [Cmd.become, ← hid]
  rw [e.setCmd_congr (f' := x.become) hc hsame.symm, e.setCmd_cmd?_same (f := x.become) (fun _ => rfl) hc, hsame]

/-! ### The WAIT word (R80, R81) -/

/-- A command that waits for no word, or whose word has come, is not polled. -/
theorem Eng.pollWait_idle (e : Eng) (m : Mem) {id : Nat} {c : Cmd} (hc : e.cmd? id = some c) (h : c.d.wait = false ∨ c.waitOk = true) :
    e.pollWait m id = e := by
  rcases h with h | h <;> simp [Eng.pollWait, hc, h]

section
variable {e : Eng} {m : Mem} {c : Cmd} (hc : e.cmd? c.id = some c) (hopen : c.done = false) (hwait : c.d.wait = true)
  (hok : c.waitOk = false)
include hc hopen hwait hok

theorem Eng.pollWait_unmet (hword : toSigned 32 (e.rdNat m c.d.waitAddr 4 + 2 ^ 32 - c.d.waitValue) < 0) :
    e.pollWait m c.id = e.accHbm c.polder 64 := by
  simp only [Eng.pollWait, hc, hopen, hok, hwait, Bool.not_true, Bool.or_false, Bool.false_eq_true, if_false, if_pos hword]

/-- A command whose word has come takes its count with it. -/
theorem Eng.pollWait_met (hword : ¬ toSigned 32 (e.rdNat m c.d.waitAddr 4 + 2 ^ 32 - c.d.waitValue) < 0) (herr : c.err = none)
    {n : Option Nat} {x : Cmd} (hn : n = if c.d.indirect then some (e.rdNat m (c.d.waitAddr + c.d.sizeOff) 4) else none)
    (hx : x = { c with waitOk := true, count := n, err := if n.any (fun k => !countInRange c.d.opcode k) then some stBad else none }) :
    e.pollWait m c.id = (e.accHbm c.polder (if c.d.indirect then 128 else 64)).setCmd c.id (fun _ => x) := by
  subst hn hx
  simp only [Eng.pollWait, hc, hopen, hok, hwait, Bool.not_true, Bool.or_false, Bool.false_eq_true, if_false, if_neg hword]
  refine Eng.setCmd_congr _ (((e.accHbm_sameCmds _ _).cmd? c.id).trans hc) ?_
  simp only [herr, Option.isNone_none, Bool.true_and, hopen]

end

/-! ### What a start leaves of the Pattern in force -/

theorem Eng.foldl_pat {α : Type} {f : Eng → α → Eng} (hf : ∀ (e : Eng) x, (f e x).pat = e.pat) (l : List α) (e : Eng) :
    (l.foldl f e).pat = e.pat :=
  List.foldlRecOn (motive := fun e' => e'.pat = e.pat) l f rfl (fun e' h x _ => (hf e' x).trans h)

theorem Eng.breakQueue_pat (e : Eng) (q : Nat) (bad : Option Nat) : (e.breakQueue q bad).pat = e.pat := Eng.raise_pat ..

theorem Eng.bankLost_pat (e : Eng) (b : Nat) : (e.bankLost b).pat = e.pat := by
  have hframes : (e.loseFrames b).pat = e.pat := by
    unfold Eng.loseFrames
    extract_lets l gone
    split <;> rfl
  unfold Eng.bankLost
  split
  · rw [Eng.raise_pat, Eng.breakBank, Eng.foldl_pat (fun e q => e.breakQueue_pat q none)]
    exact hframes
  · rfl

theorem Eng.checkRetired_pat (e : Eng) : e.checkRetired.pat = e.pat := by
  rw [Eng.checkRetired, Eng.foldl_pat]
  intro e b
  split
  · exact e.bankLost_pat b
  · rfl

theorem Eng.freeCell_pat (e : Eng) (q cell : Nat) : (e.freeCell q cell).pat = e.pat := by
  unfold Eng.freeCell
  dsimp only
  split
  · exact Eng.raise_pat ..
  · split
    · exact Eng.raise_pat ..
    · rfl

theorem Eng.takeCell_pat {e e' : Eng} {q : Nat} {c : QueueCfg} (h : e.takeCell q c = some e') : e'.pat = e.pat := by
  unfold Eng.takeCell at h
  repeat' split at h
  all_goals cases h
  rfl

theorem Eng.through_pat {e e' : Eng} {q : Nat} (h : e.through q = some e') : e'.pat = e.pat := by
  unfold Eng.through at h
  split at h
  · cases h
  split at h
  · obtain ⟨e1, htake, rfl⟩ := Option.map_eq_some_iff.1 h
    have hkept : e1.pat = e.pat := Eng.takeCell_pat htake
    rw [Eng.checkRetired_pat, Eng.freeCell_pat]
    exact hkept
  · cases h

theorem Eng.askOver_pat (e : Eng) (q : Nat) : (e.askOver q).pat = e.pat := by
  unfold Eng.askOver
  split <;> rfl

theorem Eng.passItem_pat (e : Eng) (c : Cmd) : (e.passItem c).pat = e.pat := by
  unfold Eng.passItem
  extract_lets q
  split
  · rfl
  · rw [Eng.askOver_pat]
    cases h : e.through q with
    | none => rfl
    | some e' => exact Eng.through_pat h

theorem Eng.markStall_pat (e : Eng) (r : Nat) : (e.markStall r).pat = e.pat := by
  unfold Eng.markStall
  extract_lets g waits t
  split <;> rfl

theorem Eng.begin_pat (e : Eng) (c : Cmd) : (e.begin c).pat = e.pat := by
  unfold Eng.begin
  extract_lets passed ch charged waited accounted gauged
  have hcharged : charged.pat = passed.pat := by
    dsimp only [charged]
    generalize ch = k
    cases k <;> rfl
  have haccounted : accounted.pat = charged.pat := Eng.account_pat _ _ _
  have hgauged : gauged.pat = accounted.pat := rfl
  rw [Eng.markStall_pat, Eng.setCmd_pat, hgauged, haccounted, hcharged]
  exact e.passItem_pat c

/-- Whether a command can do its work is asked of the Pattern, which its start leaves alone. -/
theorem Eng.endsAtStart_begin (e : Eng) (c : Cmd) : (e.begin c).endsAtStart c = e.endsAtStart c := by
  have hchannels : (e.begin c).noChannels c = e.noChannels c := by
    rw [Eng.noChannels, Eng.noChannels, Eng.template, Eng.template, Eng.begin_pat]
  rw [Eng.endsAtStart, Eng.endsAtStart, hchannels]

/-! ### The start (R66, R82 to R84) -/

section
variable {e e' : Eng} {m : Mem} {id : Nat} {c : Cmd} (hpoll : e.pollWait m id = e') (hc : e'.cmd? id = some c)
include hpoll hc

theorem Eng.tryStart_starts (hs : e'.startable c = true) (hend : e'.endsAtStart c = none) : e.tryStart m id = e'.begin c := by
  simp only [Eng.tryStart, hpoll, hc, hs, if_true, Eng.endsAtStart_begin, hend]

/-- A command that cannot do its work ends as it starts. -/
theorem Eng.tryStart_ends (hs : e'.startable c = true) {st : Nat} (hend : e'.endsAtStart c = some st) :
    e.tryStart m id = (e'.begin c).complete id st := by
  simp only [Eng.tryStart, hpoll, hc, hs, if_true, Eng.endsAtStart_begin, hend]

theorem Eng.tryStart_waits (hs : e'.startable c = false) :
    e.tryStart m id = (e'.awaitItem c).setCmd id (fun x => x.markBlocked (e'.blocked x) e'.now) := by
  simp only [Eng.tryStart, hpoll, hc, hs, Bool.false_eq_true, if_false]

end

/-- A command held back by more than its item's cell asks its queue for nothing. -/
theorem Eng.awaitItem_held (e : Eng) {c : Cmd} (h : e.unheld c = false) : e.awaitItem c = e := by
  simp [Eng.awaitItem, h]

/-- A command whose word has not come is held back. -/
theorem Eng.unheld_waiting (e : Eng) {c : Cmd} (herr : c.err = none) (hwait : c.d.wait = true) (hok : c.waitOk = false) :
    e.unheld c = false := by
  simp [Eng.unheld, herr, hwait, hok]

theorem Eng.startable_of_held (e : Eng) {c : Cmd} (h : e.unheld c = false) : e.startable c = false := by
  simp [Eng.startable, h]

theorem Eng.blocked_waiting (e : Eng) {c : Cmd} (herr : c.err = none) (hwait : c.d.wait = true) (hok : c.waitOk = false) :
    e.blocked c = true := by
  simp [Eng.blocked, herr, hwait, hok]

/-- A command whose word has not come notes that it is blocked, and the bytes read count for its polder. -/
theorem Eng.tryStart_unmet {e : Eng} {m : Mem} {c : Cmd} (hc : e.cmd? c.id = some c) (hopen : c.done = false) (hwait : c.d.wait = true)
    (hok : c.waitOk = false) (herr : c.err = none) (hword : toSigned 32 (e.rdNat m c.d.waitAddr 4 + 2 ^ 32 - c.d.waitValue) < 0) :
    e.tryStart m c.id = (e.accHbm c.polder 64).setCmd c.id (fun x => x.markBlocked true e.time.ns) := by
  have hheld := (e.accHbm c.polder 64).unheld_waiting herr hwait hok
  have hc' : (e.accHbm c.polder 64).cmd? c.id = some c := ((e.accHbm_sameCmds _ _).cmd? c.id).trans hc
  have htime : (e.accHbm c.polder 64).time = e.time := (e.account_sameUnits _ _).time
  rw [Eng.tryStart_waits (Eng.pollWait_unmet hc hopen hwait hok hword) hc' (Eng.startable_of_held _ hheld), Eng.awaitItem_held _ hheld]
  refine Eng.setCmd_congr _ hc' ?_
  rw [Eng.blocked_waiting _ herr hwait hok, Eng.now, htime]

theorem State.on.exec_dependencyReleased {s : State} (h : s.on) {r idx id : Nat} (hat : s.eng.openAt r idx = some id) {e : Eng}
    (he : s.work.tryStart s.hbm id = e) : exec (.dependencyReleased r idx) s = .next (s.leaves e) := by
  have hat' : s.work.openAt r idx = some id := hat
  exact (Machine.exec_dependencyReleased r idx s).trans (h.onPower_leaves (by simp only [hat', he]))

theorem State.on.exec_waitPoll {s : State} (h : s.on) {r idx id : Nat} (hat : s.eng.openAt r idx = some id) {e : Eng}
    (he : s.work.tryStart s.hbm id = e) : exec (.waitPoll r idx) s = .next (s.leaves e) := by
  have hat' : s.work.openAt r idx = some id := hat
  exact (Machine.exec_waitPoll r idx s).trans (h.onPower_leaves (by simp only [hat', he]))

/-- A command reads HBM as it found it. -/
theorem State.work_rdNat (s : State) (m : Mem) (a n : Nat) : s.work.rdNat m a n = leNat (Mem.read m a n) := rfl

end Sys2Proof.Machine

open Sys2Proof Sys2Proof.Machine

/-- Settles O20: the WAIT word is looked at first, and the start follows by one rule. -/
theorem heldCommandsStartWhenFree : Obligations.HeldCommandsStartWhenFree := by
  unfold Obligations.HeldCommandsStartWhenFree
  refine ⟨fun s r idx c hon hat hid _ hmet => ?_, fun s r idx c hon hat hid _ hwait hok hopen herr => ?_⟩
  · replace hid : s.work.cmd? c.id = some c := hid
    have hpoll := s.work.pollWait_idle s.hbm hid hmet
    refine ⟨fun hs hend => ?_, fun hs st hend => ?_, fun hs => ⟨?_, fun hheld => s.work.awaitItem_held hheld⟩⟩
    · exact hon.exec_dependencyReleased hat (Eng.tryStart_starts hpoll hid hs hend)
    · exact hon.exec_dependencyReleased hat (Eng.tryStart_ends hpoll hid hs hend)
    · exact hon.exec_dependencyReleased hat (Eng.tryStart_waits hpoll hid hs)
  · replace hid : s.work.cmd? c.id = some c := hid
    simp only [← s.work_rdNat]
    refine ⟨fun hword => ?_, fun hword n x e hn hx he => ?_⟩
    · exact hon.exec_waitPoll hat (Eng.tryStart_unmet hid hopen hwait hok herr hword)
    · have hpoll := (Eng.pollWait_met hid hopen hwait hok (Int.not_lt.2 hword) herr hn hx).trans he.symm
      have hfound : e.cmd? c.id = some x := by
        have hc := ((s.work.accHbm_sameCmds c.polder (if c.d.indirect then 128 else 64)).cmd? c.id).trans hid
        rw [he]
        exact Eng.setCmd_cmd?_replace _ hc (by rw [hx])
      exact ⟨fun hs hend => hon.exec_waitPoll hat (Eng.tryStart_starts hpoll hfound hs hend),
        fun hs st hend => hon.exec_waitPoll hat (Eng.tryStart_ends hpoll hfound hs hend)⟩

end

section
/-! SUPPORT. What a write of a ring window's command register makes of its ring, and a ring whose commands or records find no
completion slot (R66, R72 to R74, R89). -/

namespace Sys2Proof.Machine

/-! ### ATTACH (R72, Table 3-7) -/

/-- A ring as it is attached: the window's values, and all four indices 0. -/
def Ring.attachedBy (polder : Nat) (w : RingWindow) : Ring :=
  { st := .attached, owner := polder, win := w, negMajor := field w.cfg 8 8, negMinor := 0, priv := bit w.cfg 31 }

/-- The status of an ATTACH in its ring's RESULT. -/
def Eng.attachResult (slot r st : Nat) (e : Eng) : Eng := e.setPslot slot (fun p => { p with results := KV.put p.results r st })

section
variable {e : Eng} {slot r st : Nat} {p : PldSlot} {w : RingWindow} (hp : p = e.pslot slot) (hst : st = e.attachCheck p.polder r w)
include hp hst

theorem Eng.attachNow_refused (hbad : st ≠ stOk) : e.attachNow slot r w = e.attachResult slot r st := by
  subst hp hst
  simp only [Eng.attachNow, if_neg hbad]
  rfl

theorem Eng.attachNow_attaches (hok : st = stOk) : e.attachNow slot r w =
    ((e.attachResult slot r stOk).setRing r (fun _ => Ring.attachedBy p.polder w)).raise 0x0514 (arg5 r p.polder slot) (some p.polder) 0 := by
  subst hp
  rw [hok] at hst
  simp only [Eng.attachNow, ← hst, if_true, Nat.min_zero]
  rfl

end

/-- A ring that does not drain is attached at once, whoever has it. -/
theorem Eng.attachRing_now {e : Eng} {slot : Nat} {p : PldSlot} (hp : p = e.pslot slot) (hst : p.st ≠ .empty)
    (hring : (e.ring p.ringSel).st ≠ .draining) : e.attachRing slot = e.attachNow slot p.ringSel (KV.get {} p.wins p.ringSel) := by
  subst hp
  have hst' : ((e.pslot slot).st == .empty) = false := by simpa using hst
  have hring' : ((e.ring (e.pslot slot).ringSel).st == .draining) = false := by simpa using hring
  unfold Eng.attachRing
  dsimp only
  rw [hst', if_neg (by decide)]
  cases hw : e.windowRing slot with
  | none => rfl
  | some r =>
    obtain ⟨-, rfl⟩ := Eng.windowRing_some hw
    dsimp only
    rw [hring', if_neg (by decide)]

section
variable {e : Eng} {slot r : Nat} (hw : e.windowRing slot = some r)
include hw

/-- ATTACH of a ring that drains is latched. -/
theorem Eng.attachRing_latches (hring : (e.ring r).st = .draining) :
    e.attachRing slot = e.setRing r (fun g => { g with pendAttach := some (slot, KV.get {} (e.pslot slot).wins r) }) := by
  obtain ⟨hst, hr⟩ := Eng.windowRing_some hw
  have hst' : ((e.pslot slot).st == .empty) = false := by simpa using hst
  unfold Eng.attachRing
  simp only [hst', hw, hring, ← hr, Bool.false_eq_true, if_false, beq_self_eq_true, if_true]

/-! ### DETACH and CLEAR_STOP (R73, R74) -/

theorem Eng.detachRing_drains (hring : (e.ring r).st ≠ .draining) : e.detachRing slot =
    ((((e.cmds.filter (fun c => c.ring == r && c.phase == .held && !c.done)).map (·.id)).foldl (fun (e : Eng) id => e.stopCmd id stCancelled)
      (e.setRing r (fun g => { g with st := .draining }))).settleCancels).drainEnd r := by
  have hring' : ((e.ring r).st == .draining) = false := by simpa using hring
  simp only [Eng.detachRing, hw, hring', Bool.false_eq_true, if_false]
  rfl

theorem Eng.clearStop_clears (hring : (e.ring r).st = .stopped) :
    e.clearStop slot = e.setRing r (fun g => { g with st := .attached, tail := g.head }) := by
  simp only [Eng.clearStop, hw, hring, beq_self_eq_true, if_true]

end

/-- The three commands of a ring window, as writes of its command register. -/
theorem State.alert.exec_ringCmd {s : State} (h : s.alert) {slot : Nat} (hslot : slot < 16) (hst : (s.eng.pslot slot).st ≠ .empty)
    {i : Instr} {e : Eng} (hi : (i = .attach slot ∧ s.work.attachRing slot = e) ∨ (i = .detach slot ∧ s.work.detachRing slot = e) ∨
      (i = .clearStop slot ∧ s.work.clearStop slot = e)) : exec i s = .next (s.leaves (e.settle s.hbm)) := by
  have hoff : Reg.pldRingCmd ∈ windowActs := by decide
  have hwrite : ∀ v, v < 2 ^ 32 → s.work.ringCmd slot v = e →
      s.onPower (fun m e => e.mmioWrite m (slotReg slot Reg.pldRingCmd) false v) = .next (s.leaves (e.settle s.hbm)) := fun v hv he => by
    rw [h.windowWrite hoff hslot hst hv, Eng.writeWindow_ringCmd, he]
  rcases hi with ⟨rfl, he⟩ | ⟨rfl, he⟩ | ⟨rfl, he⟩
  · exact (Machine.exec_attach slot s).trans (hwrite 1 (by decide) he)
  · exact (Machine.exec_detach slot s).trans (hwrite 2 (by decide) he)
  · exact (Machine.exec_clearStop slot s).trans (hwrite 4 (by decide) he)

/-! ### COMPLETION_STALL (R66, R89) -/

/-- A ring that has waited for a slot is marked at 100 µs, and told. -/
theorem Eng.cplStall_tells {e : Eng} {r since : Nat} (hst : (e.ring r).st ≠ .detached) (hnew : (e.ring r).stalled = false)
    (hsince : (e.ring r).stallAt = some since) :
    e.cplStall r = ((e.reach (since + 100000)).setRing r (fun g => { g with stalled := true })).raise 0x0516
      (arg5 r (e.ring r).owner ((e.slotOf (e.ring r).owner).getD 0)) (some (e.ring r).owner) 0 := by
  have hst' : ((e.ring r).st == .detached) = false := by simpa using hst
  simp only [Eng.cplStall, hst', hnew, Bool.or_false, Bool.false_eq_true, if_false, hsince]

theorem Eng.cplStall_idle {e : Eng} {r : Nat} (hsince : (e.ring r).stallAt = none) : e.cplStall r = e := by
  simp only [Eng.cplStall, hsince, ite_self]

end Sys2Proof.Machine

open Sys2Proof Sys2Proof.Machine

/-- Settles O21: the three commands of a ring window by the ring's state, then the stall and the narrow doorbell. -/
theorem ringWindowsAttachDetachAndClear : Obligations.RingWindowsAttachDetachAndClear := by
  unfold Obligations.RingWindowsAttachDetachAndClear
  refine ⟨fun s slot p w st halert hslot hp hst hw hring hcheck => ?_, fun s slot r ⟨halert, hslot, hw⟩ => ?_,
    fun s r hon hst hnew => ⟨fun since hsince => ?_, fun hsince => ?_⟩, fun s q off v wide hon h => ?_⟩
  · replace hp : p = s.work.pslot slot := hp
    have hnow := Eng.attachRing_now hp hst hring
    have hst' : (s.eng.pslot slot).st ≠ .empty := by
      rw [hp] at hst
      exact hst
    subst hw
    exact ⟨fun hbad => halert.exec_ringCmd hslot hst' (.inl ⟨rfl, hnow.trans (Eng.attachNow_refused hp hcheck hbad)⟩),
      fun hok => halert.exec_ringCmd hslot hst' (.inl ⟨rfl, hnow.trans (Eng.attachNow_attaches hp hcheck hok)⟩)⟩
  · replace hw : s.work.windowRing slot = some r := hw
    have hst : (s.eng.pslot slot).st ≠ .empty := (Eng.windowRing_some hw).1
    exact ⟨fun hring => halert.exec_ringCmd hslot hst (.inl ⟨rfl, Eng.attachRing_latches hw hring⟩),
      fun hring => halert.exec_ringCmd hslot hst (.inr (.inl ⟨rfl, Eng.detachRing_drains hw hring⟩)),
      fun hring => halert.exec_ringCmd hslot hst (.inr (.inr ⟨rfl, Eng.clearStop_clears hw hring⟩))⟩
  · exact (Machine.exec_completionStall r s).trans (hon.onPower_leaves (Eng.cplStall_tells hst hnew hsince))
  · exact (Machine.exec_completionStall r s).trans (hon.onPower_eng (Eng.cplStall_idle hsince) rfl rfl)
  · exact hon.exec_doorbell (s.work.doorbell_narrow q v hon.1 h)

end

section
/-! SUPPORT. Rings kept in no rising order of their numbers: the round robin serves one of them twice, and another not at all
(R68; log 53). -/

namespace Sys2Proof.Machine

/-! ### One descriptor leaves the other rings alone (R68) -/

/-- Work on ring `r` that leaves the Spool and the other rings as they were. -/
structure Eng.OnlyRing (r : Nat) (e e' : Eng) : Prop where
  spool : e'.spool = e.spool
  others : ∀ k, k ≠ r → e'.ring k = e.ring k

theorem Eng.OnlyRing.of_rings {r : Nat} {e e' : Eng} (hs : e'.spool = e.spool) (hr : e'.rings = e.rings) : e.OnlyRing r e' :=
  ⟨hs, fun k _ => by rw [Eng.ring, hr, Eng.ring]⟩

theorem Eng.OnlyRing.refl (r : Nat) (e : Eng) : e.OnlyRing r e := ⟨rfl, fun _ _ => rfl⟩

theorem Eng.OnlyRing.trans {r : Nat} {e e' e'' : Eng} (h : e.OnlyRing r e') (h' : e'.OnlyRing r e'') : e.OnlyRing r e'' :=
  ⟨h'.spool.trans h.spool, fun k hk => (h'.others k hk).trans (h.others k hk)⟩

theorem Eng.setRing_onlyRing (e : Eng) (r : Nat) (f : Ring → Ring) : e.OnlyRing r (e.setRing r f) :=
  ⟨rfl, fun _ hk => e.setRing_ring_other hk f⟩

theorem Eng.account_onlyRing (e : Eng) (r polder : Nat) (f : Acc → Acc) : e.OnlyRing r (e.account polder f) := by
  unfold Eng.account
  split <;> exact .of_rings rfl rfl

theorem Eng.numberBarrier_onlyRing (e : Eng) (r id : Nat) : e.OnlyRing r (e.numberBarrier id) := by
  unfold Eng.numberBarrier
  split
  · exact .refl r e
  · split <;> exact .of_rings rfl rfl

theorem Eng.markStall_onlyRing (e : Eng) (r : Nat) : e.OnlyRing r (e.markStall r) := by
  unfold Eng.markStall
  extract_lets g waits t
  split
  · exact .refl r e
  · exact e.setRing_onlyRing r _

theorem Eng.headWriteback_onlyRing (e : Eng) (r : Nat) : e.OnlyRing r (e.headWriteback r) := by
  have hwritten := e.setRing_onlyRing r (fun g => { g with headWbAt := g.head })
  exact ⟨hwritten.spool, hwritten.others⟩

theorem Eng.fetchOne_onlyRing (e : Eng) (m : Mem) (r : Nat) : e.OnlyRing r (e.fetchOne m r) := by
  unfold Eng.fetchOne
  extract_lets g size bytes rslot ceil
  split
  next =>
    obtain ⟨d, formOk⟩ := parseDesc g.negMajor bytes
    dsimp -zeta only
    extract_lets capped err isRoute c numbered opened charged advanced g'
    have hlisted : e.OnlyRing r ({ e with cmds := e.cmds ++ [c], nextCmd := e.nextCmd + 1 } : Eng) := .of_rings rfl rfl
    have hnumbered : e.OnlyRing r numbered := hlisted.trans (Eng.numberBarrier_onlyRing _ r _)
    have hopened : numbered.OnlyRing r opened := by
      dsimp only [opened]
      split <;> exact .of_rings rfl rfl
    have hadvanced : e.OnlyRing r advanced :=
      ((hnumbered.trans hopened).trans (Eng.account_onlyRing _ r _ _)).trans (Eng.setRing_onlyRing _ r _)
    refine Eng.OnlyRing.trans ?_ (Eng.markStall_onlyRing _ r)
    split
    · exact hadvanced.trans (Eng.headWriteback_onlyRing _ r)
    · exact hadvanced
  next => exact .refl r e

/-! ### The order in which a queue's rings are served -/

/-- The rings that a round over a queue serves, one descriptor each, in order. -/
def pickOrder : Nat → Option Nat → KV Nat → List Nat
  | 0, _, _ => []
  | n + 1, last, left => match nextRing last left with
    | none => []
    | some r => r :: pickOrder n (some r) (KV.upd 0 left r (· - 1))

/-- A round leaves the Spool alone, and every ring that it does not serve. -/
theorem Eng.decodeRound_keeps (m : Mem) (q n : Nat) (left : KV Nat) (e : Eng) :
    (Eng.decodeRound m q n left e).spool = e.spool ∧
      ∀ k, k ∉ pickOrder n (KV.find e.served q) left → (Eng.decodeRound m q n left e).ring k = e.ring k := by
  induction n generalizing left e with
  | zero => exact ⟨rfl, fun _ _ => rfl⟩
  | succ n ih =>
    unfold Eng.decodeRound pickOrder
    cases nextRing (KV.find e.served q) left with
    | none => exact ⟨rfl, fun _ _ => rfl⟩
    | some r =>
      obtain ⟨hspool, hothers⟩ := e.fetchOne_onlyRing m r
      obtain ⟨hspool', hrings⟩ := ih (KV.upd 0 left r (· - 1)) { e.fetchOne m r with served := KV.put e.served q r }
      refine ⟨hspool'.trans hspool, fun k hk => ?_⟩
      rw [List.mem_cons, not_or] at hk
      refine (hrings k ?_).trans (hothers k hk.1)
      rw [KV.find_put, if_pos rfl]
      exact hk.2

/-- A fetch for an attached ring of a running polder is a round over its queue. -/
theorem Eng.fetchNow_round {e : Eng} {m : Mem} {r k q n : Nat} {l : KV Nat} (hawake : e.awake = true) (hst : e.loader.st = .applied)
    (hslot : e.slotOf (e.ring r).owner = some k) (hrun : (e.pslot k).st = .running) (hatt : (e.ring r).st = .attached)
    (hq : q = (e.ring r).win.queue) (hl : l = e.queueRings q)
    (hn : n = (l.map (·.2)).sum) : e.fetchNow m r = (Eng.decodeRound m q n l e).markBlocked := by
  subst hn hq hl
  simp [Eng.fetchNow, Eng.fetchRing, Eng.patternLoad, hawake, hst, hslot, hrun, hatt]

theorem Eng.markBlocked_ring (e : Eng) (k : Nat) : e.markBlocked.ring k = e.ring k := rfl

theorem Eng.markBlocked_spool (e : Eng) : e.markBlocked.spool = e.spool := rfl

theorem State.leaves_ring (s : State) (e : Eng) (k : Nat) (h : e.spool.corrupt = false) : (s.leaves e).eng.ring k = e.ring k := by
  rw [s.leaves_clean e h]
  rfl

/-! ### Three rings of one queue in falling order -/

/-- A ring of polder 0 that has announced one descriptor. -/
def oneAnnounced : Ring := { st := .attached, tail := 1 }

/-- An engine that works, its Pattern applied and polder 0 running, with such rings under the numbers 3, 2 and 1. -/
def fallingRings : State :=
  { eng := { boot := { powered := true, phase := 3 }, loader := { st := .applied }
             pld := { slots := [{ st := .running }] }
             rings := [(3, oneAnnounced), (2, oneAnnounced), (1, oneAnnounced)] } }

theorem fallingRings_alert : fallingRings.alert := by
  unfold State.alert State.on
  decide

theorem fallingRings_queue : fallingRings.work.queueRings 0 = [(3, 1), (2, 1), (1, 1)] := by decide

/-- Ring 2 is served again where ring 1 is due: once served, it stands twice in the list of what is left. -/
theorem fallingRings_order : pickOrder 3 none [(3, 1), (2, 1), (1, 1)] = [3, 2, 2] := by decide

/-- So the fetch leaves ring 1 where it is. -/
theorem fallingRings_fetch : (fallingRings.leaves (fallingRings.work.fetchNow fallingRings.hbm 3)).eng.ring 1 = oneAnnounced := by
  have hround : fallingRings.work.fetchNow fallingRings.hbm 3 =
      (Eng.decodeRound fallingRings.hbm 0 3 [(3, 1), (2, 1), (1, 1)] fallingRings.work).markBlocked :=
    Eng.fetchNow_round (k := 0) fallingRings_alert.awake rfl (by decide) (by decide) (by decide) (by decide) fallingRings_queue.symm rfl
  obtain ⟨hspool, hrings⟩ := Eng.decodeRound_keeps fallingRings.hbm 0 3 [(3, 1), (2, 1), (1, 1)] fallingRings.work
  have hnot : 1 ∉ pickOrder 3 (KV.find fallingRings.work.served 0) [(3, 1), (2, 1), (1, 1)] := by
    rw [show KV.find fallingRings.work.served 0 = none from rfl, fallingRings_order]
    decide
  rw [hround, State.leaves_ring, Eng.markBlocked_ring, hrings 1 hnot]
  · rfl
  · rw [Eng.markBlocked_spool, hspool]
    rfl

end Sys2Proof.Machine

open Sys2Proof Sys2Proof.Machine

/-- Refutes O19: its hypotheses keep the rings' numbers apart, but do not ask that they rise, as a sparse map's keys do. Over rings
3, 2 and 1 the list of what is left to serve has ring 2 twice once it has been served, so ring 2 is served again and ring 1 keeps
its HEAD. -/
theorem not_fetchTakesAnnouncedDescriptors : ¬ Obligations.FetchTakesAnnouncedDescriptors := by
  unfold Obligations.FetchTakesAnnouncedDescriptors
  intro h
  obtain ⟨t, ht, hserved, -⟩ := h fallingRings 3 [(3, 1), (2, 1), (1, 1)] fallingRings_alert rfl rfl ⟨0, by decide⟩ (by decide) (by decide)
    fallingRings_queue.symm
  obtain rfl := Host.Outcome.next.inj (ht.symm.trans ((exec_descriptorFetch 3 fallingRings).trans (fallingRings_alert.1.onPower _)))
  obtain ⟨-, hhead, -⟩ := hserved 1 1 (by decide)
  rw [fallingRings_fetch] at hhead
  exact absurd hhead (by decide)

end

section
/-! SUPPORT. NOP, FENCE and CANCEL: what each does once it has started or is fetched (R82, R83, R85, R86). -/

namespace Sys2Proof.Machine

/-! ### NOP and FENCE (R83, R86) -/

theorem State.runs.exec_nop {s : State} {r idx : Nat} {c : Cmd} (h : s.runs r idx opNop c) :
    exec (.nop r idx) s = .next (s.leaves ((s.run c).complete c.id stOk)) :=
  (Machine.exec_nop r idx s).trans (h.1.onPower_leaves (h.runCmd _))

theorem State.runs.exec_fence {s : State} {r idx : Nat} {c : Cmd} (h : s.runs r idx opFence c) :
    exec (.fence r idx) s = .next (s.leaves (s.run c).settleFences) :=
  (Machine.exec_fence r idx s).trans (h.1.onPower_leaves (h.runCmd _))

/-- What a test sees of no command that a change makes, holds of all commands after the change as before. -/
theorem all_updFirst {α : Type} {p q : α → Bool} {f : α → α} (hf : ∀ x, q (f x) = q x) (l : List α) :
    (updFirst p f l).all q = l.all q := by
  induction l with
  | nil => rfl
  | cons x l ih =>
    unfold updFirst
    split
    · simp only [List.all_cons, hf]
    · simp only [List.all_cons, ih]

/-- A FENCE under way is met where nothing before it in its ring, or in its polder, is left open. -/
theorem Eng.fenceMet_iff {e : Eng} {c : Cmd} (hop : c.d.opcode = opFence) (hphase : c.phase = .running) (hopen : c.done = false) :
    e.fenceMet c = true ↔ ∀ x ∈ e.cmds, x.id < c.id → x.done = false →
      (c.d.scope = 0 → x.ring ≠ c.ring) ∧ (c.d.scope ≠ 0 → x.polder ≠ c.polder) := by
  simp only [Eng.fenceMet, hop, hphase, hopen, beq_self_eq_true, Bool.not_false, Bool.and_self, Bool.true_and, List.all_eq_true]
  refine forall₂_congr (fun x _ => ?_)
  by_cases hs : c.d.scope = 0 <;> cases hd : x.done <;> simp [hs, imp_iff_not_or]

/-- A command that starts to run is as open, and stands where it stood. -/
theorem State.run_fenceMet (s : State) (c x : Cmd) : (s.run c).fenceMet x = s.work.fenceMet x := by
  unfold Eng.fenceMet
  congr 1
  refine all_updFirst (p := fun x => x.id == c.id) (f := fun x => { x with phase := .running }) ?_ s.work.cmds
  exact fun _ => rfl

/-! ### CANCEL (R85) -/

/-- Commands of the given slots that a CANCEL finds before it, not yet ended. -/
def Eng.cancelIds (c : Cmd) (slots : List Nat) (e : Eng) : List Nat :=
  (e.cmds.filter (fun x => x.polder == c.polder && x.id < c.id && !x.done && cancellable x.d.opcode && slots.contains x.d.slot)).map (·.id)

/-- A command fetched after a CANCEL takes its slot's new epoch. -/
def Cmd.reepoch (e : Eng) (c : Cmd) (slots : List Nat) (x : Cmd) : Cmd :=
  if x.polder == c.polder && x.id > c.id && slots.contains x.d.slot then { x with epoch := (e.lslot x.d.slot).epoch } else x

/-- A new epoch takes no command from those that a CANCEL ends. -/
theorem Eng.cancelIds_reepoch (e : Eng) (c : Cmd) (slots : List Nat) :
    Eng.cancelIds c slots { e with cmds := e.cmds.map (Cmd.reepoch e c slots) } = e.cancelIds c slots := by
  have hkept : ∀ x : Cmd, (Cmd.reepoch e c slots x).polder = x.polder ∧ (Cmd.reepoch e c slots x).id = x.id ∧
      (Cmd.reepoch e c slots x).done = x.done ∧ (Cmd.reepoch e c slots x).d = x.d := fun x => by
    unfold Cmd.reepoch
    split <;> exact ⟨rfl, rfl, rfl, rfl⟩
  simp only [Eng.cancelIds, List.filter_map, List.map_map]
  refine (List.map_congr_left (fun x _ => (hkept x).2.1)).trans (congrArg (List.map (fun x : Cmd => x.id)) (List.filter_congr (fun x _ => ?_)))
  obtain ⟨hpolder, hid, hdone, hd⟩ := hkept x
  simp only [Function.comp_apply, hpolder, hid, hdone, hd]

theorem Eng.nextEpochs_time (slots : List Nat) (e : Eng) : (slots.foldl (fun (e : Eng) s => e.nextEpoch s) e).time = e.time :=
  List.foldlRecOn (motive := fun e' : Eng => e'.time = e.time) slots _ rfl (fun _ h _ _ => h)

/-- A CANCEL that validation passed ends its slots' earlier commands. -/
theorem Eng.cancelNow_eq {e e' : Eng} {m : Mem} {c : Cmd} {slots ids : List Nat} (herr : c.err = none)
    (hslots : slots = if c.d.scope = 0 then [c.d.slot] else e.polderSlots c.polder)
    (he : e' = slots.foldl (fun (e : Eng) s => e.nextEpoch s) e) (hids : ids = e'.cancelIds c slots) :
    e.cancelNow m c = ((ids.foldl (fun (e : Eng) id => e.stopCmd id stCancelled)
      (({ e' with cmds := e'.cmds.map (Cmd.reepoch e' c slots) } : Eng).setCmd c.id (fun x =>
        { x with phase := .running, cancels := ids, startNs := e.time.ns }))).settleCancels).settle m := by
  have htime : e'.time = e.time := he ▸ Eng.nextEpochs_time slots e
  rw [← Eng.cancelIds_reepoch] at hids
  rw [← htime, hids, he, hslots, Eng.cancelNow, herr]
  rfl

end Sys2Proof.Machine

open Sys2Proof Sys2Proof.Machine

/-- Settles O23: NOP and FENCE by what their start leads to, CANCEL by the commands it finds before it. -/
theorem nopFenceAndCancelComplete : Obligations.NopFenceAndCancelComplete := by
  unfold Obligations.NopFenceAndCancelComplete
  refine ⟨fun s r idx c h => h.exec_nop, fun s r idx c h => ⟨h.exec_fence, ?_⟩,
    fun s r idx c slots hon hat hphase herr hruns hrec hslots => ?_⟩
  · obtain ⟨hop, hopen⟩ := Eng.cmdAt_open h.2.1
    rw [s.run_fenceMet]
    exact (Eng.fenceMet_iff (e := s.work) (c := { c with phase := .running }) hop rfl hopen).symm
  · refine ⟨_, _, rfl, rfl, (exec_cancel r idx s).trans (hon.onPower_leaves ?_)⟩
    have hat' : s.work.cmdAt r idx opCancel = some c := hat
    have hacts : (c.phase == .held && !c.done && s.work.polderRuns c.polder && s.work.flt.recovery != some .compute) = true := by
      have hruns' : s.work.polderRuns c.polder = true := hruns
      have hrec' : s.work.flt.recovery ≠ some .compute := hrec
      simp [hphase, (Eng.cmdAt_open hat).2, hruns', hrec']
    simp only [hat', hacts, if_true]
    exact Eng.cancelNow_eq herr hslots rfl rfl

end

section
/-! SUPPORT. The end of a command: what its accounts and a combine's releases leave alone, and the record it queues (R64, R66, R86). -/

namespace Sys2Proof.Machine

/-! ### Accounts (R318, R319, R384) -/

/-- All that accounting changes: the units' channels and counters, the gauges, and what is kept for each polder and layer slot. -/
structure Eng.Accounts (e e' : Eng) : Prop where
  rest : e' = { e with
    chans := e'.chans, freeCtr := e'.freeCtr, regs := e'.regs, pld := e'.pld, gauges := e'.gauges, lslots := e'.lslots }

theorem Eng.Accounts.refl (e : Eng) : e.Accounts e := ⟨rfl⟩

theorem Eng.Accounts.trans {e e' e'' : Eng} (h : e.Accounts e') (h' : e'.Accounts e'') : e.Accounts e'' := by
  refine ⟨h'.rest.trans ?_⟩
  rw [h.rest]

section
variable {e e' : Eng} (h : e.Accounts e')
include h

theorem Eng.Accounts.cmds : e'.cmds = e.cmds := by rw [h.rest]
theorem Eng.Accounts.wlog : e'.wlog = e.wlog := by rw [h.rest]
theorem Eng.Accounts.wq : e'.wq = e.wq := by rw [h.rest]
theorem Eng.Accounts.rings : e'.rings = e.rings := by rw [h.rest]
theorem Eng.Accounts.works : e'.works = e.works := by rw [h.rest]
theorem Eng.Accounts.slotCfg : e'.slotCfg = e.slotCfg := by rw [h.rest]

end

theorem Eng.account_accounts (e : Eng) (polder : Nat) (f : Acc → Acc) : e.Accounts (e.account polder f) := by
  unfold Eng.account
  split <;> exact ⟨rfl⟩

theorem Eng.accHbm_accounts (e : Eng) (polder n : Nat) : e.Accounts (e.accHbm polder n) := e.account_accounts _ _

theorem Eng.accTime_accounts (e : Eng) (polder : Nat) : e.Accounts (e.accTime polder) := by
  have hfree : e.Accounts e.free.2.free.2 := ⟨rfl⟩
  refine (hfree.trans (Eng.account_accounts _ polder (fun a => { a with time := (a.time + e.free.1.toNat) % 2 ^ 64 }))).trans ?_
  exact ⟨rfl⟩

theorem Eng.closeAccounts_accounts (e : Eng) (c : Cmd) : e.Accounts (e.closeAccounts c) := by
  unfold Eng.closeAccounts
  extract_lets freed booked
  have hfreed : e.Accounts freed := by
    dsimp only [freed]
    split <;> exact ⟨rfl⟩
  have hbooked : freed.Accounts booked := by
    dsimp only [booked]
    split
    · exact freed.account_accounts _ _
    · exact .refl _
  split
  · exact (hfreed.trans hbooked).trans (booked.accTime_accounts _)
  · exact hfreed.trans hbooked

/-! ### What a combine releases (R204) -/

/-- All that releasing changes: buffers with their table in HBM, registers, host roles, and the steps' works. -/
structure Eng.Releases (e e' : Eng) : Prop where
  rest : e' = { e with bob := e'.bob, regs := e'.regs, wlog := e'.wlog, roles := e'.roles, works := e'.works }
  wlog : e.wlog <:+ e'.wlog

theorem Eng.Releases.refl (e : Eng) : e.Releases e := ⟨rfl, List.suffix_refl _⟩

theorem Eng.Releases.trans {e e' e'' : Eng} (h : e.Releases e') (h' : e'.Releases e'') : e.Releases e'' := by
  refine ⟨h'.rest.trans ?_, h.wlog.trans h'.wlog⟩
  rw [h.rest]

section
variable {e e' : Eng} (h : e.Releases e')
include h

theorem Eng.Releases.cmds : e'.cmds = e.cmds := by rw [h.rest]
theorem Eng.Releases.wq : e'.wq = e.wq := by rw [h.rest]
theorem Eng.Releases.rings : e'.rings = e.rings := by rw [h.rest]

end

theorem Eng.GivesBack.releases {e e' : Eng} (h : e.GivesBack e') (hworks : e'.works = e.works) : e.Releases e' := by
  obtain ⟨l, hl, -⟩ := h.wlog
  refine ⟨?_, l, hl.symm⟩
  rw [hworks]
  exact h.rest

theorem Eng.engDecAll_givesBack (e : Eng) (l : List Buf) : e.GivesBack (e.engDecAll l) := .foldl Eng.engDec_givesBack l e

theorem Eng.engDecAll_works (e : Eng) (l : List Buf) : (e.engDecAll l).works = e.works := by
  rw [(e.engDecAll_givesBack l).rest]

theorem Eng.engDecAll_releases (e : Eng) (l : List Buf) : e.Releases (e.engDecAll l) := (e.engDecAll_givesBack l).releases (e.engDecAll_works l)

theorem Eng.setWork_releases (e : Eng) (cmd : Nat) (f : RouteWork → RouteWork) : e.Releases (e.setWork cmd f) := ⟨rfl, List.suffix_refl _⟩

theorem Eng.releaseArea_releases (e : Eng) (cmd : Nat) (bwd : Bool) : e.Releases (e.releaseArea cmd bwd) := by
  unfold Eng.releaseArea
  split
  · exact .refl e
  · exact (e.engDecAll_releases _).trans (Eng.setWork_releases _ _ _)

theorem Eng.releaseSaved_releases (e : Eng) (cmd : Nat) : e.Releases (e.releaseSaved cmd) := by
  unfold Eng.releaseSaved
  split
  · exact .refl e
  · exact (e.engDecAll_releases _).trans (Eng.setWork_releases _ _ _)

theorem Eng.combineEnds_releases (e : Eng) (c : Cmd) : e.Releases (e.combineEnds c) := by
  unfold Eng.combineEnds
  split
  · exact .refl e
  · split
    · split
      · exact .refl e
      · refine Eng.Releases.trans ?_ (Eng.setWork_releases _ _ _)
        split
        · exact .refl e
        · exact e.releaseArea_releases _ _
    · split
      · exact .refl e
      · exact ((e.releaseArea_releases _ _).trans (Eng.releaseSaved_releases _ _)).trans (Eng.setWork_releases _ _ _)

/-! ### What ends with a command before its record -/

section
variable (e : Eng) (id status : Nat) (c : Cmd)

theorem Eng.bookEnd_cmds : (e.bookEnd id status c).cmds = (e.setCmd id (Cmd.ended status e.now)).cmds := by
  have hclosed := Eng.closeAccounts_accounts (e.setCmd id (Cmd.ended status e.now)) c
  unfold Eng.bookEnd
  dsimp only
  split
  · exact (Eng.combineEnds_releases _ c).cmds.trans hclosed.cmds
  · exact hclosed.cmds

theorem Eng.bookEnd_wq : (e.bookEnd id status c).wq = e.wq := by
  have hclosed := Eng.closeAccounts_accounts (e.setCmd id (Cmd.ended status e.now)) c
  unfold Eng.bookEnd
  dsimp only
  split
  · exact (Eng.combineEnds_releases _ c).wq.trans hclosed.wq
  · exact hclosed.wq

theorem Eng.bookEnd_rings : (e.bookEnd id status c).rings = e.rings := by
  have hclosed := Eng.closeAccounts_accounts (e.setCmd id (Cmd.ended status e.now)) c
  unfold Eng.bookEnd
  dsimp only
  split
  · exact (Eng.combineEnds_releases _ c).rings.trans hclosed.rings
  · exact hclosed.rings

theorem Eng.bookEnd_cmd? {e : Eng} {id : Nat} {c : Cmd} (hc : e.cmd? id = some c) :
    (e.bookEnd id status c).cmd? id = some (c.ended status e.now) := by
  rw [Eng.cmd?, Eng.bookEnd_cmds]
  exact e.setCmd_cmd?_same (fun _ => rfl) hc

end

/-! ### The record (R64, R66) -/

/-- Where the next completion record of a ring goes. -/
def Eng.recordAddr (e : Eng) (r : Nat) : Nat :=
  (e.ring r).win.cplBase + ((e.ring r).ctail + e.cplQueued r) % 2 ^ 32 % 2 ^ (e.ring r).win.cplLog * 32

theorem Eng.ring_congr {e e' : Eng} (h : e'.rings = e.rings) (r : Nat) : e'.ring r = e.ring r := by
  rw [Eng.ring, h, Eng.ring]

theorem Eng.cplQueued_congr {e e' : Eng} (h : e'.wq = e.wq) (r : Nat) : e'.cplQueued r = e.cplQueued r := by
  rw [Eng.cplQueued, h, Eng.cplQueued]

theorem Eng.recordAddr_congr {e e' : Eng} (hrings : e'.rings = e.rings) (hwq : e'.wq = e.wq) (r : Nat) :
    e'.recordAddr r = e.recordAddr r := by
  rw [Eng.recordAddr, Eng.ring_congr hrings, Eng.cplQueued_congr hwq, Eng.recordAddr]

theorem length_completionBytes (c : Cmd) (askuc : Bool) (now : Nat) : (completionBytes c askuc now).length = 32 := by
  simp only [completionBytes, List.length_append, length_leBytes]

/-- A command's record is queued, and the command gives up its slot for it. -/
theorem Eng.pushRecord_queues (e : Eng) {id : Nat} {c : Cmd} (hc : e.cmd? id = some c) :
    ∃ bytes, bytes.length = 32 ∧ e.pushRecord id =
      (e.setCmd id (Cmd.withSlot false true)).queueRec (.completion c.ring id c.d.irq) (e.recordAddr c.ring) bytes := by
  refine ⟨_, length_completionBytes c (namesSlot c.d.opcode c.d.scope && e.askuc c.d.slot) e.now, ?_⟩
  simp only [Eng.pushRecord, hc]
  rfl

/-- Noting a stall touches the rings alone. -/
theorem Eng.markStall_rest (e : Eng) (r : Nat) : e.markStall r = { e with rings := (e.markStall r).rings } := by
  unfold Eng.markStall
  extract_lets g waits t
  split <;> rfl

theorem Eng.markStall_cmds (e : Eng) (r : Nat) : (e.markStall r).cmds = e.cmds := by rw [e.markStall_rest]

theorem Eng.markStall_wq (e : Eng) (r : Nat) : (e.markStall r).wq = e.wq := by rw [e.markStall_rest]

/-- Rings after a stall has been noted are those before, but for since when they wait. -/
theorem Eng.markStall_ring_but {e e' : Eng} (h : e'.rings = e.rings) (r k : Nat) :
    { (e'.markStall r).ring k with stallAt := none } = { e.ring k with stallAt := none } := by
  obtain ⟨t, ht⟩ := e'.markStall_ring r k
  rw [ht, Eng.ring_congr h]
  rfl

/-- A change of one element that a test does not see leaves those outside the test as they were. -/
theorem filter_updFirst_out {α : Type} {p q : α → Bool} {f : α → α} (hp : ∀ x, p x = true → q x = false) (hf : ∀ x, q (f x) = q x)
    (l : List α) : (updFirst p f l).filter q = l.filter q := by
  induction l with
  | nil => rfl
  | cons x l ih =>
    unfold updFirst
    split
    next hx => simp [hf, hp x hx]
    next => simp [List.filter_cons, ih]

theorem Eng.setCmd_others (e : Eng) (id : Nat) {f : Cmd → Cmd} (hf : ∀ x, (f x).id = x.id) :
    (e.setCmd id f).cmds.filter (fun x => x.id != id) = e.cmds.filter (fun x => x.id != id) :=
  filter_updFirst_out (fun x hx => by simpa using hx) (fun x => by rw [hf]) e.cmds

/-- A command that holds a completion slot ends with its record queued. -/
theorem Eng.completeOne_queues (e : Eng) {id : Nat} {c : Cmd} (status : Nat) (hc : e.cmd? id = some c) (hopen : c.done = false)
    (hheld : c.slotHeld = true) :
    ∃ bytes, bytes.length = 32 ∧ e.completeOne id status = (((e.bookEnd id status c).setCmd id (Cmd.withSlot false true)).queueRec
      (.completion c.ring id c.d.irq) (e.recordAddr c.ring) bytes).markStall c.ring := by
  obtain ⟨bytes, hlen, hpushed⟩ := (e.bookEnd id status c).pushRecord_queues (Eng.bookEnd_cmd? status hc)
  refine ⟨bytes, hlen, ?_⟩
  rw [e.completeOne_books status hc hopen, if_pos hheld, hpushed,
    Eng.recordAddr_congr (e.bookEnd_rings id status c) (e.bookEnd_wq id status c)]
  rfl

/-! ### No slot free (R66) -/

theorem Eng.serveSlot_of_full {e : Eng} {r : Nat} (h : e.cplFree r = 0) (c : Cmd) : Eng.serveSlot r e c = e :=
  if_neg (by rw [h]; decide)

theorem Eng.serveSlots_of_full {e : Eng} {r : Nat} (h : e.cplFree r = 0) : e.serveSlots r = e :=
  List.foldlRecOn (motive := fun e' => e' = e) _ (Eng.serveSlot r) rfl (fun e' he' c _ => by
    rw [he', Eng.serveSlot_of_full h])

theorem length_filter_updFirst {α : Type} {p q : α → Bool} {f : α → α} (hf : ∀ x, q (f x) = q x) (l : List α) :
    ((updFirst p f l).filter q).length = (l.filter q).length := by
  induction l with
  | nil => rfl
  | cons x l ih =>
    unfold updFirst
    split
    · simp only [List.filter_cons, hf]
      split <;> rfl
    · simp only [List.filter_cons]
      split
      · rw [List.length_cons, ih, List.length_cons]
      · exact ih

theorem Eng.bookEnd_cplFree (e : Eng) (id status : Nat) (c : Cmd) (r : Nat) : (e.bookEnd id status c).cplFree r = e.cplFree r := by
  have hheld : ((e.bookEnd id status c).cmds.filter (fun c => c.ring == r && c.slotHeld)).length =
      (e.cmds.filter (fun c => c.ring == r && c.slotHeld)).length := by
    rw [Eng.bookEnd_cmds]
    refine length_filter_updFirst (p := fun x => x.id == id) (f := Cmd.ended status e.now) ?_ e.cmds
    exact fun _ => rfl
  simp only [Eng.cplFree, hheld, Eng.ring_congr (e.bookEnd_rings id status c), Eng.cplQueued_congr (e.bookEnd_wq id status c)]

/-- A command that ends without a slot, on a ring that has none free, queues nothing yet. -/
theorem Eng.completeOne_waits (e : Eng) {id : Nat} {c : Cmd} (status : Nat) (hc : e.cmd? id = some c) (hopen : c.done = false)
    (hheld : c.slotHeld = false) (hfull : e.cplFree c.ring = 0) : e.completeOne id status = (e.bookEnd id status c).markStall c.ring := by
  rw [e.completeOne_books status hc hopen, if_neg (by simp [hheld]), Eng.serveSlots_of_full ((e.bookEnd_cplFree id status c _).trans hfull)]

end Sys2Proof.Machine

open Sys2Proof Sys2Proof.Machine

/-- Settles O24: the books of the end leave the rings, the queue and the other commands alone, so the record stands where the
ring's next one goes. -/
theorem everyEndQueuesOneRecord : Obligations.EveryEndQueuesOneRecord := by
  unfold Obligations.EveryEndQueuesOneRecord
  refine ⟨fun e id st c hc hopen hheld => ?_, fun e id st c hc hdone => e.completeOne_of_done st hc hdone, fun e id st c hc hheld hfull => ?_⟩
  · obtain ⟨bytes, hlen, hend⟩ := e.completeOne_queues st hc hopen hheld
    refine ⟨⟨.completion c.ring id c.d.irq, e.recordAddr c.ring, bytes⟩, ?_, rfl, hlen, rfl,
      ⟨(c.ended st e.now).withSlot false true, ?_, rfl, rfl, rfl, rfl, rfl⟩, ?_, fun k => ?_, fun hop hop' => ?_⟩
    · rw [hend, Eng.markStall_wq]
      exact congrArg (· ++ _) (e.bookEnd_wq id st c)
    · rw [hend, Eng.cmd?, Eng.markStall_cmds]
      exact Eng.setCmd_cmd?_same _ (fun _ => rfl) (Eng.bookEnd_cmd? st hc)
    · rw [hend, Eng.markStall_cmds]
      have hpushed := (e.bookEnd id st c).setCmd_others id (f := Cmd.withSlot false true) (fun _ => rfl)
      have hended := e.setCmd_others id (f := Cmd.ended st e.now) (fun _ => rfl)
      rw [← Eng.bookEnd_cmds e id st c] at hended
      exact hpushed.trans hended
    · have hrings : (((e.bookEnd id st c).setCmd id (Cmd.withSlot false true)).queueRec
          (.completion c.ring id c.d.irq) (e.recordAddr c.ring) bytes).rings = e.rings := by
        rw [Eng.queueRec_rings, Eng.setCmd_rings, Eng.bookEnd_rings]
      rw [hend]
      exact Eng.markStall_ring_but hrings c.ring k
    · exact (e.completeOne_ends st hc hopen (by simp [hop, hop'])).wlog
  · cases hdone : c.done with
    | true => rw [e.completeOne_of_done st hc hdone]
    | false => rw [e.completeOne_waits st hc hdone hheld hfull, Eng.markStall_wq, Eng.bookEnd_wq]

end

section
/-! SUPPORT. COMBINE and COMBINE_BWD: the checks of their start, and the end of a combine whose tokens are ready (R79, R204, R212, R218). -/

namespace Sys2Proof.Machine

/-! ### The start of a combine (R79, R212, R218; log 56, DESIGN CHOICE) -/

theorem State.runs.exec_combine {s : State} {r idx : Nat} {c : Cmd} (h : s.runs r idx opCombine c) {e : Eng}
    (he : (s.run c).combineNow s.hbm c = e) : exec (.combine r idx) s = .next (s.leaves (e.settle s.hbm)) :=
  (Machine.exec_combine r idx s).trans (h.1.onPower_leaves ((h.runCmd _).trans (congrArg (Eng.settle s.hbm) he)))

theorem State.runs.exec_combineBwd {s : State} {r idx : Nat} {c : Cmd} (h : s.runs r idx opCombineBwd c) {e : Eng}
    (he : (s.run c).combineBwdNow s.hbm c = e) : exec (.combineBwd r idx) s = .next (s.leaves (e.settle s.hbm)) :=
  (Machine.exec_combineBwd r idx s).trans (h.1.onPower_leaves ((h.runCmd _).trans (congrArg (Eng.settle s.hbm) he)))

/-- Another command, not yet ended, combines an area. -/
def Eng.combining (e : Eng) (cmd : Option Nat) : Bool := (cmd.bind e.cmd?).any (fun x => !x.done)

theorem Eng.combining_iff (e : Eng) (cmd : Option Nat) : e.combining cmd = true ↔ ∃ x, cmd.bind e.cmd? = some x ∧ x.done = false := by
  simp [Eng.combining, Option.any_eq_true]

/-- The start of a command ends none. -/
theorem State.run_combining (s : State) (c : Cmd) (cmd : Option Nat) : (s.run c).combining cmd = s.eng.combining cmd := by
  cases cmd with
  | none => rfl
  | some k =>
    have hrun : (s.run c).cmd? k = if k = c.id then (s.eng.cmd? c.id).map (fun x => { x with phase := .running }) else s.eng.cmd? k :=
      s.work.setCmd_cmd? c.id k (fun _ => rfl)
    simp only [Eng.combining, Option.bind_some, hrun]
    split
    next hk =>
      rw [hk]
      cases s.eng.cmd? c.id <;> rfl
    next => rfl

theorem State.run_notCombining (s : State) (c : Cmd) {cmd : Option Nat} (h : ∀ x, cmd.bind s.eng.cmd? = some x → x.done = true) :
    (s.run c).combining cmd = false := by
  rw [s.run_combining, ← Bool.not_eq_true, Eng.combining_iff]
  rintro ⟨x, hx, hopen⟩
  cases hopen.symm.trans (h x hx)

section
variable (e : Eng) {m : Mem} {c : Cmd} {w : RouteWork}

theorem Eng.combineNow_unrouted (h : e.workOf c.polder c.d.slot c.d.step = none) : e.combineNow m c = e.complete c.id stBad := by
  simp only [Eng.combineNow, h]

theorem Eng.combineBwdNow_unrouted (h : e.workOf c.polder c.d.slot c.d.step = none) : e.combineBwdNow m c = e.complete c.id stBad := by
  simp only [Eng.combineBwdNow, h]

variable (hw : e.workOf c.polder c.d.slot c.d.step = some w)
include hw

theorem Eng.combineNow_refused (h : e.recordMatches m c.d.b c = false ∨ w.area.live = false ∨ e.combining w.combineCmd = true) :
    e.combineNow m c = e.complete c.id stBad := by
  simp only [Eng.combineNow, hw]
  refine if_pos ?_
  obtain h | h | h := h
  · simp [h]
  · simp [h]
  · exact Bool.or_eq_true_iff.2 (.inr h)

theorem Eng.combineNow_taken (hrecord : e.recordMatches m c.d.b c = true) (hlive : w.area.live = true) (hfree : e.combining w.combineCmd = false) :
    e.combineNow m c = ((e.setWork w.cmd (fun w => { w with combineCmd := some c.id })).setCmd c.id (fun x =>
      { x with detm := w.detm })).accHbm c.polder 64 := by
  rw [Eng.combining] at hfree
  simp [Eng.combineNow, hw, hrecord, hlive, hfree]

theorem Eng.combineBwdNow_refused (h : e.recordMatches m c.d.b c = false ∨ w.bwdArea.live = false ∨ w.superseded = true ∨
    e.combining w.bwdCombineCmd = true) : e.combineBwdNow m c = e.complete c.id stBad := by
  simp only [Eng.combineBwdNow, hw]
  refine if_pos ?_
  obtain h | h | h | h := h
  · simp [h]
  · simp [h]
  · simp [h]
  · exact Bool.or_eq_true_iff.2 (.inr h)

section
variable (hrecord : e.recordMatches m c.d.b c = true) (hlive : w.bwdArea.live = true) (hcurrent : w.superseded = false)
  (hfree : e.combining w.bwdCombineCmd = false)
include hrecord hlive hcurrent hfree

theorem Eng.combineBwdNow_fault {e' : Eng} (h : e.imageCheck m c = .fault e') :
    e.combineBwdNow m c = e'.tearDown c.polder 0x0630 c.d.tag (some c.id) := by
  rw [Eng.combining] at hfree
  simp [Eng.combineBwdNow, hw, hrecord, hlive, hcurrent, hfree, h]

theorem Eng.combineBwdNow_fail {e' : Eng} {st : Nat} (h : e.imageCheck m c = .fail st e') : e.combineBwdNow m c = e'.complete c.id st := by
  rw [Eng.combining] at hfree
  simp [Eng.combineBwdNow, hw, hrecord, hlive, hcurrent, hfree, h]

theorem Eng.combineBwdNow_ok {e' : Eng} (h : e.imageCheck m c = .ok e') :
    e.combineBwdNow m c = if (e'.lslot c.d.slot).wgen ≠ w.wgen then e'.complete c.id stBad
      else ((e'.setWork w.cmd (fun w => { w with bwdCombineCmd := some c.id })).setCmd c.id (fun c => { c with detm := w.bwdDetm })).accHbm c.polder 64 := by
  rw [Eng.combining] at hfree
  simp [Eng.combineBwdNow, hw, hrecord, hlive, hcurrent, hfree, h]

end

end

/-! ### A step's work, by its command and by its step -/

/-- Where two searches find the same element, a change of it for the one is found by the other. -/
theorem find?_updFirst_found {α : Type} {p q : α → Bool} {f : α → α} {l : List α} {x : α} (hp : l.find? p = some x)
    (hq : l.find? q = some x) (hf : q (f x) = true) : (updFirst p f l).find? q = some (f x) := by
  induction l with
  | nil => cases hp
  | cons y l ih =>
    unfold updFirst
    by_cases hy : p y = true
    · rw [List.find?_cons_of_pos hy] at hp
      cases hp
      rw [if_pos hy, List.find?_cons_of_pos hf]
    · rw [List.find?_cons_of_neg hy] at hp
      have hqy : ¬ q y = true := fun hqy => by
        rw [List.find?_cons_of_pos hqy] at hq
        cases hq
        exact hy (List.find?_some hp)
      rw [List.find?_cons_of_neg hqy] at hq
      rw [if_neg hy, List.find?_cons_of_neg hqy]
      exact ih hp hq

theorem Eng.workById_cmd {e : Eng} {cmd : Nat} {w : RouteWork} (h : e.workById cmd = some w) : w.cmd = cmd := by
  simpa using List.find?_some h

theorem Eng.workById_congr {e e' : Eng} (h : e'.works = e.works) (cmd : Nat) : e'.workById cmd = e.workById cmd := by
  rw [Eng.workById, h, Eng.workById]

theorem Eng.workOf_congr {e e' : Eng} (h : e'.works = e.works) (polder slot step : Nat) :
    e'.workOf polder slot step = e.workOf polder slot step := by
  rw [Eng.workOf, h, Eng.workOf]

theorem Eng.setWork_workById {e : Eng} {cmd : Nat} {w : RouteWork} {f : RouteWork → RouteWork} (h : e.workById cmd = some w)
    (hf : (f w).cmd = w.cmd) : (e.setWork cmd f).workById cmd = some (f w) := by
  have hfound : e.works.find? (fun x => x.cmd == cmd) = some w := h
  refine find?_updFirst_found hfound hfound ?_
  simp [hf, Eng.workById_cmd h]

theorem Eng.setWork_workOf {e : Eng} {cmd polder slot step : Nat} {w : RouteWork} {f : RouteWork → RouteWork}
    (h : e.workById cmd = some w) (hof : e.workOf polder slot step = some w)
    (hf : (f w).polder = w.polder ∧ (f w).slot = w.slot ∧ (f w).step = w.step) :
    (e.setWork cmd f).workOf polder slot step = some (f w) := by
  obtain ⟨hpolder, hslot, hstep⟩ := hf
  have hbyId : e.works.find? (fun x => x.cmd == cmd) = some w := h
  have hbyStep : e.works.find? (fun x => x.polder == polder && x.slot == slot && x.step == step) = some w := hof
  refine find?_updFirst_found hbyId hbyStep ?_
  simpa [hpolder, hslot, hstep] using List.find?_some hbyStep

/-! ### What a COMBINE's end releases (R204) -/

/-- A forward area given back. -/
def RouteWork.areaGone (w : RouteWork) : RouteWork :=
  w.setArea false (fun a => { a with live := false, bufs := [], bits := [], stageBufs := [], acc := [], stage := [], streams := [] })

theorem Eng.releaseArea_workById {e : Eng} {cmd : Nat} {w : RouteWork} (h : e.workById cmd = some w) :
    (e.releaseArea cmd false).workById cmd = some w.areaGone := by
  simp only [Eng.releaseArea, h]
  exact Eng.setWork_workById ((Eng.workById_congr (e.engDecAll_works _) cmd).trans h) rfl

/-- A COMBINE that ends gives its area back, and its step is done. -/
theorem Eng.combineEnds_workById {e : Eng} {c : Cmd} {w : RouteWork} {cmd : Nat} (h : e.workById cmd = some w)
    (hof : e.workOf c.polder c.d.slot c.d.step = some w) (hop : c.d.opcode = opCombine) (hcmd : w.combineCmd = some c.id)
    (herr : c.err = none) : (e.combineEnds c).workById cmd = some { w.areaGone with done := true } := by
  obtain rfl := Eng.workById_cmd h
  simp only [Eng.combineEnds, hof, hop, hcmd, herr, if_true, Option.any_some, bne_self_eq_false, Bool.false_eq_true, if_false,
    Option.isSome_none]
  exact Eng.setWork_workById (Eng.releaseArea_workById h) rfl

/-! ### What the rest of an end leaves of the works and the writes -/

theorem Eng.pushRecord_works (e : Eng) (id : Nat) : (e.pushRecord id).works = e.works := by
  unfold Eng.pushRecord
  split <;> rfl

theorem Eng.foldl_works {α : Type} {f : Eng → α → Eng} (hf : ∀ (e : Eng) x, (f e x).works = e.works) (l : List α) (e : Eng) :
    (l.foldl f e).works = e.works :=
  List.foldlRecOn (motive := fun e' => e'.works = e.works) l f rfl (fun e' h x _ => (hf e' x).trans h)

theorem Eng.serveSlots_works (e : Eng) (r : Nat) : (e.serveSlots r).works = e.works := by
  have hserve : e.serveSlots r = (e.cmds.filter (fun c => c.ring == r && c.done && !c.slotHeld && !c.recorded)).foldl (Eng.serveSlot r) e := rfl
  rw [hserve, Eng.foldl_works]
  intro e c
  unfold Eng.serveSlot
  split
  · exact e.pushRecord_works c.id
  · rfl

theorem Eng.markStall_works (e : Eng) (r : Nat) : (e.markStall r).works = e.works := by rw [e.markStall_rest]

/-- The record comes last: it changes no work. -/
theorem Eng.completeOne_works (e : Eng) {id : Nat} {c : Cmd} (status : Nat) (hc : e.cmd? id = some c) (hopen : c.done = false) :
    (e.completeOne id status).works = (e.bookEnd id status c).works := by
  rw [e.completeOne_books status hc hopen, Eng.markStall_works]
  split
  · exact Eng.pushRecord_works _ _
  · exact Eng.serveSlots_works _ _

theorem Eng.completeOne_wlog (e : Eng) {id : Nat} {c : Cmd} (status : Nat) (hc : e.cmd? id = some c) (hopen : c.done = false) :
    (e.completeOne id status).wlog = (e.bookEnd id status c).wlog := by
  rw [e.completeOne_books status hc hopen, (Eng.markStall_keepsEnded _ _).wlog]
  split
  · exact (Eng.pushRecord_keepsEnded _ _).wlog
  · exact (Eng.serveSlots_keepsEnded _ _).wlog

theorem Eng.bookEnd_wlog (e : Eng) (id status : Nat) (c : Cmd) : e.wlog <:+ (e.bookEnd id status c).wlog := by
  have hclosed : ((e.setCmd id (Cmd.ended status e.now)).closeAccounts c).wlog = e.wlog := (Eng.closeAccounts_accounts _ c).wlog
  unfold Eng.bookEnd
  dsimp only
  split
  · exact hclosed ▸ (Eng.combineEnds_releases _ c).wlog
  · exact hclosed ▸ List.suffix_refl _

/-- The engine of a combine's end, its accounts closed. -/
theorem Eng.bookEnd_combine (e : Eng) (id status : Nat) {c : Cmd} (hop : c.d.opcode = opCombine) :
    e.bookEnd id status c = ((e.setCmd id (Cmd.ended status e.now)).closeAccounts c).combineEnds c := if_pos (.inl hop)

theorem Eng.bookEnd_works_of_other (e : Eng) (id status : Nat) {c : Cmd} (hop : c.d.opcode ∉ [opCombine, opCombineBwd]) :
    (e.bookEnd id status c).works = e.works := by
  have hbooks : e.bookEnd id status c = (e.setCmd id (Cmd.ended status e.now)).closeAccounts c := if_neg (by simpa using hop)
  rw [hbooks, (Eng.closeAccounts_accounts _ c).works]
  rfl

/-- FENCE commands that end change no work. -/
theorem Eng.settleFences_works (e : Eng) : e.settleFences.works = e.works := by
  refine Eng.foldl_works (fun e id => ?_) _ e
  split
  next c hc =>
    split
    next hmet =>
      simp only [Eng.fenceMet, Bool.and_eq_true, beq_iff_eq, Bool.not_eq_true'] at hmet
      obtain ⟨⟨⟨hop, -⟩, hopen⟩, -⟩ := hmet
      rw [e.completeOne_works stOk hc hopen, e.bookEnd_works_of_other id stOk (by rw [hop]; decide)]
    next => rfl
  next => rfl

theorem Eng.complete_works (e : Eng) {id : Nat} {c : Cmd} (status : Nat) (hc : e.cmd? id = some c) (hopen : c.done = false) :
    (e.complete id status).works = (e.bookEnd id status c).works :=
  (Eng.settleFences_works _).trans (e.completeOne_works status hc hopen)

/-- A COMBINE that completes gives its area back, and its step is done. -/
theorem Eng.complete_combine_workById (e : Eng) {cmd : Nat} {c : Cmd} {w : RouteWork} (status : Nat) (hc : e.cmd? c.id = some c)
    (hopen : c.done = false) (hop : c.d.opcode = opCombine) (herr : c.err = none) (hwork : e.workById cmd = some w)
    (hof : e.workOf c.polder c.d.slot c.d.step = some w) (hcmd : w.combineCmd = some c.id) :
    (e.complete c.id status).workById cmd = some { w.areaGone with done := true } := by
  have hclosed := (Eng.closeAccounts_accounts (e.setCmd c.id (Cmd.ended status e.now)) c).works
  rw [Eng.workById_congr (e.complete_works status hc hopen), e.bookEnd_combine c.id status hop]
  exact Eng.combineEnds_workById ((Eng.workById_congr hclosed cmd).trans hwork)
    ((Eng.workOf_congr hclosed c.polder c.d.slot c.d.step).trans hof) hop hcmd herr

theorem Eng.complete_wlog (e : Eng) {id : Nat} {c : Cmd} (status : Nat) (hc : e.cmd? id = some c) (hopen : c.done = false) :
    e.wlog <:+ (e.complete id status).wlog := by
  have hwlog : (e.complete id status).wlog = (e.bookEnd id status c).wlog :=
    ((Eng.settleFences_keepsEnded _).trans (Eng.markBlocked_keepsEnded _)).wlog.trans (e.completeOne_wlog status hc hopen)
  rw [hwlog]
  exact e.bookEnd_wlog id status c

/-! ### The rows of a combine (R211, R212) -/

/-- One token's row written, and the digest with it. -/
def sumRow (w : RouteWork) (c : Cmd) (cfg : SlotCfg) (acc : Eng × W64) (t : Nat) : Eng × W64 :=
  let row := packRow cfg.rowFmt (acc.1.tokenSum w false t)
  (acc.1.storeFor w.polder (c.d.a + t * cfg.rowBytes) row, acc.2 + digestRow t row)

/-- What writing rows keeps: the commands, the works and the slots' configuration, with every write so far. -/
structure Eng.Stores (e e' : Eng) : Prop where
  cmds : e'.cmds = e.cmds
  works : e'.works = e.works
  slotCfg : e'.slotCfg = e.slotCfg
  wlog : e.wlog <:+ e'.wlog

theorem Eng.Stores.refl (e : Eng) : e.Stores e := ⟨rfl, rfl, rfl, List.suffix_refl _⟩

theorem Eng.Stores.trans {e e' e'' : Eng} (h : e.Stores e') (h' : e'.Stores e'') : e.Stores e'' :=
  ⟨h'.cmds.trans h.cmds, h'.works.trans h.works, h'.slotCfg.trans h.slotCfg, h.wlog.trans h'.wlog⟩

theorem Eng.storeFor_stores (e : Eng) (polder a : Nat) (bs : List Byte) : e.Stores (e.storeFor polder a bs) := by
  have hacc := (e.store a bs).accHbm_accounts polder bs.length
  exact ⟨hacc.cmds, hacc.works, hacc.slotCfg, [(a, bs)], (e.storeFor_wlog polder a bs).symm⟩

/-- A token's sum comes from the step's work and the slot's configuration alone. -/
theorem Eng.tokenSum_congr {e e' : Eng} (h : e'.slotCfg = e.slotCfg) (w : RouteWork) (bwd : Bool) (t : Nat) :
    e'.tokenSum w bwd t = e.tokenSum w bwd t := by
  have hcfg : e'.cfgOf w.slot = e.cfgOf w.slot := by rw [Eng.cfgOf, h, Eng.cfgOf]
  have hexact : e'.exactOrder w bwd = e.exactOrder w bwd := by rw [Eng.exactOrder, hcfg, Eng.exactOrder]
  rw [Eng.tokenSum, hcfg, hexact, Eng.tokenSum]

/-- The rows of a list of tokens are written, each the sum as it stood before the first. -/
theorem Eng.foldl_sumRow (w : RouteWork) (c : Cmd) (cfg : SlotCfg) (l : List Nat) (acc : Eng × W64) :
    acc.1.Stores (l.foldl (sumRow w c cfg) acc).1 ∧ ∀ t ∈ l,
      (c.d.a + t * cfg.rowBytes, packRow cfg.rowFmt (acc.1.tokenSum w false t)) ∈ (l.foldl (sumRow w c cfg) acc).1.wlog := by
  induction l generalizing acc with
  | nil => exact ⟨.refl _, fun _ h => nomatch h⟩
  | cons t l ih =>
    have hfirst : acc.1.Stores (sumRow w c cfg acc t).1 := acc.1.storeFor_stores _ _ _
    have hwritten : (c.d.a + t * cfg.rowBytes, packRow cfg.rowFmt (acc.1.tokenSum w false t)) ∈ (sumRow w c cfg acc t).1.wlog := by
      rw [sumRow, Eng.storeFor_wlog]
      exact List.mem_cons_self
    obtain ⟨hrest, hrows⟩ := ih (sumRow w c cfg acc t)
    refine ⟨hfirst.trans hrest, fun t' ht' => ?_⟩
    rw [List.foldl_cons]
    obtain rfl | ht' := List.mem_cons.1 ht'
    · exact hrest.wlog.subset hwritten
    · rw [← Eng.tokenSum_congr hfirst.slotCfg]
      exact hrows t' ht'

/-! ### A COMBINE whose tokens are all ready (R212, R214) -/

/-- A COMBINE with the digest of its rows. -/
def Cmd.digested (dig : W64) (c : Cmd) : Cmd := { c with res := { c.res with digest := dig } }

/-- A COMBINE with the counts of its step. -/
def Cmd.summed (w : RouteWork) (d : Nat) (c : Cmd) : Cmd :=
  { c with res := { c.res with
    placed := w.tokens, dropped := w.droppedPairs false, flags := c.res.flags + 8, laneOps := w.laneOps d } }

/-- The engine just before such a COMBINE ends: its results noted, its step's tokens combined, its rows written. -/
structure Eng.Sums (e e' : Eng) (w : RouteWork) (c : Cmd) : Prop where
  cmd : ∃ dig, e'.cmd? c.id = some ((c.digested dig).summed w (e.cfgOf w.slot).d)
  works : e'.works = (e.setWork w.cmd (fun x => { x with combined := x.combined ++ List.range w.tokens })).works
  rows : ∀ t, t < w.tokens → (c.d.a + t * (e.cfgOf w.slot).rowBytes, packRow (e.cfgOf w.slot).rowFmt (e.tokenSum w false t)) ∈ e'.wlog

section
variable {e : Eng} {cmd : Nat} {w : RouteWork} {c : Cmd} (hwork : e.workById cmd = some w) (hcmd : w.combineCmd.bind e.cmd? = some c)
  (hopen : c.done = false) (hphase : c.phase = .running) (hnone : w.combined = []) (hready : ∀ t, t < w.tokens → w.tokenReady false t = true)

include hcmd in
/-- The command that combines a step, by its own identity. -/
theorem RouteWork.combineCmd_eq : w.combineCmd = some c.id ∧ e.cmd? c.id = some c := by
  obtain ⟨k, hk, hc⟩ := Option.bind_eq_some_iff.1 hcmd
  have hid : c.id = k := by simpa using List.find?_some hc
  exact hid ▸ ⟨hk, hc⟩

include hnone hready in
theorem RouteWork.readyTokens_all :
    (List.range w.tokens).filter (fun t => !w.combined.contains t && w.tokenReady false t) = List.range w.tokens :=
  List.filter_eq_self.2 (fun t ht => by simp [hnone, hready t (List.mem_range.1 ht)])

include hwork hcmd hopen hphase hnone hready in
theorem Eng.settleCombine_ready : ∃ e' status, e.Sums e' w c ∧ e.settleCombine cmd = e'.complete c.id status := by
  obtain ⟨-, hc⟩ := RouteWork.combineCmd_eq hcmd
  unfold Eng.settleCombine
  split
  next h => cases h.symm.trans hwork
  next w' hw' =>
  obtain rfl := Option.some.inj (hwork.symm.trans hw')
  split
  next h => cases h.symm.trans hcmd
  next c' hc' =>
  obtain rfl := Option.some.inj (hcmd.symm.trans hc')
  rw [if_neg (by simp [hopen, hphase])]
  extract_lets cfg ready dropped
  have hall : ready = List.range w.tokens := RouteWork.readyTokens_all hnone hready
  obtain ⟨hstores, hrows⟩ := Eng.foldl_sumRow w c cfg ready (e, c.res.digest)
  split
  next e1 dig hsum =>
  replace hsum : ready.foldl (sumRow w c cfg) (e, c.res.digest) = (e1, dig) := hsum
  rw [hsum] at hstores hrows
  extract_lets dug combined booked counted tailed
  have hbooked : combined.Accounts booked := by
    dsimp only [booked]
    split
    · exact .refl _
    · exact (combined.accTime_accounts _).trans (Eng.accHbm_accounts _ _ _)
  have htailed : counted.Accounts tailed := by
    dsimp only [tailed]
    split <;> exact ⟨rfl⟩
  rw [if_neg (by simp [hnone, hall])]
  have hnoted := htailed.trans ((⟨rfl⟩ : tailed.Accounts (tailed.setStep w.slot w.step (fun x => { x with digest := dig }))))
  refine ⟨_, _, ⟨⟨dig, ?_⟩, ?_, fun t ht => ?_⟩, rfl⟩
  · have hdug : dug.cmd? c.id = some (c.digested dig) :=
      Eng.setCmd_cmd?_same (f := Cmd.digested dig) e1 (fun _ => rfl) (by rw [Eng.cmd?, hstores.cmds]; exact hc)
    have hcombined : booked.cmd? c.id = some (c.digested dig) := by
      rw [Eng.cmd?, hbooked.cmds]
      exact hdug
    rw [Eng.cmd?, hnoted.cmds]
    exact Eng.setCmd_cmd?_same (f := Cmd.summed w cfg.d) booked (fun _ => rfl) hcombined
  · have hdug : dug.works = e.works := hstores.works
    rw [hnoted.works, Eng.workById_cmd hwork]
    refine hbooked.works.trans ?_
    dsimp only [combined, Eng.setWork]
    rw [hdug, hall]
  · have hlast : counted.wlog = e1.wlog := hbooked.wlog
    rw [hnoted.wlog, hlast]
    exact hrows t (hall ▸ List.mem_range.2 ht)

include hwork hcmd hopen hphase hnone hready in
/-- So it ends with every token's row written, its area given back and its step done. -/
theorem Eng.settleCombine_ends (hop : c.d.opcode = opCombine) (herr : c.err = none)
    (hof : e.workOf c.polder c.d.slot c.d.step = some w) :
    (∀ t, t < w.tokens → (c.d.a + t * (e.cfgOf w.slot).rowBytes, packRow (e.cfgOf w.slot).rowFmt (e.tokenSum w false t)) ∈
      (e.settleCombine cmd).wlog) ∧
    (∃ w', (e.settleCombine cmd).workById cmd = some w' ∧ w'.done = true ∧ w'.area.live = false) ∧
    ∃ x, (e.settleCombine cmd).cmd? c.id = some x ∧ x.done = true ∧ x.res.dropped = w.droppedPairs false ∧ x.res.placed = w.tokens := by
  obtain ⟨hown, -⟩ := RouteWork.combineCmd_eq hcmd
  obtain ⟨e', status, ⟨⟨dig, hsummed⟩, hworks, hrows⟩, heq⟩ := Eng.settleCombine_ready hwork hcmd hopen hphase hnone hready
  have hopen' : ((c.digested dig).summed w (e.cfgOf w.slot).d).done = false := hopen
  rw [heq]
  refine ⟨fun t ht => (e'.complete_wlog status hsummed hopen').subset (hrows t ht), ?_, ?_⟩
  · obtain rfl := Eng.workById_cmd hwork
    have hwork' := (Eng.workById_congr hworks w.cmd).trans (Eng.setWork_workById hwork rfl)
    have hof' := (Eng.workOf_congr hworks c.polder c.d.slot c.d.step).trans (Eng.setWork_workOf hwork hof ⟨rfl, rfl, rfl⟩)
    have hend := e'.complete_combine_workById (c := (c.digested dig).summed w (e.cfgOf w.slot).d) status hsummed hopen' hop herr
      hwork' hof' hown
    exact ⟨_, hend, rfl, rfl⟩
  · obtain ⟨held, recorded, hx⟩ := e'.complete_cmd?_of_open status hsummed hopen'
    exact ⟨_, hx, rfl, rfl, rfl⟩

end

end Sys2Proof.Machine

open Sys2Proof Sys2Proof.Machine

/-- Settles O35: each check of the start leads to its end; a combine whose tokens are ready writes them all before its command
ends, and that end gives the area back. -/
theorem combineWritesTokenSums : Obligations.CombineWritesTokenSums := by
  unfold Obligations.CombineWritesTokenSums
  refine ⟨fun s r idx c h => ⟨fun hw => h.exec_combine (Eng.combineNow_unrouted _ hw), fun w hw => ⟨fun hbad => ?_, fun hrecord hlive hended => ?_⟩⟩,
    fun s r idx c h => ⟨fun hw => h.exec_combineBwd (Eng.combineBwdNow_unrouted _ hw), fun w hw => ⟨fun hbad => ?_,
      fun hrecord hlive hcurrent hended => ?_⟩⟩,
    fun e cmd w c hwork hcmd hopen hphase hop herr hof hnone hready =>
      Eng.settleCombine_ends hwork hcmd hopen hphase hnone hready hop herr hof⟩
  · rw [← Eng.combining_iff, ← s.run_combining c] at hbad
    exact h.exec_combine (Eng.combineNow_refused _ hw hbad)
  · exact h.exec_combine (Eng.combineNow_taken _ hw hrecord hlive (s.run_notCombining c hended))
  · rw [← Eng.combining_iff, ← s.run_combining c] at hbad
    exact h.exec_combineBwd (Eng.combineBwdNow_refused _ hw hbad)
  · have hfree := s.run_notCombining c hended
    refine ⟨fun e he => h.exec_combineBwd (Eng.combineBwdNow_fault (s.run c) hw hrecord hlive hcurrent hfree he),
      fun e st he => h.exec_combineBwd (Eng.combineBwdNow_fail (s.run c) hw hrecord hlive hcurrent hfree he), fun e he => ?_⟩
    have hok := Eng.combineBwdNow_ok (s.run c) hw hrecord hlive hcurrent hfree he
    refine ⟨fun hgen => h.exec_combineBwd ?_, fun hgen => h.exec_combineBwd ?_⟩
    · rw [hok, if_pos hgen]
    · rw [hok, if_neg (not_not.2 hgen)]

end
